-- ==== Sys2Proof/Word.lean ====
section
/-! DEFINITION. The word types of the TX8 model and their plainest arithmetic (spec/00_scope.md R9: all multi-byte
values are little-endian, bit 0 is the least significant bit). -/

namespace Sys2Proof

/-- One byte of a buffer, a frame or a dictionary value. -/
abbrev Byte := BitVec 8
/-- A scalar register of a tile (R58). -/
abbrev W32 := BitVec 32
/-- An accumulation and output descriptor (R37), or any 64-bit counter read as bits. -/
abbrev W64 := BitVec 64
/-- A bundle (R72) and a lane mask (R58). -/
abbrev W128 := BitVec 128
/-- The data bits of an SRAM word, a flit payload, an address-generator descriptor (R33, R86, R104). -/
abbrev W256 := BitVec 256
/-- A vector register (R58). -/
abbrev V2048 := BitVec 2048

/-- Largest 64-bit value: the dictionary's "all ones" for a tick that has not happened. -/
def allOnes64 : Nat := 0xFFFFFFFFFFFFFFFF
/-- Largest 32-bit value. -/
def allOnes32 : Nat := 0xFFFFFFFF

end Sys2Proof
end

