-- ==== Sys2Proof/Machine/Bits.lean ====
section
/-! DEFINITION. Bit-field, sign-extension and byte-order helpers (R9): what every descriptor, frame and table of the
spec is read and written with. -/

namespace Sys2Proof.Machine

/-- Bits [hi:lo] of a number. -/
def fld (n hi lo : Nat) : Nat := (n >>> lo) % 2 ^ (hi + 1 - lo)

/-- Bit i of a number. -/
def bitOf (n i : Nat) : Bool := n.testBit i

/-- A w-bit field read as two's complement. -/
def sx (w n : Nat) : Int :=
  if n % 2 ^ w < 2 ^ (w - 1) then (n % 2 ^ w : Nat) else (n % 2 ^ w : Nat) - (2 ^ w : Nat)

/-- An integer as a w-bit two's-complement code. -/
def toTwos (w : Nat) (i : Int) : Nat := (i % (2 ^ w : Nat)).toNat

/-- The n bytes of v, least significant first (R9). -/
def bytesLE : Nat → Nat → List Byte
  | 0, _ => []
  | n + 1, v => BitVec.ofNat 8 v :: bytesLE n (v / 256)

/-- A little-endian byte string as a number. -/
def natLE : List Byte → Nat
  | [] => 0
  | b :: t => b.toNat + 256 * natLE t

/-- Bytes [off, off + n) of a byte string; bytes past its end read as zero. -/
def bytesAt (l : List Byte) (off n : Nat) : List Byte :=
  let t := (l.drop off).take n
  t ++ List.replicate (n - t.length) 0

/-- The little-endian number in bytes [off, off + n). -/
def numAt (l : List Byte) (off n : Nat) : Nat := natLE ((l.drop off).take n)

/-- The big-endian number in bytes [off, off + n): the network order of Ethernet, IP, UDP and RTP headers. -/
def numAtBE (l : List Byte) (off n : Nat) : Nat := natLE (((l.drop off).take n).reverse)

/-- Elements of w bits packed from bit 0 up (R33). -/
def packLE (w : Nat) : List Nat → Nat
  | [] => 0
  | x :: t => x % 2 ^ w + 2 ^ w * packLE w t

/-- The first n elements of w bits, from bit 0 up (R33). -/
def unpackLE (w : Nat) : Nat → Nat → List Nat
  | 0, _ => []
  | n + 1, v => v % 2 ^ w :: unpackLE w n (v / 2 ^ w)

/-- The n 256-bit words of a number, word 0 first. -/
def wordsOf (n v : Nat) : List W256 := (unpackLE 256 n v).map (BitVec.ofNat 256)

/-- Ceiling division. -/
def cdiv (a b : Nat) : Nat := (a + b - 1) / b

/-- Replace the w-bit element i of a packed number. -/
def putElem (w i v packed : Nat) : Nat :=
  let lo := packed % 2 ^ (w * i)
  let hi := packed / 2 ^ (w * (i + 1))
  lo + 2 ^ (w * i) * (v % 2 ^ w) + 2 ^ (w * (i + 1)) * hi

/-- Saturating increment of a counter of the given largest value. -/
def satAdd (max a b : Nat) : Nat := min max (a + b)

end Sys2Proof.Machine
end

