-- ==== Sys2Proof/Machine/Cells.lean ====
section
/-! DEFINITION. Sparse storage in one canonical form: (key, value) pairs with strictly rising keys and no entry equal
to what an unlisted key reads as. Every RAM of the block, its dictionary store and its per-entity tables use it. -/

namespace Sys2Proof.Machine

/-- A sparse table: strictly rising keys, no default entries. -/
abbrev Cells (α : Type) := List (Nat × α)

/-- The value at a key; an unlisted key reads as d. -/
def cellsGet {α : Type} (d : α) : Cells α → Nat → α
  | [], _ => d
  | (j, w) :: t, k => if j = k then w else cellsGet d t k

/-- Remove an entry. -/
def cellsDrop {α : Type} (m : Cells α) (k : Nat) : Cells α := m.filter (fun e => e.1 != k)

/-- Write a key, keeping the canonical form: writing the default removes the entry. -/
def cellsSet {α : Type} [DecidableEq α] (d : α) : Cells α → Nat → α → Cells α
  | [], k, v => if v = d then [] else [(k, v)]
  | (j, w) :: t, k, v =>
    if k < j then (if v = d then (j, w) :: cellsDrop t k else (k, v) :: (j, w) :: t)
    else if k = j then (if v = d then cellsDrop t k else (k, v) :: t)
    else (j, w) :: cellsSet d t k v

/-- Change the value at a key. -/
def cellsMod {α : Type} [DecidableEq α] (d : α) (m : Cells α) (k : Nat) (f : α → α) : Cells α :=
  cellsSet d m k (f (cellsGet d m k))

/-- Write consecutive keys from k on. -/
def cellsSetRun {α : Type} [DecidableEq α] (d : α) : Cells α → Nat → List α → Cells α
  | m, _, [] => m
  | m, k, v :: t => cellsSetRun d (cellsSet d m k v) (k + 1) t

/-- Consecutive values from key k on. -/
def cellsGetRun {α : Type} (d : α) (m : Cells α) : Nat → Nat → List α
  | 0, _ => []
  | n + 1, k => cellsGet d m k :: cellsGetRun d m n (k + 1)

/-- Remove every entry whose key satisfies p: those keys read as the default again. -/
def cellsClear {α : Type} (p : Nat → Bool) (m : Cells α) : Cells α := m.filter (fun e => !p e.1)

/-- The keys in strictly rising order from a lower bound on, none holding its default. -/
def cellsWfFrom {α : Type} [DecidableEq α] (d : Nat → α) : Nat → Cells α → Bool
  | _, [] => true
  | lo, (j, w) :: t => decide (lo ≤ j) && decide (w ≠ d j) && cellsWfFrom d (j + 1) t

/-- The canonical form, for a default that may depend on the key. -/
def cellsWf {α : Type} [DecidableEq α] (d : Nat → α) (m : Cells α) : Bool := cellsWfFrom d 0 m

/-- Presence of a key. -/
def cellsHas {α : Type} (m : Cells α) (k : Nat) : Bool := m.any (fun e => e.1 == k)

/-- An optional entry. -/
def cellsFind {α : Type} : Cells α → Nat → Option α
  | [], _ => none
  | (j, w) :: t, k => if j = k then some w else cellsFind t k

/-- Insert or replace an entry of a table whose unlisted keys read as absent. -/
def cellsPut {α : Type} : Cells α → Nat → α → Cells α
  | [], k, v => [(k, v)]
  | (j, w) :: t, k, v =>
    if k < j then (k, v) :: (j, w) :: t else if k = j then (k, v) :: t else (j, w) :: cellsPut t k v

/-- Change every entry of a table; entries that become the default are dropped. -/
def cellsMap {α : Type} [DecidableEq α] (d : α) (f : α → α) (m : Cells α) : Cells α :=
  (m.map (fun e => (e.1, f e.2))).filter (fun e => decide (e.2 ≠ d))

end Sys2Proof.Machine
end

