-- ==== Sys2Proof/Config.lean ====
section
/-! DEFINITION. What the spec leaves to the implementation or does not state: opaque constants without a body, so that
nothing can be proved of their values (each is named in an assumption-log row). -/

namespace Sys2Proof

/-- The table functions of the special-function unit (R53, Table 2-11). -/
inductive SpecFn where
  | rsqrt | exp2 | exp | log2 | log | sin | cos | tanh | sigmoid | erf | gelu | silu
  deriving DecidableEq, Repr

namespace Config

/-- R53, R54: which of the FP32 values within the error of Table 2-11 a ROM-table function returns: the ROM contents are not
in the spec. Log entry 1. -/
opaque special : SpecFn → BitVec 32 → Nat

/-- R175: fields of a sent packet the spec does not state: IPv4 identification, TTL or hop limit, the UTC offset announced, the
destination of an echo reply whose next hop is not known, and the logarithms of the PTP intervals (R179). Log entry 106. -/
opaque ipIdent : Nat → BitVec 16
opaque ipHops : BitVec 8
opaque utcOffset : BitVec 16
opaque replyMac : BitVec 48
opaque ptpLog : Nat → Nat

/-- R183: the byte of its frame at which a sample of a picture stands in the frame buffer, from size, plane, row and column: the spec gives no
layout. Log entry 113. -/
opaque framePlace : Nat → Nat → Nat → Nat → Nat

/-- R155: ticks of the check run that are done between two boundaries, the stages before it included. Log entry 104. -/
opaque checkPace : Nat → Nat

/-- R86: the address of a take through an AGD whose MODE is not LINEAR or PAGED. Log entry 2. -/
opaque looseTake : BitVec 256 → Nat → Nat
/-- R37: the sum an MRUN adds under an AOD with a reserved format code or an operand pair of R36. Log entry 2. -/
opaque looseSum : BitVec 64 → Nat → Int
/-- R37: the element bits an MOUT produces under a reserved or unavailable output format. Log entry 2. -/
opaque looseOut : BitVec 64 → Nat → Nat
/-- R96: the lanes of a convert, VLDC or VPOOL that names a format Table 2-1 does not give the vector unit. Log entry 2. -/
opaque looseLane : Nat → Nat → Nat

/-- R246: the 96-byte tree block read from a word that arrived invalid or poisoned. Log entry 2. -/
opaque looseTree : Nat → Nat

/-- R63: the check bits of the burst code over 256 data bits, and the check pattern that reads back as poison (R107): the spec
gives the code's bounds and not the code. Log entry 21. -/
opaque burstCheck : BitVec 256 → BitVec 32
opaque poisonCheck : BitVec 256 → BitVec 32
/-- R63: what an error outside both bounds of the burst code does, and the change a wrong correction makes. Log entry 21. -/
opaque burstOpen : BitVec 288 → Nat
opaque burstMiss : BitVec 288 → BitVec 256
/-- R104: the sideband check over the 16 sideband bits, and what it makes of three or more wrong bits. Log entry 21. -/
opaque sideCheck : BitVec 16 → BitVec 8
opaque sideOpen : BitVec 24 → Nat

/-- R119: the word of a counter response: the spec names the counters and gives no layout. Log entry 2. -/
opaque counterWord : Nat → Nat → Nat → BitVec 256

/-! Cryptographic functions, by the name of their standard. The spec names the standards and does not restate them; what
they compute is free here. Log entry 30. -/

/-- SHA3-256. -/
opaque sha3 : List (BitVec 8) → BitVec 256
/-- AES-256-GCM encryption: byte i of the ciphertext, from key, nonce, additional data and plaintext. -/
opaque gcmByte : BitVec 256 → List (BitVec 8) → List (BitVec 8) → List (BitVec 8) → Nat → BitVec 8
/-- AES-256-GCM tag. -/
opaque gcmTag : BitVec 256 → List (BitVec 8) → List (BitVec 8) → List (BitVec 8) → BitVec 128
/-- Whether a ciphertext opens under its tag, and byte i of the plaintext. -/
opaque gcmOk : BitVec 256 → List (BitVec 8) → List (BitVec 8) → List (BitVec 8) → List (BitVec 8) → Bool
opaque gcmPlain : BitVec 256 → List (BitVec 8) → List (BitVec 8) → List (BitVec 8) → Nat → BitVec 8
/-- ML-DSA-44 verification: public key, message, signature. -/
opaque dsaOk : List (BitVec 8) → List (BitVec 8) → List (BitVec 8) → Bool
/-- The 256-bit seed that the module's PUF array and helper data give (R314). -/
opaque pufSeed : BitVec 256
/-- ML-DSA-44 signature byte i of a message under the key pair that key generation makes of xi. -/
opaque dsaByte : BitVec 256 → List (BitVec 8) → Nat → BitVec 8
/-- ML-DSA-44 public key of xi, and ML-KEM-768 encapsulation key of d and z: byte i. -/
opaque dsaPublic : BitVec 256 → Nat → BitVec 8
opaque kemPublic : BitVec 256 → BitVec 256 → Nat → BitVec 8
/-- ML-KEM-768 decapsulation of a ciphertext under the key of d and z. -/
opaque kemDecaps : BitVec 256 → BitVec 256 → List (BitVec 8) → BitVec 256
/-- A fresh ML-KEM-768 encapsulation to a public key, the n-th the module makes: ciphertext byte i and shared secret. -/
opaque kemCipher : List (BitVec 8) → Nat → Nat → BitVec 8
opaque kemSecret : List (BitVec 8) → Nat → BitVec 256
/-- RFC 3711 key derivation with derivation rate 0: session key and session salt of a master key and salt. -/
opaque srtpKey : BitVec 256 → List (BitVec 8) → BitVec 256
opaque srtpSalt : BitVec 256 → List (BitVec 8) → BitVec 96
/-- Position, in elements from WOFF, of the weight of an output, tap row, tap column and input channel, and bit position
of an output's bias after the weights: the spec gives no order for the parameter store. Log entry 31. -/
opaque weightPos : Nat → Nat → Nat → Nat → Nat → Nat
opaque biasPos : Nat → Nat → Nat → Nat
/-- Where the E8M0 code of a block of an MX operand of Campion stands (kind 0 weights from WOFF, kind 1 a feature map
from IN_BASE): byte position, from kind, base and block. Log entry 31. -/
opaque campionScale : Nat → Nat → Nat → Nat
/-- The vendor root public key in the boot ROM, and the boot ROM's digest. -/
opaque vendorKey : List (BitVec 8)
opaque romDigest : BitVec 256
/-- A number the module draws at random: handles (R275), RTP sequence starts (R218). -/
opaque randomDraw : Nat → Nat

/-- Body of a control message whose layout the spec does not give, from its kind and the values it carries. Log entry 32. -/
opaque msgBody : Nat → List Nat → List (BitVec 8)
/-- How many frames ahead a rekey and a lane switch are named (R287, R288). Log entry 32. -/
opaque rekeyLead : Nat
opaque laneLead : Nat

/-! What dictionary values show that the spec does not lay out. Log entry 34. -/

/-- The 32-bit value of a trace point (R414) and the event byte and DATA field of a log record (Table 13-3), from what the
event concerns. -/
opaque traceValue : Nat → Nat → Nat
opaque logCode : Nat → Nat
opaque logData : Nat → List Nat → List (BitVec 8)
/-- The address a card publishes (CMD3), the tuning block of the SD Physical Layer (R380), and the bytes of the function
CISTPL_FUNCE tuples that Table 12-3 does not give. Log entry 35. -/
opaque cardAddress : Nat → Nat
opaque tuningByte : Nat → BitVec 8
opaque cisByte : Nat → BitVec 8
/-- Which of the two variants the module is (R3). Log entry 36. -/
opaque variantM : Bool
/-- What flash holds in a module as shipped (R6, R316, R416): the birth record from offset 0x10 on, the helper data, and version and digest of each
component's image. Log entry 36. -/
opaque birthRest : List (BitVec 8)
opaque helperData : List (BitVec 8)
opaque shippedVersion : Nat → Nat
opaque shippedDigest : Nat → BitVec 256
/-- The text of a hardware revision and of a firmware version (1009.00, 100A.00). -/
opaque hardwareText : Nat → List (BitVec 8)
opaque versionText : Nat → List (BitVec 8)
/-- Byte i of an identity key object while no seed has been derived (2700.04, 2700.05), and of 2700.03 in the same case. -/
opaque blankByte : Nat → BitVec 8

/-! Factory tables of the power controller (R349, R359, R362): the spec names them and gives no figures. Log entry 33. -/

/-- Energy weight in J per event at 1 V of an activity counter, its group (0 compute, 1 memory, 2 links, 3 uncore) and its
rail's supply voltage in V at a step. -/
opaque counterWeight : Nat → Rat
opaque counterGroup : Nat → Nat
opaque counterVolt : Nat → Nat → Rat
/-- What the line code delivers of a staged line beyond correction, from the line's number and its stored bits (log entry 109). -/
opaque stagedLine : Nat → Nat → BitVec 512
/-- Input-to-rail efficiency at a rail power in W and an input voltage in mV. -/
opaque eta : Rat → Nat → Rat
/-- Grid leakage in W at a step and a mean die temperature in 0.01 °C. -/
opaque leak : Nat → Int → Rat
/-- Hot-spot offset in K, and the thermal resistance of the HBM stack in K/W at a flow in L/min. -/
opaque hotSpot : Rat
opaque hbmResistance : Rat → Rat
/-- Uncore power in W and die temperature that the nominal coefficients assume. -/
opaque nominalUncore : Rat
opaque nominalDie : Int

end Config
end Sys2Proof
end

