-- ==== Sys2Proof/Machine/Formats.lean ====
section
/-! DEFINITION. Number formats, their exact values, the single rounding and the IEEE operations of
spec/02_arithmetic.md (R28-R34, R48-R54). Values are exact: a sign, a magnitude and a power of two. -/

namespace Sys2Proof.Machine

/-- The format codes of Table 2-1 (R28); code 0xF is reserved. -/
inductive Fmt where
  | int4 | int8 | e4m3 | e5m2 | mxE4m3 | mxE5m2 | mxE3m2 | mxE2m3 | mxE2m1 | mxInt8
  | bf16 | fp16 | fp32 | int32 | acc128
  deriving DecidableEq, Repr

/-- R28: the format a 4-bit code names. -/
def fmtOf : Nat → Option Fmt
  | 0 => some .int4 | 1 => some .int8 | 2 => some .e4m3 | 3 => some .e5m2 | 4 => some .mxE4m3
  | 5 => some .mxE5m2 | 6 => some .mxE3m2 | 7 => some .mxE2m3 | 8 => some .mxE2m1 | 9 => some .mxInt8
  | 10 => some .bf16 | 11 => some .fp16 | 12 => some .fp32 | 13 => some .int32 | 14 => some .acc128
  | _ => none

/-- Element width in bits (Table 2-1). -/
def fmtBits : Fmt → Nat
  | .int4 | .mxE2m1 => 4
  | .mxE3m2 | .mxE2m3 => 6
  | .int8 | .e4m3 | .e5m2 | .mxE4m3 | .mxE5m2 | .mxInt8 => 8
  | .bf16 | .fp16 => 16
  | .fp32 | .int32 => 32
  | .acc128 => 128

/-- Formats that carry an E8M0 scale per 32 elements (Table 2-1). -/
def fmtIsMx : Fmt → Bool
  | .mxE4m3 | .mxE5m2 | .mxE3m2 | .mxE2m3 | .mxE2m1 | .mxInt8 => true
  | _ => false

/-- An exact value: NaN, an infinity, or (-1)^neg * m * 2^e (signed zeros kept). -/
inductive Num where
  | nan
  | inf (neg : Bool)
  | fin (neg : Bool) (m : Nat) (e : Int)
  deriving DecidableEq, Repr

/-- The special encodings of a floating-point format (Table 2-2). -/
inductive FpSpecial where
  | none | e4m3 | ieee
  deriving DecidableEq, Repr

/-- The parameters of a floating-point format (R29, Table 2-2); maxCode is the magnitude code of the largest finite value. -/
structure FpFmt where
  ew : Nat
  w : Nat
  bias : Nat
  maxCode : Nat
  canonNan : Nat
  special : FpSpecial
  deriving DecidableEq, Repr

def fpE4m3 : FpFmt := ⟨4, 3, 7, 0x7E, 0x7F, .e4m3⟩
def fpE5m2 : FpFmt := ⟨5, 2, 15, 0x7B, 0x7E, .ieee⟩
def fpE3m2 : FpFmt := ⟨3, 2, 3, 0x1F, 0, .none⟩
def fpE2m3 : FpFmt := ⟨2, 3, 1, 0x1F, 0, .none⟩
def fpE2m1 : FpFmt := ⟨2, 1, 1, 0x7, 0, .none⟩
def fpBf16 : FpFmt := ⟨8, 7, 127, 0x7F7F, 0x7FC0, .ieee⟩
def fpFp16 : FpFmt := ⟨5, 10, 15, 0x7BFF, 0x7E00, .ieee⟩
def fpFp32 : FpFmt := ⟨8, 23, 127, 0x7F7FFFFF, 0x7FC00000, .ieee⟩

/-- The floating-point parameters of a format's elements, none for the integer formats. -/
def fmtFp : Fmt → Option FpFmt
  | .e4m3 | .mxE4m3 => some fpE4m3
  | .e5m2 | .mxE5m2 => some fpE5m2
  | .mxE3m2 => some fpE3m2
  | .mxE2m3 => some fpE2m3
  | .mxE2m1 => some fpE2m1
  | .bf16 => some fpBf16
  | .fp16 => some fpFp16
  | .fp32 => some fpFp32
  | .int4 | .int8 | .mxInt8 | .int32 | .acc128 => none

/-- R29: the value a floating-point code stands for. -/
def fpDecode (f : FpFmt) (code : Nat) : Num :=
  let neg := bitOf code (f.ew + f.w)
  let mag := code % 2 ^ (f.ew + f.w)
  let ef := mag / 2 ^ f.w
  let m := mag % 2 ^ f.w
  let plain := if ef = 0 then Num.fin neg m (1 - f.bias - f.w) else Num.fin neg (2 ^ f.w + m) (ef - f.bias - f.w)
  match f.special with
  | .none => plain
  | .e4m3 => if mag = 0x7F then .nan else plain
  | .ieee => if ef = 2 ^ f.ew - 1 then (if m = 0 then .inf neg else .nan) else plain

/-- Shift right by s bits, rounding to nearest, ties to even. -/
def rneShift (m s : Nat) : Nat :=
  if s = 0 then m else
    let q := m >>> s
    let r := m % 2 ^ s
    let half := 2 ^ (s - 1)
    if half < r || (r = half && q % 2 = 1) then q + 1 else q

/-- R48 rule 2: the magnitude code of m * 2^e rounded to nearest even with unbounded exponent range. -/
def fpRoundMag (f : FpFmt) (m : Nat) (e : Int) : Nat :=
  if m = 0 then 0 else
    let q := max (e + Nat.log2 m - f.w) (1 - f.bias - f.w)
    let mant := if q ≤ e then m <<< (e - q).toNat else rneShift m (q - e).toNat
    if mant < 2 ^ f.w then mant else (q + f.w + f.bias).toNat * 2 ^ f.w + (mant - 2 ^ f.w)

/-- The magnitude code that an overflow or an infinite source gives (R49, R50, Table 2-10); none is the canonical NaN. -/
def fpOverflow (f : FpFmt) (ovf : Bool) : Option Nat :=
  match f.special, ovf with
  | .ieee, true => some (f.maxCode + 1)
  | .e4m3, true => none
  | _, _ => some f.maxCode

/-- R48, R50: conversion of an exact value to a floating-point code under OVF. An infinite value with OVF = 0 becomes the largest
finite one in a widening conversion too, where R48 would keep it (log entry 102). -/
def fpEncode (f : FpFmt) (ovf : Bool) : Num → Nat
  | .nan => f.canonNan
  | .inf neg =>
    match fpOverflow f ovf with
    | none => f.canonNan
    | some c => c + if neg then 2 ^ (f.ew + f.w) else 0
  | .fin neg m e =>
    let c := fpRoundMag f m e
    let r := if c ≤ f.maxCode then some c else fpOverflow f ovf
    match r with
    | none => f.canonNan
    | some c => c + if neg then 2 ^ (f.ew + f.w) else 0

/-- m * 2^e rounded to the nearest integer, ties to even, with its sign. -/
def numRoundInt (neg : Bool) (m : Nat) (e : Int) : Int :=
  let a : Nat := if 0 ≤ e then m <<< e.toNat else rneShift m (-e).toNat
  if neg then -(a : Int) else a

/-- Clamp into [lo, hi]. -/
def clampI (lo hi x : Int) : Int := max lo (min hi x)

/-- R48 rule 3: conversion to a w-bit two's-complement integer code. -/
def intEncode (w : Nat) : Num → Nat
  | .nan => 0
  | .inf neg => toTwos w (if neg then -(2 ^ (w - 1) : Nat) else (2 ^ (w - 1) : Nat) - 1)
  | .fin neg m e => toTwos w (clampI (-(2 ^ (w - 1) : Nat)) ((2 ^ (w - 1) : Nat) - 1) (numRoundInt neg m e))

/-- An integer as an exact value. -/
def numOfInt (i : Int) (e : Int) : Num := .fin (decide (i < 0)) i.natAbs e

/-- R30, R29: the value of an element code, before any block scale. -/
def elemValue (f : Fmt) (code : Nat) : Num :=
  match fmtFp f with
  | some p => fpDecode p code
  | none =>
    match f with
    | .int4 => numOfInt (sx 4 code) 0
    | .int8 => numOfInt (sx 8 code) 0
    | .mxInt8 => numOfInt (sx 8 code) (-6)
    | .int32 => numOfInt (sx 32 code) 0
    | _ => numOfInt (sx 128 code) 0

/-- R31: a value times an E8M0 block scale; scale 0xFF makes every element NaN. -/
def numScale (c : Nat) : Num → Num
  | .nan => .nan
  | .inf neg => if c = 0xFF then .nan else .inf neg
  | .fin neg m e => if c = 0xFF then .nan else .fin neg m (e + c - 127)

/-- Whether a value is NaN or an infinity. -/
def numNonFinite : Num → Bool
  | .fin _ _ _ => false
  | _ => true

/-- A finite value as an integer on the grid of 2^g, where g is at most its exponent. -/
def numOnGrid (g : Int) (neg : Bool) (m : Nat) (e : Int) : Int :=
  let a : Nat := m <<< (e - g).toNat
  if neg then -(a : Int) else a

/-- IEEE addition of exact values, before rounding (signs of zero by round to nearest). -/
def numAdd : Num → Num → Num
  | .nan, _ => .nan
  | _, .nan => .nan
  | .inf a, .inf b => if a = b then .inf a else .nan
  | .inf a, _ => .inf a
  | _, .inf b => .inf b
  | .fin a m e, .fin b n f =>
    let g := min e f
    let s := numOnGrid g a m e + numOnGrid g b n f
    if s = 0 then .fin (a && b) 0 g else numOfInt s g

/-- Negation of a value. -/
def numNeg : Num → Num
  | .nan => .nan
  | .inf a => .inf (!a)
  | .fin a m e => .fin (!a) m e

/-- Exact product. -/
def numMul : Num → Num → Num
  | .nan, _ => .nan
  | _, .nan => .nan
  | .inf a, .inf b => .inf (a != b)
  | .inf a, .fin b m _ => if m = 0 then .nan else .inf (a != b)
  | .fin a m _, .inf b => if m = 0 then .nan else .inf (a != b)
  | .fin a m e, .fin b n f => .fin (a != b) (m * n) (e + f)

/-- IEEE quotient: 64 or more quotient bits with a sticky bit, which rounds as the exact quotient does. -/
def numDiv : Num → Num → Num
  | .nan, _ => .nan
  | _, .nan => .nan
  | .inf _, .inf _ => .nan
  | .inf a, .fin b _ _ => .inf (a != b)
  | .fin a _ _, .inf b => .fin (a != b) 0 0
  | .fin a m e, .fin b n f =>
    if n = 0 then (if m = 0 then .nan else .inf (a != b))
    else
      let k := 64 + Nat.log2 n
      let x := m <<< k
      let q := 2 * (x / n) + (if x % n = 0 then 0 else 1)
      .fin (a != b) q (e - f - k - 1)

/-- Integer square root by bits. -/
def isqrtGo (n : Nat) : Nat → Nat → Nat
  | 0, r => r
  | i + 1, r => isqrtGo n i (if (r + 2 ^ i) * (r + 2 ^ i) ≤ n then r + 2 ^ i else r)

def isqrt (n : Nat) : Nat := isqrtGo n (Nat.log2 n / 2 + 1) 0

/-- IEEE square root, with a sticky bit below 64 extra result bits. -/
def numSqrt : Num → Num
  | .nan => .nan
  | .inf neg => if neg then .nan else .inf false
  | .fin neg m e =>
    if m = 0 then .fin neg 0 0
    else if neg then .nan
    else
      let m2 := if e % 2 = 0 then m else 2 * m
      let e2 := if e % 2 = 0 then e else e - 1
      let x := m2 <<< 128
      let r := isqrt x
      .fin false (2 * r + (if r * r = x then 0 else 1)) (e2 / 2 - 65)

/-- Order of two values: none when either is NaN (unordered); zeros compare equal. -/
def numCmp : Num → Num → Option Ordering
  | .nan, _ => none
  | _, .nan => none
  | .inf a, .inf b => some (if a = b then .eq else if a then .lt else .gt)
  | .inf a, .fin _ _ _ => some (if a then .lt else .gt)
  | .fin _ _ _, .inf b => some (if b then .gt else .lt)
  | .fin a m e, .fin b n f =>
    let g := min e f
    some (compare (numOnGrid g a m e) (numOnGrid g b n f))

/-- The sign of a value that is not NaN. -/
def numIsNeg : Num → Bool
  | .nan => false
  | .inf a => a
  | .fin a _ _ => a

/-- Table 2-11 min: NaN if either operand is NaN, and -0 < +0. -/
def numMin (x y : Num) : Num :=
  match numCmp x y with
  | none => .nan
  | some .lt => x
  | some .gt => y
  | some .eq => if numIsNeg x then x else y

/-- Table 2-11 max. -/
def numMax (x y : Num) : Num :=
  match numCmp x y with
  | none => .nan
  | some .lt => y
  | some .gt => x
  | some .eq => if numIsNeg x then y else x

/-- FP32 code of a value under OVF = 1 (R51). -/
def toFp32 (x : Num) : Nat := fpEncode fpFp32 true x
/-- Value of an FP32 code. -/
def ofFp32 (c : Nat) : Num := fpDecode fpFp32 c

/-- R46 rne32: the FP32 value nearest to an exact value. -/
def rne32 (x : Num) : Num := ofFp32 (toFp32 x)

/-- A lane of the vector unit: FP32, or BF16 (W = 1). -/
def laneBits (w : Bool) : Nat := if w then 16 else 32
/-- Lanes of a vector register (R58). -/
def laneCount (w : Bool) : Nat := if w then 128 else 64
/-- Value of a lane code. -/
def laneValue (w : Bool) (c : Nat) : Num := if w then fpDecode fpBf16 c else ofFp32 c
/-- R53: a lane result: the FP32 result, rounded once more to BF16 on a BF16 lane. -/
def laneOfFp32 (w : Bool) (c : Nat) : Nat := if w then fpEncode fpBf16 true (ofFp32 c) else c
/-- R53: a lane operation whose exact result is given. -/
def laneRound (w : Bool) (x : Num) : Nat := laneOfFp32 w (toFp32 x)
/-- Canonical NaN of a lane (Table 2-2). -/
def laneNan (w : Bool) : Nat := if w then 0x7FC0 else 0x7FC00000

/-- Largest X that R52 step 2 subtracts for a format. -/
def mxEmax : Fmt → Int
  | .mxE4m3 => 8
  | .mxE5m2 => 15
  | .mxE3m2 => 4
  | .mxE2m3 | .mxE2m1 => 2
  | _ => 0

/-- Floor of the base-2 logarithm of a non-zero magnitude. -/
def numLog2 (m : Nat) (e : Int) : Int := e + Nat.log2 m

/-- R52: 32 values as an MX block: the scale code and the 32 element codes. -/
def mxBlock (f : Fmt) (ovf : Bool) (ws : List Num) : Nat × List Nat :=
  if ws.any (· == .nan) then (0xFF, ws.map (fun _ => 0))
  else
    let logs : List Int := ws.filterMap fun
      | .fin _ m e => if m = 0 then none else some (numLog2 m e)
      | _ => none
    let x : Int := match logs with
      | [] => 0
      | l :: t => clampI (-127) 127 (t.foldl max l - mxEmax f)
    let elem (v : Num) : Nat := match fmtFp f, v with
      | some p, .inf neg =>
        fpEncode p (decide (f = .mxE5m2) && ovf) (.inf neg)
      | some p, .fin neg m e => fpEncode p false (.fin neg m (e - x))
      | none, .fin neg m e => toTwos 8 (clampI (-127) 127 (numRoundInt neg m (e + 6 - x)))
      | none, .inf neg => toTwos 8 (if neg then -127 else 127)
      | _, .nan => 0
    ((x + 127).toNat, ws.map elem)

/-- R48: conversion of one value to a non-MX format code under OVF. -/
def convElem (f : Fmt) (ovf : Bool) (x : Num) : Nat :=
  match fmtFp f with
  | some p => fpEncode p ovf x
  | none => intEncode (fmtBits f) x

/-- Whether a format is an integer destination of R48 rule 3, whose non-finite sources 2A20.03 counts. -/
def fmtIsInt : Fmt → Bool
  | .int4 | .int8 | .int32 => true
  | _ => false

end Sys2Proof.Machine
end

