-- ==== Sys2Proof/Machine/Flags.lean ====
section
/-! DEFINITION. The accumulation and output descriptor, the exact accumulator, its escape tests and its flags
(spec/02_arithmetic.md R37-R46, Tables 2-7 to 2-9). -/

namespace Sys2Proof.Machine

/-- PRE of Table 2-7. -/
inductive Preload where
  | zero | int32 | fp32 | acc128
  deriving DecidableEq, Repr

/-- An AOD with its fields named (Table 2-7). A reserved format code reads as none. -/
structure Aod where
  fa : Option Fmt
  fb : Option Fmt
  fo : Option Fmt
  ovf : Bool
  lowf : Bool
  pre : Preload
  l : Int
  e : Int
  m : Nat
  deriving DecidableEq, Repr

/-- Table 2-7: the fields of a 64-bit AOD; M = 0 stands for 65,536. -/
def aodOf (w : W64) : Aod :=
  let n := w.toNat
  { fa := fmtOf (fld n 63 60), fb := fmtOf (fld n 59 56), fo := fmtOf (fld n 55 52)
    ovf := bitOf n 51, lowf := bitOf n 50
    pre := match fld n 49 48 with | 0 => .zero | 1 => .int32 | 2 => .fp32 | _ => .acc128
    l := sx 10 (fld n 47 38), e := sx 8 (fld n 37 30)
    m := if fld n 29 14 = 0 then 65536 else fld n 29 14 }

/-- One accumulator entry of one column (R38, R46): the exact sum A, the flags of Table 2-9, the run's own escape
tests, the flags an ACC128 preload imported, and the FP32 accumulator of a 16-bit run. -/
structure Acc where
  a : Int := 0
  nan : Bool := false
  pinf : Bool := false
  ninf : Bool := false
  hi : Bool := false
  lo : Bool := false
  impHe : Bool := false
  impLe : Bool := false
  s : Nat := 0
  deriving DecidableEq, Repr

/-- R41: an accumulator with no products and no flags. -/
def accZero : Acc := {}

/-- R38, R39: one product or preload value entering the grid of 2^L. -/
def accTerm (l : Int) : Num → Acc
  | .nan => { accZero with nan := true }
  | .inf neg => { accZero with pinf := !neg, ninf := neg }
  | .fin neg m e =>
    let t : Nat := if l ≤ e then m <<< (e - l).toNat else m >>> (l - e).toNat
    let low := decide (e < l) && decide (m % 2 ^ (l - e).toNat ≠ 0)
    { accZero with a := if neg then -(t : Int) else t, hi := decide (2 ^ 127 ≤ t), lo := low }

/-- R41: the sum and the flags are evaluated separately, so merging is order independent. -/
def accMerge (x y : Acc) : Acc :=
  { a := x.a + y.a, nan := x.nan || y.nan, pinf := x.pinf || y.pinf, ninf := x.ninf || y.ninf
    hi := x.hi || y.hi, lo := x.lo || y.lo, impHe := x.impHe || y.impHe, impLe := x.impLe || y.impLe, s := x.s }

/-- R38: the products of two element vectors, as one contribution. -/
def accDot (l : Int) (xs ys : List Num) : Acc :=
  (List.zipWith numMul xs ys).foldl (fun a p => accMerge a (accTerm l p)) accZero

/-- R46: the tree sum of one chunk of 8 products, each addition rounded to FP32. -/
def chunkSum (xs ys : List Num) : Num :=
  let ps := (List.zipWith (fun x y => rne32 (numMul x y)) xs ys) ++ List.replicate 8 (Num.fin false 0 0)
  let p (i : Nat) : Num := ps.getD i (.fin false 0 0)
  let add (x y : Num) : Num := rne32 (numAdd x y)
  add (add (add (p 0) (p 1)) (add (p 2) (p 3))) (add (add (p 4) (p 5)) (add (p 6) (p 7)))

/-- R46: a chunk sum added to the FP32 accumulator; NaN results are canonical. -/
def accChunk (x : Acc) (chunk : Num) : Acc := { x with s := toFp32 (numAdd (ofFp32 x.s) chunk) }

/-- R39: whether the sum lies outside 128 bits. -/
def accOutOfRange (x : Acc) : Bool := decide (x.a < -(2 ^ 127)) || decide (2 ^ 127 - 1 < x.a)

/-- R39, R42: whether a high-escape test fires in the run: counted once in 2A20.01. -/
def accHighFired (d : Aod) (x : Acc) : Bool := x.hi || accOutOfRange x || (d.lowf && (x.lo || x.impLe))

/-- R42: whether the run counts in 2A20.02. -/
def accLowCounted (d : Aod) (x : Acc) : Bool := x.lo && !d.lowf

/-- R41: the value at readout, before scaling. -/
def accResolve (d : Aod) (x : Acc) : Num :=
  if x.nan || accHighFired d x || x.impHe || (x.pinf && x.ninf) then .nan
  else if x.pinf then .inf false
  else if x.ninf then .inf true
  else numOfInt x.a d.l

/-- R43: W = A * 2^L * M * 2^E, exact. -/
def accScaled (d : Aod) (x : Acc) : Num := numMul (accResolve d x) (.fin false d.m d.e)

/-- R44, Table 2-8: the flag byte of an export. -/
def accFlagByte (d : Aod) (x : Acc) : Nat :=
  (if accHighFired d x || x.impHe then 0x80 else 0) + (if x.lo || x.impLe then 0x40 else 0)
    + (if x.nan then 0x20 else 0) + (if x.pinf then 0x10 else 0) + (if x.ninf then 0x08 else 0)

/-- R42, R44, R45: the exported 128-bit value; 0 when the HE flag is set. -/
def accExport (d : Aod) (x : Acc) : Nat :=
  if accHighFired d x || x.impHe then 0 else toTwos 128 x.a

/-- R45: the contribution of an imported partial sum. -/
def accImport (a : Nat) (flags : Nat) : Acc :=
  { accZero with a := sx 128 a, impHe := bitOf flags 7, impLe := bitOf flags 6, nan := bitOf flags 5
                 pinf := bitOf flags 4, ninf := bitOf flags 3 }

/-- Whether the operand pair of an AOD is a 16-bit one (R35, R46). -/
def aodIs16 (d : Aod) : Bool := d.fa == some .bf16 || d.fa == some .fp16

/-- R35, Table 2-6: products per column per ac. -/
def pairK (fa fb : Fmt) : Nat :=
  let narrow (f : Fmt) : Bool := f == .mxE3m2 || f == .mxE2m3 || f == .mxE2m1 || f == .int4
  if fa == .bf16 || fa == .fp16 then 8 else if narrow fa && narrow fb then 64 else 32

/-- R36, Table 2-6: the operand pairs the matrix unit accepts. -/
def pairOk (fa fb : Fmt) : Bool :=
  let small (f : Fmt) : Bool := decide (fmtBits f ≤ 8)
  (small fa && small fb) || (fa == .bf16 && fb == .bf16) || (fa == .fp16 && fb == .fp16)

/-- R37: whether an AOD passes plan validation. -/
def aodOk (w : W64) : Bool :=
  let d := aodOf w
  match d.fa, d.fb, d.fo with
  | some fa, some fb, some fo =>
    decide (fld w.toNat 13 0 = 0) && decide (-300 ≤ d.l) && decide (d.l ≤ 160) && pairOk fa fb
      && (!aodIs16 d || (d.pre != .acc128 && d.pre != .int32 && decide (d.m = 1) && decide (d.e = 0)
            && (fo == .bf16 || fo == .fp16 || fo == .fp32)))
  | _, _, _ => false

end Sys2Proof.Machine
end

