-- ==== Sys2Proof/Machine/TileState.lean ====
section
/-! DEFINITION. The state of a tile (spec/03_tile.md R57-R69, Table 3-2) and of the fabric around it
(spec/04_grid_fabric.md R103-R120). -/

namespace Sys2Proof.Machine

/-- A word of tile SRAM as a read delivers it: 256 data bits, and whether the burst code marks it poisoned (R63, R66). -/
structure SWord where
  data : W256 := 0
  poison : Bool := false
  deriving DecidableEq, Repr

/-- An error pattern in the 288 bits of a stored word, line or flit: data at [255:0], check bits at [287:256] (R63). -/
abbrev Upset := BitVec 288

/-- The five slots of a bundle (R72, Table 3-4). -/
inductive Slot where
  | ctl | mxu | vec | mem | fab
  deriving DecidableEq, Repr

/-- What an error-correcting check finds: nothing, a corrected error, an uncorrectable error (R63, R105). -/
inductive CodeResult where
  | clean | corrected | uncorrectable
  deriving DecidableEq, Repr

/-- R63: the check bits of a stored word: those of the burst code over its data, or the pattern that reads back as poison
(R107). The code itself is not in the spec (log entry 21). -/
def checkBits (w : SWord) : BitVec 32 := if w.poison then Config.poisonCheck w.data else Config.burstCheck w.data
/-- R63: the 288 bits of a word as it is stored. -/
def codeWord (w : SWord) : BitVec 288 := checkBits w ++ w.data

/-- Bits from the lowest to the highest error of a pattern. -/
def errSpan (e : Upset) : Nat :=
  let n := e.toNat
  if n = 0 then 0 else Nat.log2 n - Nat.log2 (n - (n &&& (n - 1))) + 1

/-- R63: what the burst code finds in a word that carries an error pattern, and the data it delivers: an error within 16
consecutive bits is corrected, one within 32 detected; a wider one may be corrected wrongly, go undetected or be detected, which the
spec leaves open (log entry 21). -/
def burstDecode (w : W256) (e : Upset) : CodeResult × W256 :=
  let raw := w ^^^ e.setWidth 256
  if e = 0 then (.clean, w)
  else if errSpan e ≤ 16 then (.corrected, w)
  else if errSpan e ≤ 32 then (.uncorrectable, raw)
  else match Config.burstOpen e % 3 with
    | 0 => (.clean, raw)
    | 1 => (.corrected, w ^^^ Config.burstMiss e)
    | _ => (.uncorrectable, raw)

/-- One level of the hardware loop stack (R76). -/
structure LoopLevel where
  start : Nat
  stop : Nat
  remaining : Nat
  deriving DecidableEq, Repr

/-- The walk state of an AGD: LINEAR counters and the scale-index count since AGRST (R86), WINDOW position (R89). -/
structure Walk where
  i0 : Nat := 0
  i1 : Nat := 0
  i2 : Nat := 0
  i3 : Nat := 0
  sidx : Nat := 0
  oy : Nat := 0
  ox : Nat := 0
  g : Nat := 0
  deriving DecidableEq, Repr

/-- One window-register entry: a word, its 16 scale bits, its poison, and that of its scale word (R66, R90). -/
structure WinEntry where
  data : W256 := 0
  scale : Nat := 0
  poison : Bool := false
  spoison : Bool := false
  deriving DecidableEq, Repr

/-- Where one WLD entry comes from (R88): an SRAM word with its scale index, or a fill. -/
inductive WinSrc where
  | zero
  | fill (wa : Nat)
  | word (wa : Nat) (sidx : Nat)
  deriving DecidableEq, Repr

/-- An effect of an issued operation that lands in a later ac (R73): a result write or a further ac of a long operation. -/
inductive Micro where
  /-- merge lanes into a vector register: value, bit mask of the lanes written, MX blocks formed by a convert -/
  | vreg (vd : Nat) (val lanes : V2048) (blocks : Option Nat)
  /-- write the given bits of a lane mask -/
  | mask (i : Nat) (val bits : W128)
  | agd (i : Nat) (val : W256)
  | walkStep (i kind : Nat)
  | walkReset (i : Nat)
  | aods (q : Nat) (val : W256)
  | sram (wa : Nat) (w : SWord)
  | sramScale (wa : Nat) (byte : Nat) (codes : List Nat)
  | shadow (i : Nat) (w : SWord)
  | accSet (m : Nat) (vals : List Acc)
  | accAdd (m : Nat) (deltas : List Acc)
  | accChunk (m : Nat) (chunks : List Num)
  | win (slot j : Nat) (e : WinEntry)
  /-- MLOAD: block base address, next word, words in the block -/
  | mload (base next total : Nat)
  /-- MPRE with PRE 0b11: AGD, entry, entries left, step 0-2 of the entry, the words read so far -/
  | mpre128 (agd m left step : Nat) (got : List SWord)
  /-- MRUN: source (window or AGD), AGD or slot, AOD, entry, entries left, window offset, HALF, second entry of an
  MXFP6 pair, words carried from its first ac, base address of the pair, its scale codes and their poison -/
  | mrun (win : Bool) (sel aod m left d : Nat) (half odd first : Bool) (carry : List SWord) (base : Nat) (scales : List Nat × Bool)
  /-- MOUT: AGD, AOD, entry, entries left, buffered element bits, scale codes not yet written with their first index -/
  | mout (agd aod m left : Nat) (buf nbits : Nat) (scales : List Nat) (sfirst : Nat)
  /-- VPOOL: destination, AGD, its walk at issue, kind, W, lanes written, taps read so far, lane codes of each tap -/
  | vpool (vd : Nat) (d : W256) (wk : Walk) (kind : Nat) (w : Bool) (lanes : V2048) (tap : Nat) (got : List (List Nat)) (inside : Nat)
  /-- WLD: slot, descriptor, the groups of R92 not yet loaded, blocks per word -/
  | wld (slot : Nat) (d : W256) (groups : List (List (Nat × WinSrc)))
  deriving DecidableEq, Repr

/-- What a tile reports to the module while a command runs: counted events and words sent. -/
inductive TileEv where
  | corrected (wa : Nat)
  | poisoned (wa : Nat)
  /-- an upset found uncorrectable by this read (R121, R439) -/
  | badWord (wa : Nat)
  /-- an address that entered the write-back queue (R64, R439) -/
  | queued (wa : Nat)
  | wbDrop
  | highEscape (col : Nat)
  | lowEscape
  | nonFinite
  | missingWord
  | lineLost (line : Nat)
  | send (handle n : Nat) (words : List SWord)
  /-- an access to a bank in the present ac (R60) -/
  | port (write : Bool) (wa : Nat)
  deriving DecidableEq, Repr

/-- A position of the ejection latch (R114): the word, its valid bit, the poison or invalid mark. -/
structure LatchPos where
  valid : Bool := false
  data : W256 := 0
  poison : Bool := false
  fc : Nat := 0
  deriving DecidableEq, Repr

/-- A management message waiting in a tile's inbox (R119, R120): its flits, header first. -/
structure MgmtMsg where
  flits : List W256
  /-- P of each flit; flits past its end carry none -/
  poison : List Bool := []
  deriving DecidableEq, Repr

/-- The state of one tile. The grid holds only tiles that differ from a reset tile. -/
structure Tile where
  sregs : Vector W32 16 := (Vector.replicate 16 0).set 14 1
  loops : List LoopLevel := []
  entry : Nat := 0
  pc : Nat := 0
  running : Bool := false
  /-- the entry address is that of the ENDT bundle the module supplies (R75, R151) -/
  idle : Bool := true
  /-- R68: the sequencer stopped before ENDT; sends of the tick carry I = 1 -/
  lineLost : Bool := false
  /-- R122: held by a declared failure -/
  held : Bool := false
  ac : Nat := 0
  vregs : Vector V2048 32 := Vector.replicate 32 0
  /-- MX blocks the last convert placed in each vector register (the count VST with SC writes; log entry 6) -/
  vblocks : Vector Nat 32 := Vector.replicate 32 4
  masks : Vector W128 8 := (Vector.replicate 8 0).set 0 (BitVec.allOnes 128)
  aods : Vector W64 16 := Vector.replicate 16 0
  agds : Vector W256 16 := Vector.replicate 16 0
  walks : Vector Walk 16 := Vector.replicate 16 {}
  /-- accumulator entry m of column c at key 32*m + c -/
  acc : Cells Acc := []
  active : Cells SWord := []
  shadow : Cells SWord := []
  /-- window entry j of slot s at key 64*s + j -/
  window : Cells WinEntry := []
  pst : Cells Nat := []
  sram : Cells SWord := []
  /-- error patterns that stand in stored words (R63) -/
  upsets : Cells Upset := []
  /-- error patterns that stand in instruction-store lines (R63) -/
  lineUpsets : Cells Upset := []
  /-- bundle n of the instruction store -/
  istore : Cells W128 := []
  /-- tick of the last uncorrectable error of each instruction-store line (R68) -/
  lineErr : Cells (Option Nat) := []
  lostLines : List Nat := []
  /-- distinct uncorrectable words with the tick of their detection (R121) -/
  badWords : List (Nat × Nat) := []
  /-- constant regions being reloaded: index in the region table and words done (R67) -/
  reload : List (Nat × Nat) := []
  wbQueue : List Nat := []
  latch : Vector LatchPos 8 := Vector.replicate 8 {}
  inbox : List MgmtMsg := []
  pend : List (Nat × Micro) := []
  /-- events of the command in progress; empty between commands -/
  ev : List TileEv := []
  /-- R66: the tick in which this tile last wrote a poisoned-delivery log record -/
  logTick : Option Nat := none
  /-- sideband error ticks of the tile's router (R121) -/
  sbErrs : List Nat := []
  /-- words that redundant rows cover (R439), words found suspect, and copies waiting for the boundary -/
  spareWords : List Nat := []
  suspects : List Nat := []
  copied : List Nat := []
  /-- addresses with the tick at which they last entered the write-back queue (R439) -/
  wbTicks : Cells Nat := []
  /-- words patrol corrected in their last pass (R439) -/
  patrolHits : List Nat := []
  /-- a second uncorrectable error in one instruction-store line within 1,024 tk (R68, R121) -/
  lineTwice : Bool := false
  /-- discarded sidebands on flits this tile's router sent (R121) -/
  sbLost : Bool := false
  corrected : Nat := 0
  poisoned : Nat := 0
  linesLost : Nat := 0
  deriving DecidableEq, Repr

/-- A flit in flight (R104), with the position and fc of the link it enters next. The slot schedule that tells an
injection port or a RECV apart is carried with the flit (log entry 9). -/
structure Flit where
  mg : Bool := false
  rt : Bool := false
  ek : Bool := false
  dest : Nat := 0
  p : Bool := false
  i : Bool := false
  data : W256 := 0
  /-- errors that data and check bits carry since the last check (R105) -/
  err : Upset := 0
  /-- the management message it belongs to (log entry 15) -/
  msg : Nat := 0
  /-- injection AGD, for a word of an INJ channel -/
  inj : Option Nat := none
  x : Int := 0
  y : Int := 0
  fc : Nat := 0
  /-- the last link entered: from x, from y, direction 0-3, fc -/
  last : Option (Int × Int × Nat × Nat) := none
  deriving DecidableEq, Repr

/-- A word that arrived at an edge port (R101), waiting for its engine. -/
structure EdgeWord where
  port : Nat
  fc : Nat
  data : W256
  poison : Bool
  invalid : Bool
  deriving DecidableEq, Repr

/-- A channel with the fields of its descriptor named (R108, Table 4-3). -/
structure Channel where
  kind : Nat
  src : Nat
  dst : Nat
  sh : Nat
  dh : Nat
  rt : Bool
  ph : Nat
  w : Nat
  inj : Bool
  iagd : Nat
  ovl : Nat
  tpl : Nat
  tOff : Nat
  o : Nat
  p : Nat
  k : Nat
  dly : Nat
  reserved : Nat
  deriving DecidableEq, Repr

/-- The grid and its fabric. -/
structure Grid where
  /-- logical tile x + 64*y at that key; an unlisted tile is a reset tile -/
  tiles : Cells Tile := []
  flits : List Flit := []
  edge : List EdgeWord := []
  /-- management messages that tiles have sent, the number of the next (log entry 15) -/
  mgSent : Nat := 0
  /-- ejections into tiles in the present tick: tile, fc, and the address written for an injection channel (R106) -/
  ejected : List (Nat × Nat × Option Nat) := []
  /-- edge-port slots of this tick that are served or left empty: edge port and fc (R117, R200) -/
  used : List (Nat × Nat) := []
  /-- slots left empty toward an injection channel: tile, injection AGD and ejection fc, until the AGD has passed them (R200) -/
  skips : List (Nat × Nat × Nat) := []
  /-- responses of tiles received at S60 (R119) -/
  responses : List MgmtMsg := []
  /-- NW, NE, SW, SE retired physical columns as recorded in flash (R134) -/
  retired : Vector (List Nat) 4 := Vector.replicate 4 []
  /-- the retired columns routing follows: the map of the loaded plan (R132) -/
  routed : Vector (List Nat) 4 := Vector.replicate 4 []
  /-- whether each quarter's unused spare passed its last self-test (R130, R133) -/
  spareOk : Vector Bool 4 := Vector.replicate 4 true
  /-- tiles declared failed whose repair waits for the lease or its boundary, with the tick of declaration (R122) -/
  failed : List (Nat × Nat) := []
  /-- tiles of retired columns whose SRAM and instruction store wait to be zeroed (R338) -/
  stale : Nat := 0
  /-- boundary at which the repair in progress was latched (R124) -/
  pauseFrom : Option Nat := none
  /-- tiles of the repair in progress whose contents the pause reloads (R124, R127) -/
  moved : List Nat := []
  /-- pause ticks begun in which the reload ran: compute not halted (R446) -/
  reloaded : Nat := 0
  /-- ticks of corrected errors decoded at each seam lane or attach stage (R447 class 0x07) -/
  stageErrs : Cells (List Nat) := []
  /-- first word of the next patrol scrub in every tile (R65) -/
  patrol : Nat := 0
  /-- tiles held under R132, by physical index (2920.00), with the tick of declaration -/
  noShift : List (Nat × Nat) := []
  deriving DecidableEq, Repr

end Sys2Proof.Machine
end

