-- ==== Sys2Proof/Machine/CoreTypes.lean ====
section
/-! DEFINITION. Types shared by all parts of the block: roles and access contexts (R394, R395), status codes (R401),
log records (R411), the dictionary window's frames (R385), and what the block emits. -/

namespace Sys2Proof.Machine

/-- The role of a dictionary access (R340, R394, Table 12-5). -/
inductive Role where
  | operator | tenant (t : Nat) | service
  deriving DecidableEq, Repr

/-- The access context of a role: operator 0, tenant 1-4,095, service 0x1000 (R394; the coding of 2011.06). -/
def roleKey : Role → Nat
  | .operator => 0
  | .tenant t => t
  | .service => 0x1000

/-- Shared status codes (R401, Table 12-8). -/
def stOk : Nat := 0x00
def stPending : Nat := 0x01
def stQueued : Nat := 0x02
def stState : Nat := 0x03
def stRights : Nat := 0x04
def stRange : Nat := 0x05
def stCompleted : Nat := 0x06
def stUnsettled : Nat := 0x07
def stCap : Nat := 0x08
def stIntegrity : Nat := 0x09
def stNoResource : Nat := 0x0A
def stTimeout : Nat := 0x0B
def stVersion : Nat := 0x0C

/-- STATUS and DETAIL of a response (R401, Tables 12-8 and 12-9). -/
structure Res where
  st : Nat := 0
  detail : Nat := 0
  deriving DecidableEq, Repr

def resOk : Res := {}
def resPending : Res := { st := stPending }
def resQueued : Res := { st := stQueued }
def resState : Res := { st := stState, detail := 0x0C }
def resRights : Res := { st := stRights }
def resRange : Res := { st := stRange, detail := 0x09 }

/-- The key of a dictionary entry: index, sub-index and the window instance its selectors name (R395), a sub-index in
8 bits and an instance in 48. -/
def okey (idx sub inst : Nat) : Nat := (idx * 256 + sub % 256) * 2 ^ 48 + inst % 2 ^ 48

/-- Parts of a key: index, sub-index, entry. -/
def keyIdx (k : Nat) : Nat := k / 2 ^ 56
def keySub (k : Nat) : Nat := k / 2 ^ 48 % 256
def keyInst (k : Nat) : Nat := k % 2 ^ 48

/-- A copy of a value held for segments (R389). -/
structure SegCopy where
  key : Nat
  data : List Byte
  t : Nat
  deriving DecidableEq, Repr

/-- One access context (R394, R395, R476): selector and command-parameter values, segment copies. -/
structure AccessCtx where
  vals : Cells Nat := []
  copy : Option SegCopy := none
  wseg : Option SegCopy := none
  deriving DecidableEq, Repr

/-- A request frame (R385, Table 12-5). -/
structure Request where
  op : Nat := 0
  role : Nat := 0
  tenant : Nat := 0
  idx : Nat := 0
  sub : Nat := 0
  flags : Nat := 0
  offset : Nat := 0
  length : Nat := 0
  tag : Nat := 0
  data : List Byte := []
  /-- tick counter at the take (R387) -/
  tick : Nat := 0
  deriving DecidableEq, Repr

/-- A response frame (R385, Table 12-6). -/
structure Response where
  st : Nat := 0
  detail : Nat := 0
  tag : Nat := 0
  type : Nat := 0
  flags : Nat := 0
  tick : Nat := 0
  data : List Byte := []
  deriving DecidableEq, Repr

/-- A write accepted and waiting for its effect boundary (R391). -/
structure PendingWrite where
  key : Nat
  value : List Byte
  /-- a cap written after the member's busy-done: it waits one boundary more (R351) -/
  late : Bool := false
  deriving DecidableEq, Repr

/-- Events that write a log record (R411). The event byte of CODE is the firmware's; the source is Table 13-3's. -/
inductive LogEv where
  | highEscape | poisonedDelivery | lineLost | tileFailed | collision | lostState | repairLatched | columnRetired
  | hbmUncorrectable | hbmRowSpared | pprDone | caParity | patrolLate
  | overrun | powerFault | droop | survival | computeHalt | orderlyStop | thermalTrip | capUnattainable | readingsStale
  | undervoltage | overvoltage | currentLimit | estimatorFault | resetGlitch | resetN
  | streamRefused | frameDropped | integrity | requestRefused | laneAdmission | abortDone
  | linkDown | linkUp | wiring | laneSubstitution | linkKey | memberLost | leaderLost | memberJoined | pairSwitch | digestDifference
  | keyReleased | keyRetired | anchorRefused | identity | serviceSession | planKey | tenantScrub | quote
  | componentRestart | complexReset | activation | confirmed | reverted | handoverFailed | coreRetired
  | calendarKnown | faultClass | engineFailed | engineSpare | flashBlock | leaseGrant | redundantRow | spareTest | lifeRecord
  | fixedTest
  deriving DecidableEq, Repr

/-- A log record (R411, Table 13-3), its DATA field as the identifiers it concerns. -/
structure LogRec where
  seq : Nat
  sev : Nat
  src : Nat
  ev : LogEv
  tick : Nat
  time : Nat
  boot : Nat
  ids : List Nat
  deriving DecidableEq, Repr

/-- A trace record (R414). -/
structure TraceRec where
  point : Nat
  hw : Bool
  tick : Nat
  ac : Nat
  value : Nat
  deriving DecidableEq, Repr

/-- The windows and events of a tick in order (R136, Table 5-1). -/
inductive Phase where
  | ac0 | ac64 | ac1024 | ac1536 | ac2560 | ac3584 | work | slack
  deriving DecidableEq, Repr

/-- Position of a phase in the order of Table 5-1. -/
def phaseRank : Phase → Nat
  | .ac0 => 0 | .ac64 => 1 | .ac1024 => 2 | .ac1536 => 3 | .ac2560 => 4 | .ac3584 => 5 | .work => 6 | .slack => 7

/-- Module states (2000.01, Table 5-13), with the two states in which the dictionary is not served. -/
inductive ModState where
  | off | softStart | booting | idle | loaded | running | paused | survival | stopped | harebell
  deriving DecidableEq, Repr

/-- The 2000.01 code of a module state; 0x00 where the dictionary server does not run. -/
def modCode : ModState → Nat
  | .booting => 1 | .idle => 2 | .loaded => 3 | .running => 4 | .paused => 5 | .survival => 6 | .stopped => 7
  | .off | .softStart | .harebell => 0

end Sys2Proof.Machine
end

