-- ==== Sys2Proof/Machine/ObjTable.lean ====
section
/-! DEFINITION. The object dictionary's entries (R403, R404): one row per object of Tables 2-12, 3-3, 4-7, 5-13, 6-16,
7-8, 8-7, 9-7, 10-12, 11-5, 12-12, 13-10 and 14-4: type code and size (Table 12-7), the rights of the three roles,
default, accepted range, and how a write takes effect (R391, R395, R476). Sub-index 00 of a record holds its highest
sub-index (R16). -/

namespace Sys2Proof.Machine

/-- How a write of an object acts. -/
inductive ObjKind where
  /-- an ordinary register: applied at its effect boundary (R391) -/
  | plain
  /-- changes only the requester's access context, at once (R395) -/
  | selector
  /-- a command parameter of the requester's context, at once (R476) -/
  | param
  /-- an object whose write is a command or event of its own -/
  | command
  /-- a register whose write takes effect at once (R432) -/
  | atOnce
  deriving DecidableEq, Repr

/-- One dictionary entry; rights are 0 none, 1 ro, 2 wo, 3 rw; own marks a tenant right limited to its own entities. -/
structure ObjRow where
  sub : Nat
  type : Nat
  size : Nat
  op : Nat
  ten : Nat
  svc : Nat
  own : Bool
  dflt : Nat
  lo : Nat
  hi : Nat
  kind : ObjKind
  blob : Bool
  deriving DecidableEq, Repr

def objRows0 : List (Nat × List ObjRow) := [
  (0x1000, [⟨0x00, 7, 4, 1, 1, 1, false, 0, 0, 4294967295, .plain, false⟩]),
  (0x1001, [⟨0x00, 5, 1, 1, 1, 1, false, 0, 0, 255, .plain, false⟩]),
  (0x1008, [⟨0x00, 9, 3, 1, 1, 1, false, 0, 0, 3, .plain, true⟩]),
  (0x1009, [⟨0x00, 9, 16, 1, 1, 1, false, 0, 0, 16, .plain, true⟩]),
  (0x100A, [⟨0x00, 9, 16, 1, 1, 1, false, 0, 0, 16, .plain, true⟩]),
  (0x1018, [⟨0x00, 5, 1, 1, 1, 1, false, 4, 0, 255, .plain, false⟩,
    ⟨0x01, 7, 4, 1, 1, 1, false, 3966, 0, 4294967295, .plain, false⟩,
    ⟨0x02, 7, 4, 1, 1, 1, false, 533505, 0, 4294967295, .plain, false⟩,
    ⟨0x03, 7, 4, 1, 1, 1, false, 0, 0, 4294967295, .plain, false⟩,
    ⟨0x04, 7, 4, 1, 1, 1, false, 0, 0, 4294967295, .plain, false⟩])]

def objRows1 : List (Nat × List ObjRow) := [
  (0x1F00, [⟨0x00, 5, 1, 1, 0, 1, false, 6, 0, 255, .plain, false⟩,
    ⟨0x01, 10, 4, 3, 0, 3, false, 0, 0, 4294967295, .plain, false⟩,
    ⟨0x02, 10, 1, 3, 0, 3, false, 0, 0, 32, .plain, false⟩,
    ⟨0x03, 10, 16, 3, 0, 3, false, 0, 0, 340282366920938463463374607431768211455, .plain, false⟩,
    ⟨0x04, 10, 1, 3, 0, 3, false, 0, 0, 128, .plain, false⟩,
    ⟨0x05, 10, 16, 3, 0, 3, false, 0, 0, 340282366920938463463374607431768211455, .plain, false⟩,
    ⟨0x06, 6, 2, 3, 0, 3, false, 0, 0, 4094, .plain, false⟩]),
  (0x1F01, [⟨0x00, 5, 1, 1, 0, 1, false, 6, 0, 255, .plain, false⟩,
    ⟨0x01, 10, 4, 3, 0, 3, false, 0, 0, 4294967295, .plain, false⟩,
    ⟨0x02, 10, 1, 3, 0, 3, false, 0, 0, 32, .plain, false⟩,
    ⟨0x03, 10, 16, 3, 0, 3, false, 0, 0, 340282366920938463463374607431768211455, .plain, false⟩,
    ⟨0x04, 10, 1, 3, 0, 3, false, 0, 0, 128, .plain, false⟩,
    ⟨0x05, 10, 16, 3, 0, 3, false, 0, 0, 340282366920938463463374607431768211455, .plain, false⟩,
    ⟨0x06, 6, 2, 3, 0, 3, false, 0, 0, 4094, .plain, false⟩]),
  (0x1F10, [⟨0x00, 5, 1, 1, 1, 1, false, 6, 0, 255, .plain, false⟩,
    ⟨0x01, 5, 1, 3, 0, 3, false, 0, 0, 4, .plain, false⟩,
    ⟨0x02, 6, 2, 3, 0, 3, false, 0, 0, 32895, .plain, false⟩,
    ⟨0x03, 5, 1, 3, 0, 3, false, 248, 0, 255, .plain, false⟩,
    ⟨0x04, 5, 1, 3, 0, 3, false, 248, 0, 255, .plain, false⟩,
    ⟨0x05, 5, 1, 1, 1, 1, false, 0, 0, 255, .plain, false⟩,
    ⟨0x06, 27, 8, 1, 1, 1, false, 0, 0, 18446744073709551615, .plain, false⟩]),
  (0x2000, [⟨0x00, 5, 1, 1, 1, 1, false, 8, 0, 255, .plain, false⟩,
    ⟨0x01, 5, 1, 1, 1, 1, false, 2, 0, 255, .plain, false⟩,
    ⟨0x02, 27, 8, 1, 1, 1, false, 0, 0, 18446744073709551615, .plain, false⟩,
    ⟨0x03, 6, 2, 1, 1, 1, false, 2000, 0, 65535, .plain, false⟩,
    ⟨0x04, 7, 4, 1, 0, 1, false, 0, 0, 4294967295, .plain, false⟩,
    ⟨0x05, 7, 4, 1, 0, 1, false, 0, 0, 4294967295, .plain, false⟩,
    ⟨0x06, 27, 8, 1, 0, 1, false, 18446744073709551615, 0, 18446744073709551615, .plain, false⟩,
    ⟨0x07, 27, 8, 1, 0, 1, false, 0, 0, 18446744073709551615, .plain, false⟩,
    ⟨0x08, 7, 4, 1, 0, 1, false, 0, 0, 4294967295, .plain, false⟩]),
  (0x2001, [⟨0x00, 5, 1, 1, 0, 1, false, 4, 0, 255, .plain, false⟩,
    ⟨0x01, 7, 4, 1, 0, 1, false, 0, 0, 4294967295, .plain, false⟩,
    ⟨0x02, 7, 4, 2, 0, 2, false, 0, 0, 4294967295, .command, false⟩,
    ⟨0x03, 7, 4, 3, 0, 3, false, 8191, 0, 4294967295, .command, false⟩,
    ⟨0x04, 7, 4, 1, 0, 1, false, 0, 0, 4294967295, .plain, false⟩]),
  (0x2010, [⟨0x00, 5, 1, 3, 3, 3, false, 0, 0, 7, .selector, false⟩])]

def objRows2 : List (Nat × List ObjRow) := [
  (0x2011, [⟨0x00, 5, 1, 1, 1, 1, false, 6, 0, 255, .plain, false⟩,
    ⟨0x01, 15, 1024, 3, 3, 3, true, 0, 0, 1024, .command, true⟩,
    ⟨0x02, 5, 1, 3, 3, 3, true, 0, 1, 4, .command, false⟩,
    ⟨0x03, 5, 1, 1, 1, 1, true, 0, 0, 255, .plain, false⟩,
    ⟨0x04, 27, 8, 1, 1, 1, true, 18446744073709551615, 0, 18446744073709551615, .plain, false⟩,
    ⟨0x05, 15, 65536, 1, 1, 1, true, 0, 0, 65536, .plain, true⟩,
    ⟨0x06, 6, 2, 1, 1, 1, false, 65535, 0, 65535, .plain, false⟩]),
  (0x2100, [⟨0x00, 5, 1, 1, 1, 1, false, 11, 0, 255, .plain, false⟩,
    ⟨0x01, 5, 1, 3, 0, 3, false, 0, 1, 6, .command, false⟩,
    ⟨0x02, 5, 1, 1, 0, 1, false, 0, 0, 255, .plain, false⟩,
    ⟨0x03, 7, 4, 1, 0, 1, false, 0, 0, 4294967295, .plain, false⟩,
    ⟨0x04, 7, 4, 3, 0, 3, false, 0, 0, 4294967295, .param, false⟩,
    ⟨0x05, 10, 16, 1, 1, 1, false, 0, 0, 340282366920938463463374607431768211455, .plain, false⟩,
    ⟨0x06, 7, 4, 1, 1, 1, false, 0, 0, 4294967295, .plain, false⟩,
    ⟨0x07, 5, 1, 1, 0, 1, false, 0, 0, 255, .plain, false⟩,
    ⟨0x08, 5, 1, 1, 0, 1, false, 0, 0, 255, .plain, false⟩,
    ⟨0x09, 6, 2, 1, 0, 1, false, 0, 0, 65535, .plain, false⟩,
    ⟨0x0A, 7, 4, 1, 0, 1, false, 0, 0, 4294967295, .plain, false⟩,
    ⟨0x0B, 10, 32, 1, 0, 1, false, 0, 0, 115792089237316195423570985008687907853269984665640564039457584007913129639935, .plain, false⟩]),
  (0x2102, [⟨0x00, 5, 1, 1, 1, 1, false, 6, 0, 255, .plain, false⟩,
    ⟨0x01, 6, 2, 3, 0, 3, false, 1, 0, 65535, .command, false⟩,
    ⟨0x02, 5, 1, 1, 0, 1, false, 0, 0, 255, .plain, false⟩,
    ⟨0x03, 6, 2, 1, 1, 1, false, 1, 0, 65535, .plain, false⟩,
    ⟨0x04, 6, 2, 1, 0, 1, false, 0, 0, 65535, .plain, false⟩,
    ⟨0x05, 7, 4, 1, 0, 1, false, 0, 0, 4294967295, .plain, false⟩,
    ⟨0x06, 27, 8, 1, 0, 1, false, 18446744073709551615, 0, 18446744073709551615, .plain, false⟩]),
  (0x2200, [⟨0x00, 6, 2, 3, 3, 3, true, 0, 0, 4095, .selector, false⟩]),
  (0x2201, [⟨0x00, 5, 1, 1, 1, 1, false, 12, 0, 255, .plain, false⟩,
    ⟨0x01, 5, 1, 3, 1, 3, true, 0, 0, 1, .command, false⟩,
    ⟨0x02, 10, 32, 1, 1, 1, true, 0, 0, 115792089237316195423570985008687907853269984665640564039457584007913129639935, .plain, false⟩,
    ⟨0x03, 5, 1, 1, 1, 1, true, 0, 0, 255, .plain, false⟩,
    ⟨0x04, 5, 1, 1, 1, 1, true, 0, 0, 255, .plain, false⟩,
    ⟨0x05, 5, 1, 1, 1, 1, true, 0, 0, 255, .plain, false⟩,
    ⟨0x06, 7, 4, 1, 1, 1, true, 0, 0, 4294967295, .plain, false⟩,
    ⟨0x07, 5, 1, 3, 3, 3, true, 0, 0, 2, .command, false⟩,
    ⟨0x08, 5, 1, 1, 1, 1, true, 0, 0, 255, .plain, false⟩,
    ⟨0x09, 27, 8, 1, 1, 1, true, 0, 0, 18446744073709551615, .plain, false⟩,
    ⟨0x0A, 6, 2, 3, 1, 3, true, 256, 0, 4096, .plain, false⟩,
    ⟨0x0B, 5, 1, 1, 1, 1, true, 0, 0, 255, .plain, false⟩,
    ⟨0x0C, 5, 1, 1, 1, 1, true, 0, 0, 255, .plain, false⟩]),
  (0x2202, [⟨0x00, 5, 1, 1, 1, 1, false, 1, 0, 255, .plain, false⟩,
    ⟨0x01, 5, 1, 3, 1, 3, true, 0, 0, 255, .plain, false⟩])]

def objRows3 : List (Nat × List ObjRow) := [
  (0x2300, [⟨0x00, 6, 2, 3, 3, 3, false, 0, 0, 255, .selector, false⟩]),
  (0x2301, [⟨0x00, 5, 1, 1, 1, 1, false, 9, 0, 255, .plain, false⟩,
    ⟨0x01, 5, 1, 3, 3, 3, true, 0, 0, 1, .plain, false⟩,
    ⟨0x02, 5, 1, 3, 3, 3, true, 2, 0, 2, .plain, false⟩,
    ⟨0x03, 10, 16, 3, 3, 3, true, 0, 0, 340282366920938463463374607431768211455, .plain, false⟩,
    ⟨0x04, 6, 2, 3, 3, 3, true, 0, 1, 65535, .plain, false⟩,
    ⟨0x05, 7, 4, 3, 3, 3, true, 0, 0, 4294967295, .plain, false⟩,
    ⟨0x06, 5, 1, 3, 3, 3, true, 0, 0, 1, .plain, false⟩,
    ⟨0x07, 5, 1, 3, 3, 3, true, 0, 0, 2, .plain, false⟩,
    ⟨0x08, 5, 1, 3, 3, 3, true, 20, 0, 200, .plain, false⟩,
    ⟨0x09, 5, 1, 3, 3, 3, true, 96, 0, 127, .plain, false⟩]),
  (0x2302, [⟨0x00, 5, 1, 1, 1, 1, false, 19, 0, 255, .plain, false⟩,
    ⟨0x01, 5, 1, 1, 1, 1, true, 0, 0, 255, .plain, false⟩,
    ⟨0x02, 27, 8, 1, 1, 1, true, 0, 0, 18446744073709551615, .plain, false⟩,
    ⟨0x03, 27, 8, 1, 1, 1, true, 0, 0, 18446744073709551615, .plain, false⟩,
    ⟨0x04, 27, 8, 1, 1, 1, true, 0, 0, 18446744073709551615, .plain, false⟩,
    ⟨0x05, 27, 8, 1, 1, 1, true, 0, 0, 18446744073709551615, .plain, false⟩,
    ⟨0x06, 27, 8, 1, 1, 1, true, 0, 0, 18446744073709551615, .plain, false⟩,
    ⟨0x07, 27, 8, 1, 1, 1, true, 0, 0, 18446744073709551615, .plain, false⟩,
    ⟨0x08, 27, 8, 1, 1, 1, true, 0, 0, 18446744073709551615, .plain, false⟩,
    ⟨0x09, 27, 8, 1, 1, 1, true, 0, 0, 18446744073709551615, .plain, false⟩,
    ⟨0x0A, 27, 8, 1, 1, 1, true, 0, 0, 18446744073709551615, .plain, false⟩,
    ⟨0x0B, 27, 8, 1, 1, 1, true, 0, 0, 18446744073709551615, .plain, false⟩,
    ⟨0x0C, 27, 8, 1, 1, 1, true, 0, 0, 18446744073709551615, .plain, false⟩,
    ⟨0x0D, 27, 8, 1, 1, 1, true, 0, 0, 18446744073709551615, .plain, false⟩,
    ⟨0x0E, 27, 8, 1, 1, 1, true, 0, 0, 18446744073709551615, .plain, false⟩,
    ⟨0x0F, 7, 4, 1, 1, 1, true, 0, 0, 4294967295, .plain, false⟩,
    ⟨0x10, 27, 8, 1, 1, 1, true, 0, 0, 18446744073709551615, .plain, false⟩,
    ⟨0x11, 7, 4, 1, 1, 1, true, 0, 0, 4294967295, .plain, false⟩,
    ⟨0x12, 27, 8, 1, 1, 1, true, 0, 0, 18446744073709551615, .plain, false⟩,
    ⟨0x13, 27, 8, 1, 1, 1, true, 0, 0, 18446744073709551615, .plain, false⟩]),
  (0x2303, [⟨0x00, 5, 1, 1, 1, 1, false, 20, 0, 255, .plain, false⟩,
    ⟨0x01, 5, 1, 3, 3, 3, true, 0, 0, 2, .plain, false⟩,
    ⟨0x02, 5, 1, 3, 3, 3, true, 0, 0, 2, .plain, false⟩,
    ⟨0x03, 5, 1, 3, 3, 3, true, 0, 0, 2, .plain, false⟩,
    ⟨0x04, 5, 1, 3, 3, 3, true, 1, 0, 2, .plain, false⟩,
    ⟨0x05, 7, 4, 3, 3, 3, true, 4000, 100, 100000, .plain, false⟩,
    ⟨0x06, 6, 2, 3, 3, 3, true, 1000, 10, 4000, .plain, false⟩,
    ⟨0x07, 5, 1, 3, 3, 3, true, 30, 10, 51, .plain, false⟩,
    ⟨0x08, 5, 1, 3, 3, 3, true, 32, 10, 51, .plain, false⟩,
    ⟨0x09, 5, 1, 3, 3, 3, true, 75, 1, 100, .plain, false⟩,
    ⟨0x0A, 6, 2, 3, 3, 3, true, 60, 0, 3600, .plain, false⟩,
    ⟨0x0B, 5, 1, 3, 3, 3, true, 1, 1, 16, .plain, false⟩,
    ⟨0x0C, 5, 1, 3, 3, 3, true, 1, 0, 1, .plain, false⟩,
    ⟨0x0D, 10, 16, 3, 3, 3, true, 0, 0, 340282366920938463463374607431768211455, .plain, false⟩,
    ⟨0x0E, 6, 2, 3, 3, 3, true, 0, 1, 65535, .plain, false⟩,
    ⟨0x0F, 7, 4, 3, 3, 3, true, 0, 0, 4294967295, .plain, false⟩,
    ⟨0x10, 5, 1, 3, 3, 3, true, 96, 0, 127, .plain, false⟩,
    ⟨0x11, 6, 2, 3, 3, 3, true, 1500, 576, 9000, .plain, false⟩,
    ⟨0x12, 5, 1, 3, 3, 3, true, 0, 0, 1, .plain, false⟩,
    ⟨0x13, 6, 2, 3, 3, 3, true, 300, 1, 65535, .plain, false⟩,
    ⟨0x14, 5, 1, 3, 3, 3, true, 1, 0, 1, .plain, false⟩]),
  (0x2304, [⟨0x00, 5, 1, 1, 1, 1, false, 5, 0, 255, .plain, false⟩,
    ⟨0x01, 5, 1, 1, 1, 1, true, 0, 0, 255, .plain, false⟩,
    ⟨0x02, 27, 8, 1, 1, 1, true, 0, 0, 18446744073709551615, .plain, false⟩,
    ⟨0x03, 27, 8, 1, 1, 1, true, 0, 0, 18446744073709551615, .plain, false⟩,
    ⟨0x04, 27, 8, 1, 1, 1, true, 0, 0, 18446744073709551615, .plain, false⟩,
    ⟨0x05, 5, 1, 1, 1, 1, true, 0, 0, 255, .plain, false⟩]),
  (0x2305, [⟨0x00, 5, 1, 1, 1, 1, false, 2, 0, 255, .plain, false⟩,
    ⟨0x01, 5, 1, 3, 3, 3, true, 0, 1, 3, .command, false⟩,
    ⟨0x02, 5, 1, 1, 1, 1, true, 0, 0, 255, .plain, false⟩])]

def objRows4 : List (Nat × List ObjRow) := [
  (0x2306, [⟨0x00, 5, 1, 1, 1, 1, false, 3, 0, 255, .plain, false⟩,
    ⟨0x01, 5, 1, 1, 1, 1, true, 0, 0, 255, .plain, false⟩,
    ⟨0x02, 5, 1, 1, 1, 1, true, 0, 0, 255, .plain, false⟩,
    ⟨0x03, 5, 1, 3, 3, 3, true, 0, 3, 4, .command, false⟩]),
  (0x2330, [⟨0x00, 6, 2, 3, 3, 3, false, 0, 0, 1023, .selector, false⟩]),
  (0x2331, [⟨0x00, 5, 1, 1, 1, 1, false, 4, 0, 255, .plain, false⟩,
    ⟨0x01, 10, 16, 3, 3, 3, true, 0, 0, 340282366920938463463374607431768211455, .plain, false⟩,
    ⟨0x02, 6, 2, 3, 3, 3, true, 0, 1, 65535, .plain, false⟩,
    ⟨0x03, 6, 2, 3, 3, 3, true, 0, 1, 65535, .plain, false⟩,
    ⟨0x04, 6, 2, 3, 3, 3, true, 1500, 576, 9000, .plain, false⟩]),
  (0x2332, [⟨0x00, 5, 1, 1, 1, 1, false, 6, 0, 255, .plain, false⟩,
    ⟨0x01, 27, 8, 1, 1, 1, true, 0, 0, 18446744073709551615, .plain, false⟩,
    ⟨0x02, 27, 8, 1, 1, 1, true, 0, 0, 18446744073709551615, .plain, false⟩,
    ⟨0x03, 27, 8, 1, 1, 1, true, 0, 0, 18446744073709551615, .plain, false⟩,
    ⟨0x04, 27, 8, 1, 1, 1, true, 0, 0, 18446744073709551615, .plain, false⟩,
    ⟨0x05, 7, 4, 1, 1, 1, true, 0, 0, 4294967295, .plain, false⟩,
    ⟨0x06, 6, 2, 1, 1, 1, true, 0, 0, 65535, .plain, false⟩]),
  (0x2340, [⟨0x00, 5, 1, 1, 0, 1, false, 6, 0, 255, .plain, false⟩,
    ⟨0x01, 27, 8, 1, 0, 1, false, 0, 0, 18446744073709551615, .plain, false⟩,
    ⟨0x02, 27, 8, 1, 0, 1, false, 0, 0, 18446744073709551615, .plain, false⟩,
    ⟨0x03, 27, 8, 1, 0, 1, false, 0, 0, 18446744073709551615, .plain, false⟩,
    ⟨0x04, 27, 8, 1, 0, 1, false, 0, 0, 18446744073709551615, .plain, false⟩,
    ⟨0x05, 27, 8, 1, 0, 1, false, 0, 0, 18446744073709551615, .plain, false⟩,
    ⟨0x06, 27, 8, 1, 0, 1, false, 0, 0, 18446744073709551615, .plain, false⟩]),
  (0x2400, [⟨0x00, 5, 1, 1, 0, 1, false, 7, 0, 255, .plain, false⟩,
    ⟨0x01, 6, 2, 3, 0, 3, false, 0, 0, 65535, .plain, false⟩,
    ⟨0x02, 27, 8, 1, 0, 1, false, 0, 0, 18446744073709551615, .plain, false⟩,
    ⟨0x03, 27, 8, 1, 0, 1, false, 0, 0, 18446744073709551615, .plain, false⟩,
    ⟨0x04, 27, 8, 1, 0, 1, false, 0, 0, 18446744073709551615, .plain, false⟩,
    ⟨0x05, 27, 8, 1, 0, 1, false, 0, 0, 18446744073709551615, .plain, false⟩,
    ⟨0x06, 27, 8, 1, 0, 1, false, 0, 0, 18446744073709551615, .plain, false⟩,
    ⟨0x07, 27, 8, 1, 0, 1, false, 0, 0, 18446744073709551615, .plain, false⟩])]

def objRows5 : List (Nat × List ObjRow) := [
  (0x2401, [⟨0x00, 5, 1, 1, 1, 1, false, 2, 0, 255, .plain, false⟩,
    ⟨0x01, 6, 2, 3, 3, 3, true, 0, 0, 4095, .selector, false⟩,
    ⟨0x02, 7, 4, 3, 3, 3, false, 0, 0, 4294967295, .selector, false⟩]),
  (0x2402, [⟨0x00, 5, 1, 1, 1, 1, false, 6, 0, 255, .plain, false⟩,
    ⟨0x01, 5, 1, 1, 1, 1, true, 0, 0, 255, .plain, false⟩,
    ⟨0x02, 5, 1, 1, 1, 1, true, 0, 0, 255, .plain, false⟩,
    ⟨0x03, 27, 8, 1, 1, 1, true, 18446744073709551615, 0, 18446744073709551615, .plain, false⟩,
    ⟨0x04, 7, 4, 1, 1, 1, true, 0, 0, 4294967295, .plain, false⟩,
    ⟨0x05, 7, 4, 1, 1, 1, true, 0, 0, 4294967295, .plain, false⟩,
    ⟨0x06, 7, 4, 1, 1, 1, true, 0, 0, 4294967295, .plain, false⟩]),
  (0x2403, [⟨0x00, 5, 1, 1, 1, 1, false, 3, 0, 255, .plain, false⟩,
    ⟨0x01, 7, 4, 3, 3, 3, true, 0, 0, 4294967295, .command, false⟩,
    ⟨0x02, 6, 2, 3, 0, 3, false, 0, 0, 4095, .param, false⟩,
    ⟨0x03, 5, 1, 1, 1, 1, false, 0, 0, 255, .plain, false⟩]),
  (0x2410, [⟨0x00, 5, 1, 1, 1, 1, false, 2, 0, 255, .plain, false⟩,
    ⟨0x01, 6, 2, 3, 3, 3, true, 65535, 0, 65535, .command, false⟩,
    ⟨0x02, 5, 1, 1, 1, 1, false, 0, 0, 255, .plain, false⟩]),
  (0x2411, [⟨0x00, 6, 2, 3, 3, 3, false, 0, 0, 1023, .selector, false⟩]),
  (0x2412, [⟨0x00, 5, 1, 1, 1, 1, false, 6, 0, 255, .plain, false⟩,
    ⟨0x01, 5, 1, 1, 1, 1, true, 0, 0, 255, .plain, false⟩,
    ⟨0x02, 5, 1, 1, 1, 1, true, 0, 0, 255, .plain, false⟩,
    ⟨0x03, 27, 8, 1, 1, 1, true, 18446744073709551615, 0, 18446744073709551615, .plain, false⟩,
    ⟨0x04, 27, 8, 1, 1, 1, true, 18446744073709551615, 0, 18446744073709551615, .plain, false⟩,
    ⟨0x05, 27, 8, 1, 1, 1, true, 18446744073709551615, 0, 18446744073709551615, .plain, false⟩,
    ⟨0x06, 5, 1, 1, 1, 1, true, 0, 0, 255, .plain, false⟩])]

def objRows6 : List (Nat × List ObjRow) := [
  (0x2413, [⟨0x00, 5, 1, 3, 3, 3, true, 0, 1, 1, .command, false⟩]),
  (0x2420, [⟨0x00, 6, 2, 3, 3, 3, true, 0, 0, 4095, .selector, false⟩]),
  (0x2421, [⟨0x00, 5, 1, 1, 1, 1, false, 5, 0, 255, .plain, false⟩,
    ⟨0x01, 7, 4, 3, 1, 3, true, 0, 0, 1048576, .plain, false⟩,
    ⟨0x02, 7, 4, 3, 1, 3, true, 0, 0, 4294967295, .plain, false⟩,
    ⟨0x03, 7, 4, 1, 1, 1, true, 0, 0, 4294967295, .plain, false⟩,
    ⟨0x04, 27, 8, 1, 1, 1, true, 0, 0, 18446744073709551615, .plain, false⟩,
    ⟨0x05, 27, 8, 1, 1, 1, true, 0, 0, 18446744073709551615, .plain, false⟩]),
  (0x2425, [⟨0x00, 5, 1, 3, 3, 3, false, 0, 0, 255, .selector, false⟩]),
  (0x2426, [⟨0x00, 5, 1, 1, 1, 1, false, 5, 0, 255, .plain, false⟩,
    ⟨0x01, 5, 1, 1, 1, 1, true, 0, 0, 255, .plain, false⟩,
    ⟨0x02, 7, 4, 1, 1, 1, true, 0, 0, 4294967295, .plain, false⟩,
    ⟨0x03, 27, 8, 1, 1, 1, true, 0, 0, 18446744073709551615, .plain, false⟩,
    ⟨0x04, 27, 8, 1, 1, 1, true, 0, 0, 18446744073709551615, .plain, false⟩,
    ⟨0x05, 27, 8, 1, 1, 1, true, 0, 0, 18446744073709551615, .plain, false⟩]),
  (0x2430, [⟨0x00, 5, 1, 3, 3, 3, false, 0, 0, 63, .selector, false⟩])]

def objRows7 : List (Nat × List ObjRow) := [
  (0x2431, [⟨0x00, 5, 1, 1, 1, 1, false, 7, 0, 255, .plain, false⟩,
    ⟨0x01, 7, 4, 1, 1, 1, true, 0, 0, 4294967295, .plain, false⟩,
    ⟨0x02, 7, 4, 1, 1, 1, true, 0, 0, 4294967295, .plain, false⟩,
    ⟨0x03, 7, 4, 3, 0, 3, false, 300, 1, 86400, .plain, false⟩,
    ⟨0x04, 27, 8, 1, 1, 1, true, 0, 0, 18446744073709551615, .plain, false⟩,
    ⟨0x05, 27, 8, 1, 1, 1, true, 0, 0, 18446744073709551615, .plain, false⟩,
    ⟨0x06, 27, 8, 1, 0, 1, false, 0, 0, 18446744073709551615, .plain, false⟩,
    ⟨0x07, 27, 8, 1, 1, 1, true, 0, 0, 18446744073709551615, .plain, false⟩]),
  (0x2432, [⟨0x00, 5, 1, 1, 1, 1, false, 2, 0, 255, .plain, false⟩,
    ⟨0x01, 6, 2, 3, 3, 3, true, 0, 0, 4095, .selector, false⟩,
    ⟨0x02, 7, 4, 3, 3, 3, false, 0, 0, 4294967295, .selector, false⟩]),
  (0x2433, [⟨0x00, 5, 1, 1, 1, 1, false, 6, 0, 255, .plain, false⟩,
    ⟨0x01, 5, 1, 1, 1, 1, true, 0, 0, 255, .plain, false⟩,
    ⟨0x02, 7, 4, 1, 1, 1, true, 0, 0, 4294967295, .plain, false⟩,
    ⟨0x03, 6, 2, 1, 1, 1, true, 0, 0, 65535, .plain, false⟩,
    ⟨0x04, 6, 2, 1, 1, 1, true, 0, 0, 65535, .plain, false⟩,
    ⟨0x05, 7, 4, 1, 1, 1, true, 0, 0, 4294967295, .plain, false⟩,
    ⟨0x06, 5, 1, 3, 3, 3, true, 0, 1, 2, .command, false⟩]),
  (0x2435, [⟨0x00, 5, 1, 1, 0, 1, false, 2, 0, 255, .plain, false⟩,
    ⟨0x01, 7, 4, 3, 0, 3, false, 86400, 1, 86400, .plain, false⟩,
    ⟨0x02, 6, 2, 1, 0, 1, false, 0, 0, 65535, .plain, false⟩]),
  (0x2436, [⟨0x00, 15, 28, 3, 3, 3, true, 0, 0, 262172, .command, true⟩]),
  (0x2440, [⟨0x00, 5, 1, 3, 3, 3, false, 0, 0, 255, .selector, false⟩])]

def objRows8 : List (Nat × List ObjRow) := [
  (0x2441, [⟨0x00, 5, 1, 1, 1, 1, false, 7, 0, 255, .plain, false⟩,
    ⟨0x01, 5, 1, 3, 3, 3, true, 0, 1, 2, .command, false⟩,
    ⟨0x02, 7, 4, 3, 3, 3, true, 0, 0, 4294967295, .param, false⟩,
    ⟨0x03, 5, 1, 1, 1, 1, true, 0, 0, 255, .plain, false⟩,
    ⟨0x04, 7, 4, 1, 1, 1, true, 0, 0, 4294967295, .plain, false⟩,
    ⟨0x05, 7, 4, 1, 1, 1, true, 0, 0, 4294967295, .plain, false⟩,
    ⟨0x06, 6, 2, 1, 1, 1, true, 0, 0, 65535, .plain, false⟩,
    ⟨0x07, 6, 2, 1, 1, 1, true, 0, 0, 65535, .plain, false⟩]),
  (0x2500, [⟨0x00, 5, 1, 1, 1, 1, false, 8, 0, 255, .plain, false⟩,
    ⟨0x01, 6, 2, 3, 0, 3, false, 420, 120, 420, .plain, false⟩,
    ⟨0x02, 5, 1, 1, 0, 1, false, 0, 0, 255, .plain, false⟩,
    ⟨0x03, 6, 2, 1, 0, 1, false, 420, 0, 65535, .plain, false⟩,
    ⟨0x04, 6, 2, 1, 0, 1, false, 0, 0, 65535, .plain, false⟩,
    ⟨0x05, 7, 4, 1, 0, 1, false, 2200, 0, 4294967295, .plain, false⟩,
    ⟨0x06, 5, 1, 1, 1, 1, false, 0, 0, 255, .plain, false⟩,
    ⟨0x07, 5, 1, 1, 0, 1, false, 0, 0, 255, .plain, false⟩,
    ⟨0x08, 7, 4, 1, 0, 1, false, 0, 0, 4294967295, .plain, false⟩]),
  (0x2501, [⟨0x00, 5, 1, 1, 0, 1, false, 3, 0, 255, .plain, false⟩,
    ⟨0x01, 5, 1, 3, 0, 3, false, 0, 0, 1, .plain, false⟩,
    ⟨0x02, 5, 1, 3, 0, 3, false, 6, 0, 6, .plain, false⟩,
    ⟨0x03, 5, 1, 3, 0, 3, false, 255, 0, 255, .plain, false⟩]),
  (0x2502, [⟨0x00, 5, 1, 1, 0, 1, false, 4, 0, 255, .plain, false⟩,
    ⟨0x01, 5, 1, 3, 0, 3, false, 0, 1, 1, .command, false⟩,
    ⟨0x02, 5, 1, 1, 0, 1, false, 0, 0, 255, .plain, false⟩,
    ⟨0x03, 5, 1, 1, 0, 1, false, 0, 0, 255, .plain, false⟩,
    ⟨0x04, 7, 4, 1, 0, 1, false, 0, 0, 4294967295, .plain, false⟩]),
  (0x2503, [⟨0x00, 5, 1, 1, 0, 1, false, 3, 0, 255, .plain, false⟩,
    ⟨0x01, 6, 2, 1, 0, 1, false, 0, 0, 65535, .plain, false⟩,
    ⟨0x02, 6, 2, 1, 0, 1, false, 65535, 0, 65535, .plain, false⟩,
    ⟨0x03, 7, 4, 1, 0, 1, false, 0, 0, 4294967295, .plain, false⟩]),
  (0x2504, [⟨0x00, 5, 1, 1, 0, 1, false, 1, 0, 255, .plain, false⟩,
    ⟨0x01, 6, 2, 1, 0, 1, false, 0, 0, 65535, .plain, false⟩])]

def objRows9 : List (Nat × List ObjRow) := [
  (0x2505, [⟨0x00, 5, 1, 1, 0, 1, false, 4, 0, 255, .plain, false⟩,
    ⟨0x01, 27, 8, 1, 0, 1, false, 0, 0, 18446744073709551615, .plain, false⟩,
    ⟨0x02, 5, 1, 1, 0, 1, false, 0, 0, 255, .plain, false⟩,
    ⟨0x03, 5, 1, 1, 0, 1, false, 0, 0, 255, .plain, false⟩,
    ⟨0x04, 7, 4, 1, 0, 1, false, 0, 0, 4294967295, .plain, false⟩]),
  (0x2510, [⟨0x00, 5, 1, 1, 1, 1, false, 7, 0, 255, .plain, false⟩,
    ⟨0x01, 6, 2, 1, 1, 1, true, 0, 0, 65535, .plain, false⟩,
    ⟨0x02, 6, 2, 1, 0, 1, false, 0, 0, 65535, .plain, false⟩,
    ⟨0x03, 6, 2, 1, 0, 1, false, 0, 0, 65535, .plain, false⟩,
    ⟨0x04, 6, 2, 1, 0, 1, false, 0, 0, 65535, .plain, false⟩,
    ⟨0x05, 8, 4, 1, 0, 1, false, 1065353216, 0, 4294967295, .plain, false⟩,
    ⟨0x06, 27, 8, 1, 0, 1, false, 0, 0, 18446744073709551615, .plain, false⟩,
    ⟨0x07, 27, 8, 1, 0, 1, false, 0, 0, 18446744073709551615, .plain, false⟩]),
  (0x2520, [⟨0x00, 5, 1, 1, 0, 1, false, 2, 0, 255, .plain, false⟩,
    ⟨0x01, 27, 8, 3, 0, 3, false, 0, 0, 18446744073709551615, .command, false⟩,
    ⟨0x02, 7, 4, 1, 0, 1, false, 0, 0, 4294967295, .plain, false⟩]),
  (0x2521, [⟨0x00, 5, 1, 1, 0, 1, false, 6, 0, 255, .plain, false⟩,
    ⟨0x01, 3, 2, 1, 0, 1, false, 0, 0, 65535, .plain, false⟩,
    ⟨0x02, 3, 2, 1, 0, 1, false, 0, 0, 65535, .plain, false⟩,
    ⟨0x03, 3, 2, 1, 0, 1, false, 0, 0, 65535, .plain, false⟩,
    ⟨0x04, 5, 1, 1, 0, 1, false, 0, 0, 255, .plain, false⟩,
    ⟨0x05, 6, 2, 1, 0, 1, false, 0, 0, 65535, .plain, false⟩,
    ⟨0x06, 7, 4, 1, 0, 1, false, 0, 0, 4294967295, .plain, false⟩]),
  (0x2530, [⟨0x00, 5, 1, 1, 1, 1, false, 2, 0, 255, .plain, false⟩,
    ⟨0x01, 7, 4, 3, 0, 3, false, 20, 0, 10000000, .plain, false⟩,
    ⟨0x02, 5, 1, 1, 1, 1, false, 0, 0, 255, .plain, false⟩]),
  (0x2540, [⟨0x00, 5, 1, 1, 0, 1, false, 3, 0, 255, .plain, false⟩,
    ⟨0x01, 5, 1, 3, 0, 3, false, 40, 25, 60, .plain, false⟩,
    ⟨0x02, 6, 2, 1, 0, 1, false, 0, 0, 65535, .plain, false⟩,
    ⟨0x03, 5, 1, 3, 0, 3, false, 1, 0, 1, .plain, false⟩])]

def objRows10 : List (Nat × List ObjRow) := [
  (0x2600, [⟨0x00, 5, 1, 3, 0, 3, false, 0, 0, 7, .selector, false⟩]),
  (0x2601, [⟨0x00, 5, 1, 1, 0, 1, false, 18, 0, 255, .plain, false⟩,
    ⟨0x01, 5, 1, 1, 0, 1, false, 0, 0, 255, .plain, false⟩,
    ⟨0x02, 5, 1, 1, 0, 1, false, 15, 0, 255, .plain, false⟩,
    ⟨0x03, 5, 1, 1, 0, 1, false, 0, 0, 255, .plain, false⟩,
    ⟨0x04, 27, 8, 1, 0, 1, false, 0, 0, 18446744073709551615, .plain, false⟩,
    ⟨0x05, 6, 2, 1, 0, 1, false, 65535, 0, 65535, .plain, false⟩,
    ⟨0x06, 7, 4, 1, 0, 1, false, 0, 0, 4294967295, .plain, false⟩,
    ⟨0x07, 10, 32, 1, 0, 1, false, 0, 0, 115792089237316195423570985008687907853269984665640564039457584007913129639935, .plain, false⟩,
    ⟨0x08, 5, 1, 1, 0, 1, false, 0, 0, 255, .plain, false⟩,
    ⟨0x09, 27, 8, 1, 0, 1, false, 0, 0, 18446744073709551615, .plain, false⟩,
    ⟨0x0A, 27, 8, 1, 0, 1, false, 0, 0, 18446744073709551615, .plain, false⟩,
    ⟨0x0B, 27, 8, 1, 0, 1, false, 0, 0, 18446744073709551615, .plain, false⟩,
    ⟨0x0C, 27, 8, 1, 0, 1, false, 0, 0, 18446744073709551615, .plain, false⟩,
    ⟨0x0D, 27, 8, 1, 0, 1, false, 0, 0, 18446744073709551615, .plain, false⟩,
    ⟨0x0E, 7, 4, 1, 0, 1, false, 0, 0, 4294967295, .plain, false⟩,
    ⟨0x0F, 8, 4, 1, 0, 1, false, 0, 0, 4294967295, .plain, false⟩,
    ⟨0x10, 7, 4, 1, 0, 1, false, 0, 0, 4294967295, .plain, false⟩,
    ⟨0x11, 5, 1, 3, 0, 3, false, 0, 1, 3, .command, false⟩,
    ⟨0x12, 5, 1, 1, 0, 1, false, 0, 0, 255, .plain, false⟩]),
  (0x2610, [⟨0x00, 5, 1, 1, 1, 1, false, 10, 0, 255, .plain, false⟩,
    ⟨0x01, 7, 4, 3, 0, 3, false, 0, 0, 4294967295, .plain, false⟩,
    ⟨0x02, 5, 1, 1, 1, 1, false, 0, 0, 255, .plain, false⟩,
    ⟨0x03, 5, 1, 1, 0, 1, false, 0, 0, 255, .plain, false⟩,
    ⟨0x04, 5, 1, 1, 0, 1, false, 1, 0, 255, .plain, false⟩,
    ⟨0x05, 5, 1, 1, 0, 1, false, 5, 0, 255, .plain, false⟩,
    ⟨0x06, 4, 4, 1, 0, 1, false, 0, 0, 4294967295, .plain, false⟩,
    ⟨0x07, 7, 4, 1, 0, 1, false, 0, 0, 4294967295, .plain, false⟩,
    ⟨0x08, 7, 4, 1, 0, 1, false, 0, 0, 4294967295, .plain, false⟩,
    ⟨0x09, 7, 4, 1, 0, 1, false, 0, 0, 4294967295, .plain, false⟩,
    ⟨0x0A, 7, 4, 1, 0, 1, false, 0, 0, 4294967295, .plain, false⟩]),
  (0x2611, [⟨0x00, 5, 1, 1, 0, 1, false, 1, 0, 255, .plain, false⟩,
    ⟨0x01, 5, 1, 3, 0, 3, false, 1, 0, 1, .plain, false⟩]),
  (0x2612, [⟨0x00, 5, 1, 1, 0, 1, false, 8, 0, 255, .plain, false⟩,
    ⟨0x01, 5, 1, 1, 0, 1, false, 255, 0, 255, .plain, false⟩,
    ⟨0x02, 5, 1, 1, 0, 1, false, 255, 0, 255, .plain, false⟩,
    ⟨0x03, 5, 1, 1, 0, 1, false, 255, 0, 255, .plain, false⟩,
    ⟨0x04, 5, 1, 1, 0, 1, false, 255, 0, 255, .plain, false⟩,
    ⟨0x05, 5, 1, 1, 0, 1, false, 255, 0, 255, .plain, false⟩,
    ⟨0x06, 5, 1, 1, 0, 1, false, 255, 0, 255, .plain, false⟩,
    ⟨0x07, 5, 1, 1, 0, 1, false, 255, 0, 255, .plain, false⟩,
    ⟨0x08, 5, 1, 1, 0, 1, false, 255, 0, 255, .plain, false⟩]),
  (0x2620, [⟨0x00, 5, 1, 1, 1, 1, false, 12, 0, 255, .plain, false⟩,
    ⟨0x01, 5, 1, 3, 0, 3, false, 0, 0, 2, .plain, false⟩,
    ⟨0x02, 27, 8, 3, 0, 3, false, 0, 0, 18446744073709551615, .plain, false⟩,
    ⟨0x03, 5, 1, 3, 0, 3, false, 7, 0, 7, .plain, false⟩,
    ⟨0x04, 6, 2, 3, 0, 3, false, 60, 10, 3600, .plain, false⟩,
    ⟨0x05, 6, 2, 3, 0, 3, false, 150, 0, 65535, .plain, false⟩,
    ⟨0x06, 5, 1, 1, 0, 1, false, 0, 0, 255, .plain, false⟩,
    ⟨0x07, 5, 1, 1, 1, 1, false, 0, 0, 255, .plain, false⟩,
    ⟨0x08, 7, 4, 1, 0, 1, false, 0, 0, 4294967295, .plain, false⟩,
    ⟨0x09, 27, 8, 1, 0, 1, false, 18446744073709551615, 0, 18446744073709551615, .plain, false⟩,
    ⟨0x0A, 6, 2, 1, 0, 1, false, 0, 0, 65535, .plain, false⟩,
    ⟨0x0B, 5, 1, 3, 0, 3, false, 0, 1, 3, .command, false⟩,
    ⟨0x0C, 5, 1, 1, 0, 1, false, 0, 0, 255, .plain, false⟩])]

def objRows11 : List (Nat × List ObjRow) := [
  (0x2621, [⟨0x00, 5, 1, 1, 0, 1, false, 6, 0, 255, .plain, false⟩,
    ⟨0x01, 27, 8, 1, 0, 1, false, 0, 0, 18446744073709551615, .plain, false⟩,
    ⟨0x02, 27, 8, 1, 0, 1, false, 0, 0, 18446744073709551615, .plain, false⟩,
    ⟨0x03, 27, 8, 1, 0, 1, false, 0, 0, 18446744073709551615, .plain, false⟩,
    ⟨0x04, 27, 8, 1, 0, 1, false, 18446744073709551615, 0, 18446744073709551615, .plain, false⟩,
    ⟨0x05, 7, 4, 1, 0, 1, false, 0, 0, 4294967295, .plain, false⟩,
    ⟨0x06, 27, 8, 1, 0, 1, false, 0, 0, 18446744073709551615, .plain, false⟩]),
  (0x2700, [⟨0x00, 5, 1, 1, 1, 1, false, 10, 0, 255, .plain, false⟩,
    ⟨0x01, 5, 1, 1, 1, 1, false, 0, 0, 255, .plain, false⟩,
    ⟨0x02, 27, 8, 1, 1, 1, false, 0, 0, 18446744073709551615, .plain, false⟩,
    ⟨0x03, 15, 6516, 1, 1, 1, false, 0, 0, 6516, .plain, true⟩,
    ⟨0x04, 10, 1312, 1, 1, 1, false, 0, 0, 1312, .plain, true⟩,
    ⟨0x05, 10, 1184, 1, 1, 1, false, 0, 0, 1184, .plain, true⟩,
    ⟨0x06, 7, 4, 1, 1, 1, false, 0, 0, 4294967295, .plain, false⟩,
    ⟨0x07, 27, 8, 1, 1, 1, false, 0, 0, 18446744073709551615, .plain, false⟩,
    ⟨0x08, 5, 1, 1, 1, 1, false, 1, 0, 255, .plain, false⟩,
    ⟨0x09, 27, 8, 1, 0, 1, false, 0, 0, 18446744073709551615, .plain, false⟩,
    ⟨0x0A, 7, 4, 1, 1, 1, false, 0, 0, 4294967295, .plain, false⟩]),
  (0x2701, [⟨0x00, 5, 1, 1, 1, 1, false, 16, 0, 255, .plain, false⟩,
    ⟨0x01, 10, 32, 1, 1, 1, false, 0, 0, 115792089237316195423570985008687907853269984665640564039457584007913129639935, .plain, false⟩,
    ⟨0x02, 10, 32, 1, 1, 1, false, 0, 0, 115792089237316195423570985008687907853269984665640564039457584007913129639935, .plain, false⟩,
    ⟨0x03, 10, 32, 1, 1, 1, false, 0, 0, 115792089237316195423570985008687907853269984665640564039457584007913129639935, .plain, false⟩,
    ⟨0x04, 10, 32, 1, 1, 1, false, 0, 0, 115792089237316195423570985008687907853269984665640564039457584007913129639935, .plain, false⟩,
    ⟨0x05, 10, 32, 1, 1, 1, false, 0, 0, 115792089237316195423570985008687907853269984665640564039457584007913129639935, .plain, false⟩,
    ⟨0x06, 10, 32, 1, 1, 1, false, 0, 0, 115792089237316195423570985008687907853269984665640564039457584007913129639935, .plain, false⟩,
    ⟨0x07, 10, 32, 1, 1, 1, false, 0, 0, 115792089237316195423570985008687907853269984665640564039457584007913129639935, .plain, false⟩,
    ⟨0x08, 10, 32, 1, 1, 1, false, 0, 0, 115792089237316195423570985008687907853269984665640564039457584007913129639935, .plain, false⟩,
    ⟨0x09, 10, 32, 1, 1, 1, false, 0, 0, 115792089237316195423570985008687907853269984665640564039457584007913129639935, .plain, false⟩,
    ⟨0x0A, 10, 32, 1, 1, 1, false, 0, 0, 115792089237316195423570985008687907853269984665640564039457584007913129639935, .plain, false⟩,
    ⟨0x0B, 10, 32, 1, 1, 1, false, 0, 0, 115792089237316195423570985008687907853269984665640564039457584007913129639935, .plain, false⟩,
    ⟨0x0C, 10, 32, 1, 1, 1, false, 0, 0, 115792089237316195423570985008687907853269984665640564039457584007913129639935, .plain, false⟩,
    ⟨0x0D, 10, 32, 1, 1, 1, false, 0, 0, 115792089237316195423570985008687907853269984665640564039457584007913129639935, .plain, false⟩,
    ⟨0x0E, 10, 32, 1, 1, 1, false, 0, 0, 115792089237316195423570985008687907853269984665640564039457584007913129639935, .plain, false⟩,
    ⟨0x0F, 10, 32, 1, 1, 1, false, 0, 0, 115792089237316195423570985008687907853269984665640564039457584007913129639935, .plain, false⟩,
    ⟨0x10, 10, 32, 1, 1, 1, false, 0, 0, 115792089237316195423570985008687907853269984665640564039457584007913129639935, .plain, false⟩]),
  (0x2702, [⟨0x00, 5, 1, 1, 1, 1, false, 3, 0, 255, .plain, false⟩,
    ⟨0x01, 15, 49160, 1, 1, 1, false, 0, 0, 49160, .plain, true⟩,
    ⟨0x02, 10, 33, 2, 0, 2, false, 0, 33, 33, .command, true⟩,
    ⟨0x03, 5, 1, 1, 0, 1, false, 0, 0, 255, .plain, false⟩]),
  (0x2703, [⟨0x00, 5, 1, 3, 3, 3, false, 0, 0, 7, .selector, false⟩]),
  (0x2704, [⟨0x00, 5, 1, 1, 1, 1, false, 5, 0, 255, .plain, false⟩,
    ⟨0x01, 10, 32, 3, 3, 3, true, 0, 0, 115792089237316195423570985008687907853269984665640564039457584007913129639935, .plain, false⟩,
    ⟨0x02, 5, 1, 3, 3, 3, true, 0, 1, 2, .command, false⟩,
    ⟨0x03, 5, 1, 1, 1, 1, true, 0, 0, 255, .plain, false⟩,
    ⟨0x04, 15, 656, 1, 1, 1, true, 0, 0, 656, .plain, true⟩,
    ⟨0x05, 6, 2, 1, 1, 1, false, 65535, 0, 65535, .plain, false⟩])]

def objRows12 : List (Nat × List ObjRow) := [
  (0x2710, [⟨0x00, 5, 1, 1, 1, 1, false, 3, 0, 255, .plain, false⟩,
    ⟨0x01, 15, 4960, 2, 2, 2, true, 0, 4960, 4960, .command, true⟩,
    ⟨0x02, 5, 1, 1, 1, 1, false, 0, 0, 255, .plain, false⟩,
    ⟨0x03, 5, 1, 1, 1, 1, false, 0, 0, 255, .plain, false⟩]),
  (0x2712, [⟨0x00, 5, 1, 1, 0, 1, false, 1, 0, 255, .plain, false⟩,
    ⟨0x01, 6, 2, 3, 0, 3, false, 24, 1, 168, .plain, false⟩]),
  (0x2720, [⟨0x00, 5, 1, 1, 0, 1, false, 9, 0, 255, .plain, false⟩,
    ⟨0x01, 10, 1312, 1, 0, 1, false, 0, 0, 1312, .plain, true⟩,
    ⟨0x02, 10, 1312, 3, 0, 3, false, 0, 0, 1312, .command, true⟩,
    ⟨0x03, 10, 1312, 3, 0, 3, false, 0, 0, 1312, .command, true⟩,
    ⟨0x04, 10, 1312, 3, 0, 3, false, 0, 0, 1312, .command, true⟩,
    ⟨0x05, 10, 1312, 3, 0, 3, false, 0, 0, 1312, .command, true⟩,
    ⟨0x06, 10, 1312, 3, 0, 3, false, 0, 0, 1312, .command, true⟩,
    ⟨0x07, 10, 1312, 3, 0, 3, false, 0, 0, 1312, .command, true⟩,
    ⟨0x08, 10, 1312, 3, 0, 3, false, 0, 0, 1312, .command, true⟩,
    ⟨0x09, 5, 1, 1, 0, 1, false, 0, 0, 255, .plain, false⟩]),
  (0x2721, [⟨0x00, 5, 1, 1, 0, 1, false, 2, 0, 255, .plain, false⟩,
    ⟨0x01, 15, 8, 3, 0, 3, false, 0, 0, 512, .plain, true⟩,
    ⟨0x02, 10, 1312, 3, 0, 3, false, 0, 0, 1312, .plain, true⟩]),
  (0x2722, [⟨0x00, 5, 1, 1, 1, 1, false, 2, 0, 255, .plain, false⟩,
    ⟨0x01, 5, 1, 1, 1, 1, false, 0, 0, 255, .plain, false⟩,
    ⟨0x02, 7, 4, 1, 0, 1, false, 0, 0, 4294967295, .plain, false⟩]),
  (0x2730, [⟨0x00, 5, 1, 1, 0, 1, false, 1, 0, 255, .plain, false⟩,
    ⟨0x01, 27, 8, 1, 0, 1, false, 0, 0, 18446744073709551615, .plain, false⟩])]

def objRows13 : List (Nat × List ObjRow) := [
  (0x2800, [⟨0x00, 5, 1, 3, 0, 3, false, 0, 0, 4, .selector, false⟩]),
  (0x2801, [⟨0x00, 5, 1, 1, 1, 1, false, 14, 0, 255, .plain, false⟩,
    ⟨0x01, 5, 1, 1, 0, 1, false, 0, 0, 255, .plain, false⟩,
    ⟨0x02, 7, 4, 1, 1, 1, false, 0, 0, 4294967295, .plain, false⟩,
    ⟨0x03, 7, 4, 1, 0, 1, false, 0, 0, 4294967295, .plain, false⟩,
    ⟨0x04, 7, 4, 1, 0, 1, false, 0, 0, 4294967295, .plain, false⟩,
    ⟨0x05, 5, 1, 1, 0, 1, false, 0, 0, 255, .plain, false⟩,
    ⟨0x06, 5, 1, 1, 0, 1, false, 0, 0, 255, .plain, false⟩,
    ⟨0x07, 7, 4, 1, 0, 1, false, 0, 0, 4294967295, .plain, false⟩,
    ⟨0x08, 5, 1, 3, 0, 3, false, 0, 1, 4, .command, false⟩,
    ⟨0x09, 7, 4, 3, 0, 3, false, 0, 0, 4294967295, .param, false⟩,
    ⟨0x0A, 5, 1, 1, 0, 1, false, 0, 0, 255, .plain, false⟩,
    ⟨0x0B, 6, 2, 1, 0, 1, false, 0, 0, 65535, .plain, false⟩,
    ⟨0x0C, 27, 8, 1, 0, 1, false, 18446744073709551615, 0, 18446744073709551615, .plain, false⟩,
    ⟨0x0D, 7, 4, 1, 0, 1, false, 0, 0, 4294967295, .plain, false⟩,
    ⟨0x0E, 15, 128, 1, 0, 1, false, 0, 0, 128, .plain, true⟩]),
  (0x2802, [⟨0x00, 5, 1, 1, 0, 1, false, 2, 0, 255, .plain, false⟩,
    ⟨0x01, 5, 1, 1, 0, 1, false, 255, 0, 255, .plain, false⟩,
    ⟨0x02, 5, 1, 1, 0, 1, false, 0, 0, 255, .plain, false⟩]),
  (0x2810, [⟨0x00, 5, 1, 3, 0, 3, false, 0, 0, 7, .selector, false⟩]),
  (0x2811, [⟨0x00, 5, 1, 1, 0, 1, false, 6, 0, 255, .plain, false⟩,
    ⟨0x01, 5, 1, 1, 0, 1, false, 0, 0, 255, .plain, false⟩,
    ⟨0x02, 7, 4, 1, 0, 1, false, 0, 0, 4294967295, .plain, false⟩,
    ⟨0x03, 27, 8, 1, 0, 1, false, 18446744073709551615, 0, 18446744073709551615, .plain, false⟩,
    ⟨0x04, 5, 1, 1, 0, 1, false, 0, 0, 255, .plain, false⟩,
    ⟨0x05, 5, 1, 1, 0, 1, false, 0, 0, 255, .plain, false⟩,
    ⟨0x06, 7, 4, 1, 0, 1, false, 0, 0, 4294967295, .plain, false⟩]),
  (0x2812, [⟨0x00, 5, 1, 1, 0, 1, false, 4, 0, 255, .plain, false⟩,
    ⟨0x01, 5, 1, 1, 0, 1, false, 15, 0, 255, .plain, false⟩,
    ⟨0x02, 7, 4, 1, 0, 1, false, 0, 0, 4294967295, .plain, false⟩,
    ⟨0x03, 5, 1, 1, 0, 1, false, 0, 0, 255, .plain, false⟩,
    ⟨0x04, 5, 1, 0, 0, 2, false, 0, 1, 7, .command, false⟩])]

def objRows14 : List (Nat × List ObjRow) := [
  (0x2900, [⟨0x00, 5, 1, 1, 0, 1, false, 12, 0, 255, .plain, false⟩,
    ⟨0x01, 27, 8, 1, 0, 1, false, 0, 0, 18446744073709551615, .plain, false⟩,
    ⟨0x02, 27, 8, 1, 0, 1, false, 0, 0, 18446744073709551615, .plain, false⟩,
    ⟨0x03, 7, 4, 1, 0, 1, false, 0, 0, 4294967295, .plain, false⟩,
    ⟨0x04, 7, 4, 1, 0, 1, false, 0, 0, 4294967295, .plain, false⟩,
    ⟨0x05, 3, 2, 1, 0, 1, false, 0, 0, 65535, .plain, false⟩,
    ⟨0x06, 7, 4, 1, 0, 1, false, 0, 0, 4294967295, .plain, false⟩,
    ⟨0x07, 7, 4, 1, 0, 1, false, 0, 0, 4294967295, .plain, false⟩,
    ⟨0x08, 7, 4, 1, 0, 1, false, 0, 0, 4294967295, .plain, false⟩,
    ⟨0x09, 7, 4, 1, 0, 1, false, 0, 0, 4294967295, .plain, false⟩,
    ⟨0x0A, 27, 8, 1, 0, 1, false, 0, 0, 18446744073709551615, .plain, false⟩,
    ⟨0x0B, 6, 2, 1, 0, 1, false, 0, 0, 65535, .plain, false⟩,
    ⟨0x0C, 7, 4, 1, 0, 1, false, 0, 0, 4294967295, .plain, false⟩]),
  (0x2901, [⟨0x00, 5, 1, 1, 0, 1, false, 4, 0, 255, .plain, false⟩,
    ⟨0x01, 27, 8, 1, 0, 1, false, 0, 0, 18446744073709551615, .plain, false⟩,
    ⟨0x02, 5, 1, 1, 0, 1, false, 0, 0, 255, .plain, false⟩,
    ⟨0x03, 27, 8, 3, 0, 3, false, 0, 0, 18446744073709551615, .command, false⟩,
    ⟨0x04, 27, 8, 1, 0, 1, false, 18446744073709551615, 0, 18446744073709551615, .plain, false⟩]),
  (0x2902, [⟨0x00, 5, 1, 1, 0, 1, false, 6, 0, 255, .plain, false⟩,
    ⟨0x01, 5, 1, 1, 0, 1, false, 0, 0, 255, .plain, false⟩,
    ⟨0x02, 5, 1, 1, 0, 1, false, 0, 0, 255, .plain, false⟩,
    ⟨0x03, 15, 384, 1, 0, 1, false, 0, 0, 384, .plain, true⟩,
    ⟨0x04, 5, 1, 3, 0, 3, false, 0, 1, 24, .command, false⟩,
    ⟨0x05, 5, 1, 1, 0, 1, false, 0, 0, 255, .plain, false⟩,
    ⟨0x06, 7, 4, 1, 0, 1, false, 0, 0, 4294967295, .plain, false⟩]),
  (0x2903, [⟨0x00, 5, 1, 1, 0, 1, false, 3, 0, 255, .plain, false⟩,
    ⟨0x01, 5, 1, 3, 0, 3, false, 0, 1, 2, .command, false⟩,
    ⟨0x02, 5, 1, 1, 0, 1, false, 0, 0, 255, .plain, false⟩,
    ⟨0x03, 6, 2, 1, 0, 1, false, 0, 0, 65535, .plain, false⟩]),
  (0x2910, [⟨0x00, 5, 1, 1, 0, 1, false, 9, 0, 255, .plain, false⟩,
    ⟨0x01, 5, 1, 1, 0, 1, false, 15, 0, 255, .plain, false⟩,
    ⟨0x02, 7, 4, 1, 0, 1, false, 0, 0, 4294967295, .plain, false⟩,
    ⟨0x03, 6, 2, 1, 0, 1, false, 0, 0, 65535, .plain, false⟩,
    ⟨0x04, 5, 1, 1, 0, 1, false, 0, 0, 255, .plain, false⟩,
    ⟨0x05, 5, 1, 1, 0, 1, false, 0, 0, 255, .plain, false⟩,
    ⟨0x06, 5, 1, 1, 0, 1, false, 0, 0, 255, .plain, false⟩,
    ⟨0x07, 7, 4, 1, 0, 1, false, 0, 0, 4294967295, .plain, false⟩,
    ⟨0x08, 6, 2, 1, 0, 1, false, 432, 0, 65535, .plain, false⟩,
    ⟨0x09, 7, 4, 1, 0, 1, false, 0, 0, 4294967295, .plain, false⟩]),
  (0x2911, [⟨0x00, 5, 1, 1, 0, 1, false, 2, 0, 255, .plain, false⟩,
    ⟨0x01, 5, 1, 3, 0, 3, false, 255, 0, 255, .command, false⟩,
    ⟨0x02, 5, 1, 1, 0, 1, false, 0, 0, 255, .plain, false⟩])]

def objRows15 : List (Nat × List ObjRow) := [
  (0x2920, [⟨0x00, 6, 2, 3, 0, 3, false, 0, 0, 2111, .selector, false⟩]),
  (0x2921, [⟨0x00, 5, 1, 1, 0, 1, false, 5, 0, 255, .plain, false⟩,
    ⟨0x01, 7, 4, 1, 0, 1, false, 0, 0, 4294967295, .plain, false⟩,
    ⟨0x02, 6, 2, 1, 0, 1, false, 0, 0, 65535, .plain, false⟩,
    ⟨0x03, 5, 1, 1, 0, 1, false, 0, 0, 255, .plain, false⟩,
    ⟨0x04, 5, 1, 1, 0, 1, false, 0, 0, 255, .plain, false⟩,
    ⟨0x05, 6, 2, 1, 0, 1, false, 65535, 0, 65535, .plain, false⟩]),
  (0x2930, [⟨0x00, 5, 1, 1, 0, 1, false, 9, 0, 255, .plain, false⟩,
    ⟨0x01, 27, 8, 1, 0, 1, false, 0, 0, 18446744073709551615, .plain, false⟩,
    ⟨0x02, 27, 8, 1, 0, 1, false, 0, 0, 18446744073709551615, .plain, false⟩,
    ⟨0x03, 27, 8, 1, 0, 1, false, 0, 0, 18446744073709551615, .plain, false⟩,
    ⟨0x04, 27, 8, 1, 0, 1, false, 0, 0, 18446744073709551615, .plain, false⟩,
    ⟨0x05, 5, 1, 1, 0, 1, false, 0, 0, 255, .plain, false⟩,
    ⟨0x06, 27, 8, 1, 0, 1, false, 18446744073709551615, 0, 18446744073709551615, .plain, false⟩,
    ⟨0x07, 7, 4, 1, 0, 1, false, 0, 0, 4294967295, .plain, false⟩,
    ⟨0x08, 6, 2, 1, 0, 1, false, 0, 0, 65535, .plain, false⟩,
    ⟨0x09, 6, 2, 1, 0, 1, false, 0, 0, 65535, .plain, false⟩]),
  (0x2931, [⟨0x00, 6, 2, 3, 0, 3, false, 65535, 0, 2047, .command, false⟩]),
  (0x2932, [⟨0x00, 5, 1, 1, 0, 1, false, 0, 0, 255, .plain, false⟩]),
  (0x2933, [⟨0x00, 5, 1, 1, 0, 1, false, 2, 0, 255, .plain, false⟩,
    ⟨0x01, 7, 4, 3, 0, 3, false, 10000, 1, 4294967295, .atOnce, false⟩,
    ⟨0x02, 6, 2, 3, 0, 3, false, 900, 1, 1000, .atOnce, false⟩])]

def objRows16 : List (Nat × List ObjRow) := [
  (0x2A00, [⟨0x00, 5, 1, 1, 0, 1, false, 5, 0, 255, .plain, false⟩,
    ⟨0x01, 15, 65536, 1, 0, 1, false, 0, 0, 65536, .plain, true⟩,
    ⟨0x02, 7, 4, 1, 0, 1, false, 0, 0, 4294967295, .plain, false⟩,
    ⟨0x03, 7, 4, 1, 0, 1, false, 0, 0, 4294967295, .plain, false⟩,
    ⟨0x04, 5, 1, 3, 0, 3, false, 1, 0, 2, .atOnce, false⟩,
    ⟨0x05, 7, 4, 1, 0, 1, false, 0, 0, 4294967295, .plain, false⟩]),
  (0x2A01, [⟨0x00, 5, 1, 1, 0, 1, false, 2, 0, 255, .plain, false⟩,
    ⟨0x01, 15, 8388608, 1, 0, 1, false, 0, 0, 8388608, .plain, true⟩,
    ⟨0x02, 7, 4, 1, 0, 1, false, 0, 0, 4294967295, .plain, false⟩]),
  (0x2A10, [⟨0x00, 5, 1, 1, 0, 1, false, 6, 0, 255, .plain, false⟩,
    ⟨0x01, 10, 32, 3, 0, 3, false, 0, 0, 115792089237316195423570985008687907853269984665640564039457584007913129639935, .atOnce, false⟩,
    ⟨0x02, 5, 1, 3, 0, 3, false, 0, 0, 1, .atOnce, false⟩,
    ⟨0x03, 15, 65536, 1, 0, 1, false, 0, 0, 65536, .plain, true⟩,
    ⟨0x04, 5, 1, 3, 0, 3, false, 0, 1, 3, .command, false⟩,
    ⟨0x05, 7, 4, 1, 0, 1, false, 0, 0, 4294967295, .plain, false⟩,
    ⟨0x06, 5, 1, 1, 0, 1, false, 0, 0, 255, .plain, false⟩]),
  (0x2A20, [⟨0x00, 5, 1, 1, 0, 1, false, 5, 0, 255, .plain, false⟩,
    ⟨0x01, 27, 8, 1, 0, 1, false, 0, 0, 18446744073709551615, .plain, false⟩,
    ⟨0x02, 27, 8, 1, 0, 1, false, 0, 0, 18446744073709551615, .plain, false⟩,
    ⟨0x03, 27, 8, 1, 0, 1, false, 0, 0, 18446744073709551615, .plain, false⟩,
    ⟨0x04, 7, 4, 1, 0, 1, false, 4294967295, 0, 4294967295, .plain, false⟩,
    ⟨0x05, 27, 8, 1, 0, 1, false, 18446744073709551615, 0, 18446744073709551615, .plain, false⟩]),
  (0x2A30, [⟨0x00, 5, 1, 1, 0, 1, false, 6, 0, 255, .plain, false⟩,
    ⟨0x01, 27, 8, 1, 0, 1, false, 0, 0, 18446744073709551615, .plain, false⟩,
    ⟨0x02, 27, 8, 1, 0, 1, false, 0, 0, 18446744073709551615, .plain, false⟩,
    ⟨0x03, 27, 8, 1, 0, 1, false, 0, 0, 18446744073709551615, .plain, false⟩,
    ⟨0x04, 27, 8, 1, 0, 1, false, 0, 0, 18446744073709551615, .plain, false⟩,
    ⟨0x05, 7, 4, 1, 0, 1, false, 4294967295, 0, 4294967295, .plain, false⟩,
    ⟨0x06, 27, 8, 1, 0, 1, false, 18446744073709551615, 0, 18446744073709551615, .plain, false⟩]),
  (0x2A31, [⟨0x00, 6, 2, 3, 0, 3, false, 0, 0, 2047, .selector, false⟩])]

def objRows17 : List (Nat × List ObjRow) := [
  (0x2A32, [⟨0x00, 5, 1, 1, 0, 1, false, 3, 0, 255, .plain, false⟩,
    ⟨0x01, 7, 4, 1, 0, 1, false, 0, 0, 4294967295, .plain, false⟩,
    ⟨0x02, 7, 4, 1, 0, 1, false, 0, 0, 4294967295, .plain, false⟩,
    ⟨0x03, 7, 4, 1, 0, 1, false, 0, 0, 4294967295, .plain, false⟩]),
  (0x2A34, [⟨0x00, 5, 1, 1, 0, 1, false, 8, 0, 255, .plain, false⟩,
    ⟨0x01, 27, 8, 1, 0, 1, false, 0, 0, 18446744073709551615, .plain, false⟩,
    ⟨0x02, 27, 8, 1, 0, 1, false, 0, 0, 18446744073709551615, .plain, false⟩,
    ⟨0x03, 27, 8, 1, 0, 1, false, 0, 0, 18446744073709551615, .plain, false⟩,
    ⟨0x04, 27, 8, 1, 0, 1, false, 0, 0, 18446744073709551615, .plain, false⟩,
    ⟨0x05, 27, 8, 1, 0, 1, false, 0, 0, 18446744073709551615, .plain, false⟩,
    ⟨0x06, 27, 8, 1, 0, 1, false, 0, 0, 18446744073709551615, .plain, false⟩,
    ⟨0x07, 7, 4, 1, 0, 1, false, 4294967295, 0, 4294967295, .plain, false⟩,
    ⟨0x08, 27, 8, 1, 0, 1, false, 18446744073709551615, 0, 18446744073709551615, .plain, false⟩]),
  (0x2A40, [⟨0x00, 5, 1, 1, 0, 1, false, 2, 0, 255, .plain, false⟩,
    ⟨0x01, 7, 4, 1, 0, 1, false, 0, 0, 4294967295, .plain, false⟩,
    ⟨0x02, 7, 4, 1, 0, 1, false, 0, 0, 4294967295, .plain, false⟩]),
  (0x2A41, [⟨0x00, 5, 1, 3, 0, 3, false, 1, 1, 17, .selector, false⟩]),
  (0x2A42, [⟨0x00, 5, 1, 1, 0, 1, false, 4, 0, 255, .plain, false⟩,
    ⟨0x01, 7, 4, 1, 0, 1, false, 0, 0, 4294967295, .plain, false⟩,
    ⟨0x02, 27, 8, 1, 0, 1, false, 18446744073709551615, 0, 18446744073709551615, .plain, false⟩,
    ⟨0x03, 27, 8, 1, 0, 1, false, 0, 0, 18446744073709551615, .plain, false⟩,
    ⟨0x04, 7, 4, 1, 0, 1, false, 0, 0, 4294967295, .plain, false⟩]),
  (0x2B00, [⟨0x00, 5, 1, 1, 0, 1, false, 6, 0, 255, .plain, false⟩,
    ⟨0x01, 7, 4, 1, 0, 1, false, 65537, 0, 4294967295, .plain, false⟩,
    ⟨0x02, 27, 8, 1, 0, 1, false, 23605542912, 0, 18446744073709551615, .plain, false⟩,
    ⟨0x03, 7, 4, 1, 0, 1, false, 0, 0, 4294967295, .plain, false⟩,
    ⟨0x04, 6, 2, 1, 0, 1, false, 3900, 0, 65535, .plain, false⟩,
    ⟨0x05, 27, 8, 1, 0, 1, false, 0, 0, 18446744073709551615, .plain, false⟩,
    ⟨0x06, 6, 2, 1, 0, 1, false, 0, 0, 65535, .plain, false⟩])]

def objRows18 : List (Nat × List ObjRow) := [
  (0x2B01, [⟨0x00, 5, 1, 1, 0, 1, false, 8, 0, 255, .plain, false⟩,
    ⟨0x01, 2, 1, 1, 0, 1, false, 0, 0, 255, .plain, false⟩,
    ⟨0x02, 2, 1, 1, 0, 1, false, 0, 0, 255, .plain, false⟩,
    ⟨0x03, 2, 1, 1, 0, 1, false, 0, 0, 255, .plain, false⟩,
    ⟨0x04, 2, 1, 1, 0, 1, false, 0, 0, 255, .plain, false⟩,
    ⟨0x05, 2, 1, 1, 0, 1, false, 0, 0, 255, .plain, false⟩,
    ⟨0x06, 2, 1, 1, 0, 1, false, 0, 0, 255, .plain, false⟩,
    ⟨0x07, 2, 1, 1, 0, 1, false, 0, 0, 255, .plain, false⟩,
    ⟨0x08, 2, 1, 1, 0, 1, false, 0, 0, 255, .plain, false⟩]),
  (0x2B10, [⟨0x00, 5, 1, 1, 0, 1, false, 5, 0, 255, .plain, false⟩,
    ⟨0x01, 6, 2, 3, 0, 3, false, 24, 1, 168, .plain, false⟩,
    ⟨0x02, 27, 8, 1, 0, 1, false, 0, 0, 18446744073709551615, .plain, false⟩,
    ⟨0x03, 27, 8, 1, 0, 1, false, 0, 0, 18446744073709551615, .plain, false⟩,
    ⟨0x04, 7, 4, 1, 0, 1, false, 0, 0, 4294967295, .plain, false⟩,
    ⟨0x05, 7, 4, 1, 0, 1, false, 0, 0, 4294967295, .plain, false⟩]),
  (0x2B20, [⟨0x00, 5, 1, 1, 0, 1, false, 6, 0, 255, .plain, false⟩,
    ⟨0x01, 27, 8, 1, 0, 1, false, 0, 0, 18446744073709551615, .plain, false⟩,
    ⟨0x02, 27, 8, 1, 0, 1, false, 0, 0, 18446744073709551615, .plain, false⟩,
    ⟨0x03, 27, 8, 1, 0, 1, false, 0, 0, 18446744073709551615, .plain, false⟩,
    ⟨0x04, 27, 8, 1, 0, 1, false, 0, 0, 18446744073709551615, .plain, false⟩,
    ⟨0x05, 7, 4, 1, 0, 1, false, 4294967295, 0, 4294967295, .plain, false⟩,
    ⟨0x06, 27, 8, 1, 0, 1, false, 18446744073709551615, 0, 18446744073709551615, .plain, false⟩]),
  (0x2B30, [⟨0x00, 5, 1, 1, 0, 1, false, 6, 0, 255, .plain, false⟩,
    ⟨0x01, 6, 2, 1, 0, 1, false, 0, 0, 65535, .plain, false⟩,
    ⟨0x02, 6, 2, 1, 0, 1, false, 0, 0, 65535, .plain, false⟩,
    ⟨0x03, 6, 2, 1, 0, 1, false, 0, 0, 65535, .plain, false⟩,
    ⟨0x04, 6, 2, 1, 0, 1, false, 0, 0, 65535, .plain, false⟩,
    ⟨0x05, 6, 2, 1, 0, 1, false, 0, 0, 65535, .plain, false⟩,
    ⟨0x06, 6, 2, 1, 0, 1, false, 0, 0, 65535, .plain, false⟩]),
  (0x2B31, [⟨0x00, 5, 1, 3, 0, 3, false, 0, 1, 1, .command, false⟩]),
  (0x2B40, [⟨0x00, 5, 1, 1, 1, 1, false, 9, 0, 255, .plain, false⟩,
    ⟨0x01, 6, 2, 3, 0, 3, false, 0, 0, 65535, .plain, false⟩,
    ⟨0x02, 5, 1, 3, 3, 3, true, 0, 1, 3, .command, false⟩,
    ⟨0x03, 27, 8, 3, 3, 3, false, 0, 1, 931135488, .param, false⟩,
    ⟨0x04, 5, 1, 3, 3, 3, false, 0, 0, 2, .param, false⟩,
    ⟨0x05, 5, 1, 3, 3, 3, true, 0, 0, 255, .param, false⟩,
    ⟨0x06, 5, 1, 1, 1, 1, false, 0, 0, 255, .plain, false⟩,
    ⟨0x07, 7, 4, 3, 3, 3, false, 0, 0, 4294967295, .param, false⟩,
    ⟨0x08, 27, 8, 1, 1, 1, false, 931135488, 0, 18446744073709551615, .plain, false⟩,
    ⟨0x09, 27, 8, 1, 0, 1, false, 0, 0, 18446744073709551615, .plain, false⟩])]

def objRows19 : List (Nat × List ObjRow) := [
  (0x2B41, [⟨0x00, 7, 4, 3, 3, 3, false, 0, 0, 4294967295, .selector, false⟩]),
  (0x2B42, [⟨0x00, 5, 1, 1, 1, 1, false, 5, 0, 255, .plain, false⟩,
    ⟨0x01, 5, 1, 1, 1, 1, true, 0, 0, 255, .plain, false⟩,
    ⟨0x02, 5, 1, 1, 1, 1, true, 0, 0, 255, .plain, false⟩,
    ⟨0x03, 27, 8, 1, 1, 1, true, 0, 0, 18446744073709551615, .plain, false⟩,
    ⟨0x04, 27, 8, 1, 1, 1, true, 0, 0, 18446744073709551615, .plain, false⟩,
    ⟨0x05, 27, 8, 1, 1, 1, true, 18446744073709551615, 0, 18446744073709551615, .plain, false⟩])]

/-- Every entry of the dictionary by index (Table 12-13). -/
def objTable : List (Nat × List ObjRow) :=
  objRows0 ++ objRows1 ++ objRows2 ++ objRows3 ++ objRows4 ++ objRows5 ++ objRows6 ++ objRows7 ++ objRows8 ++ objRows9 ++ objRows10 ++ objRows11 ++ objRows12 ++ objRows13 ++ objRows14 ++ objRows15 ++ objRows16 ++ objRows17 ++ objRows18 ++ objRows19

/-- Whether an index exists (R404). -/
def objIndexExists (idx : Nat) : Bool := objTable.any (fun e => e.1 == idx)

/-- The entry of an object. -/
def objRow (idx sub : Nat) : Option ObjRow :=
  match objTable.find? (fun e => e.1 == idx) with
  | some e => e.2.find? (fun r => r.sub == sub)
  | none => none

/-- The default of an object by its store key: the same for every window instance. -/
def objDefault (key : Nat) : Nat :=
  let k := key / 2 ^ 48
  match objRow (k / 256) (k % 256) with
  | some r => r.dflt
  | none => 0

/-- The selector objects of a window index (R395); empty for an index that is no window. -/
def winSelectors (idx : Nat) : List (Nat × Nat) :=
  match idx with

  | 0x2011 => [(0x2010, 0x00)]
  | 0x2201 => [(0x2200, 0x00)]
  | 0x2202 => [(0x2200, 0x00)]
  | 0x2301 => [(0x2300, 0x00)]
  | 0x2302 => [(0x2300, 0x00)]
  | 0x2303 => [(0x2300, 0x00)]
  | 0x2304 => [(0x2300, 0x00)]
  | 0x2305 => [(0x2300, 0x00)]
  | 0x2306 => [(0x2300, 0x00)]
  | 0x2331 => [(0x2330, 0x00)]
  | 0x2332 => [(0x2330, 0x00)]
  | 0x2402 => [(0x2401, 0x01), (0x2401, 0x02)]
  | 0x2412 => [(0x2411, 0x00)]
  | 0x2413 => [(0x2411, 0x00)]
  | 0x2421 => [(0x2420, 0x00)]
  | 0x2426 => [(0x2425, 0x00)]
  | 0x2431 => [(0x2430, 0x00)]
  | 0x2433 => [(0x2432, 0x01), (0x2432, 0x02)]
  | 0x2436 => [(0x2432, 0x01), (0x2432, 0x02)]
  | 0x2441 => [(0x2440, 0x00)]
  | 0x2601 => [(0x2600, 0x00)]
  | 0x2704 => [(0x2703, 0x00)]
  | 0x2801 => [(0x2800, 0x00)]
  | 0x2811 => [(0x2810, 0x00)]
  | 0x2921 => [(0x2920, 0x00)]
  | 0x2A32 => [(0x2A31, 0x00)]
  | 0x2A42 => [(0x2A41, 0x00)]
  | 0x2B42 => [(0x2B41, 0x00)]
  | _ => []

end Sys2Proof.Machine
end

