-- ==== Sys2Proof/Machine/PlanState.lean ====
section
/-! DEFINITION. The Emast plan image as the module holds it (spec/05_ticks_and_plans.md R145-R153): header, certification
record and sections, and the entries of its function and region tables. -/

namespace Sys2Proof.Machine

/-- A section with its table entry (R146, Table 5-4); data is the plaintext once decrypted. -/
structure Section where
  type : Nat
  overlay : Nat
  enc : Bool
  item : Nat
  keyTenant : Nat
  keyGen : Nat
  data : List Byte
  deriving DecidableEq, Repr

/-- The certification record (R148, Table 5-6). -/
structure Cert where
  sc : Nat
  sx : Nat
  tickQ : Nat
  hp : Nat
  sa : Nat
  lw : Nat
  ls : Nat
  margin : Nat
  hbmSet : Nat
  rret : Nat
  wpre : Nat
  sets : List Nat
  deriving DecidableEq, Repr

/-- A function table entry (R152, Table 5-8). -/
structure FnEntry where
  fn : Nat
  kind : Nat
  overlay : Nat
  tenant : Nat
  finite : Bool
  donePos : Nat
  deriving DecidableEq, Repr

/-- A region table entry (R152, Table 5-7). -/
structure Region where
  hbm : Bool
  cls : Nat
  fn : Nat
  tenant : Nat
  tile : Nat
  base : Nat
  length : Nat
  init : Nat
  deriving DecidableEq, Repr

/-- A loaded or staged plan (R145, Table 5-3). -/
structure Plan where
  planId : List Byte
  version : Nat
  wiringHash : List Byte
  domainSize : Nat
  domainPos : Nat
  overlayMask : Nat
  fnCount : Nat
  tenantCount : Nat
  targetClass : List Nat
  reducedCols : List Nat
  ucodeMin : Nat
  yarrowMin : Nat
  linkMin : Nat
  hbmBytes : Nat
  keySlot : Nat
  digest : List Byte
  cert : Cert
  sections : List Section
  deriving DecidableEq, Repr

/-- A LOAD under validation (R154): the staged plan, or the first failure of the stages before the check run (class,
status and detail of Table 5-11), and its handle. -/
structure Loading where
  plan : Option Plan
  fail : Nat × Nat × Nat := (0, 0, 0)
  handle : Nat
  /-- the old plan's partitions are being zeroed before it posts (R338) -/
  scrubbing : Bool := false
  deriving DecidableEq, Repr

/-- An abort or restart waiting for its boundary (R159, R162). -/
structure FnWait where
  fn : Nat
  /-- acceptance tick -/
  tick : Nat
  /-- 2412.01 before the write (R160) -/
  prev : Nat
  /-- one of the aborts of a STOP (R157) -/
  stop : Bool := false
  deriving DecidableEq, Repr

/-- A plan command that waits for its boundary (R156): its code of Table 5-10 and its acceptance tick. -/
structure PlanCmd where
  code : Nat
  tick : Nat
  /-- a STOP in Loaded that withdraws a pending RUN -/
  withdraws : Bool := false
  deriving DecidableEq, Repr

/-- The plan side of the block: what is loaded, what waits, which functions run. -/
structure PlanSt where
  loaded : Option Plan := none
  /-- handle whose staging holds the loaded image -/
  handle : Nat := 0
  loading : Option Loading := none
  cmd : Option PlanCmd := none
  aborts : List FnWait := []
  restarts : List FnWait := []
  /-- aborts whose effect boundary passed and whose status is still to be posted (Table 5-12) -/
  abortsDone : List Nat := []
  aborted : List Nat := []
  completed : List Nat := []
  /-- finite functions whose completion was posted in the work window of the present tick (R160) -/
  completions : List Nat := []
  /-- overlay mask of the present tick (R158) -/
  active : Nat := 1
  /-- requested mask as last accepted, and as latched at ac 0 (R137, R158) -/
  want : Nat := 1
  request : Nat := 1
  /-- a pending overlay request still to be posted -/
  ovlWaiting : Bool := false
  /-- channel, HBM, video and egress schedules armed for the tick (R137): the plan position -/
  armed : Option Nat := none
  /-- tenants shed (R356, R357) -/
  shed : List Nat := []
  /-- boundary at which a STOP took effect, its status still to be posted (R157) -/
  stopAt : Option Nat := none
  /-- a plan that was unloaded and whose partitions are not yet zeroed (R338) -/
  scrub : Option Plan := none
  deriving DecidableEq, Repr

/-! Accessors of a section table: entries of fixed size. -/

/-- Entries of n bytes. -/
def entriesOf (n : Nat) : Nat → List Byte → List (List Byte)
  | 0, _ => []
  | k + 1, l => if l.length < n || n = 0 then [] else l.take n :: entriesOf n k (l.drop n)

def secEntries (n : Nat) (s : Section) : List (List Byte) := entriesOf n (s.data.length / n) s.data

/-- The sections of a type. -/
def secsOf (p : Plan) (type : Nat) : List Section := p.sections.filter (fun s => s.type == type)

/-- R152: the region table. -/
def regionOf (e : List Byte) : Region :=
  { hbm := numAt e 0 1 != 0, cls := numAt e 1 1, fn := numAt e 2 2, tenant := numAt e 4 2, tile := numAt e 6 2
    base := numAt e 8 8, length := numAt e 0x10 8, init := numAt e 0x18 2 }
def planRegions (p : Plan) : List Region := ((secsOf p 0x0006).map (secEntries 32)).flatten.map regionOf

/-- R152: the function table. -/
def fnOf (e : List Byte) : FnEntry :=
  { fn := numAt e 0 2, kind := numAt e 2 1, overlay := numAt e 3 1, tenant := numAt e 4 2
    finite := bitOf (numAt e 6 1) 0, donePos := numAt e 8 2 }
def planFns (p : Plan) : List FnEntry := ((secsOf p 0x0009).map (secEntries 16)).flatten.map fnOf
def planFn (p : Plan) (f : Nat) : Option FnEntry := (planFns p).find? (fun e => e.fn == f)

/-- R108: the channel descriptors. -/
def channelOf (e : List Byte) : Channel :=
  let n := natLE e
  { kind := fld n 255 254, src := fld n 253 243, dst := fld n 242 232, sh := fld n 231 222, dh := fld n 221 212
    rt := bitOf n 211, ph := fld n 210 209, w := fld n 208 207 + 1, inj := bitOf n 206, iagd := fld n 205 202
    ovl := fld n 201 198, tpl := fld n 197 194, tOff := fld n 193 182, o := fld n 181 160, p := fld n 159 138
    k := fld n 137 116, dly := fld n 115 110, reserved := fld n 109 0 }
def planChannels (p : Plan) : List Channel := ((secsOf p 0x0005).map (secEntries 32)).flatten.map channelOf

/-- R109: whether a channel is active at a plan position under a mask. -/
def channelActive (mask pos : Nat) (c : Channel) : Bool := bitOf mask c.ovl && decide (pos % 2 ^ c.tpl = c.tOff)

/-- The functions that own SRAM regions in a tile. -/
def tileFns (p : Plan) (t : Nat) : List Nat := (((planRegions p).filter (fun r => !r.hbm && r.tile == t)).map (·.fn)).dedup
/-- The functions whose tiles receive what an engine sends from some of its ports at a plan position. -/
def portFns (p : Plan) (ports : List Nat) (mask pos : Nat) : List Nat :=
  (((planChannels p).filter (fun c => c.kind == 1 && ports.contains c.src && channelActive mask pos c)).flatMap (fun c => tileFns p c.dst)).dedup

/-- A tile program (R151): entry, resume entry, AGD, AOD and bundle images. -/
structure TileProgram where
  tile : Nat
  entry : Nat
  resume : Nat
  agds : List W256
  aods : List W64
  bundles : List W128
  deriving DecidableEq, Repr

def tileProgramOf (s : Section) : TileProgram :=
  let d := s.data
  { tile := s.item, entry := numAt d 0 2 % 4096, resume := numAt d 2 2 % 4096
    agds := (List.range 16).map (fun i => BitVec.ofNat 256 (numAt d (16 + 32 * i) 32))
    aods := (List.range 16).map (fun i => BitVec.ofNat 64 (numAt d (528 + 8 * i) 8))
    bundles := (List.range (numAt d 4 2)).map (fun i => BitVec.ofNat 128 (numAt d (656 + 16 * i) 16)) }
def planPrograms (p : Plan) : List TileProgram := (secsOf p 0x0004).map tileProgramOf

/-- R168, Table 5-9: an HBM command entry. -/
structure HbmCmd where
  fc : Nat
  cmd : Nat
  bank : Nat
  addr : Nat
  port : Nat
  fn : Nat
  deriving DecidableEq, Repr

def hbmCmdOf (e : List Byte) : HbmCmd :=
  let n := natLE e
  { fc := fld n 63 40, cmd := fld n 39 36, bank := fld n 35 30, addr := fld n 29 12, port := fld n 11 11, fn := fld n 10 1 }

/-- R150: DEP, ALIGN and presence of overlay n (1-15). -/
def ovlEntry (p : Plan) (n : Nat) : Nat × Nat × Bool :=
  match secsOf p 0x0003 with
  | [] => (0, 1, false)
  | s :: _ => if n = 0 then (0, 1, true) else
    let e := numAt s.data (8 * (n - 1)) 8
    (fld e 15 0, fld e 31 16, bitOf e 32)

/-- R150: the requestable masks. -/
def requestable (p : Plan) : List Nat :=
  match secsOf p 0x0003 with
  | [] => [1]
  | s :: _ => (List.range (numAt s.data 120 2)).map (fun i => numAt s.data (124 + 2 * i) 2)

/-- R149: the phase number of a position and the declared powers (compute, memory, link) of an overlay in a phase. -/
def phaseAt (p : Plan) (ovl pos : Nat) : Nat :=
  match (secsOf p 0x0002).find? (fun s => s.overlay == ovl) with
  | none => 0
  | some s => numAt s.data pos 1
def phasePower (p : Plan) (ovl pos : Nat) : Nat × Nat × Nat :=
  match (secsOf p 0x0002).find? (fun s => s.overlay == ovl) with
  | none => (0, 0, 0)
  | some s =>
    let off := 8 * cdiv p.cert.hp 8 + 8 * numAt s.data pos 1
    (numAt s.data off 2, numAt s.data (off + 2) 2, numAt s.data (off + 4) 2)

end Sys2Proof.Machine
end

