-- ==== Sys2Proof/Machine/HostState.lean ====
section
/-! DEFINITION. State of the management side: the tick timer (R136-R139), the log and trace (R411-R414), the SDIO card
and its window (R375-R390), snapshot groups (R398). -/

namespace Sys2Proof.Machine

/-- Wake states (R371, Table 11-4). -/
inductive WakeState where
  | run | hold | doze | rest | sleep
  deriving DecidableEq, Repr

/-- A command whose effect waits for a wake (R372): the object written, the requester and the value. -/
structure Deferred where
  role : Role
  idx : Nat
  sub : Nat
  inst : Nat
  data : List Byte
  /-- the parameters of the requester's context at the write -/
  vals : Cells Nat := []
  deriving DecidableEq, Repr

/-- The tick timer and the module's mode. -/
structure TickSt where
  /-- time of the block in ns, as the time-carrying commands have brought it -/
  now : Nat := 0
  /-- k of the present tick (R136) -/
  tick : Nat := 0
  /-- the tick timer runs (R449: from Idle on) -/
  timer : Bool := false
  /-- no boundary yet since the timer started: the next is boundary 0 (Table 15-1) -/
  fresh : Bool := true
  phase : Phase := .slack
  busyEnded : Bool := true
  /-- time of the last boundary -/
  boundaryAt : Nat := 0
  /-- timer edge produced before the busy part ended (R166) -/
  edgeAt : Option Nat := none
  mode : ModState := .off
  /-- the state entry to Survival replaced (R369) -/
  before : ModState := .idle
  /-- step in force, 0-6 (R20) -/
  step : Nat := 0
  wake : WakeState := .run
  deferred : List Deferred := []
  deriving DecidableEq, Repr

/-- The log ring and its flash mirror (R411, R412). -/
structure LogSt where
  ring : List LogRec := []
  next : Nat := 0
  /-- SEQ of the first record not yet mirrored -/
  mirrored : Nat := 0
  mirrorDue : Bool := false
  /-- start of the last mirror in ns (R412) -/
  mirrorAt : Option Nat := none
  mirror : List LogRec := []
  /-- records that the kernel holds while the log component restarts (R409, R412) -/
  held : Nat := 0
  deriving DecidableEq, Repr

/-- The trace buffer (R414). -/
structure TraceSt where
  buf : List TraceRec := []
  frozen : Bool := false
  deriving DecidableEq, Repr

/-- Flags of an R5 answer: none, ILLEGAL_COMMAND (R377), or a function that does not exist or is not ready. -/
inductive R5Flag where
  | ok | illegal | function
  deriving DecidableEq, Repr

/-- What the card answers to a command (R376, R377, R380). -/
inductive CardAns where
  /-- no response -/
  | silent
  /-- accepted; the response carries nothing the spec gives -/
  | accepted
  /-- R4: I/O functions, memory present, S18A, OCR voltage window -/
  | r4 (functions memory s18a ocr : Nat)
  /-- R6 with the card's address -/
  | r6 (rca : Nat)
  /-- R5 with the data read -/
  | r5 (flag : R5Flag) (data : List Byte)
  /-- the tuning block -/
  | tuning (data : List Byte)
  deriving DecidableEq, Repr

/-- The SDIO card (R375-R383). -/
structure CardSt where
  /-- CMD15 has made the card inactive -/
  inactive : Bool := false
  /-- answer to the last command -/
  answer : CardAns := .silent
  rca : Nat := 0
  selected : Bool := false
  /-- written CCCR and FBR bytes by address; unlisted addresses read their reset value (Tables 12-1, 12-2) -/
  regs : Cells Nat := []
  /-- a CMD53 transfer to function 1 in progress (R383) -/
  transfer : Bool := false
  deriving DecidableEq, Repr

/-- The function 1 window (R384, Table 12-4). -/
structure WindowSt where
  busy : Bool := false
  respReady : Bool := false
  overrun : Bool := false
  /-- a GO not yet taken (R387) -/
  go : Bool := false
  /-- request buffer bytes 0x1000-0x2FFF -/
  req : List Host.Cell := []
  taken : Option Request := none
  resp : List Byte := []
  tag : Nat := 0
  tickLow : Nat := 0
  stateByte : Nat := 1
  deriving DecidableEq, Repr

/-- A snapshot group (R398, R399). -/
structure SnapGroup where
  owner : Option Nat := none
  members : List Byte := []
  /-- due at the next latch -/
  once : Bool := false
  every : Bool := false
  data : List Byte := []
  deriving DecidableEq, Repr

/-- The dictionary server. -/
structure DictSt where
  ctxs : Cells AccessCtx := []
  pendingW : List PendingWrite := []
  groups : Vector SnapGroup 8 := Vector.replicate 8 {}
  /-- alert causes to be set at the next dictionary latch (R400) -/
  alerts : Nat := 0
  /-- the alert condition as last evaluated (2001.04 counts its transitions) -/
  alertOn : Bool := false
  /-- STATUS and DETAIL of the last command addressed to an object -/
  lastRes : Res := {}
  /-- data of the last READ or READ_SEG -/
  lastData : List Byte := []
  /-- an image has been latched since power-up; before the first one, reads take the module as it stands -/
  latched : Bool := false
  /-- counts that tenants read coarsened, as of the last boundary whose number is a multiple of 64 (R343) -/
  coarse : Cells Nat := []
  /-- 2000.01 and 2502.01-2502.04 are to be re-latched at once (R396) -/
  relatch : Bool := false
  deriving DecidableEq, Repr

end Sys2Proof.Machine
end

