-- ==== Sys2Proof/Machine/LifeState.lean ====
section
/-! DEFINITION. State of the maintenance side (spec/14_life_maintenance.md): the lease (R442-R446), fault classes (R447),
engines and their spares (R440), life counters in flash (R433-R437). -/

namespace Sys2Proof.Machine

/-- The leased activities of Table 14-2. -/
inductive Activity where
  | si | es | fw | ppr | lr | ds
  deriving DecidableEq, Repr

def activityCode : Activity → Nat
  | .si => 1 | .es => 2 | .fw => 3 | .ppr => 4 | .lr => 5 | .ds => 6

/-- A lease holder or a queued request (R445). -/
structure LeaseEntry where
  act : Activity
  obj : Nat
  tick : Nat
  commanded : Bool
  deriving DecidableEq, Repr

structure LeaseSt where
  holders : List LeaseEntry := []
  queue : List LeaseEntry := []
  /-- releases to be applied at the next boundary (R444) -/
  releases : List LeaseEntry := []
  deriving DecidableEq, Repr

/-- The engine kinds that have spares (R440). -/
inductive EngineKind where
  | decode | encode | campion | teasel
  deriving DecidableEq, Repr

def engineCode : EngineKind → Nat
  | .decode => 0 | .encode => 1 | .campion => 2 | .teasel => 3

/-- A life record (R437): its sequence number, the lifetime objects, the engines that spares serve and the kinds of spares lost, the
calendar time, and the orderly-stop mark. -/
structure LifeRecord where
  seq : Nat
  objs : Cells Nat
  engines : List Nat
  lost : List EngineKind
  calendar : Nat
  mark : Bool
  deriving DecidableEq, Repr

/-- The maintenance state. -/
structure LifeSt where
  lease : LeaseSt := {}
  /-- end time in ns of a fault class held for a fixed time (R447) -/
  classUntil : Cells Nat := []
  /-- engines held by a declared failure, as engine codes of 2911.01 (R440) -/
  heldEngines : List Nat := []
  /-- engines served by their kind's spare -/
  sparedEngines : List Nat := []
  /-- kinds whose spare failed its self-test -/
  spareLost : List EngineKind := []
  /-- an engine spare insertion in progress: engine and its boundary b -/
  inserting : Option (Nat × Nat) := none
  /-- times of the corrected reads of each physical tile in the last 24 h (R441) -/
  dayReads : Cells (List Nat) := []
  /-- retired blocks without a spare, by partition, and those of the life counters partition (R441) -/
  badBlocks : Cells Nat := []
  lifeBad : Nat := 0
  /-- power-on and run time in ns not yet counted as seconds, and the time up to which they are counted (R433) -/
  onNs : Nat := 0
  runNs : Nat := 0
  countedTo : Nat := 0
  /-- thermal cycle counting (R434), in 0.01 °C: highest value since the last counted cycle, and the valley after it -/
  peak : Option Int := none
  valley : Option Int := none
  /-- calendar time less the block's time, once a source has been seen (R435) -/
  calendar : Option Int := none
  /-- the last life record in flash (R437) -/
  record : Option LifeRecord := none
  /-- start times of the link retrains in progress, by port (R442) -/
  retrain : Cells Nat := []
  /-- the calendar's last reading, where it is a tray time: calendar time less the block's time (R435) -/
  tray : Option Int := none
  /-- power-on seconds at the last life record (R437) -/
  recordAt : Nat := 0
  /-- a demand scrub runs (R442) -/
  scrubbing : Bool := false
  /-- lines that each pseudo-channel's patrol has taken since the demand scrub began, and slack windows since (R442) -/
  scrubLines : Cells Nat := []
  scrubWindows : Nat := 0
  deriving DecidableEq, Repr

end Sys2Proof.Machine
end

