-- ==== Sys2Proof/Machine/LinkState.lean ====
section
/-! DEFINITION. State of the Stomar ports, the domain and the redundant pair (spec/09_domains_redundancy.md). -/

namespace Sys2Proof.Machine

/-- Where a port stands in R289. -/
inductive LinkStage where
  | down | training | plain | offered | encapsulated | finished | beacons | up
  deriving DecidableEq, Repr

/-- A timed word with its tick and its index in that tick's sequence (R293). -/
structure TimedWord where
  tick : Nat
  idx : Nat
  data : W256
  poison : Bool
  invalid : Bool
  deriving DecidableEq, Repr

/-- A frame as sent or received (Table 9-1). The poison and invalid marks of its timed words travel beside it: Table 9-1
gives them no bits. -/
structure Frame where
  fcnt : Nat
  bytes : List Byte
  marks : List (Nat × Bool × Bool) := []
  deriving DecidableEq, Repr

/-- A control message (R295). -/
structure CtlMsg where
  kind : Nat
  dst : Nat
  src : Nat
  body : List Byte
  /-- it came in a keyed frame (R290) -/
  keyed : Bool := false
  deriving DecidableEq, Repr

/-- The key exchange of a link-up (R334). -/
structure KexSt where
  myOffer : List Byte := []
  peerOffer : List Byte := []
  myCipher : List Byte := []
  peerCipher : List Byte := []
  /-- secrets of the ciphertext sent and of the one received -/
  sent : Option (BitVec 256) := none
  got : Option (BitVec 256) := none
  /-- fragments of the message arriving, by step * 256 + index -/
  parts : Cells (List Byte) := []
  /-- digest h both ends sign -/
  digest : List Byte := []
  deriving DecidableEq, Repr

/-- One Stomar port. -/
structure PortSt where
  stage : LinkStage := .down
  excluded : Bool := false
  /-- next FCNT of each direction (R284) -/
  txCnt : Nat := 0
  rxNext : Nat := 0
  /-- first lost FCNT, while its replay is awaited (R286) -/
  nak : Option Nat := none
  /-- the last 512 frames sent, and those owed again -/
  replay : List Frame := []
  resend : List Frame := []
  /-- control words the peer's buffer can take, and words freed here since the last frame (R285) -/
  credit : Nat := 8192
  freed : Nat := 0
  /-- control words waiting to be sent, those of the message arriving, and the messages received (R295) -/
  outWords : List W256 := []
  inWords : List W256 := []
  inbox : List CtlMsg := []
  /-- the frame last put on the wire; a request for replay is due in the next one (R286) -/
  last : Option Frame := none
  nakDue : Bool := false
  /-- timed words waiting to be sent, and received and not yet released -/
  timedOut : List TimedWord := []
  timedIn : List TimedWord := []
  /-- tick whose receive sequence is being released, and the next index -/
  rxTick : Nat := 0
  rxIdx : Nat := 0
  txKey : Option (BitVec 256) := none
  rxKey : Option (BitVec 256) := none
  txGen : Bool := false
  rxGen : Bool := false
  /-- FCNT at which the transmit key began, and the switch agreed: FCNT and key (R287) -/
  txSince : Nat := 0
  txSwitch : Option (Nat × BitVec 256) := none
  rxSwitch : Option (Nat × BitVec 256) := none
  kex : KexSt := {}
  /-- time of key establishment, of the last authenticated beacon, of entry into service (R289-R291) -/
  keyedAt : Option Nat := none
  beacon : Bool := false
  upAt : Option Nat := none
  /-- delay of the start after the next failure, delay in force, and the time the link went down (R289) -/
  retry : Nat := 1000000000
  wait : Nat := 0
  downAt : Option Nat := none
  /-- lane switches agreed for the sending and the receiving direction: lane replaced and frame count (R288) -/
  txLane : Option (Nat × Nat) := none
  rxLane : Option (Nat × Nat) := none
  /-- the last authenticated beacon's role, tick and state bytes (Table 9-2) -/
  peerRole : Nat := 0
  peerState : Nat := 0
  /-- one-way delay in ns (R297) -/
  delay : Nat := 0
  deriving DecidableEq, Repr

/-- A busy-done (R300). -/
structure BusyDone where
  tick : Nat
  step : Nat
  shedOvl : Nat
  shedTenants : List Nat
  state : Nat
  /-- the member's wake state is Run (R372) -/
  run : Bool
  deriving DecidableEq, Repr

/-- A tick token (R300). -/
structure Token where
  tick : Nat
  fire : Nat
  step : Nat
  mask : Nat
  shedOvl : Nat
  shedTenants : List Nat
  aborts : List Nat
  restarts : List Nat
  cmd : Nat
  /-- a plan command waits for every member to be in Run (R372) -/
  wake : Bool
  /-- 2000.01 of every position, 0xFF absent, and the leader's position (R304) -/
  members : List Nat
  leader : Nat
  deriving DecidableEq, Repr

/-- A domain-wide command forwarded to the leader (R299): the object, its value, the member that took the write. -/
structure DomCmd where
  idx : Nat
  sub : Nat
  inst : Nat
  value : Nat
  src : Nat
  tick : Nat
  deriving DecidableEq, Repr

/-- The domain. -/
structure DomainSt where
  /-- domain clock less the local clock, in ns (R297) -/
  offset : Int := 0
  /-- fire time of the token in local time, the last boundary's in domain time, and the token of the next boundary -/
  fire : Nat := 0
  prev : Nat := 0
  token : Option Token := none
  /-- busy-dones received, by position -/
  busy : Cells BusyDone := []
  /-- members declared lost, by position (R302) -/
  lost : List Nat := []
  /-- members whose join waits for an aligned boundary (R303) -/
  joining : List Nat := []
  /-- commands sent to the leader and not answered (R299) -/
  asked : List DomCmd := []
  /-- the command latch of the next boundary has closed (R299) -/
  latched : Bool := false
  /-- this module's own join request is pending (R298, R303) -/
  join : Bool := false
  deriving DecidableEq, Repr

/-- A capture of a mirror set entry (R306). -/
structure Capture where
  entry : Nat
  tick : Nat
  data : List Byte
  deriving DecidableEq, Repr

/-- The redundant pair. -/
structure PairSt where
  /-- the peer's last heartbeat: time, tick, active, relinquish -/
  beat : Option Nat := none
  peerActive : Bool := false
  peerRelinquish : Bool := false
  peerLost : Bool := false
  /-- the images were compared and match -/
  matched : Bool := false
  inhibit : Bool := false
  /-- tick in which a takeover was decided, a commanded switch-over among them (R309, R312) -/
  takeover : Option Nat := none
  /-- pair command accepted for the next boundary: its code and acceptance tick (R312, R313) -/
  cmd : Option (Nat × Nat) := none
  /-- boundary of a return agreed (R311), for whichever side this module is -/
  returnAt : Option Nat := none
  healthySince : Option Nat := none
  /-- convergence ticks left (R307) -/
  converge : Nat := 0
  /-- mirror store: the newest complete capture of each entry; captures being received; entries captured or received in
  the present pass -/
  store : Cells Capture := []
  arriving : Cells Capture := []
  pass : List Nat := []
  /-- entries captured, or abandoned, at this boundary; complete entries not yet applied (R306, R308) -/
  sending : List Nat := []
  fresh : List Nat := []
  /-- a full pass has been applied since the module stopped being active (R311) -/
  synced : Bool := false
  /-- boundary of the final capture of a return, on the module that gives up (R311) -/
  finalAt : Option Nat := none
  /-- digests of this standby's own copies, by entry and tick (R307) -/
  digests : List (Nat × Nat × List Byte) := []
  /-- bindings received: stream, tick, RTP timestamp or none (R307) -/
  binds : List (Nat × Nat × Option Nat) := []
  deriving DecidableEq, Repr

/-- The Stomar side. -/
structure LinkSt where
  ports : Vector PortSt 8 := Vector.replicate 8 {}
  /-- port commands that take effect at the next boundary: port and command (R313) -/
  portCmds : List (Nat × Nat) := []
  dom : DomainSt := {}
  pair : PairSt := {}
  deriving DecidableEq, Repr

end Sys2Proof.Machine
end

