-- ==== Sys2Proof/Machine/NetState.lean ====
section
/-! DEFINITION. State of the service ports: classified frames, neighbours, PTP, and what the ports have sent
(spec/06_video_path.md R175-R180, R218-R223). -/

namespace Sys2Proof.Machine

/-- Classes of a received frame (R176) with the resolution protocols of R175 named apart. -/
inductive RxClass where
  | ptp | rtp (stream : Nat) | request | intake | arpRequest | arpReply | solicit | advert | echo
  deriving DecidableEq, Repr

/-- A classified frame waiting for its unit. Addresses are 128-bit numbers, IPv4 as IPv4-mapped IPv6. -/
structure RxFrame where
  cls : RxClass
  port : Nat
  src : Nat := 0
  dst : Nat := 0
  sport : Nat := 0
  mac : Nat := 0
  payload : List Byte := []
  t : Nat := 0
  deriving DecidableEq, Repr

/-- A resolved destination (R178). -/
structure Neighbor where
  port : Nat
  addr : Nat
  mac : Nat
  deriving DecidableEq, Repr

/-- What a UDP datagram is counted under: an output channel, or a stream's encoder. -/
inductive Origin where
  | channel (och : Nat)
  | encoder (stream : Nat)
  deriving DecidableEq, Repr

/-- A datagram handed to a service port. -/
structure Datagram where
  port : Nat
  dst : Nat
  sport : Nat
  dport : Nat
  payload : List Byte
  origin : Origin
  deriving DecidableEq, Repr

/-- A datagram waiting for its destination to be resolved (R178). -/
structure Unresolved where
  dgram : Datagram
  hop : Nat
  since : Nat
  deriving DecidableEq, Repr

/-- PTP messages sent at an interval (R179): two-step Sync with its Follow_Up, Announce, Delay_Req. -/
inductive PtpSend where
  | sync | announce | delayReq
  deriving DecidableEq, Repr

/-- What a service port transmits. -/
inductive Sent where
  | datagram (d : Datagram) (mac : Nat)
  | arpReply (port target mac : Nat)
  | arpRequest (port target : Nat)
  | advert (port target mac : Nat)
  | solicit (port target : Nat)
  | echoReply (port dst : Nat) (payload : List Byte)
  | ptpSync (port seq : Nat)
  | ptpFollowUp (port seq time : Nat)
  | ptpAnnounce (port seq prio1 prio2 : Nat)
  | ptpDelayReq (port seq : Nat)
  | ptpDelayResp (port seq time : Nat) (requester : List Byte)
  deriving DecidableEq, Repr

/-- The data set of an Announce message, in the order of the default best master clock algorithm (R179). -/
structure Announced where
  port : Nat
  rank : List Nat
  source : List Byte
  t : Nat
  /-- announce interval in ns -/
  every : Nat := 1000000000
  deriving DecidableEq, Repr

/-- PTP (R179, R180). Times in ns. -/
structure PtpSt where
  /-- consecutive Sync messages within 100 ns -/
  inRow : Nat := 0
  /-- local time of the last valid Sync, and its interval -/
  lastSync : Option Nat := none
  interval : Nat := 1000000000
  /-- master time and local time of the last measured point, and of the one before -/
  master : Nat := 0
  local_ : Nat := 0
  prevMaster : Nat := 0
  prevLocal : Nat := 0
  /-- two-step Sync waiting for its Follow_Up: sequence, local receive time, correction -/
  twoStep : Option (Nat × Nat × Int) := none
  /-- mean path delay, and the delay request in progress: sequence and local send time -/
  delay : Int := 0
  request : Option (Nat × Nat) := none
  /-- master-to-slave difference of the last Sync: local receive time less origin time -/
  msDiff : Int := 0
  best : Option Announced := none
  seqSync : Nat := 0
  seqAnnounce : Nat := 0
  seqDelay : Nat := 0
  deriving DecidableEq, Repr

/-- The service ports. -/
structure NetSt where
  inbox : List RxFrame := []
  neighbors : List Neighbor := []
  waiting : List Unresolved := []
  sent : List Sent := []
  /-- the frames sent, each with its port, without FCS (R9, R175) -/
  wire : List (Nat × List Byte) := []
  /-- output channels that have carried their datagram of this tick (R220) -/
  emitted : List Nat := []
  /-- channel number to the records and invalid headers the egress unit has dealt with in this tick (R220, R477) -/
  egress : Cells Nat := []
  /-- link of each port in service (R175) -/
  link : Vector Bool 2 := Vector.replicate 2 false
  ptp : PtpSt := {}
  /-- end of the PPS_OUT pulse in ns (R468) -/
  ppsUntil : Option Nat := none
  /-- next number of each output channel: SEQ_EPOCH[14:0] * 2^32 + SEQ (R223) -/
  nums : Cells Nat := []
  /-- SEQ_EPOCH[15], the number space (R310) -/
  space : Bool := false
  deriving DecidableEq, Repr

end Sys2Proof.Machine
end

