-- ==== Sys2Proof/Machine/PlanTables.lean ====
section
/-! DEFINITION. Video, output channel, egress, Campion and Teasel tables of the plan image (spec/06_video_path.md R181,
R203, R209, R219, R477) with their entries' fields. -/

namespace Sys2Proof.Machine

/-- A stream entry (Table 6-4). -/
structure VStream where
  stream : Nat
  tenant : Nat
  fn : Nat
  codec : Nat
  level : Nat
  w : Nat
  h : Nat
  fpsNum : Nat
  fpsDen : Nat
  dcore : Nat
  mode : Nat
  bh : Nat
  quota : Nat
  fbRegion : Nat
  fbPics : Nat
  pad : Nat
  campion : Nat
  program : Nat
  ecore : Nat
  deriving DecidableEq, Repr

def vstreamOf (e : List Byte) : VStream :=
  { stream := numAt e 0 2, tenant := numAt e 2 2, fn := numAt e 4 2, codec := numAt e 6 1, level := numAt e 7 1, w := numAt e 8 2
    h := numAt e 0xA 2, fpsNum := numAt e 0xC 2, fpsDen := numAt e 0xE 2, dcore := numAt e 0x10 1, mode := numAt e 0x11 1
    bh := numAt e 0x12 1, quota := numAt e 0x13 1, fbRegion := numAt e 0x14 2, fbPics := numAt e 0x16 1, pad := numAt e 0x17 1
    campion := numAt e 0x18 1, program := numAt e 0x19 1, ecore := numAt e 0x1A 1 }

/-- MODE of Table 6-4. -/
def vSubst (v : VStream) : Nat := v.mode % 4
def vFrameBuffer (v : VStream) : Bool := bitOf v.mode 2
def v10bit (v : VStream) : Bool := bitOf v.mode 3
/-- R183: bytes of a picture of the frame buffer. -/
def picBytes (v : VStream) : Nat := cdiv (if v10bit v then v.w * (v.h + v.pad) * 3 else cdiv (v.w * (v.h + v.pad) * 3) 2) 4096 * 4096
def vEncoder (v : VStream) : Bool := bitOf v.mode 4
/-- R184: slices of a picture. -/
def vSlices (v : VStream) : Nat := cdiv (v.h + v.pad) (16 * max 1 v.bh)

/-- A slot entry (Table 6-5). -/
structure VSlot where
  stream : Nat
  pos : Nat
  fc0 : Nat
  sfc : Nat
  disp : Nat
  deriving DecidableEq, Repr

def vslotOf (e : List Byte) : VSlot :=
  { stream := numAt e 0 2, pos := numAt e 2 2, fc0 := numAt e 4 4, sfc := numAt e 8 4, disp := numAt e 0xC 1 }

/-- The base overlay's section of a type. -/
def baseSec (p : Plan) (type : Nat) : Option Section := (secsOf p type).find? (fun s => s.overlay == 0)

def planVideo (p : Plan) : List VStream :=
  match baseSec p 0x000A with
  | none => []
  | some s => (entriesOf 64 (numAt s.data 0 4) (s.data.drop 64)).map vstreamOf
def planStream (p : Plan) (n : Nat) : Option VStream := (planVideo p).find? (fun v => v.stream == n)
/-- Table 6-3: VPC_MASK, 0 when the plan has no video slot table. -/
def planVpcMask (p : Plan) : Nat := match baseSec p 0x000A with | none => 0 | some s => numAt s.data 8 4
/-- The slot entries of an overlay's video section. -/
def planSlots (p : Plan) (ovl : Nat) : List VSlot :=
  match (secsOf p 0x000A).find? (fun s => s.overlay == ovl) with
  | none => []
  | some s => (entriesOf 16 (numAt s.data 4 4) (s.data.drop (64 + 64 * numAt s.data 0 4))).map vslotOf

/-- R181: an entry of overlay ovl at a plan position is active under a mask. -/
def entryActive (mask ovl disp : Nat) : Bool := bitOf mask ovl && !(ovl == 0 && disp != 0 && bitOf mask disp)

/-- An output channel entry (Table 6-13). -/
structure OchEntry where
  och : Nat
  tenant : Nat
  fn : Nat
  port : Nat
  flags : Nat
  source : Nat
  stream : Nat
  lag : Nat
  maxlen : Nat
  deriving DecidableEq, Repr

def ochOf (e : List Byte) : OchEntry :=
  { och := numAt e 0 2, tenant := numAt e 2 2, fn := numAt e 4 2, port := numAt e 6 1, flags := numAt e 7 1, source := numAt e 8 2
    stream := numAt e 0xA 2, lag := numAt e 0xC 1, maxlen := numAt e 0xE 2 }
def planOchs (p : Plan) : List OchEntry :=
  (secsOf p 0x000F).flatMap (fun s => (entriesOf 32 (numAt s.data 0 4) (s.data.drop 16)).map ochOf)
def planOch (p : Plan) (n : Nat) : Option OchEntry := (planOchs p).find? (fun o => o.och == n)

/-- An egress schedule entry with its overlay (Table 6-17). -/
structure EgressEntry where
  ovl : Nat
  pos : Nat
  och : Nat
  chan : Nat
  send : Nat
  deriving DecidableEq, Repr

def planEgress (p : Plan) : List EgressEntry :=
  (secsOf p 0x0013).flatMap (fun s => (entriesOf 16 (numAt s.data 0 4) (s.data.drop 16)).map (fun e =>
    { ovl := s.overlay, pos := numAt e 0 2, och := numAt e 2 2, chan := numAt e 4 2, send := numAt e 8 4 }))
/-- The channel descriptor an egress entry names, in its overlay's section. -/
def egressChannel (p : Plan) (e : EgressEntry) : Option Channel :=
  match (secsOf p 0x0005).find? (fun s => s.overlay == e.ovl) with
  | none => none
  | some s => ((secEntries 32 s).map channelOf)[e.chan]?

/-- A first-layer program (Table 6-9). -/
structure CProgram where
  csc : Nat
  order : Nat
  kh : Nat
  kw : Nat
  sy : Nat
  sx : Nat
  pt : Nat
  pl : Nat
  pr : Nat
  replicate : Bool
  cout : Nat
  wfmt : Nat
  aod : Nat
  mean : List Int
  mul : List Int
  sh : Nat
  port0 : Nat
  ports : Nat
  woff : Nat
  deriving DecidableEq, Repr

def cprogramOf (e : List Byte) : CProgram :=
  let k := numAt e 3 1; let st := numAt e 4 1; let pd := numAt e 5 1; let po := numAt e 0x1D 1
  { csc := numAt e 1 1, order := numAt e 2 1, kh := k / 16 + 1, kw := k % 16 + 1, sy := st / 16 + 1, sx := st % 16 + 1
    pt := fld pd 7 6, pl := fld pd 5 4, pr := fld pd 3 2, replicate := bitOf pd 1, cout := numAt e 6 1, wfmt := numAt e 7 1
    aod := numAt e 8 8, mean := (List.range 3).map (fun i => sx 16 (numAt e (0x10 + 2 * i) 2))
    mul := (List.range 3).map (fun i => sx 16 (numAt e (0x16 + 2 * i) 2)), sh := numAt e 0x1C 1
    port0 := po / 16, ports := po % 16, woff := numAt e 0x20 4 }

/-- A last-layer job with its overlay (Table 6-11). -/
structure CJob where
  ovl : Nat
  disp : Nat
  pos : Nat
  startFc : Nat
  inBase : Nat
  hi : Nat
  wi : Nat
  cin : Nat
  khead : Nat
  ifmt : Nat
  wfmt : Nat
  cout : Nat
  dec : Nat
  ncls : Nat
  aod : Nat
  woff : Nat
  thr : Nat
  nms : Nat
  topk : Nat
  kmax : Nat
  stride : Nat
  och : Nat
  port0 : Nat
  ports : Nat
  imgW : Nat
  imgH : Nat
  aoff : Nat
  deriving DecidableEq, Repr

def cjobOf (ovl : Nat) (e : List Byte) : CJob :=
  let po := numAt e 0x34 1
  { ovl := ovl, disp := numAt e 1 1, pos := numAt e 2 2, startFc := numAt e 4 4, inBase := numAt e 8 4, hi := numAt e 0xC 2
    wi := numAt e 0xE 2, cin := numAt e 0x10 2, khead := numAt e 0x12 1, ifmt := numAt e 0x13 1, wfmt := numAt e 0x14 1
    cout := numAt e 0x15 1, dec := numAt e 0x16 1, ncls := numAt e 0x17 1, aod := numAt e 0x18 8, woff := numAt e 0x20 4
    thr := numAt e 0x24 4, nms := numAt e 0x28 4, topk := numAt e 0x2C 2, kmax := numAt e 0x2E 2, stride := numAt e 0x30 2
    och := numAt e 0x32 2, port0 := po / 16, ports := po % 16, imgW := numAt e 0x36 2, imgH := numAt e 0x38 2
    aoff := numAt e 0x3A 4 }

/-- The Campion section of an engine in an overlay (R203). -/
def campionSec (p : Plan) (e ovl : Nat) : Option Section := (secsOf p 0x000C).find? (fun s => s.item == e && s.overlay == ovl)
def planProgram (p : Plan) (e n : Nat) : Option CProgram :=
  match campionSec p e 0 with
  | none => none
  | some s => ((entriesOf 64 (numAt s.data 0 4) (s.data.drop 16)).map cprogramOf)[n]?
/-- Every last-layer job of an engine. -/
def planCJobs (p : Plan) (e : Nat) : List CJob :=
  ((secsOf p 0x000C).filter (fun s => s.item == e)).flatMap (fun s =>
    (entriesOf 64 (numAt s.data 4 4) (s.data.drop (16 + 64 * numAt s.data 0 4))).map (cjobOf s.overlay))
/-- The parameter store of an engine (R203). -/
def campionParams (p : Plan) (e : Nat) : List Byte :=
  match campionSec p e 0 with
  | none => []
  | some s => (s.data.drop (16 + 64 * numAt s.data 0 4 + 64 * numAt s.data 4 4)).take (numAt s.data 8 4)

/-- A Teasel job with its overlay (Table 6-12). -/
structure TJob where
  ovl : Nat
  src : Nat
  disp : Nat
  pos : Nat
  startFc : Nat
  stream : Nat
  boxsrc : Nat
  sample : Nat
  nbox : Nat
  ow : Nat
  oh : Nat
  ofmt : Nat
  port0 : Nat
  ports : Nat
  wmax : Nat
  hmax : Nat
  border : Nat
  scale : Nat
  boxBase : Nat
  fmBase : Nat
  fmW : Nat
  fmH : Nat
  fmC : Nat
  fmFmt : Nat
  deriving DecidableEq, Repr

def tjobOf (ovl : Nat) (e : List Byte) : TJob :=
  let po := numAt e 0x11 1
  { ovl := ovl, src := numAt e 0 1, disp := numAt e 1 1, pos := numAt e 2 2, startFc := numAt e 4 4, stream := numAt e 8 2
    boxsrc := numAt e 0xA 1, sample := numAt e 0xB 1, nbox := numAt e 0xC 2, ow := numAt e 0xE 1, oh := numAt e 0xF 1
    ofmt := numAt e 0x10 1, port0 := po / 16, ports := po % 16, wmax := numAt e 0x12 2, hmax := numAt e 0x14 2
    border := numAt e 0x16 2, scale := numAt e 0x18 4, boxBase := numAt e 0x1C 4, fmBase := numAt e 0x20 4
    fmW := numAt e 0x24 2, fmH := numAt e 0x26 2, fmC := numAt e 0x28 2, fmFmt := numAt e 0x2A 1 }
def planTJobs (p : Plan) (e : Nat) : List TJob :=
  ((secsOf p 0x000D).filter (fun s => s.item == e)).flatMap (fun s =>
    (entriesOf 64 (numAt s.data 0 4) (s.data.drop 16)).map (tjobOf s.overlay))

/-- Every tenant a plan names in a region, function, stream or output channel (R337). -/
def planTenants (p : Plan) : List Nat :=
  ((planRegions p).map (·.tenant) ++ (planFns p).map (·.tenant) ++ (planVideo p).map (·.tenant) ++ (planOchs p).map (·.tenant)).dedup

/-- Words of a feature map, each pixel's channels starting a new word. -/
def mapWords (h w ch fmt : Nat) : Nat := h * w * cdiv (ch * fmtBits ((fmtOf fmt).getD .int8)) 256
/-- Words of a box list of n boxes from a byte address on. -/
def boxWords (base n : Nat) : Nat := cdiv (base % 32 + 16 + 16 * n) 32

/-- The areas of the input buffer that a job reads, as first word and words, in ascending order: its box list and its feature map. -/
def jobAreas (jb : TJob) : List (Nat × Nat) :=
  let box := if bitOf jb.boxsrc 7 then [] else [(jb.boxBase / 32, boxWords jb.boxBase jb.nbox)]
  let map := if jb.src = 1 then [(jb.fmBase / 32, mapWords jb.fmH jb.fmW jb.fmC jb.fmFmt)] else []
  if jb.boxBase ≤ jb.fmBase then box ++ map else map ++ box

end Sys2Proof.Machine
end

