-- ==== Sys2Proof/Machine/ServState.lean ====
section
/-! DEFINITION. State of the serving unit (spec/07_model_serving.md R225-R256) and its tables of the plan image. -/

namespace Sys2Proof.Machine

/-! Plan tables. -/

/-- A pool entry (Table 7-2), its tile groups read from the section. -/
structure Pool where
  pool : Nat
  pgw : Nat
  fn : Nat
  groups : List (List Nat)
  nks : Nat
  kvBase : Nat
  region : Nat
  inLanes : Nat
  outLanes : Nat
  lanePti : Nat
  statusOch : Nat
  window : Nat
  warmPages : Nat
  hotHold : Nat
  deriving DecidableEq, Repr

/-- A request slot entry with its overlay (Table 7-3). -/
structure RSlot where
  ovl : Nat
  slot : Nat
  pool : Nat
  entryPos : Nat
  disp : Nat
  period : Nat
  offset : Nat
  prefill : Nat
  pMax : Nat
  gMax : Nat
  tpt : Nat
  treeN : Nat
  treeD : Nat
  segPages : Nat
  nseg : Nat
  g0 : Nat
  pti : Nat
  adpti : Nat
  och : Nat
  ctl : Nat
  prompt : Nat
  tree : Nat
  mask : Nat
  accept : Nat
  sumOut : Nat
  sumIn : Nat
  sumKib : Nat
  maxWait : Nat
  deriving DecidableEq, Repr

def poolOf (d e : List Byte) : Pool :=
  let gt := numAt e 6 2
  let off := numAt e 8 4
  { pool := numAt e 0 1, pgw := numAt e 1 1, fn := numAt e 2 2
    groups := (List.range (numAt e 4 2)).map (fun g => (List.range gt).map (fun i => numAt d (off + 2 * (g * gt + i)) 2))
    nks := numAt e 0xC 2, kvBase := numAt e 0xE 2, region := numAt e 0x10 2, inLanes := numAt e 0x12 1, outLanes := numAt e 0x13 1
    lanePti := numAt e 0x14 1, statusOch := numAt e 0x16 2, window := numAt e 0x18 4, warmPages := numAt e 0x1C 4
    hotHold := numAt e 0x20 2 }
def rslotOf (ovl : Nat) (e : List Byte) : RSlot :=
  let b (o : Nat) := numAt e o 1
  let h (o : Nat) := numAt e o 2
  { ovl := ovl, slot := b 0, pool := b 1, entryPos := b 2, disp := b 3, period := h 4, offset := h 6, prefill := h 8, pMax := h 0xA
    gMax := h 0xC, tpt := b 0xE, treeN := b 0xF, treeD := b 0x10, segPages := b 0x11, nseg := b 0x12, g0 := b 0x13, pti := b 0x14
    adpti := b 0x15, och := h 0x16, ctl := h 0x18, prompt := h 0x1A, tree := h 0x1C, mask := h 0x1E, accept := h 0x20
    sumOut := h 0x22, sumIn := h 0x24, sumKib := h 0x26, maxWait := h 0x28 }

def planPools (p : Plan) : List Pool :=
  match baseSec p 0x000B with
  | none => []
  | some s => (entriesOf 64 (numAt s.data 4 4) (s.data.drop 64)).map (poolOf s.data)
def planPool (p : Plan) (n : Nat) : Option Pool := (planPools p).find? (fun x => x.pool == n)
/-- Every slot entry of the plan. -/
def planRSlots (p : Plan) : List RSlot :=
  (secsOf p 0x000B).flatMap fun s =>
    (entriesOf 64 (numAt s.data 0 4) (s.data.drop (64 + 64 * numAt s.data 4 4))).map (rslotOf s.overlay)
/-- SUM_ENTRIES and SUM_REGION (Table 7-1). -/
def planSums (p : Plan) : Nat × Nat :=
  match baseSec p 0x000B with | none => (0, 0xFFFF) | some s => (numAt s.data 8 4, numAt s.data 0xC 2)
/-- The channel a field names, in the channel section of its overlay. -/
def slotChannel (p : Plan) (ovl n : Nat) : Option Channel :=
  if n = 0xFFFF then none
  else match (secsOf p 0x0005).find? (fun s => s.overlay == ovl) with
    | none => none
    | some s => ((secEntries 32 s).map channelOf)[n]?
/-- X of R226 and the position capacity C of a slot. -/
def slotX (s : RSlot) : Nat := if s.treeN = 0 then s.tpt else s.treeN
def slotSeg (s : RSlot) : Nat := 32 * s.segPages
def slotCap (s : RSlot) : Nat := slotSeg s * s.nseg

/-- An adapter declaration entry (Table 7-7). -/
structure AdDecl where
  aslot : Nat
  awin : Nat
  tenant : Nat
  fn : Nat
  v0 : Nat
  v1 : Nat
  tiles : List Nat
  words : Nat
  deriving DecidableEq, Repr

def adDeclOf (d e : List Byte) : AdDecl :=
  { aslot := numAt e 0 1, awin := numAt e 1 1, tenant := numAt e 2 2, fn := numAt e 4 2, v0 := numAt e 6 2, v1 := numAt e 8 2
    tiles := (List.range (numAt e 0xA 2)).map (fun i => numAt d (numAt e 0xC 4 + 2 * i) 2), words := numAt e 0x10 4 }
def planAdapters (p : Plan) : List AdDecl :=
  (secsOf p 0x0011).flatMap fun s => (entriesOf 32 (numAt s.data 0 4) (s.data.drop 16)).map (adDeclOf s.data)
def planAdapter (p : Plan) (n : Nat) : Option AdDecl := (planAdapters p).find? (fun a => a.aslot == n)
def planNullSlot (p : Plan) : Nat := match secsOf p 0x0011 with | [] => 0 | s :: _ => numAt s.data 4 2

/-! State. -/

/-- Table 7-6. -/
inductive ReqState where
  | assembling | restoring | waiting | prefill | generating | cancelled | ended | refused | dropped
  deriving DecidableEq, Repr

def reqCode : ReqState → Nat
  | .assembling => 1 | .restoring => 2 | .waiting => 3 | .prefill => 4 | .generating => 5 | .cancelled => 6
  | .ended => 7 | .refused => 8 | .dropped => 9

/-- A language request (R227-R237). -/
structure LmReq where
  tenant : Nat
  fn : Nat
  id : Nat
  conv : Nat
  flags : Nat
  adapter : Nat
  p : Nat
  g : Nat
  stop : List Nat
  params : List Byte
  parts : Nat
  got : List (Nat × List Nat)
  /-- a field of a part broke Table 7-4 -/
  bad : Bool := false
  /-- arrival of the first part, ns -/
  first : Nat := 0
  st : ReqState := .assembling
  /-- tick in which its last part arrived (R164, R233) -/
  done : Nat := 0
  /-- rows 6 and 7 passed (R229) -/
  taken : Bool := false
  slot : Nat := 0
  adm : Nat := 2 ^ 64 - 1
  /-- prefill ticks and length of its slot at admission -/
  prefill : Nat := 0
  charge : Nat := 0
  emitted : Nat := 0
  l0 : Nat := 0
  /-- positions its generation ticks have committed (R249) -/
  grown : Nat := 0
  /-- boundaries of Running waited, and ticks run since admission -/
  waited : Nat := 0
  ticks : Nat := 0
  /-- adapter buffer and version -/
  pin : Option (Nat × Nat) := none
  /-- END seen by the egress unit -/
  over_ : Bool := false
  endTick : Nat := 0
  deriving DecidableEq, Repr

/-- A conversation and its pages (R239-R243). -/
structure Conv where
  tenant : Nat
  conv : Nat
  fn : Nat
  /-- pool, first group and segment length of the slot that served it -/
  home : Option (Nat × Nat × Nat) := none
  len : Nat := 0
  /-- KV slot of each mapped position -/
  kv : Cells Nat := []
  /-- warm page slot of each warm page -/
  warm : Cells Nat := []
  /-- positions reserved by the request in a slot -/
  reserve : Nat := 0
  /-- boundary at which it became idle -/
  idle : Option Nat := none
  /-- its pages are in the page-out order -/
  leaving : Bool := false
  deriving DecidableEq, Repr

/-- A page bound to a lane for a tick (R241). -/
structure LaneMove where
  pool : Nat
  group : Nat
  lane : Nat
  tenant : Nat
  conv : Nat
  page : Nat
  kv : List Nat
  warm : Nat
  deriving DecidableEq, Repr

/-- The tree step of a slot in a tick (R246-R248). -/
structure TreeStep where
  l : Nat
  nEff : Nat
  parents : List Nat
  path : Option (List Nat) := none
  deriving DecidableEq, Repr

/-- What the serving unit keeps of a slot. -/
structure ServSlot where
  cap : Option Nat := none
  tree : Option TreeStep := none
  /-- words of the summary arriving in this tick, and the one kept -/
  summary : List Byte := []
  deriving DecidableEq, Repr

/-- A summary in the reserve, sealed (R244, R332). -/
structure Summary where
  tenant : Nat
  conv : Nat
  sealed : List Byte
  /-- boundary at which it was stored, and its reserve entry -/
  since : Nat
  entry : Nat
  deriving DecidableEq, Repr

/-- A cancel or release waiting for its boundary (R242, R250); by datagram or by a dictionary command. -/
structure ServOp where
  tenant : Nat
  key : Nat
  /-- FUNCTION and CONVERSATION of a datagram -/
  fn : Nat := 0
  conv : Nat := 0
  datagram : Bool
  /-- tick in which it arrived (R233, R391) -/
  tick : Nat := 0
  /-- a reserved field was set or the length is not that of the OP (R18, R227) -/
  bad : Bool := false
  deriving DecidableEq, Repr

/-- An import (the sealed bytes) or a deletion of a summary waiting for its boundary (R245, R256). -/
structure SumOp where
  tenant : Nat
  conv : Nat
  data : Option (List Byte)
  tick : Nat
  deriving DecidableEq, Repr

/-- An adapter command waiting for its boundary (R254): the buffer and version to install, or none to retire. -/
structure AdOp where
  slot : Nat
  install : Option (Nat × Nat)
  tick : Nat
  deriving DecidableEq, Repr

/-- An adapter slot: live versions (buffer, version) and the buffer of the current one (R254). -/
structure AdSlot where
  live : List (Nat × Nat) := []
  cur : Option Nat := none
  /-- SHA3-256 of slot, version and image header of what stands in each buffer (Table 10-2, M9) -/
  marks : Cells (BitVec 256) := []
  deriving DecidableEq, Repr

/-- The serving unit. -/
structure ServSt where
  reqs : List LmReq := []
  convs : List Conv := []
  sums : List Summary := []
  slots : Cells ServSlot := []
  moves : List LaneMove := []
  /-- refusals judged on completion and reported at the next boundary (R230) -/
  refusals : List (LmReq × Nat) := []
  cancels : List ServOp := []
  releases : List ServOp := []
  adapters : Cells AdSlot := []
  adOps : List AdOp := []
  sumOps : List SumOp := []
  /-- the plan ran in the tick that a boundary ends -/
  ran : Bool := false
  /-- slots whose admission boundary fell in a repair pause: it is carried out at the boundary that ends it (R125) -/
  owed : List Nat := []
  deriving DecidableEq, Repr

end Sys2Proof.Machine
end

