-- ==== Sys2Proof/Machine/VideoState.lean ====
section
/-! DEFINITION. State of the video path: packet store, decode queues, pictures, slots, engines, encoders
(spec/06_video_path.md R185-R218). -/

namespace Sys2Proof.Machine

/-- An RTP packet as received (R186). -/
structure Packet where
  seq : Nat
  ts : Nat
  marker : Bool
  payload : List Byte
  t : Nat
  /-- of a type the depacketizer does not support: its payload is dropped (R188) -/
  bad : Bool := false
  deriving DecidableEq, Repr

/-- An access unit or frame released to a decoder: RTP timestamp and payloads, whether a packet of it was lost (R188, R189), and
the time at which its first packet was released (R196). -/
structure CodedUnit where
  ts : Nat
  payloads : List (List Byte)
  lost : Bool := false
  first : Nat := 0
  deriving DecidableEq, Repr

/-- A decoded picture, or one being decoded. Sample of plane p (0 Y, 1 Cb, 2 Cr) at (y, x) is key p*2^26 + y*2^13 + x. -/
structure Picture where
  id : Nat
  ts : Nat
  tenBit : Bool := false
  full422 : Bool := false
  /-- 4:0:0: both chroma planes stand at mid-grey (R191) -/
  mono : Bool := false
  /-- lines of the frame buffer that read back as poisoned or uncorrectable (R267) -/
  badLines : List Nat := []
  samples : Cells Nat := []
  /-- handover slices reconstructed so far; every slice when complete -/
  ready : List Nat := []
  /-- slices that the decoder has put in the handover buffer (R197) -/
  done : List Nat := []
  complete : Bool := false
  damaged : Bool := false
  tainted : Bool := false
  /-- kept by the codec as a reference, or any JPEG frame (R195) -/
  isRef : Bool := true
  /-- slices handed over in direct mode (R197) -/
  taken : List Nat := []
  /-- bound to a slot, or superseded: it is not bound again (R199) -/
  spent : Bool := false
  deriving DecidableEq, Repr

/-- Profiles that Table 6-7 names, and any other. -/
inductive CodedProfile where
  | baseline | main | high | main10 | jpegBaseline | other
  deriving DecidableEq, Repr
/-- Chroma formats. -/
inductive Chroma where
  | mono | c420 | c422 | c444
  deriving DecidableEq, Repr

/-- What a picture's parameter sets or frame header declare (R191, R192): profile, level in tenths, whether the tier is High, whether a tool
that Table 6-7 refuses is used, bits per sample, chroma format, and the cropped size. -/
structure CodedParams where
  profile : CodedProfile
  level : Nat
  highTier : Bool
  refusedTool : Bool
  bits : Nat
  chroma : Chroma
  w : Nat
  h : Nat
  deriving DecidableEq, Repr

/-- What a decode core makes of a coded unit (R191-R195): the outcome of the codecs, which the spec names and does not
restate. `bad` lists, for each unit lost, in violation or undecoded, the sample keys it covers; `refs` the pictures it
predicts from. -/
structure Decoded where
  params : CodedParams
  isRef : Bool
  samples : Cells Nat
  bad : List (List Nat)
  refs : List Nat
  deriving DecidableEq, Repr

/-- What a handover slice was handed over as (R199, R200). -/
inductive SliceUse where
  | ready | previous | grey | skip
  deriving DecidableEq, Repr

/-- A slot taken in a tick (R199): its picture and slices. -/
structure SlotUse where
  ovl : Nat
  idx : Nat
  tick : Nat
  fc0 : Nat
  pic : Option Nat
  slices : List (Nat × SliceUse) := []
  ended : Bool := false
  /-- RTP timestamp of the picture bound, and its state (R221, R223) -/
  ts : Nat := 0
  damaged : Bool := false
  tainted : Bool := false
  /-- passed to the encoder (R213) -/
  passed : Bool := false
  deriving DecidableEq, Repr

/-- A picture passed to an encoder (R213). -/
structure Passed where
  ts : Nat
  tenBit : Bool
  /-- the samples the core codes: plane * 2^26 + y * 2^13 + x -/
  samples : Cells Nat
  /-- slices passed as mid-grey -/
  grey : List Nat
  idr : Bool
  /-- codec of 2303.02 and the coded size -/
  codec : Nat
  w : Nat
  h : Nat
  deriving DecidableEq, Repr

/-- The cached window of the reference picture (R215): the unit row it stands for, and the left edges of its 64-column strips. -/
structure EncWindow where
  row : Nat
  strips : List Int
  deriving DecidableEq, Repr
/-- A prediction of the unit in column `col` of a unit row: the reference area it reads, interpolation taps included, in luma samples. -/
structure Prediction where
  col : Nat
  row : Nat
  x : Int
  y : Int
  w : Nat
  h : Nat
  deriving DecidableEq, Repr
/-- What an encode core makes of a slice (R213-R218): the payloads of its packets, the QP of each unit row, and its predictions. -/
structure CodedSlice where
  packets : List (List Byte)
  qps : List Nat
  preds : List Prediction
  deriving DecidableEq, Repr

/-- An encoder session (R213-R218). -/
structure EncSt where
  /-- a clip in progress: pictures left -/
  clip : Option Nat := none
  stopped : Bool := false
  queue : List Passed := []
  started : Bool := false
  sinceIdr : Nat := 0
  idrAsked : Bool := false
  seq : Option Nat := none
  /-- SRTP packet index of the egress (R218) -/
  index : Nat := 0
  /-- the picture being coded: slices coded, QP of its first unit row, bits so far; packets held until it is complete (R217) -/
  slice : Nat := 0
  baseQp : Nat := 0
  bits : Nat := 0
  outbox : List (List Byte) := []
  /-- the cached reference window (R215) -/
  window : Option EncWindow := none
  /-- the hypothetical reference buffer in bits, and when it stood so; none before the session's first picture (R216) -/
  hrd : Option (Nat × Nat) := none
  /-- bits coded in the last second, each with its time (R216) -/
  recent : List (Nat × Nat) := []
  deriving DecidableEq, Repr

/-- One stream. -/
structure StreamSt where
  packets : List Packet := []
  /-- next expected sequence number -/
  next : Option Nat := none
  /-- SRTP: highest packet index authenticated and the replay list (R187) -/
  srtp : Option Nat := none
  replay : List Nat := []
  /-- the unit being assembled, and whether packets were declared lost since the last release -/
  partial_ : Option CodedUnit := none
  gap : Bool := false
  held : List CodedUnit := []
  waitIrap : Bool := true
  /-- RASL pictures of the IRAP picture at which decoding started are discarded (R193) -/
  skipRasl : Bool := false
  refused : Bool := false
  aborted : Bool := false
  pictures : List Picture := []
  nextPic : Nat := 0
  /-- time in ns of the last release to the decode core -/
  released : Option Nat := none
  slots : List SlotUse := []
  /-- slices b handed over since RUN, restart or abort (R200) -/
  handed : List Nat := []
  enc : EncSt := {}
  deriving DecidableEq, Repr

/-- One Campion engine. -/
structure CampionSt where
  inBuf : Cells SWord := []
  /-- words that have arrived and wait for the job whose input they are, and the maps filled in this tick by buffer base -/
  arrived : List SWord := []
  filled : List Nat := []
  /-- detection list most recently delivered, with its tick -/
  list : List Byte := []
  /-- job running: index, and its outputs, delivered at its end -/
  job : Option (Nat × List SWord × List Byte) := none
  poisoned : Bool := false
  deriving DecidableEq, Repr

/-- One Teasel engine. -/
structure TeaselSt where
  inBuf : Cells SWord := []
  arrived : List SWord := []
  filled : List Nat := []
  job : Option (Nat × List SWord) := none
  deriving DecidableEq, Repr

/-- The video path. -/
structure VideoSt where
  streams : Cells StreamSt := []
  /-- units released to each decode core, oldest first (R196) -/
  cores : Cells (List (Nat × CodedUnit)) := []
  /-- time at which each decode core began the unit at its front (R194) -/
  since : Cells Nat := []
  /-- streams whose pictures each encode core codes, in order of passing (R217) -/
  ecores : Cells (List Nat) := []
  campion : Cells CampionSt := []
  teasel : Cells TeaselSt := []
  deriving DecidableEq, Repr

end Sys2Proof.Machine
end

