-- ==== Sys2Proof/Syntax.lean ====
section
/-! DEFINITION. The commands of the block: one constructor per row of spec/opcode_table.json, in its order (the rule of
each row stands beside it). Operands: the tile, port, stream or other entity a row concerns, its encoded fields
(Tables 3-5 to 3-9), and what arrives from outside the block (frames, sensor values, outcomes the spec leaves to a
unit it does not describe). Times are in ns of the block's clock. -/

namespace Sys2Proof

/-- The commands (rows of the opcode table). -/
inductive Instr where
  /-- NOP (R72). -/
  | nop (t : Nat) (slot : Machine.Slot)
  /-- SETL (R73). -/
  | setl (t : Nat) (s : Fin 16) (imm : BitVec 16)
  /-- SETH (R73). -/
  | seth (t : Nat) (s : Fin 16) (imm : BitVec 16)
  /-- ADDS (R73). -/
  | adds (t : Nat) (s : Fin 16) (imm : BitVec 16)
  /-- LOOP (R76). -/
  | loop (t : Nat) (level : Fin 4) (cnt : Fin 16) (stop : BitVec 12)
  /-- JUMP (R77). -/
  | jump (t : Nat) (target : BitVec 12)
  /-- BEQ (R77). -/
  | beq (t : Nat) (sa sb : Fin 16) (target : BitVec 12)
  /-- BNE (R77). -/
  | bne (t : Nat) (sa sb : Fin 16) (target : BitVec 12)
  /-- WAIT (R77). -/
  | wait (t : Nat) (n : BitVec 16)
  /-- ENDT (R79). -/
  | endt (t : Nat) (entry : BitVec 12)
  /-- MLOAD (R81). -/
  | mload (t : Nat) (agd aod : Fin 16) (us : List (Nat × Machine.Upset))
  /-- MPRE (R84). -/
  | mpre (t : Nat) (agd aod : Fin 16) (m0 : Fin 64) (count : Fin 32) (us : List (Nat × Machine.Upset))
  /-- MRUN (R80). -/
  | mrun (t : Nat) (src : Bool) (sel aod : Fin 16) (m0 : Fin 64) (count : Fin 32) (sw half : Bool) (d : Fin 64) (us : List (Nat × Machine.Upset))
  /-- MOUT (R84). -/
  | mout (t : Nat) (agd aod : Fin 16) (m0 : Fin 64) (count : Fin 32)
  /-- VADD (R53). -/
  | vadd (t : Nat) (vd va vb : Fin 32) (mask : Fin 8) (w : Bool)
  /-- VSUB (R53). -/
  | vsub (t : Nat) (vd va vb : Fin 32) (mask : Fin 8) (w : Bool)
  /-- VMUL (R53). -/
  | vmul (t : Nat) (vd va vb : Fin 32) (mask : Fin 8) (w : Bool)
  /-- VFMA (R53). -/
  | vfma (t : Nat) (vd va vb : Fin 32) (mask : Fin 8) (w : Bool)
  /-- VMIN (R53). -/
  | vmin (t : Nat) (vd va vb : Fin 32) (mask : Fin 8) (w : Bool)
  /-- VMAX (R53). -/
  | vmax (t : Nat) (vd va vb : Fin 32) (mask : Fin 8) (w : Bool)
  /-- VCMP (R74). -/
  | vcmp (t : Nat) (va vb : Fin 32) (mask : Fin 8) (w : Bool) (cond : Fin 8) (target : Fin 8)
  /-- VDIV (R53). -/
  | vdiv (t : Nat) (vd va vb : Fin 32) (mask : Fin 8) (w : Bool)
  /-- VSQRT (R53). -/
  | vsqrt (t : Nat) (vd va : Fin 32) (mask : Fin 8) (w : Bool)
  /-- VRSQRT (R53). -/
  | vrsqrt (t : Nat) (vd va : Fin 32) (mask : Fin 8) (w : Bool)
  /-- VEXP2 (R53). -/
  | vexp2 (t : Nat) (vd va : Fin 32) (mask : Fin 8) (w : Bool)
  /-- VEXP (R53). -/
  | vexp (t : Nat) (vd va : Fin 32) (mask : Fin 8) (w : Bool)
  /-- VLOG2 (R53). -/
  | vlog2 (t : Nat) (vd va : Fin 32) (mask : Fin 8) (w : Bool)
  /-- VLOG (R53). -/
  | vlog (t : Nat) (vd va : Fin 32) (mask : Fin 8) (w : Bool)
  /-- VSIN (R53). -/
  | vsin (t : Nat) (vd va : Fin 32) (mask : Fin 8) (w : Bool)
  /-- VCOS (R53). -/
  | vcos (t : Nat) (vd va : Fin 32) (mask : Fin 8) (w : Bool)
  /-- VTANH (R53). -/
  | vtanh (t : Nat) (vd va : Fin 32) (mask : Fin 8) (w : Bool)
  /-- VSIGM (R53). -/
  | vsigm (t : Nat) (vd va : Fin 32) (mask : Fin 8) (w : Bool)
  /-- VERF (R53). -/
  | verf (t : Nat) (vd va : Fin 32) (mask : Fin 8) (w : Bool)
  /-- VGELU (R53). -/
  | vgelu (t : Nat) (vd va : Fin 32) (mask : Fin 8) (w : Bool)
  /-- VSILU (R53). -/
  | vsilu (t : Nat) (vd va : Fin 32) (mask : Fin 8) (w : Bool)
  /-- VCVT (R96). -/
  | vcvt (t : Nat) (vd va : Fin 32) (mask : Fin 8) (w : Bool) (fo : Fin 16) (ovf : Bool)
  /-- VRSUM (R55). -/
  | vrsum (t : Nat) (vd va : Fin 32) (mask : Fin 8) (w : Bool)
  /-- VRMAX (R55). -/
  | vrmax (t : Nat) (vd va : Fin 32) (mask : Fin 8) (w : Bool)
  /-- VRMIN (R55). -/
  | vrmin (t : Nat) (vd va : Fin 32) (mask : Fin 8) (w : Bool)
  /-- VPOOL (R97). -/
  | vpool (t : Nat) (vd : Fin 32) (agd : Fin 16) (mask : Fin 8) (w : Bool) (kind : Fin 4) (us : List (Nat × Machine.Upset))
  /-- VBCAST (R95). -/
  | vbcast (t : Nat) (vd va : Fin 32) (mask : Fin 8) (w : Bool) (k : Fin 128)
  /-- VMOV (R95). -/
  | vmov (t : Nat) (vd va : Fin 32) (mask : Fin 8) (w : Bool)
  /-- VLD (R58). -/
  | vld (t : Nat) (vd : Fin 32) (agd : Fin 16) (us : List (Nat × Machine.Upset))
  /-- VLDC (R96). -/
  | vldc (t : Nat) (vd : Fin 32) (agd : Fin 16) (fmt : Fin 16) (w : Bool) (us : List (Nat × Machine.Upset))
  /-- VST (R96). -/
  | vst (t : Nat) (vs : Fin 32) (agd : Fin 16) (sc : Bool) (n : Fin 8)
  /-- WLD (R91). -/
  | wld (t : Nat) (slot agd ky kx0 : Fin 16) (us : List (Nat × Machine.Upset))
  /-- AGSTEP (R89). -/
  | agstep (t : Nat) (agd : Fin 16) (kind : Fin 4)
  /-- AGRST (R89). -/
  | agrst (t : Nat) (agd : Fin 16)
  /-- AGLD (R86). -/
  | agld (t : Nat) (agd s : Fin 16) (us : List (Nat × Machine.Upset))
  /-- ADLD (R37). -/
  | adld (t : Nat) (q : Fin 4) (s : Fin 16) (us : List (Nat × Machine.Upset))
  /-- MKLD (R74). -/
  | mkld (t : Nat) (mask : Fin 8) (agd : Fin 16) (us : List (Nat × Machine.Upset))
  /-- SEND (R109). -/
  | send (t : Nat) (handle : Fin 1024) (agd : Fin 16) (n : Fin 4) (us : List (Nat × Machine.Upset))
  /-- RECV (R114). -/
  | recv (t : Nat) (handle : Fin 1024) (agd : Fin 16) (n : Fin 4)
  /-- INSTRUCTION_LINE_LOST (R68). -/
  | instructionLineLost (t : Nat) (e : Machine.Upset)
  /-- INVALID_SLOT_SEND (R112). -/
  | invalidSlotSend (chan j : Nat)
  /-- FLIT_HOP (R105). -/
  | flitHop (i : Nat) (side : BitVec 24) (data : Machine.Upset)
  /-- FLIT_EJECT (R114). -/
  | flitEject (i : Nat) (data : Machine.Upset)
  /-- INJECTION_WRITE (R116). -/
  | injectionWrite (i : Nat) (data : Machine.Upset)
  /-- MGMT_MESSAGE_ARRIVAL (R120). -/
  | mgmtMessageArrival (t : Nat) (flits : List (BitVec 256))
  /-- MGMT_READ_SRAM (R119). -/
  | mgmtReadSram (t : Nat) (us : List (Nat × Machine.Upset))
  /-- MGMT_WRITE_SRAM (R119). -/
  | mgmtWriteSram (t : Nat)
  /-- MGMT_READ_INSTR (R119). -/
  | mgmtReadInstr (t : Nat) (us : List (Nat × Machine.Upset))
  /-- MGMT_WRITE_INSTR (R119). -/
  | mgmtWriteInstr (t : Nat)
  /-- MGMT_SELF_TEST (R119). -/
  | mgmtSelfTest (t stat : Nat)
  /-- MGMT_READ_COUNTERS (R119). -/
  | mgmtReadCounters (t : Nat)
  /-- MGMT_RESPONSE (R119). -/
  | mgmtResponse (i : Nat)
  /-- TICK_BOUNDARY (R137). -/
  | tickBoundary (t : Nat)
  /-- ABORT_EFFECT (R159). -/
  | abortEffect
  /-- OVERLAY_MASK_FORMED (R158). -/
  | overlayMaskFormed
  /-- SERVING_BOUNDARY (R233). -/
  | servingBoundary
  /-- SCHEDULE_ARMING (R137). -/
  | scheduleArming
  /-- DICTIONARY_LATCH (R396). -/
  | dictionaryLatch
  /-- HBM_BOUNDARY_REFRESH (R171). -/
  | hbmBoundaryRefresh
  /-- WORK_WINDOW_START (R75). -/
  | workWindowStart
  /-- BUSY_PART_END (R139). -/
  | busyPartEnd (t : Nat)
  /-- TICK_OVERRUN (R166). -/
  | tickOverrun (t : Nat)
  /-- SLACK_WINDOW_START (R65). -/
  | slackWindowStart
  /-- FUNCTION_COMPLETION (R152). -/
  | functionCompletion (fn : Nat)
  /-- TILE_DECLARED_FAILED (R122). -/
  | tileDeclaredFailed (t : Nat)
  /-- REPAIR_LATCH (R124). -/
  | repairLatch
  /-- REPAIR_PAUSE_END (R124). -/
  | repairPauseEnd
  /-- COLUMN_RETIRED_NO_SHIFT (R132). -/
  | columnRetiredNoShift (t : Nat)
  /-- SPARE_COLUMN_SELF_TEST (R130). -/
  | spareColumnSelfTest (q : Fin 4) (pass : Bool)
  /-- DECLARE_TILE_FAILED (R133). -/
  | declareTileFailed (r : Machine.Role) (tile : BitVec 16)
  /-- LOAD (R154). -/
  | load (r : Machine.Role)
  /-- CHECK_RUN_COMPLETE (R155). -/
  | checkRunComplete
  /-- RUN (R141). -/
  | run (r : Machine.Role)
  /-- RUN_EFFECT (R141). -/
  | runEffect
  /-- PAUSE (R157). -/
  | pause (r : Machine.Role)
  /-- PAUSE_EFFECT (R157). -/
  | pauseEffect
  /-- RESUME (R141). -/
  | resume (r : Machine.Role)
  /-- RESUME_EFFECT (R141). -/
  | resumeEffect
  /-- STOP (R157). -/
  | stop (r : Machine.Role)
  /-- STOP_EFFECT (R157). -/
  | stopEffect
  /-- UNLOAD (R157). -/
  | unload (r : Machine.Role)
  /-- UNLOAD_EFFECT (R338). -/
  | unloadEffect
  /-- OVERLAY_REQUEST (R158). -/
  | overlayRequest (r : Machine.Role) (mask : BitVec 16)
  /-- ABORT_FUNCTION (R159). -/
  | abortFunction (r : Machine.Role) (fn : BitVec 16)
  /-- ABORT_STATUS_POSTED (R159). -/
  | abortStatusPosted
  /-- RESTART_FUNCTION (R162). -/
  | restartFunction (r : Machine.Role)
  /-- RESTART_EFFECT (R162). -/
  | restartEffect
  /-- HBM_ACT (R169). -/
  | hbmAct (pc j : Nat)
  /-- HBM_RD (R169). -/
  | hbmRd (pc j : Nat) (errs : List (Nat × BitVec 8))
  /-- HBM_RD_AP (R169). -/
  | hbmRdAp (pc j : Nat) (errs : List (Nat × BitVec 8))
  /-- HBM_WR (R169). -/
  | hbmWr (pc j : Nat)
  /-- HBM_WR_AP (R169). -/
  | hbmWrAp (pc j : Nat)
  /-- HBM_PRE (R169). -/
  | hbmPre (pc j : Nat)
  /-- HBM_PRE_ALL (R169). -/
  | hbmPreAll (pc j : Nat)
  /-- HBM_REFRESH_SLOT (R170). -/
  | hbmRefreshSlot (pc j : Nat)
  /-- HBM_SCRUB_SLOT (R170). -/
  | hbmScrubSlot (pc j : Nat) (errs : List (Nat × BitVec 8))
  /-- HBM_READ_RETURN (R169). -/
  | hbmReadReturn (i : Nat)
  /-- AUTONOMOUS_REFRESH (R171). -/
  | autonomousRefresh (pc bank : Nat)
  /-- PATROL_STEP (R269). -/
  | patrolStep (pc : Nat) (errs : List (Nat × BitVec 8))
  /-- HBM_WRITEBACK (R267). -/
  | hbmWriteback (pc : Nat) (errs : List (Nat × BitVec 8))
  /-- ROW_SPARE_COPY (R270). -/
  | rowSpareCopy (row : Nat)
  /-- ROW_SPARE_SWITCH (R270). -/
  | rowSpareSwitch (row : Nat)
  /-- POST_PACKAGE_REPAIR (R271). -/
  | postPackageRepair (r : Machine.Role)
  /-- PPR_COMPLETE (R271). -/
  | pprComplete (done : List Nat) (left : Nat)
  /-- REVOCATION_COMPLETE (R268). -/
  | revocationComplete (i : Nat)
  /-- HBM_TEMPERATURE_READ (R262). -/
  | hbmTemperatureRead (temps : List Int)
  /-- CA_PARITY_RETRY (R262). -/
  | caParityRetry (pc : Nat)
  /-- FRAME_RECEIVED (R176). -/
  | frameReceived (port t : Nat) (frame : List Byte)
  /-- PTP_SYNC (R180). -/
  | ptpSync
  /-- PTP_FOLLOW_UP (R179). -/
  | ptpFollowUp
  /-- PTP_ANNOUNCE (R179). -/
  | ptpAnnounce
  /-- PTP_DELAY_RESP (R179). -/
  | ptpDelayResp
  /-- PTP_SYNC_TIMEOUT (R180). -/
  | ptpSyncTimeout (t : Nat)
  /-- PTP_HOLDOVER_EXPIRY (R180). -/
  | ptpHoldoverExpiry (t : Nat)
  /-- PPS_OUT_EDGE (R468). -/
  | ppsOutEdge (t : Nat)
  /-- ARP_REQUEST (R175). -/
  | arpRequest
  /-- NEIGHBOR_SOLICITATION (R175). -/
  | neighborSolicitation
  /-- ECHO_REQUEST (R175). -/
  | echoRequest
  /-- RESOLUTION_TIMEOUT (R178). -/
  | resolutionTimeout (t : Nat)
  /-- RTP_PACKET (R186). -/
  | rtpPacket (stream : Nat)
  /-- GAP_JITTER_TIMEOUT (R189). -/
  | gapJitterTimeout (stream t : Nat)
  /-- PICTURE_DECODED (R196). -/
  | pictureDecoded (core t : Nat) (d : Machine.Decoded)
  /-- PICTURE_REFUSED (R192). -/
  | pictureRefused (core t : Nat) (d : Machine.CodedParams)
  /-- DECODE_BUDGET_EXPIRY (R194). -/
  | decodeBudgetExpiry (core t : Nat) (d : Machine.Decoded)
  /-- SLICE_DECODED (R197). -/
  | sliceDecoded (core b : Nat) (samples : List (Nat × Nat))
  /-- SLICE_READINESS_POINT (R198). -/
  | sliceReadinessPoint (ovl : Fin 16) (slot b : Nat)
  /-- CAMPION_FIRST_LAYER (R205). -/
  | campionFirstLayer (ovl : Fin 16) (slot b : Nat)
  /-- CAMPION_LAST_LAYER_JOB (R206). -/
  | campionLastLayerJob (e job : Nat)
  /-- CAMPION_JOB_END (R208). -/
  | campionJobEnd (e : Nat)
  /-- TEASEL_JOB (R211). -/
  | teaselJob (e job : Nat)
  /-- TEASEL_JOB_END (R212). -/
  | teaselJobEnd (e : Nat)
  /-- ENCODER_PICTURE_PASS (R213). -/
  | encoderPicturePass (stream : Nat)
  /-- ENCODER_SLICE_SENT (R217). -/
  | encoderSliceSent (stream t : Nat) (d : Machine.CodedSlice)
  /-- START_CLIP (R213). -/
  | startClip (r : Machine.Role)
  /-- STOP_ENCODER (R213). -/
  | stopEncoder (r : Machine.Role)
  /-- REQUEST_IDR (R214). -/
  | requestIdr (r : Machine.Role)
  /-- CLIP_END (R213). -/
  | clipEnd (stream : Nat)
  /-- EGRESS_RECORD (R220). -/
  | egressRecord (chan : Nat)
  /-- EGRESS_INVALID_HEADER (R477). -/
  | egressInvalidHeader (chan send : Nat)
  /-- EGRESS_PAUSE_DATAGRAM (R477). -/
  | egressPauseDatagram (campion : Bool) (e n : Nat)
  /-- SERVING_TOKEN_RECORD (R231). -/
  | servingTokenRecord (chan : Nat)
  /-- REQUEST_SUBMIT (R229). -/
  | requestSubmit
  /-- REQUEST_CANCEL (R250). -/
  | requestCancel
  /-- REQUEST_RELEASE (R242). -/
  | requestRelease
  /-- REQUEST_ASSEMBLY_TIMEOUT (R228). -/
  | requestAssemblyTimeout (tenant request t : Nat)
  /-- REQUEST_WAIT_TIMEOUT (R235). -/
  | requestWaitTimeout (tenant request : Nat)
  /-- CONTROL_BLOCK_SEND (R238). -/
  | controlBlockSend (slot : Nat)
  /-- TREE_BLOCK (R246). -/
  | treeBlock (slot : Nat)
  /-- MASK_BLOCK_SEND (R247). -/
  | maskBlockSend (slot : Nat)
  /-- ACCEPTED_PATH (R248). -/
  | acceptedPath (slot : Nat)
  /-- SUMMARY_OUT (R244). -/
  | summaryOut (slot : Nat)
  /-- HOT_HOLD_EXPIRY (R241). -/
  | hotHoldExpiry (tenant conv : Nat)
  /-- CONVERSATION_EXPIRY (R242). -/
  | conversationExpiry (tenant conv : Nat)
  /-- SUMMARY_EXPIRY (R245). -/
  | summaryExpiry (tenant conv : Nat)
  /-- CANCEL_REQUEST (R250). -/
  | cancelRequest (r : Machine.Role) (request : BitVec 32)
  /-- CONVERSATION_RELEASE (R242). -/
  | conversationRelease (r : Machine.Role)
  /-- DELETE_SUMMARY (R245). -/
  | deleteSummary (r : Machine.Role)
  /-- SUMMARY_EXPORT (R245). -/
  | summaryExport (r : Machine.Role)
  /-- SUMMARY_IMPORT (R245). -/
  | summaryImport (r : Machine.Role) (data : List Byte)
  /-- ADAPTER_INSTALL (R254). -/
  | adapterInstall (r : Machine.Role)
  /-- ADAPTER_RETIRE (R254). -/
  | adapterRetire (r : Machine.Role)
  /-- INTAKE_DATAGRAM (R274). -/
  | intakeDatagram
  /-- OPEN (R275). -/
  | openHandle (r : Machine.Role)
  /-- CLOSE (R275). -/
  | close (r : Machine.Role)
  /-- RELEASE (R275). -/
  | release (r : Machine.Role)
  /-- ADAPTER_PLACEMENT_DONE (R278). -/
  | adapterPlacementDone (handle : Nat)
  /-- HANDLE_TIMEOUT (R275). -/
  | handleTimeout (handle t : Nat)
  /-- INTAKE_DRAIN (R276). -/
  | intakeDrain (pc : Nat)
  /-- STOMAR_FRAME_SEND (R285). -/
  | stomarFrameSend (port : Nat)
  /-- STOMAR_FRAME (R286). -/
  | stomarFrame (port corrected bad : Nat) (frame : List Byte) (marks : List (Nat × Bool × Bool))
  /-- REKEY_START (R287). -/
  | rekeyStart (port : Nat)
  /-- LINK_KEY_EXHAUSTED (R287). -/
  | linkKeyExhausted (port : Nat)
  /-- KEY_EXCHANGE (R334). -/
  | keyExchange (port fcnt t : Nat)
  /-- LANE_SUBSTITUTION (R288). -/
  | laneSubstitution (port lane ratio : Nat) (lockLost : Bool)
  /-- LANE_CONTROL (R288). -/
  | laneControl (port lane count : Nat)
  /-- LINK_UP_START (R289). -/
  | linkUpStart (port : Nat) (ok : Bool) (t : Nat)
  /-- LINK_RETRY_TIMER (R289). -/
  | linkRetryTimer (port t : Nat)
  /-- BEACON_SEND (R290). -/
  | beaconSend (port : Nat)
  /-- IDENTITY_BEACON (R291). -/
  | identityBeacon (port t : Nat) (same : Bool)
  /-- BEACON_TIMEOUT (R291). -/
  | beaconTimeout (port t : Nat)
  /-- TIMED_WORD_TRANSMIT (R292). -/
  | timedWordTransmit (port entry word : Nat)
  /-- TIMED_WORD_RELEASE (R294). -/
  | timedWordRelease (port entry word : Nat)
  /-- TIMING_PROBE (R297). -/
  | timingProbe (port rtt : Nat)
  /-- TICK_TOKEN (R300). -/
  | tickToken (port : Nat) (tok : Machine.Token) (lead t : Nat)
  /-- TOKEN_SEND (R300). -/
  | tokenSend (t : Nat)
  /-- BUSY_DONE (R300). -/
  | busyDone (pos : Nat) (b : Machine.BusyDone)
  /-- FORWARDED_COMMAND (R299). -/
  | forwardedCommand (port : Nat) (d : Machine.DomCmd)
  /-- FORWARDED_COMMAND_STATUS (R299). -/
  | forwardedCommandStatus (port : Nat) (d : Machine.DomCmd) (st : Nat)
  /-- SERVING_DECISIONS (R255). -/
  | servingDecisions (port : Nat) (adms pst : List (Nat × Nat × Nat)) (moves : List Machine.LaneMove)
  /-- DOMAIN_FORMED (R298). -/
  | domainFormed (t : Nat)
  /-- MEMBER_LOST (R302). -/
  | memberLost (pos t : Nat)
  /-- LEADER_LOST (R302). -/
  | leaderLost (reach : List Nat) (t : Nat)
  /-- MEMBER_JOIN (R303). -/
  | memberJoin (pos t : Nat)
  /-- STREAM_BINDING (R307). -/
  | streamBinding (stream tick : Nat) (ts : Option Nat)
  /-- PAIR_HEARTBEAT (R309). -/
  | pairHeartbeat (active relinq : Bool) (t : Nat)
  /-- HEARTBEAT_TIMEOUT (R309). -/
  | heartbeatTimeout (t : Nat)
  /-- STANDBY_TAKEOVER (R309). -/
  | standbyTakeover
  /-- MIRROR_CAPTURE (R306). -/
  | mirrorCapture (entry : Nat)
  /-- CAPTURE_ABANDONED (R306). -/
  | captureAbandoned (entry : Nat)
  /-- MIRROR_CAPTURE_DATA (R306). -/
  | mirrorCaptureData (entry tick : Nat) (data : List Byte)
  /-- CAPTURE_END (R306). -/
  | captureEnd (entry tick : Nat) (digest : List Byte)
  /-- CONVERGENCE_END (R307). -/
  | convergenceEnd
  /-- RETURN_HOLDOFF_EXPIRY (R311). -/
  | returnHoldoffExpiry (t : Nat)
  /-- RETURN_REQUEST (R311). -/
  | returnRequest
  /-- RETURN_REPLY (R311). -/
  | returnReply (b : Nat)
  /-- SWITCH_OVER (R312). -/
  | switchOver (r : Machine.Role)
  /-- INHIBIT_RETURN (R312). -/
  | inhibitReturn (r : Machine.Role)
  /-- ALLOW_RETURN (R312). -/
  | allowReturn (r : Machine.Role)
  /-- RETRAIN (R442). -/
  | retrain (r : Machine.Role)
  /-- EXCLUDE (R291). -/
  | excludePort (r : Machine.Role)
  /-- INCLUDE (R291). -/
  | includePort (r : Machine.Role)
  /-- QUOTE_REQUEST (R321). -/
  | quoteRequest (r : Machine.Role)
  /-- QUOTE_FREE (R321). -/
  | quoteFree (r : Machine.Role)
  /-- QUOTE_SIGN (R323). -/
  | quoteSign (slot : Nat)
  /-- QUOTE_RETRY_HINT (R323). -/
  | quoteRetryHint (slot pauseTicks checkMs : Nat)
  /-- QUOTE_SLOT_TIMEOUT (R321). -/
  | quoteSlotTimeout (slot t : Nat)
  /-- KEY_RELEASE (R328). -/
  | keyRelease (r : Machine.Role) (data : List Byte)
  /-- KEY_GENERATION_CURRENT (R329). -/
  | keyGenerationCurrent
  /-- KEY_RETIREMENT (R330). -/
  | keyRetirement (kind scope : Nat)
  /-- RESEAL_COMPLETE (R332). -/
  | resealComplete (tenant : Nat)
  /-- STORE_SWEEP_DONE (R330). -/
  | storeSweepDone (r : Machine.Role) (kind : BitVec 8)
  /-- STREAM_SWEEP_DONE (R330). -/
  | streamSweepDone (r : Machine.Role) (kind : BitVec 8)
  /-- TENANT_ASSIGN (R337). -/
  | tenantAssign (r : Machine.Role)
  /-- TENANT_UNASSIGN (R337). -/
  | tenantUnassign (r : Machine.Role)
  /-- EXTEND (R318). -/
  | extend (r : Machine.Role) (data : List Byte)
  /-- PLAN_KEY_WRITE (R336). -/
  | planKeyWrite (r : Machine.Role) (slot : Fin 8) (data : List Byte)
  /-- SERVICE_SESSION_BEGIN (R341). -/
  | serviceSessionBegin
  /-- SERVICE_SESSION_END (R341). -/
  | serviceSessionEnd
  /-- POWER_ESTIMATE (R349). -/
  | powerEstimate (counts : List (Nat × Nat))
  /-- GAIN_CALIBRATION (R350). -/
  | gainCalibration (mv ma t : Nat)
  /-- POWER_CAP_WRITE (R351). -/
  | powerCapWrite (r : Machine.Role) (watts : BitVec 16)
  /-- DROOP_EVENT (R361). -/
  | droopEvent (t : Nat)
  /-- DROOP_LOCK_EXPIRY (R361). -/
  | droopLockExpiry
  /-- COOLANT_READING (R362). -/
  | coolantReading (r : Machine.Role) (v : BitVec 64) (t : Nat)
  /-- COOLANT_STALE (R364). -/
  | coolantStale (t : Nat)
  /-- DIE_SENSOR_SAMPLE (R365). -/
  | dieSensorSample (dies : List Int) (t : Nat)
  /-- UNDERVOLTAGE_QUALIFIED (R365). -/
  | undervoltageQualified (t : Nat)
  /-- INPUT_BELOW_44V (R368). -/
  | inputBelow44v (t : Nat)
  /-- THERMAL_TRIP (R365). -/
  | thermalTrip (t : Nat)
  /-- SURVIVAL_EXIT (R369). -/
  | survivalExit (r : Machine.Role)
  /-- KEEP_WARM_ADJUST (R370). -/
  | keepWarmAdjust
  /-- WAKE_STATE_ENTRY (R371). -/
  | wakeStateEntry
  /-- WAKE_COMPLETE (R372). -/
  | wakeComplete (t : Nat)
  /-- OVERVOLTAGE_TRIP (R471). -/
  | overvoltageTrip (t : Nat)
  /-- CURRENT_LIMIT_TRIP (R471). -/
  | currentLimitTrip (t : Nat)
  /-- INPUT_OFF (R449). -/
  | inputOff (t : Nat)
  /-- SOFT_START (R449). -/
  | softStart (t : Nat)
  /-- PWR_GOOD (R373). -/
  | pwrGood (cores flips : Nat) (bad : List Nat) (mv : Nat) (hot : Int) (t : Nat)
  /-- BOOT_RESUME (R451). -/
  | bootResume (hot : Int) (t : Nat)
  /-- BOOT_COMPLETE (R449). -/
  | bootComplete (cols : List (Nat × Nat)) (engines : List Nat) (spares : List Machine.EngineKind) (hbmOk : Bool) (t : Nat)
  /-- RESET_N_QUALIFIED (R455). -/
  | resetNQualified (t : Nat)
  /-- RESET_N_GLITCH (R455). -/
  | resetNGlitch (ns t : Nat)
  /-- RESET_N_RELEASE (R455). -/
  | resetNRelease (t : Nat)
  /-- CMD3 (R377). -/
  | cmd3
  /-- CMD5 (R376). -/
  | cmd5
  /-- CMD7 (R377). -/
  | cmd7 (rca : BitVec 16)
  /-- CMD11 (R376). -/
  | cmd11
  /-- CMD15 (R377). -/
  | cmd15 (rca : BitVec 16)
  /-- CMD19 (R380). -/
  | cmd19
  /-- CMD52 (R377). -/
  | cmd52 (write raw : Bool) (fn : Fin 8) (addr : BitVec 17) (v : Byte)
  /-- CMD53 (R377). -/
  | cmd53 (write block incr : Bool) (fn : Fin 8) (addr : BitVec 17) (count : Fin 512) (data : List Byte)
  /-- UNSUPPORTED_SDIO_COMMAND (R377). -/
  | unsupportedSdioCommand
  /-- IO_ABORT (R383). -/
  | ioAbort
  /-- SDIO_RESET (R383). -/
  | sdioReset
  /-- GO (R387). -/
  | go
  /-- DISCARD (R384). -/
  | discard
  /-- REQUEST_TAKE (R387). -/
  | requestTake
  /-- READ (R391). -/
  | read
  /-- WRITE (R391). -/
  | write
  /-- READ_SEG (R389). -/
  | readSeg (t : Nat)
  /-- WRITE_SEG (R389). -/
  | writeSeg (t : Nat)
  /-- SEGMENT_COPY_EXPIRY (R389). -/
  | segmentCopyExpiry (r : Machine.Role) (t : Nat)
  /-- REGISTER_WRITE (R391). -/
  | registerWrite (r : Machine.Role) (idx : BitVec 16) (sub : BitVec 8) (data : List Byte)
  /-- SELECTOR_WRITE (R395). -/
  | selectorWrite (r : Machine.Role) (idx : BitVec 16) (sub : BitVec 8) (data : List Byte)
  /-- PARAMETER_WRITE (R476). -/
  | parameterWrite (r : Machine.Role) (idx : BitVec 16) (sub : BitVec 8) (data : List Byte)
  /-- ALERT_ACKNOWLEDGE (R400). -/
  | alertAcknowledge (r : Machine.Role) (mask : BitVec 32)
  /-- ALERT_ENABLE (R400). -/
  | alertEnable (r : Machine.Role) (mask : BitVec 32)
  /-- SNAPSHOT_MEMBERS (R398). -/
  | snapshotMembers (r : Machine.Role) (data : List Byte)
  /-- LATCH_ONCE (R399). -/
  | latchOnce (r : Machine.Role)
  /-- LATCH_EVERY (R399). -/
  | latchEvery (r : Machine.Role)
  /-- LATCH_STOP (R399). -/
  | latchStop (r : Machine.Role)
  /-- GROUP_FREE (R398). -/
  | groupFree (r : Machine.Role)
  /-- COMPONENT_RESTART (R409). -/
  | componentRestart (id : Nat) (cause : Fin 4) (msgs : Nat) (retained : Bool) (t : Nat)
  /-- RESTART_COMPONENT_CMD (R409). -/
  | restartComponentCmd (r : Machine.Role) (id : BitVec 8)
  /-- COMPLEX_RESET (R410). -/
  | complexReset (cause cores t : Nat)
  /-- REGISTER_REBUILD (R458). -/
  | registerRebuild (flips : Nat)
  /-- LOG_MIRROR (R412). -/
  | logMirror (t : Nat)
  /-- TRACE_CLEAR (R414). -/
  | traceClear (r : Machine.Role)
  /-- TRACE_FREEZE (R414). -/
  | traceFreeze (r : Machine.Role)
  /-- TRACE_UNFREEZE (R414). -/
  | traceUnfreeze (r : Machine.Role)
  /-- PROGRAM (R419). -/
  | program (r : Machine.Role)
  /-- PROGRAM_DONE (R419). -/
  | programDone (n : Fin 5) (ok : Bool)
  /-- ACTIVATE (R420). -/
  | activate (r : Machine.Role)
  /-- REVERT (R425). -/
  | revert (r : Machine.Role)
  /-- ERASE (R419). -/
  | erase (r : Machine.Role)
  /-- ACTIVATION_PAUSE_START (R421). -/
  | activationPauseStart (n : Fin 5) (handover : Bool)
  /-- ACTIVATION_PAUSE_END (R421). -/
  | activationPauseEnd (n : Fin 5)
  /-- IMAGE_CONFIRMED (R424). -/
  | imageConfirmed (n : Fin 5)
  /-- CONFIRMATION_TIMEOUT (R425). -/
  | confirmationTimeout (n : Fin 5) (broken : Bool)
  /-- BEGIN (R430). -/
  | beginHb
  /-- CHUNK (R430). -/
  | chunk (off : Nat)
  /-- END (R430). -/
  | endHb
  /-- REBOOT (R431). -/
  | reboot
  /-- CANCEL (R430). -/
  | cancel
  /-- TRAY_TIME_WRITE (R435). -/
  | trayTimeWrite (r : Machine.Role) (ns : BitVec 64)
  /-- CALENDAR_KNOWN (R436). -/
  | calendarKnown (t : Nat)
  /-- LIFE_RECORD_WRITE (R437). -/
  | lifeRecordWrite (t : Nat)
  /-- REDUNDANT_ROW_COPY (R439). -/
  | redundantRowCopy (t wa : Nat)
  /-- REDUNDANT_ROW_SWITCH (R439). -/
  | redundantRowSwitch (t wa : Nat)
  /-- ENGINE_DECLARED_FAILED (R440). -/
  | engineDeclaredFailed (code : Nat)
  /-- DECLARE_ENGINE_FAILED (R440). -/
  | declareEngineFailed (r : Machine.Role) (engine : BitVec 8)
  /-- ENGINE_SPARE_INSERTION (R440). -/
  | engineSpareInsertion
  /-- ENGINE_SPARE_INSERTION_END (R440). -/
  | engineSpareInsertionEnd
  /-- ENGINE_SPARE_SELF_TEST (R440). -/
  | engineSpareSelfTest (kind : Fin 4) (pass : Bool)
  /-- FLASH_BLOCK_RETIRE (R441). -/
  | flashBlockRetire (part erases : Nat) (failed : Bool)
  /-- LEASE_GRANT_SCAN (R444). -/
  | leaseGrantScan
  /-- CANCEL_QUEUED_ENTRY (R445). -/
  | cancelQueuedEntry (r : Machine.Role) (pos : BitVec 8)
  /-- DEMAND_SCRUB_START (R442). -/
  | demandScrubStart (r : Machine.Role)
  /-- DEMAND_SCRUB_STOP (R442). -/
  | demandScrubStop (r : Machine.Role)
  /-- DEMAND_SCRUB_DONE (R442). -/
  | demandScrubDone
  /-- LINK_RETRAIN_DONE (R442). -/
  | linkRetrainDone (port t : Nat)
  /-- PTP_DELAY_REQ (R179). -/
  | ptpDelayReq
  /-- PTP_MESSAGE_INTERVAL (R179). -/
  | ptpMessageInterval (kind : Machine.PtpSend) (t : Nat)
  /-- ARP_REPLY (R178). -/
  | arpReply
  /-- NEIGHBOR_ADVERTISEMENT (R178). -/
  | neighborAdvertisement
  /-- AUTO_NEGOTIATION (R175). -/
  | autoNegotiation (port : Nat) (up : Bool)
  /-- LINK_DOWN (R289). -/
  | linkDown (port t : Nat)
  /-- DROOP_RECOVERY (R361). -/
  | droopRecovery (t : Nat)
  /-- PARTITION_SCRUB_DONE (R338). -/
  | partitionScrubDone
  /-- PICTURE_RELEASE (R196). -/
  | pictureRelease (stream t : Nat)
  /-- DOMAIN_COMMAND_LATCH (R299). -/
  | domainCommandLatch (t : Nat)
  /-- FAULT_CLASS_EXPIRY (R447). -/
  | faultClassExpiry (n t : Nat)
  /-- OVERVOLTAGE_RECOVERY (R471). -/
  | overvoltageRecovery (t : Nat)
  /-- CURRENT_LIMIT_RESTART (R471). -/
  | currentLimitRestart (t : Nat)
  deriving DecidableEq, Repr

end Sys2Proof
end

