-- ==== Sys2Proof/Decode.lean ====
section
/-! DEFINITION. Decoding. The opcode table gives its rows no bits, so no word spells a command. A tile's bundle is 128 bits with
five slots (spec/03_tile.md R72, Tables 3-4 to 3-9): the commands that it spells, in the order MXU, VEC, MEM, FAB, CTL. -/

namespace Sys2Proof

/-- The command that a word of nbits bits spells by the opcode table: none. -/
def decodeTableWord (_nbits _w : Nat) : Option Instr := none

/-- Bits [hi:lo] of a word. -/
def bitsOf (w hi lo : Nat) : Nat := w / 2 ^ lo % 2 ^ (hi + 1 - lo)

/-- CTL slot (Table 3-5), opcode in [23:20]. -/
def decodeCtl (t w : Nat) : Option Instr :=
  let r (hi lo : Nat) : Fin 16 := Fin.ofNat 16 (bitsOf w hi lo)
  let imm : BitVec 16 := BitVec.ofNat 16 w
  let target : BitVec 12 := BitVec.ofNat 12 w
  match bitsOf w 23 20 with
  | 0 => some (.nop t .ctl)
  | 1 => some (.setl t (r 19 16) imm)
  | 2 => some (.seth t (r 19 16) imm)
  | 3 => some (.adds t (r 19 16) imm)
  | 4 => some (.loop t (Fin.ofNat 4 (bitsOf w 19 18)) (r 17 14) target)
  | 5 => some (.jump t target)
  | 6 => some (.beq t (r 19 16) (r 15 12) target)
  | 7 => some (.bne t (r 19 16) (r 15 12) target)
  | 8 => some (.wait t imm)
  | 9 => some (.endt t target)
  | _ => none

/-- MXU slot (Table 3-6), opcode in [31:28]. -/
def decodeMxu (t w : Nat) : Option Instr :=
  let r (hi lo : Nat) : Fin 16 := Fin.ofNat 16 (bitsOf w hi lo)
  let m (hi lo : Nat) : Fin 64 := Fin.ofNat 64 (bitsOf w hi lo)
  let n (hi lo : Nat) : Fin 32 := Fin.ofNat 32 (bitsOf w hi lo)
  match bitsOf w 31 28 with
  | 0 => some (.nop t .mxu)
  | 1 => some (.mload t (r 27 24) (r 23 20) [])
  | 2 => some (.mpre t (r 27 24) (r 23 20) (m 19 14) (n 13 9) [])
  | 3 => some (.mrun t (w.testBit 27) (r 26 23) (r 22 19) (m 18 13) (n 12 8) (w.testBit 7) (w.testBit 6) (m 5 0) [])
  | 4 => some (.mout t (r 26 23) (r 22 19) (m 18 13) (n 12 8))
  | _ => none

/-- VEC slot (Table 3-7), opcode in [31:26]. -/
def decodeVec (t w : Nat) : Option Instr :=
  let vd : Fin 32 := Fin.ofNat 32 (bitsOf w 25 21)
  let va : Fin 32 := Fin.ofNat 32 (bitsOf w 20 16)
  let vb : Fin 32 := Fin.ofNat 32 (bitsOf w 15 11)
  let m : Fin 8 := Fin.ofNat 8 (bitsOf w 10 8)
  let l := w.testBit 7
  match bitsOf w 31 26 with
  | 0x00 => some (.nop t .vec)
  | 0x01 => some (.vadd t vd va vb m l)
  | 0x02 => some (.vsub t vd va vb m l)
  | 0x03 => some (.vmul t vd va vb m l)
  | 0x04 => some (.vfma t vd va vb m l)
  | 0x05 => some (.vmin t vd va vb m l)
  | 0x06 => some (.vmax t vd va vb m l)
  | 0x07 => some (.vcmp t va vb m l (Fin.ofNat 8 (bitsOf w 6 4)) (Fin.ofNat 8 (bitsOf w 2 0)))
  | 0x08 => some (.vdiv t vd va vb m l)
  | 0x09 => some (.vsqrt t vd va m l)
  | 0x0A => some (.vrsqrt t vd va m l)
  | 0x0B => some (.vexp2 t vd va m l)
  | 0x0C => some (.vexp t vd va m l)
  | 0x0D => some (.vlog2 t vd va m l)
  | 0x0E => some (.vlog t vd va m l)
  | 0x0F => some (.vsin t vd va m l)
  | 0x10 => some (.vcos t vd va m l)
  | 0x11 => some (.vtanh t vd va m l)
  | 0x12 => some (.vsigm t vd va m l)
  | 0x13 => some (.verf t vd va m l)
  | 0x14 => some (.vgelu t vd va m l)
  | 0x15 => some (.vsilu t vd va m l)
  | 0x16 => some (.vcvt t vd va m l (Fin.ofNat 16 (bitsOf w 6 3)) (w.testBit 2))
  | 0x17 => some (.vrsum t vd va m l)
  | 0x18 => some (.vrmax t vd va m l)
  | 0x19 => some (.vrmin t vd va m l)
  | 0x1A => some (.vpool t vd (Fin.ofNat 16 (bitsOf w 6 3)) m l (Fin.ofNat 4 (bitsOf w 2 1)) [])
  | 0x1B => some (.vbcast t vd va m l (Fin.ofNat 128 (bitsOf w 6 0)))
  | 0x1C => some (.vmov t vd va m l)
  | _ => none

/-- MEM slot (Table 3-8), opcode in [19:16]. -/
def decodeMem (t w : Nat) : Option Instr :=
  let r (hi lo : Nat) : Fin 16 := Fin.ofNat 16 (bitsOf w hi lo)
  let v : Fin 32 := Fin.ofNat 32 (bitsOf w 15 11)
  match bitsOf w 19 16 with
  | 0 => some (.nop t .mem)
  | 1 => some (.vld t v (r 10 7) [])
  | 2 => some (.vldc t v (r 10 7) (r 6 3) (w.testBit 2) [])
  | 3 => some (.vst t v (r 10 7) (w.testBit 6) (Fin.ofNat 8 (bitsOf w 2 0)))
  | 4 => some (.wld t (r 15 12) (r 11 8) (r 7 4) (r 3 0) [])
  | 5 => some (.agstep t (r 10 7) (Fin.ofNat 4 (bitsOf w 6 5)))
  | 6 => some (.agrst t (r 10 7))
  | 7 => some (.agld t (r 10 7) (r 6 3) [])
  | 8 => some (.adld t (Fin.ofNat 4 (bitsOf w 8 7)) (r 6 3) [])
  | 9 => some (.mkld t (Fin.ofNat 8 (bitsOf w 15 13)) (r 10 7) [])
  | _ => none

/-- FAB slot (Table 3-9), opcode in [19:16]. -/
def decodeFab (t w : Nat) : Option Instr :=
  let h : Fin 1024 := Fin.ofNat 1024 (bitsOf w 15 6)
  let a : Fin 16 := Fin.ofNat 16 (bitsOf w 5 2)
  let n : Fin 4 := Fin.ofNat 4 (bitsOf w 1 0)
  match bitsOf w 19 16 with
  | 0 => some (.nop t .fab)
  | 1 => some (.send t h a n [])
  | 2 => some (.recv t h a n)
  | _ => none

/-- R72, Table 3-4: the slots of a bundle of tile t; the CTL slot, which closes the bundle's ac, last. A reserved opcode spells
none. -/
def decodeBundle (t : Nat) (b : BitVec 128) : Option (List Instr × Instr) := do
  let n := b.toNat
  let x ← decodeMxu t (bitsOf n 103 72)
  let v ← decodeVec t (bitsOf n 71 40)
  let m ← decodeMem t (bitsOf n 39 20)
  let f ← decodeFab t (bitsOf n 19 0)
  let k ← decodeCtl t (bitsOf n 127 104)
  some ([x, v, m, f], k)

end Sys2Proof
end

