-- ==== Sys2Proof/Machine/Address.lean ====
section
/-! DEFINITION. Tile SRAM reads and writes with the burst code's outcomes (R59-R66), the address generator in LINEAR,
PAGED and WINDOW mode (R86-R89), and window words (R88). -/

namespace Sys2Proof.Machine

/-- R59: the bank of a word address. -/
def bankOf (wa : Nat) : Nat := 8 * (wa / 8192) + wa % 8

def sWordZero : SWord := {}

/-- Report an event of the command in progress. -/
def tileEv (e : TileEv) (t : Tile) : Tile := { t with ev := t.ev ++ [e] }

/-- R64: queue an address for write-back, or drop it when the queue of 4 is full. -/
def queueWriteBack (wa : Nat) (t : Tile) : Tile :=
  if t.wbQueue.length < 4 then tileEv (.queued wa) { t with wbQueue := t.wbQueue ++ [wa] } else tileEv .wbDrop t

/-- R60: an access to a bank in the present ac. -/
def portUse (write : Bool) (wa : Nat) (t : Tile) : Tile := tileEv (.port write (wa % 16384)) t

/-- R63-R66: what a read of a word delivers: a word that stands poisoned is delivered so. -/
def sramLook (t : Tile) (wa : Nat) : CodeResult × SWord :=
  let w := cellsGet sWordZero t.sram (wa % 16384)
  let r := burstDecode w.data (cellsGet 0 t.upsets (wa % 16384))
  if w.poison then (.clean, w)
  else match r.1 with
    | .uncorrectable => (.uncorrectable, { data := r.2, poison := true })
    | k => (k, { data := r.2 })

/-- R64, R66: what a read leaves behind: a corrected address counted and queued; an uncorrectable word counted and from then on
standing poisoned; a delivery of a poisoned word counted. -/
def sramNote (wa : Nat) (r : CodeResult × SWord) (t : Tile) : Tile :=
  match r.1 with
  | .corrected => queueWriteBack wa (tileEv (.corrected wa) { t with corrected := satAdd allOnes32 t.corrected 1 })
  | .uncorrectable =>
    tileEv (.badWord wa) <| tileEv (.poisoned wa)
      { t with sram := cellsSet sWordZero t.sram wa r.2, upsets := cellsSet 0 t.upsets wa 0, poisoned := satAdd allOnes32 t.poisoned 1 }
  | .clean => if r.2.poison then tileEv (.poisoned wa) { t with poisoned := satAdd allOnes32 t.poisoned 1 } else t

/-- R63-R66: one SRAM read. -/
def sramRead (t : Tile) (wa : Nat) : SWord × Tile :=
  ((sramLook t wa).2, sramNote (wa % 16384) (sramLook t wa) (portUse false wa t))

/-- The stored word, with no read of it (a value already held by the reader). -/
def sramPeek (t : Tile) (wa : Nat) : SWord := cellsGet sWordZero t.sram (wa % 16384)

/-- R66: a write replaces the word and clears its poison and any upset in it. -/
def sramWrite (t : Tile) (wa : Nat) (w : SWord) : Tile :=
  { t with sram := cellsSet sWordZero t.sram (wa % 16384) w, upsets := cellsSet 0 t.upsets (wa % 16384) 0 }

/-- Reads of consecutive words. -/
def sramReadRun : Nat → Tile → Nat → List SWord × Tile
  | 0, t, _ => ([], t)
  | n + 1, t, wa =>
    let r := sramRead t wa
    let rest := sramReadRun n r.2 (wa + 1)
    (r.1 :: rest.1, rest.2)

/-- The upsets an operation meets: they strike stored words before its reads (R63). -/
def strike (us : List (Nat × Upset)) (t : Tile) : Tile :=
  us.foldl (fun t u => { t with upsets := cellsMod 0 t.upsets (u.1 % 16384) (· ^^^ u.2) }) t

/-! Instruction-store lines (R63, R72). -/

/-- Line n: bundle 2n in [127:0], bundle 2n + 1 in [255:128]. -/
def istoreLine (t : Tile) (n : Nat) : W256 := cellsGet 0 t.istore (2 * n + 1) ++ cellsGet 0 t.istore (2 * n)
/-- A line written: its upset and its loss (R68) are gone. -/
def setIstoreLine (n : Nat) (w : W256) (t : Tile) : Tile :=
  { t with istore := cellsSet 0 (cellsSet 0 t.istore (2 * n) (w.extractLsb' 0 128)) (2 * n + 1) (w.extractLsb' 128 128)
           lineUpsets := cellsSet 0 t.lineUpsets n 0, lostLines := t.lostLines.filter (· != n) }
/-- The upsets lines meet before they are read. -/
def strikeLines (us : List (Nat × Upset)) (t : Tile) : Tile :=
  us.foldl (fun t u => { t with lineUpsets := cellsMod 0 t.lineUpsets (u.1 % 2048) (· ^^^ u.2) }) t
/-- R63: what a read of a line delivers. -/
def lineLook (t : Tile) (n : Nat) : CodeResult × SWord :=
  let r := burstDecode (istoreLine t n) (cellsGet 0 t.lineUpsets n)
  (r.1, { data := r.2, poison := decide (r.1 = .uncorrectable) })

def agdAt (t : Tile) (i : Nat) : W256 := t.agds.toList.getD i 0
def walkAt (t : Tile) (i : Nat) : Walk := t.walks.toList.getD i {}
def aodAt (t : Tile) (i : Nat) : W64 := t.aods.toList.getD i 0
def sregAt (t : Tile) (i : Nat) : W32 := t.sregs.toList.getD i 0
def vregAt (t : Tile) (i : Nat) : V2048 := t.vregs.toList.getD i 0
def maskAt (t : Tile) (i : Nat) : W128 := t.masks.toList.getD i 0

def setWalk (t : Tile) (i : Nat) (w : Walk) : Tile := { t with walks := t.walks.setIfInBounds i w }

/-- MODE field (Tables 3-12, 3-13). -/
def agdMode (d : W256) : Nat := fld d.toNat 255 252

/-- R86: the LINEAR address at the walk's counters, before paging. -/
def linAddr (d : W256) (k : Walk) : Nat :=
  let n := d.toNat
  let st (hi lo : Nat) : Int := sx 16 (fld n hi lo)
  let a : Int := fld n 251 238 + k.i0 * st 159 144 + k.i1 * st 143 128 + k.i2 * st 127 112 + k.i3 * st 111 96
  let cb : Int := fld n 95 82
  let cl := fld n 81 68
  let a := if cl = 0 then a else cb + (a - cb) % cl
  (a % 16384).toNat

/-- R86: the address after the page-slot table, in PAGED mode. -/
def pageAddr (pst : Cells Nat) (d : W256) (a : Nat) : Nat :=
  let n := d.toNat
  let base := fld n 251 238
  let pgw := fld n 59 56
  let o : Int := (a : Int) - base
  let slot := cellsGet 0 pst (((fld n 67 60 : Int) + o / (2 ^ pgw : Nat)) % 256).toNat
  (((base : Int) + slot * (2 ^ pgw : Nat) + o % (2 ^ pgw : Nat)) % 16384).toNat

/-- R86: the counters after one take. -/
def linAdvance (d : W256) (k : Walk) : Walk :=
  let n := d.toNat
  if k.i0 + 1 < fld n 223 208 then { k with i0 := k.i0 + 1 }
  else if k.i1 + 1 < fld n 207 192 then { k with i0 := 0, i1 := k.i1 + 1 }
  else if k.i2 + 1 < fld n 191 176 then { k with i0 := 0, i1 := 0, i2 := k.i2 + 1 }
  else if k.i3 + 1 < fld n 175 160 then { k with i0 := 0, i1 := 0, i2 := 0, i3 := k.i3 + 1 }
  else { k with i0 := 0, i1 := 0, i2 := 0, i3 := 0 }

/-- R86: one take: the address, and the tile with the walk advanced. -/
def take (t : Tile) (i : Nat) : Nat × Tile :=
  let d := agdAt t i
  let k := walkAt t i
  match agdMode d with
  | 0 => (linAddr d k, setWalk t i (linAdvance d k))
  | 2 => (pageAddr t.pst d (linAddr d k), setWalk t i (linAdvance d k))
  | _ => (Config.looseTake d k.i0 % 16384, t)

/-- n takes. -/
def takes : Nat → Tile → Nat → List Nat × Tile
  | 0, t, _ => ([], t)
  | n + 1, t, i =>
    let r := take t i
    let rest := takes n r.2 i
    (r.1 :: rest.1, rest.2)

/-- SBASE of a descriptor: it stands at different bits in WINDOW mode (Tables 3-12, 3-13). -/
def agdSbase (d : W256) : Nat := if agdMode d = 1 then fld d.toNat 87 74 else fld d.toNat 237 224

/-- R86: the word that holds scale index j, and its byte. -/
def scaleWord (d : W256) (j : Nat) : Nat := (agdSbase d + j / 32) % 16384

/-- The scale code at index j, as a read of its word delivers it. -/
def scaleCode (t : Tile) (d : W256) (j : Nat) : Nat := fld (sramLook t (scaleWord d j)).2.data.toNat (8 * (j % 32) + 7) (8 * (j % 32))

/-- R82: the indices, of b from j on, whose scale word is read for them: an index that enters a word, and the first index of an
operation, which reads its word also where an earlier operation had entered it (log entry 8). -/
def scaleReads (j b : Nat) (first : Bool) : List Nat :=
  (List.range b).filterMap (fun h => if (first && h == 0) || (j + h) % 32 == 0 then some (j + h) else none)

/-- R82: the scale codes of one take of b blocks, and whether a word they stand in is poisoned. The first take of an operation
reads the scale word it starts in, whether or not an earlier operation had entered it (log entry 8). -/
def takeScales (t : Tile) (i b : Nat) (first : Bool) : (List Nat × Bool) × Tile :=
  let d := agdAt t i
  let j := (walkAt t i).sidx
  let t1 := (scaleReads j b first).foldl (fun t k => (sramRead t (scaleWord d k)).2) t
  let codes := (List.range b).map (fun h => scaleCode t1 d (j + h))
  let poison := (List.range b).any (fun h => (sramLook t1 (scaleWord d (j + h))).2.poison)
  ((codes, poison), setWalk t1 i { walkAt t1 i with sidx := j + b })

/-- R86, R89: AGRST. -/
def walkResetOf (d : W256) : Walk := { oy := fld d.toNat 69 54 }

/-- The fields of a WINDOW descriptor (R87, Table 3-13). -/
structure Win where
  pad : Nat
  base : Nat
  rowp : Nat
  p : Nat
  sy : Nat
  sx : Nat
  dy : Nat
  dx : Nat
  kh : Nat
  kw : Nat
  pt : Nat
  pb : Nat
  pl : Nat
  pr : Nat
  h : Nat
  w : Nat
  lb : Nat
  fill : Nat
  fmt : Nat
  deriving DecidableEq, Repr

def winOf (d : W256) : Win :=
  let n := d.toNat
  { pad := fld n 251 250, base := fld n 249 236, rowp := fld n 235 222, p := fld n 221 216 + 1
    sy := fld n 215 210 + 1, sx := fld n 209 204 + 1, dy := fld n 203 198 + 1, dx := fld n 197 192 + 1
    kh := fld n 191 188 + 1, kw := fld n 187 184 + 1, pt := fld n 183 174, pb := fld n 173 164, pl := fld n 163 154
    pr := fld n 153 144, h := fld n 143 128, w := fld n 127 112, lb := fld n 111 102, fill := fld n 101 88
    fmt := fld n 73 70 }

/-- R88: the output extents. -/
def winHo (v : Win) : Int := ((v.h + v.pt + v.pb : Int) - v.dy * (v.kh - 1) - 1) / v.sy + 1
def winWo (v : Win) : Int := ((v.w + v.pl + v.pr : Int) - v.dx * (v.kw - 1) - 1) / v.sx + 1

/-- R89: AGSTEP. -/
def winStep (d : W256) (k : Walk) (kind : Nat) : Walk :=
  let v := winOf d
  let wrap (k : Walk) : Walk := if winWo v ≤ k.ox then { k with ox := 0, oy := k.oy + 1 } else k
  match kind with
  | 0 => if k.g + 1 < v.p then { k with g := k.g + 1 } else { k with g := 0 }
  | 1 => wrap { k with g := 0, ox := k.ox + 32 }
  | 2 => wrap { k with g := 0, ox := k.ox + 1 }
  | _ => { k with g := 0, ox := 0, oy := k.oy + 1 }

/-- R88: reflection without repeating the edge. -/
def foldEdge (i : Int) (n : Nat) : Nat :=
  if n ≤ 1 then 0 else
    let t := (i % (2 * (n - 1) : Nat)).toNat
    if t < n then t else 2 * (n - 1) - t

/-- R88: where the word of input row yi, column xi, group g comes from. -/
def winSource (v : Win) (yi xi : Int) (g : Nat) : WinSrc :=
  let addr (y x : Nat) : WinSrc :=
    let o := (if v.lb = 0 then y else y % v.lb) * v.rowp + x * v.p + g
    .word ((v.base + o) % 16384) o
  if 0 ≤ yi ∧ yi < v.h ∧ 0 ≤ xi ∧ xi < v.w then addr yi.toNat xi.toNat
  else match v.pad with
  | 0 => .zero
  | 1 => .fill v.fill
  | 2 => addr (clampI 0 (v.h - 1) yi).toNat (clampI 0 (v.w - 1) xi).toNat
  | _ => addr (foldEdge yi v.h) (foldEdge xi v.w)

/-- Blocks per word of the descriptor's format: the scale index counts words, so a 2-block word has two codes (log entry 10). -/
def winBlocks (v : Win) : Nat := if fmtOf v.fmt = some .mxE2m1 then 2 else 1

/-- The first scale index of a source's word (R88). -/
def winScaleIdx (v : Win) (j : Nat) : Nat := j * winBlocks v

/-- Whether the descriptor's format has block scales. FMT, which Table 3-13 gives for VPOOL, says so for a WLD as well
(log entry 10). -/
def winScaled (v : Win) : Bool := fmtIsMx ((fmtOf v.fmt).getD .int8)

/-- R88, R90: the entry formed from a word and from the fill and scale words as a read delivers them. -/
def winEntry (t : Tile) (d : W256) (s : WinSrc) (r : SWord) : WinEntry :=
  match s with
  | .zero => { data := 0, scale := 0x7F7F }
  | .fill wa => { data := (sramLook t wa).2.data, scale := 0x7F7F, poison := (sramLook t wa).2.poison }
  | .word _ j =>
    let i := winScaleIdx (winOf d) j
    { data := r.data, scale := scaleCode t d i + 256 * scaleCode t d (i + 1), poison := r.poison
      spoison := (sramLook t (scaleWord d i)).2.poison }

/-- R88, R90: the entry a source supplies, its element word read. -/
def winFetch (t : Tile) (d : W256) (s : WinSrc) : WinEntry × Tile :=
  match s with
  | .word wa _ => (winEntry (sramRead t wa).2 d s (sramRead t wa).1, (sramRead t wa).2)
  | _ => (winEntry t d s sWordZero, t)

/-- R88, R92: the fill words and the scale words that sources need. -/
def winFills (ss : List WinSrc) : List Nat := (ss.filterMap fun s => match s with | .fill wa => some (wa % 16384) | _ => none).dedup
def winScales (d : W256) (ss : List WinSrc) : List Nat :=
  (ss.filterMap fun s => match s with
    | .word _ j => if winScaled (winOf d) then some (scaleWord d (winScaleIdx (winOf d) j)) else none
    | _ => none).dedup

/-- Reads of words whose values are held: the fill word through its bank (R92: read once), the scale words beside the reads that
R92 and Table 3-11 count (log entry 10). -/
def readFills (l : List Nat) (t : Tile) : Tile := l.foldl (fun t wa => (sramRead t wa).2) t
def readScales (l : List Nat) (t : Tile) : Tile := l.foldl (fun t wa => sramNote wa (sramLook t wa) t) t
def readHeld (d : W256) (ss : List WinSrc) (t : Tile) : Tile := readScales (winScales d ss) (readFills (winFills ss) t)

/-- R91: entries a WLD loads. -/
def wldCount (v : Win) (kx0 : Nat) : Nat :=
  if v.dx % v.sx = 0 then min 64 (32 + (v.kw - 1 - kx0) * v.dx / v.sx) else 32

/-- R91: the source of entry j of a WLD. -/
def wldSource (v : Win) (k : Walk) (ky kx0 j : Nat) : WinSrc :=
  winSource v ((k.oy * v.sy + ky * v.dy : Int) - v.pt) ((k.ox * v.sx + kx0 * v.dx + j * v.sx : Int) - v.pl) k.g

/-- R92: groups of at most 4 entries, no two reads of one bank in a group; banks are those the current group reads, at first the
fill word's. -/
def wldGroups : List (Nat × WinSrc) → List (Nat × WinSrc) → List Nat → List (List (Nat × WinSrc))
  | [], cur, _ => if cur.isEmpty then [] else [cur]
  | (j, s) :: rest, cur, banks =>
    let bank : Option Nat := match s with | .word wa _ => some (bankOf wa) | _ => none
    let clash := match bank with | some b => banks.contains b | none => false
    if cur.length = 4 || clash then cur :: wldGroups rest [(j, s)] bank.toList
    else wldGroups rest (cur ++ [(j, s)]) (bank.toList ++ banks)

end Sys2Proof.Machine
end

