-- ==== Sys2Proof/Machine/Matrix.lean ====
section
/-! DEFINITION. Matrix-unit operand layouts and results: stationary blocks (R81, Table 3-10), A vectors (R82), products
(R80), and the packing of a readout (R84). -/

namespace Sys2Proof.Machine

/-- Table 3-10: words of a stationary block: element words and scale words. -/
def blockWords (f : Fmt) : Nat × Nat :=
  match f with
  | .int8 | .e4m3 | .e5m2 | .int4 => (32, 0)
  | .mxE4m3 | .mxE5m2 | .mxInt8 => (32, 1)
  | .mxE2m1 => (32, 2)
  | .mxE3m2 | .mxE2m3 => (48, 2)
  | _ => (16, 0)

/-- Elements from bit 0 of a number, scaled by their block's E8M0 code (R32; R35: a non-MX operand has scale 2^0). -/
def elemsOf (f : Fmt) (n bits : Nat) (scales : List Nat) : List Num :=
  let codes := unpackLE (fmtBits f) n bits
  codes.zipIdx.map fun (c, i) =>
    if fmtIsMx f then numScale (scales.getD (i / 32) 0x7F) (elemValue f c) else elemValue f c

/-- Table 3-10: the K elements of column n of the active stationary block, and whether a word that feeds them is poisoned. -/
def columnElems (b : Cells SWord) (f : Fmt) (k n : Nat) : List Num × Bool :=
  let w (i : Nat) : SWord := cellsGet sWordZero b i
  let byte (i j : Nat) : Nat := fld (w i).data.toNat (8 * j + 7) (8 * j)
  match f with
  | .mxE4m3 | .mxE5m2 | .mxInt8 => (elemsOf f k (w n).data.toNat [byte 32 n], (w n).poison || (w 32).poison)
  | .mxE2m1 =>
    let sc (h : Nat) : Nat := byte (32 + (2 * n + h) / 32) ((2 * n + h) % 32)
    (elemsOf f k (w n).data.toNat [sc 0, sc 1], (w n).poison || (w (32 + 2 * n / 32)).poison)
  | .mxE3m2 | .mxE2m3 =>
    let g := 3 * (2 * n / 4)
    let grp := (w g).data.toNat + 2 ^ 256 * (w (g + 1)).data.toNat + 2 ^ 512 * (w (g + 2)).data.toNat
    let sc (h : Nat) : Nat := byte (48 + (2 * n + h) / 32) ((2 * n + h) % 32)
    (elemsOf f k (grp / 2 ^ (192 * (2 * n % 4))) [sc 0, sc 1],
      (if n % 2 = 0 then (w g).poison || (w (g + 1)).poison else (w (g + 1)).poison || (w (g + 2)).poison)
        || (w (48 + 2 * n / 32)).poison)
  | .bf16 | .fp16 => (elemsOf f 8 ((w (n / 2)).data.toNat / 2 ^ (128 * (n % 2))) [], (w (n / 2)).poison)
  | _ => (elemsOf f k (w n).data.toNat [], (w n).poison)

/-- R80, R66: what one A vector adds to the entry in the 32 columns, under an exact-format AOD. -/
def exactDeltas (b : Cells SWord) (d : Aod) (fb : Fmt) (k : Nat) (a : List Num) (poison : Bool) : List Acc :=
  (List.range 32).map fun n =>
    let c := columnElems b fb k n
    let x := accDot d.l a c.1
    if poison || c.2 then { x with nan := true } else x

/-- R46: the chunk sums of one A vector with the 32 columns of a 16-bit block; a poisoned operand gives NaN (R66). -/
def chunkDeltas (b : Cells SWord) (fb : Fmt) (a : List Num) (poison : Bool) : List Num :=
  (List.range 32).map fun n =>
    let c := columnElems b fb 8 n
    if poison || c.2 then .nan else chunkSum a c.1

/-- What an MRUN adds where the spec gives its operands no meaning: an open value (log entry 2). -/
def looseAdd (aw : W64) (m : Nat) : Micro :=
  .accAdd m ((List.range 32).map (fun c => { accZero with a := Config.looseSum aw (64 * c + m) }))

/-- The micro-operation that adds one A vector into entry m (R80, R85: usable 6 ac later). -/
def mrunAdd (b : Cells SWord) (aw : W64) (m : Nat) (a : Fmt → Nat → List Num × Bool) : Micro :=
  let d := aodOf aw
  match d.fa, d.fb with
  | some fa, some fb =>
    if pairOk fa fb then
      let k := pairK fa fb
      let v := a fa k
      if aodIs16 d then .accChunk m (chunkDeltas b fb v.1 v.2) else .accAdd m (exactDeltas b d fb k v.1 v.2)
    else looseAdd aw m
  | _, _ => looseAdd aw m

/-- The 32 accumulators of entry m. There are 64 entries: where m0 and count reach past the last, the numbers go on from 0
(log entry 8). -/
def entryOf (t : Tile) (m : Nat) : List Acc := cellsGetRun accZero t.acc 32 (32 * (m % 64))

/-- Replace or merge the 32 accumulators of entry m. -/
def setEntry (t : Tile) (m : Nat) (vals : List Acc) : Tile := { t with acc := cellsSetRun accZero t.acc (32 * (m % 64)) (vals.take 32) }

/-- The value a column converts at readout: exact (R43), or the FP32 accumulator of a 16-bit run (R46). -/
def readoutValue (d : Aod) (x : Acc) : Num := if aodIs16 d then (if x.nan then .nan else ofFp32 x.s) else accScaled d x

/-- R42, R48: the events of one entry's readout, column by column: of several high escapes the highest-numbered column is the
last and stays in 2A20.04 (log entry 101). -/
def readoutEvents (d : Aod) (fo : Fmt) (xs : List Acc) : List TileEv :=
  (xs.zipIdx.map fun (x, c) =>
    (if !aodIs16 d && accHighFired d x then [TileEv.highEscape c] else [])
      ++ (if !aodIs16 d && accLowCounted d x then [TileEv.lowEscape] else [])
      ++ (if fmtIsInt fo && numNonFinite (readoutValue d x) then [TileEv.nonFinite] else [])).flatten

/-- R84: the element bits of one entry, their width, and the scale code of an MX output. -/
def readoutBits (d : Aod) (fo : Fmt) (xs : List Acc) : Nat × Nat × Option Nat :=
  let vs := xs.map (readoutValue d)
  if fmtIsMx fo then
    let b := mxBlock fo d.ovf vs
    (packLE (fmtBits fo) b.2, 32 * fmtBits fo, some b.1)
  else (packLE (fmtBits fo) (vs.map (convElem fo d.ovf)), 32 * fmtBits fo, none)

/-- R44: the 17 words of an ACC128 export. -/
def exportWords (d : Aod) (xs : List Acc) : List W256 :=
  wordsOf 16 (packLE 128 (xs.map (accExport d))) ++ [BitVec.ofNat 256 (packLE 8 (xs.map (accFlagByte d)))]

/-- R44, R45, R66: the 32 contributions of 17 imported words. -/
def importWords (ws : List SWord) : List Acc :=
  (List.range 32).map fun c =>
    let w := ws.getD (c / 2) sWordZero
    let fw := ws.getD 16 sWordZero
    let x := accImport (fld w.data.toNat (128 * (c % 2) + 127) (128 * (c % 2))) (fld fw.data.toNat (8 * c + 7) (8 * c))
    if w.poison || fw.poison then { x with nan := true } else x

/-- R40, R46: the preload of a column from a bias word set. -/
def biasAcc (d : Aod) (code : Nat) (poison : Bool) : Acc :=
  let x : Acc := match d.pre with
    | .int32 => accTerm d.l (numOfInt (sx 32 code) 0)
    | .fp32 => if aodIs16 d then { accZero with s := toFp32 (ofFp32 code) } else accTerm d.l (ofFp32 code)
    | _ => accZero
  if poison then { x with nan := true } else x

end Sys2Proof.Machine
end

