-- ==== Sys2Proof/Machine/FwState.lean ====
section
/-! DEFINITION. State of firmware slots, updates, components and Harebell (spec/13_firmware_update.md). -/

namespace Sys2Proof.Machine

/-- Slot states (2801.05-2801.06). -/
inductive SlotState where
  | empty | valid | unconfirmed | confirmed | failed | writing
  deriving DecidableEq, Repr

def slotCode : SlotState → Nat
  | .empty => 0 | .valid => 1 | .unconfirmed => 2 | .confirmed => 3 | .failed => 4 | .writing => 5

/-- A firmware image's header fields (Table 13-6) and digest; compat entries are component, MIN, MAX. -/
structure FwImage where
  component : Nat
  version : Nat
  sec : Nat
  hwMin : Nat
  hwMax : Nat
  hovOut : Nat
  hovInMin : Nat
  hovInMax : Nat
  compat : List (Nat × Nat × Nat)
  digest : BitVec 256
  deriving DecidableEq, Repr

structure FwSlot where
  st : SlotState := .empty
  image : Option FwImage := none
  deriving DecidableEq, Repr

/-- A component in the slot control record (R416). -/
structure FwComp where
  slot0 : FwSlot := {}
  slot1 : FwSlot := {}
  active : Nat := 0
  floor : Nat := 0
  interrupted : Nat := 0
  deriving DecidableEq, Repr

/-- Update states (2802.02). -/
inductive UpdPhase where
  /-- `reverting` is the pause of a revert -/
  | programming | queued | granted | pause | confirming | reverting
  deriving DecidableEq, Repr

def updCode : UpdPhase → Nat
  | .programming => 1 | .queued => 2 | .granted => 2 | .pause => 3 | .confirming => 4 | .reverting => 5

/-- What the header of a handover record says (R423, Table 13-8): the component, the writer's format, the writer's and the
reader's version, and the boundary at which it was written. -/
structure Handover where
  component : Nat
  format : Nat
  fromVersion : Nat
  toVersion : Nat
  tick : Nat
  deriving DecidableEq, Repr

/-- An update in progress (R419-R425). -/
structure Update where
  component : Nat
  phase : UpdPhase
  /-- slot being programmed or made active -/
  slot : Nat
  /-- effect boundary, once taken -/
  boundary : Nat := 0
  /-- end of the pause in ns, the time counted toward the 30 s in ns, and the boundaries of Running ticks since (R424) -/
  since : Nat := 0
  counted : Nat := 0
  ran : Nat := 0
  /-- the slot that is left is one that failed or that REVERT leaves (R425) -/
  revert : Bool := false
  /-- its confirmation met what breaks its condition (Table 13-7) -/
  broken : Bool := false
  /-- its status object is owed an outcome and its lease a release -/
  owed : Bool := true
  image : Option FwImage := none
  deriving DecidableEq, Repr

/-- Harebell's function 2 (R428-R431). -/
structure HbSt where
  ready : Bool := true
  imageDone : Bool := false
  error : Bool := false
  err : Nat := 0
  cause : Nat := 0
  offset : Nat := 0
  len : Nat := 0
  header : Cells Nat := []
  chunk : Cells Nat := []
  /-- the download in progress: component, slot, and the bytes programmed -/
  load : Option (Nat × Nat × List Byte) := none
  int2 : Bool := false
  /-- a component named in H_NEED because its record fails R418 (Table 15-2) -/
  incompat : Option Nat := none
  /-- the next start is an accepted REBOOT, no power loss (R431) -/
  rebooted : Bool := false
  deriving DecidableEq, Repr

/-- Firmware and the management complex. -/
structure FwSt where
  comps : Vector FwComp 5 := Vector.replicate 5 {}
  /-- at most one commanded update, and the images that boot left unconfirmed (R427, R431) -/
  updates : List Update := []
  /-- staging handle in use from PROGRAM until the activation posts, by component (R419) -/
  handles : Cells Nat := []
  hb : HbSt := {}
  /-- restart times of each component in ns (R410) -/
  restarts : Cells (List Nat) := []
  /-- the complex is down, and since when (R458) -/
  down : Bool := false
  downAt : Nat := 0
  /-- the dark time of a management firmware activation (R422) -/
  dark : Bool := false
  /-- components that restart, until the next boundary (R409) -/
  restarting : List Nat := []
  /-- the record in the handover area (R423) -/
  handover : Option Handover := none
  deriving DecidableEq, Repr

/-- A slot of a component. -/
def fwSlot (c : FwComp) (n : Nat) : FwSlot := if n = 0 then c.slot0 else c.slot1
def setFwSlot (c : FwComp) (n : Nat) (s : FwSlot) : FwComp := if n = 0 then { c with slot0 := s } else { c with slot1 := s }

end Sys2Proof.Machine
end

