-- ==== Sys2Proof/Machine/LineCode.lean ====
section
/-! DEFINITION. The HBM line code (spec/08_memory.md R264-R266): a Reed-Solomon code over GF(2^8) with field polynomial
x^8 + x^4 + x^3 + x^2 + 1, 64 data symbols and 8 check symbols, and the poison word. Also CRC-32C, which the intake
and firmware datagrams use (R274). -/

namespace Sys2Proof.Machine

/-- Multiply by x in GF(2^8). -/
def gfTimesX (a : Nat) : Nat := let b := 2 * a; if 256 ≤ b then (b - 256) ^^^ 0x1D else b

/-- Multiplication in GF(2^8), by the n low bits of b. -/
def gfMulAux : Nat → Nat → Nat → Nat
  | 0, _, _ => 0
  | n + 1, a, b => (if b % 2 = 1 then a else 0) ^^^ gfMulAux n (gfTimesX a) (b / 2)
def gfMul (a b : Nat) : Nat := gfMulAux 8 a b

/-- Powers, and the primitive element α = x. -/
def gfPow (a : Nat) : Nat → Nat
  | 0 => 1
  | n + 1 => gfMul a (gfPow a n)
def gfExp (n : Nat) : Nat := gfPow 2 (n % 255)

/-- The inverse: a^254. -/
def gfInv (a : Nat) : Nat :=
  let a2 := gfMul a a; let a4 := gfMul a2 a2; let a8 := gfMul a4 a4; let a16 := gfMul a8 a8
  let a32 := gfMul a16 a16; let a64 := gfMul a32 a32; let a128 := gfMul a64 a64
  gfMul a128 (gfMul a64 (gfMul a32 (gfMul a16 (gfMul a8 (gfMul a4 a2)))))

/-- Evaluate a polynomial given from its highest coefficient down (Horner). -/
def gfEval (cs : List Nat) (x : Nat) : Nat := cs.foldl (fun s d => gfMul s x ^^^ d) 0

/-- R264: the syndromes of 72 symbols d0..d63, k0..k7: c(α^0) to c(α^7). -/
def lineSyndromes (syms : List Nat) : List Nat := (List.range 8).map (fun i => gfEval syms (gfExp i))

/-- A line is a codeword when all syndromes vanish. -/
def lineClean (syms : List Nat) : Bool := (lineSyndromes syms).all (· == 0)

/-- The generator polynomial ∏ (x + α^i), i = 0..7, from its highest coefficient down. -/
def rsGen : List Nat :=
  (List.range 8).foldl (fun g i => (g ++ [0]).zipWith (· ^^^ ·) (0 :: g.map (gfMul (gfExp i)))) [1]

/-- One step of the division of the message by the generator. -/
def rsStep (r : List Nat) (d : Nat) : List Nat :=
  let q := r.headD 0 ^^^ d
  (r.drop 1 ++ [0]).zipWith (· ^^^ ·) ((rsGen.drop 1).map (gfMul q))

/-- R264: the check bytes k0..k7 of 64 data bytes. -/
def lineCheck (d : List Nat) : List Nat := d.foldl rsStep (List.replicate 8 0)

/-- Solve for a connection polynomial of degree v by elimination: rows of an augmented matrix over GF(2^8). -/
def gfElim : Nat → Nat → List (List Nat) → Option (List (List Nat))
  | 0, _, m => some m
  | n + 1, col, m =>
    match (m.drop col).findIdx? (fun r => r.getD col 0 != 0) with
    | none => none
    | some off =>
      let p := m.getD (col + off) []
      let m := (m.set (col + off) (m.getD col [])).set col p
      let inv := gfInv (p.getD col 0)
      let p := p.map (gfMul inv)
      let m := (m.set col p).mapIdx (fun i r =>
        if i = col then r else let f := r.getD col 0; r.zipWith (fun a b => a ^^^ gfMul f b) p)
      gfElim n (col + 1) m

/-- Solve an n by n system given as augmented rows. -/
def gfSolve (n : Nat) (m : List (List Nat)) : Option (List Nat) := (gfElim n 0 m).map (fun r => r.map (fun x => x.getD n 0))

/-- The error pattern of v symbols that explains the syndromes: positions (0 is d0, 71 is k7) with their values. -/
def rsLocate (s : List Nat) (v : Nat) : Option (List (Nat × Nat)) :=
  let S (i : Nat) := s.getD i 0
  match gfSolve v ((List.range v).map fun i => ((List.range v).map fun j => S (i + j)) ++ [S (i + v)]) with
  | none => none
  | some lam =>
    -- roots: X with X^v = sum lam_j X^j
    let pos := (List.range 72).filter fun p =>
      let x := gfExp (71 - p)
      gfEval (1 :: lam.reverse) x == 0
    if pos.length != v then none
    else
      let rows := (List.range v).map fun i => (pos.map fun p => gfExp ((71 - p) * i)) ++ [S i]
      (gfSolve v rows).map fun vals => pos.zip vals

/-- Apply an error pattern. -/
def rsApply (syms : List Nat) (e : List (Nat × Nat)) : List Nat :=
  e.foldl (fun l pv => l.set pv.1 (l.getD pv.1 0 ^^^ pv.2)) syms

/-- The codeword within 4 symbols of a line, if there is one (R265): the least number of errors first. -/
def rsDecode (syms : List Nat) : Option (List Nat) :=
  if lineClean syms then some syms
  else
    let s := lineSyndromes syms
    [1, 2, 3, 4].findSome? fun v =>
      match rsLocate s v with
      | none => none
      | some e => let t := rsApply syms e; if lineClean t then some t else none

/-- R266: the check bytes of the poison word. -/
def poisonCheck : List Nat := [0x5A, 0x3C, 0x96, 0xE1, 0x0F, 0xC3, 0x69, 0xA5]

/-- A stored line: its 64 data bytes and 8 check bytes, symbol j of the code at bits [8j+7:8j]. -/
abbrev Line := BitVec 576

def lineOf (syms : List Nat) : Line := BitVec.ofNat 576 (packLE 8 syms)
def lineSyms (l : Line) : List Nat := unpackLE 8 72 l.toNat
/-- A line of two data words with its check bytes. -/
def lineData (w0 w1 : W256) : Line :=
  let d := unpackLE 8 64 (w0.toNat + 2 ^ 256 * w1.toNat)
  lineOf (d ++ lineCheck d)
/-- A line of 64 bytes. -/
def lineBytes (b : List Byte) : Line := lineData (BitVec.ofNat 256 (numAt b 0 32)) (BitVec.ofNat 256 (numAt b 32 32))
/-- The poison word (R266). -/
def poisonLine : Line := lineOf (List.replicate 64 0 ++ poisonCheck)
/-- The zero line: a codeword with valid check bytes (R338). -/
def zeroLine : Line := 0
/-- The two data words of a line. -/
def lineWords (l : Line) : W256 × W256 := (l.extractLsb' 0 256, l.extractLsb' 256 256)

/-- How many symbols differ. -/
def symDistance (a b : List Nat) : Nat := ((a.zip b).filter (fun p => p.1 != p.2)).length

/-- How a read is classed (R266). -/
inductive LineClass where
  | poisoned | clean | corrected | uncorrectable
  deriving DecidableEq, Repr

/-- R266: class a read, in the order the rule gives; the line as it is delivered. -/
def classLine (l : Line) : LineClass × Line :=
  let s := lineSyms l
  if symDistance s (lineSyms poisonLine) ≤ 2 then (.poisoned, poisonLine)
  else match rsDecode s with
    | some t => if t = s then (.clean, l) else (.corrected, lineOf t)
    | none => (.uncorrectable, l)

/-- Symbol errors that strike a stored line: (symbol, pattern). -/
def strikeLine (l : Line) (errs : List (Nat × Byte)) : Line :=
  lineOf (rsApply (lineSyms l) ((errs.filter (fun e => e.1 < 72)).map (fun e => (e.1, e.2.toNat))))

/-- One byte of CRC-32C (Castagnoli, reflected polynomial 0x82F63B78). -/
def crcBits : Nat → Nat → Nat
  | 0, c => c
  | n + 1, c => crcBits n (if c % 2 = 1 then (c / 2) ^^^ 0x82F63B78 else c / 2)
def crc32c (l : List Byte) : Nat :=
  (l.foldl (fun c b => crcBits 8 (c ^^^ b.toNat)) 0xFFFFFFFF) ^^^ 0xFFFFFFFF

end Sys2Proof.Machine
end

