-- ==== Sys2Proof/Machine/HbmState.lean ====
section
/-! DEFINITION. State of the HBM stack, its controller and the intake engine (spec/08_memory.md). -/

namespace Sys2Proof.Machine

/-- A line that a plan RD has read and that waits in its port's return buffer (R169): the fc of its first word, its two words, and
whether it came back uncorrectable or poisoned (R267). -/
structure HbmReturn where
  port : Nat
  fc : Nat
  w0 : W256
  w1 : W256
  poison : Bool
  deriving DecidableEq, Repr

/-- A revoked range of plan lines and its owner (R268). -/
structure Revoked where
  fn : Nat
  lo : Nat
  hi : Nat
  /-- section that reinitialises the range; 0xFFFF none -/
  init : Nat
  deriving DecidableEq, Repr

/-- A binding of a lane window to a warm page slot (R273): window base, slot base, bytes. -/
structure WinBind where
  window : Nat
  slot : Nat
  bytes : Nat
  deriving DecidableEq, Repr

/-- The stack and its controller. Rows are numbered ((pc*3 + sid)*16 + bank)*16384 + row, lines 16 a row. -/
structure HbmSt where
  lines : Cells Line := []
  /-- pseudo-channel bank (pc*48 + BANK) to the row open in it, plus 1; 0 is precharged -/
  opened : Cells Nat := []
  returns : List HbmReturn := []
  /-- the stream entry that each pseudo-channel issued last in the present tick, as the place it has in the order of FC, plus 1 -/
  issued : Cells Nat := []
  /-- refreshes issued to each bank (pc*48 + BANK) -/
  refreshes : Cells Nat := []
  /-- poisoned plan lines as intervals [lo, hi) (R268) -/
  poison : List (Nat × Nat) := []
  revoked : List Revoked := []
  /-- corrected lines waiting for write-back, by pseudo-channel (R267) -/
  wbQueue : Cells (List Nat) := []
  /-- patrol pointer of each pseudo-channel: ((sid*16 + bank)*16384 + row)*16 + line (R269) -/
  patrol : Cells Nat := []
  /-- next line of each bank (pc*48 + BANK) for a scrub slot away from the pointer's bank (R170) -/
  scrubNext : Cells Nat := []
  /-- start in ns of each pseudo-channel's present pass -/
  passStart : Cells Nat := []
  /-- lines found corrected in this pass and in the last one (R270) -/
  hits : List Nat := []
  lastHits : List Nat := []
  suspects : List Nat := []
  /-- rows copied into a spare, waiting for the switch: row and spare -/
  copied : List (Nat × Nat) := []
  /-- spare-row map, in flash (R272): row and the spare that serves it -/
  spares : List (Nat × Nat) := []
  /-- rows repaired by post-package repair: the repair log (R272) -/
  repaired : List Nat := []
  unrepairable : List Nat := []
  binds : List WinBind := []
  /-- windows of idle out-lanes, whose writes are suppressed (R241): base and bytes -/
  idleOut : List (Nat × Nat) := []
  deriving DecidableEq, Repr

/-- State of an intake handle (2B42.01). -/
inductive HandleState where
  | opened | complete | placing | placed | failed | inUse
  deriving DecidableEq, Repr

def handleCode : HandleState → Nat
  | .opened => 1 | .complete => 2 | .placing => 3 | .placed => 4 | .failed => 5 | .inUse => 6

/-- An intake handle with the units received for it, and the staging lines reserved for it as runs of first line and lines, in the order
of the image (R259, R274, R275). -/
structure Handle where
  kind : Nat
  aslot : Nat
  size : Nat
  /-- tenant that opened it; 0 for operator and service -/
  tenant : Nat
  st : HandleState := .opened
  units : List Nat := []
  area : List (Nat × Nat) := []
  /-- version buffer and version of a placed adapter image (R278) -/
  placed : Option (Nat × Nat) := none
  lastRecv : Nat := 0
  deriving DecidableEq, Repr

/-- The intake engine. -/
structure IntakeSt where
  handles : Cells Handle := []
  /-- units in the intake buffer, not yet drained: handle, unit and bytes (R276) -/
  buffer : List (Nat × Nat × List Byte) := []
  /-- staging lines given back and not yet zeroed, as intervals [lo, hi) (R338) -/
  unzeroed : List (Nat × Nat) := []
  deriving DecidableEq, Repr

end Sys2Proof.Machine
end

