-- ==== Sys2Proof/Machine/PowerState.lean ====
section
/-! DEFINITION. State of power, cooling and start-up (spec/11_power_thermal.md, spec/15_startup_reset.md,
spec/16_connector_mechanical.md). Powers are exact rationals in W. -/

namespace Sys2Proof.Machine

/-- Sums of power estimates: how many, the input estimate, and the four groups (R349). -/
structure EstSum where
  n : Nat := 0
  p : Rat := 0
  comp : Rat := 0
  mem : Rat := 0
  link : Rat := 0
  unc : Rat := 0
  deriving DecidableEq, Repr

/-- An entry of the phase learner (R355), normalised to step SC. -/
structure LearnEntry where
  set : Nat
  phases : List Nat
  shed : Nat
  c : Rat
  m : Rat
  l : Rat
  used : Nat
  deriving DecidableEq, Repr

/-- A shed overlay or tenant with the tick of its shedding (R356, R358). -/
structure ShedItem where
  overlay : Bool
  what : Nat
  tick : Nat
  deriving DecidableEq, Repr

/-- The hot-swap stage and the rails (R449, R451, R455, R471). -/
inductive Rails where
  /-- no input, or switched off -/
  | off
  /-- soft start in progress, from a time in ns -/
  | soft (t : Nat)
  | on
  deriving DecidableEq, Repr

/-- Why Stopped was entered: only a hardware thermal trip is left in another way than a reset (R460). -/
inductive StopCause where
  | none | orderly | trip | overvoltage | limit | reset
  deriving DecidableEq, Repr

/-- Power, thermal and start-up state. -/
structure PowerSt where
  /-- calibration gain g, consecutive calibrations at a clamp limit, and the estimator fault (R350) -/
  gain : Rat := 1
  clampRun : Nat := 0
  estFault : Bool := false
  /-- a calibration of this tick was clamped (R355) -/
  tickClamped : Bool := false
  /-- estimates of the present ms, of the busy part of the present tick, and the group means of the last ms -/
  ms : EstSum := {}
  busy : EstSum := {}
  means : EstSum := {}
  /-- the power predicted for the step chosen at the last boundary, in W (R353, 2521.03) -/
  chosen : Rat := 0
  /-- 1 ms means of the uncore group over the last second, newest first (R353) -/
  uncore : List Rat := []
  /-- measured 1 ms means of the present tick: count and sum -/
  tickMeas : Nat × Rat := (0, 0)
  meas : Rat := 0
  /-- the 100 ms interval in progress, its count of 1 ms means and their sum, and the last completed interval's mean rounded to
  5 W, in 0.1 W (Table 10-10) -/
  tenth : Nat × Rat := (0, 0)
  tenthMean : Nat := 0
  /-- input energy in J since reset, and lifetime energy not yet counted as kJ -/
  energy : Rat := 0
  lifeEnergy : Rat := 0
  learner : List LearnEntry := []
  /-- pass 1's choice, and the step the grid voltage supports (R348, R354) -/
  sUp : Nat := 0
  raised : Nat := 0
  shed : List ShedItem := []
  /-- restored tenants waiting for their aligned boundary (R358) -/
  restoring : List Nat := []
  fit : Nat := 0
  /-- start of the droop episode in progress; events and stretch in ns of the tick; the step the lock holds (R361) -/
  droop : Option Nat := none
  tickDroops : Nat := 0
  stretch : Nat := 0
  lockStep : Nat := 6
  /-- fresh readings: time and outlet of those of the last 50 ms, flows of the last three, the last sequence, the time of
  the last, how many since power-up, how many in a row (R362-R364) -/
  outlets : List (Nat × Int) := []
  flows : List Nat := []
  seq : Nat := 0
  lastFresh : Option Nat := none
  fresh : Nat := 0
  inRow : Nat := 0
  /-- fresh readings needed before the model is trusted for its limits: 3, or 1 after a complex reset (Table 15-4) -/
  needed : Nat := 3
  stale : Bool := false
  /-- inlet in 0.01 °C and flow in mL/min of the last fresh reading -/
  inlet : Int := 0
  flow : Nat := 0
  /-- hottest and mean die sensor in 0.01 °C, hottest HBM sensor in °C, as last sampled -/
  die : Int := 0
  dieMean : Int := 0
  hbm : Int := 0
  /-- compute halted (R367); the causes active in the present Survival (R366) -/
  halted : Bool := false
  causes : List Nat := []
  /-- Survival exit accepted, for the next boundary (R369) -/
  leaving : Bool := false
  /-- vector units powered (R366) -/
  vectors : Bool := true
  rails : Rails := .off
  /-- PWR_GOOD (R468) -/
  pwrGood : Bool := false
  /-- time since which the input has been at 51 V or above -/
  okSince : Option Nat := none
  /-- Booting stands at the grid row of Table 15-1 and waits (R451) -/
  bootHeld : Bool := false
  /-- the grid rail is on -/
  gridOn : Bool := false
  stopCause : StopCause := .none
  /-- RESET_N qualified and the rails off since (R455) -/
  resetAt : Option Nat := none
  /-- when the hot-swap stage switched off (R471), and whether this start follows a thermal trip (R460) -/
  offAt : Option Nat := none
  fromTrip : Bool := false
  /-- the grid row of Table 15-1 has been passed (R451) -/
  gridPassed : Bool := false
  /-- the wake in progress for the deferred commands (R372) -/
  waking : Bool := false
  deriving DecidableEq, Repr

end Sys2Proof.Machine
end

