-- ==== Sys2Proof/Machine/SecState.lean ====
section
/-! DEFINITION. State of identity, measurement, quotes, keys and tenants (spec/10_security.md). -/

namespace Sys2Proof.Machine

/-- States of a key generation position (R330, R346). -/
inductive GenState where
  | current | retiring | retired
  deriving DecidableEq, Repr

def genCode : GenState → Nat
  | .current => 1 | .retiring => 2 | .retired => 3

/-- A generation position that is not empty (R325, R330). -/
structure KeyPos where
  st : GenState
  key : BitVec 256
  salt : List Byte
  /-- the tenant of the record that released it (R327) -/
  tenant : Nat
  /-- instant of the boundary at which it became retiring, ns -/
  since : Nat := 0
  /-- IV counter of sealed summaries under this installation (R332) -/
  iv : Nat := 0
  deriving DecidableEq, Repr

/-- An accepted key release waiting for its boundary (R329). -/
structure KeyInstall where
  kind : Nat
  scope : Nat
  gen : Nat
  key : BitVec 256
  salt : List Byte
  tenant : Nat
  /-- acceptance tick -/
  tick : Nat := 0
  deriving DecidableEq, Repr

/-- An entry of the measurement log (R320). -/
structure MeasEntry where
  reg : Nat
  ev : Nat
  epoch : Nat
  tick : Nat
  digest : BitVec 256
  deriving DecidableEq, Repr

/-- A quote slot (R321). -/
structure QuoteSlot where
  owner : Option Nat := none
  /-- acceptance tick of a request not yet answered -/
  asked : Option Nat := none
  /-- time in ns at which its quote was posted -/
  posted : Option Nat := none
  deriving DecidableEq, Repr

/-- A signed quote posted within the last 600 s (R328 row 6). -/
structure PostedQuote where
  nonce : List Byte
  tenant : Nat
  t : Nat
  deriving DecidableEq, Repr

/-- The security side. -/
structure SecSt where
  /-- birth record and the two copies of the helper data, in flash -/
  birth : List Byte := []
  helpers : List (List Byte) := []
  /-- seed reconstructed from the PUF; none when it failed or has not been derived -/
  seed : Option (BitVec 256) := none
  mlog : List MeasEntry := []
  truncated : Bool := false
  /-- key position ((kind*65536 + scope)*2 + generation) -/
  keys : Cells KeyPos := []
  installs : List KeyInstall := []
  /-- sweeps reported for the retiring generation: (kind, scope) -/
  sweeps : List (Nat × Nat) := []
  quotes : Vector QuoteSlot 8 := Vector.replicate 8 {}
  posted : List PostedQuote := []
  /-- tenant writes waiting for their boundary: tenant and assigned (R337) -/
  tenantOps : List (Nat × Bool) := []
  /-- plan-signing slot writes waiting for their boundary (R336) -/
  planKeys : List (Nat × List Byte) := []
  /-- boundary of the last key-run increment for a result key (R222) -/
  runTick : Option Nat := none
  /-- registers being rebuilt after a complex reset (R458) -/
  rebuilding : Bool := false
  /-- the security component restarts (R323, 0x07) -/
  restarting : Bool := false
  deriving DecidableEq, Repr

end Sys2Proof.Machine
end

