-- ==== Sys2Proof/Machine/Variant.lean ====
section
/-! DEFINITION. What tells the two variants of the module apart (spec/00_scope.md R3) and the passive contacts of the
connector (spec/16_connector_mechanical.md R467). -/

namespace Sys2Proof.Machine

/-- R3, first place: the product code of 1018.02, FS-TX8-24H-I or FS-TX8-24H-M. -/
def productCode : Nat := if Config.variantM then 0x00082402 else 0x00082401
/-- R3, second place: TPLMID_CARD of the common CIS (R379). -/
def cardModel : Nat := if Config.variantM then 0x2402 else 0x2401
/-- R3, third place, with R467: the strap ID3, 0 tied to ground (variant I), 1 left open (variant M). -/
def strapId3 : Bool := Config.variantM
/-- R467: the straps ID[3:0] as the tray reads them; ID[2:0] is 0b101 on every module. -/
def straps : BitVec 4 := BitVec.ofNat 4 (5 + if strapId3 then 8 else 0)
/-- R467: the levels of the two PRSNT_N contacts, tied to ground in the module. -/
def presentN : Bool × Bool := (false, false)

/-- R316, Table 10-1: the birth record as shipped: magic, version, reserved bytes and product code, then what differs from module
to module. -/
def shippedBirth : List Byte :=
  [0x42, 0x49, 0x52, 0x54, 0x48, 0, 0, 0] ++ bytesLE 2 1 ++ bytesLE 2 0 ++ bytesLE 4 productCode ++ Config.birthRest

end Sys2Proof.Machine
end

