-- ==== Sys2Proof/Machine/State.lean ====
section
/-! DEFINITION. The block's whole state, its faults and refusals, and the state right after reset. -/

namespace Sys2Proof.Machine

/-- Everything the spec gives the module but the queue of waiting commands and the latched dictionary image. -/
structure Chip where
  tk : TickSt := {}
  objs : Cells Nat := []
  blobs : Cells (List Byte) := []
  dict : DictSt := {}
  card : CardSt := {}
  win : WindowSt := {}
  log : LogSt := {}
  trace : TraceSt := {}
  grid : Grid := {}
  plan : PlanSt := {}
  hbm : HbmSt := {}
  intake : IntakeSt := {}
  sec : SecSt := {}
  net : NetSt := {}
  video : VideoSt := {}
  serv : ServSt := {}
  life : LifeSt := {}
  power : PowerSt := {}
  fw : FwSt := {}
  link : LinkSt := {}
  /-- counter of free values taken (the model's own: each free value is a Config constant applied to it) -/
  free : Nat := 0
  deriving DecidableEq, Repr

/-- The block: the commands that wait, first in first out; the module as it stands; and the module as the last
dictionary latch took it, from which every dictionary value is read (R396). -/
structure State where
  pending : List Instr
  chip : Chip
  img : Chip
  deriving DecidableEq, Repr

/-- A component's slots in a module as shipped: slot 0 active and confirmed, slot 1 empty (R416). -/
def shippedComp (n : Nat) : FwComp :=
  let i : FwImage := { component := n, version := Config.shippedVersion n, sec := 0, hwMin := 0, hwMax := allOnes32, hovOut := 0, hovInMin := 0
                       hovInMax := 0xFFFF, compat := [], digest := Config.shippedDigest n }
  { slot0 := { st := .confirmed, image := some i } }

/-- The module without input power, as shipped: flash holds its birth record, helper data and firmware; every other part is at
the default its type gives (the reset values of the spec, or those that log entries name). -/
def Chip.reset : Chip :=
  { sec := { birth := shippedBirth, helpers := [Config.helperData, Config.helperData] }
    fw := { comps := (Vector.range 5).map shippedComp } }

/-- The block right after reset: rails off, nothing commanded. -/
def State.reset : State := { pending := [], chip := Chip.reset, img := Chip.reset }

/-- Why the block stops on a command. -/
inductive Fault where
  /-- A tile command names an index above 2,047: the spec says no such tile exists (R98). Raised by the tile commands;
  safe. -/
  | noSuchTile
  /-- A command names an entity (port, pseudo-channel, stream, engine, flit) that the spec says does not exist. Raised by
  the commands of those units; safe. -/
  | noSuchUnit
  deriving DecidableEq, Repr

/-- A command without a meaning. -/
inductive Refusal where
  /-- The row is not modelled yet. Raised by Dispatch's arms only; safe. -/
  | notModelled (mnemonic : String)
  deriving DecidableEq, Repr

end Sys2Proof.Machine
end

