-- ==== Sys2Proof/Machine/Ops.lean ====
section
/-! DEFINITION. The named operations over the block's state: dictionary objects, status objects and alerts (R391, R392,
R400), the log and the trace (R411-R414), fault classes (R447), the maintenance lease (R442-R444). -/

namespace Sys2Proof.Machine

/-! Dictionary objects. -/

/-- The value of an object; inst names the window instance (0 for an object that is no window entry). -/
def objGet (c : Chip) (idx sub inst : Nat) : Nat := cellsGet (objDefault (okey idx sub inst)) c.objs (okey idx sub inst)

/-- Set an object's value; the store keeps its canonical form. -/
def objSet (idx sub inst v : Nat) (c : Chip) : Chip :=
  { c with objs := cellsSet (objDefault (okey idx sub inst)) c.objs (okey idx sub inst) v }

/-- Largest value of an object's type. -/
def objMax (idx sub : Nat) : Nat :=
  match objRow idx sub with
  | some r => 256 ^ r.size - 1
  | none => allOnes64

/-- Add to a counter; it wraps at its type's width, saturating counters use objBumpSat. -/
def objBump (idx sub inst n : Nat) (c : Chip) : Chip :=
  objSet idx sub inst ((objGet c idx sub inst + n) % (objMax idx sub + 1)) c

/-- Add to a saturating counter. -/
def objBumpSat (idx sub inst n : Nat) (c : Chip) : Chip :=
  objSet idx sub inst (min (objMax idx sub) (objGet c idx sub inst + n)) c

/-- A variable-length object's bytes. -/
def blobGet (c : Chip) (idx sub inst : Nat) : List Byte := cellsGet [] c.blobs (okey idx sub inst)
def blobSet (idx sub inst : Nat) (v : List Byte) (c : Chip) : Chip :=
  { c with blobs := cellsSet [] c.blobs (okey idx sub inst) v }

/-- Restore every object of an index and instance to its default. -/
def objReset (idx inst : Nat) (c : Chip) : Chip :=
  let p (k : Nat) : Bool := k / 2 ^ 56 == idx && k % 2 ^ 48 == inst % 2 ^ 48
  { c with objs := cellsClear p c.objs, blobs := cellsClear p c.blobs }

/-! Alerts (R382, R400). -/

/-- The alert condition: a cause set whose enable is set (R382). -/
def alertCondition (c : Chip) : Bool := (objGet c 0x2001 0x01 0) &&& (objGet c 0x2001 0x03 0) != 0

/-- R382, 2001.04: evaluate the alert condition and count its transitions to true. -/
def alertEval (c : Chip) : Chip :=
  let on := alertCondition c
  let c := if on && !c.dict.alertOn then objBump 0x2001 0x04 0 1 c else c
  { c with dict := { c.dict with alertOn := on } }

/-- A cause that becomes visible at the next dictionary latch (R400). -/
def alertLater (bit : Nat) (c : Chip) : Chip := { c with dict := { c.dict with alerts := c.dict.alerts ||| 2 ^ bit } }

/-- A cause set at once (R400: cause [2]). -/
def alertNow (bit : Nat) (c : Chip) : Chip := alertEval (objSet 0x2001 0x01 0 ((objGet c 0x2001 0x01 0) ||| 2 ^ bit) c)

/-- R392: write a command's status object; leaving PENDING or QUEUED sets alert cause [0]. -/
def postStatus (idx sub inst st : Nat) (c : Chip) : Chip :=
  let old := objGet c idx sub inst
  let c := objSet idx sub inst st c
  if (old = stPending || old = stQueued) && st != stPending && st != stQueued then alertLater 0 c else c

/-- A status object that still holds PENDING or QUEUED (R392). -/
def statusBusy (c : Chip) (idx sub inst : Nat) : Bool :=
  objGet c idx sub inst == stPending || objGet c idx sub inst == stQueued

/-! Log and trace. -/

/-- R180: PTP time at local time t, run on from the last measured point at the last measured frequency. -/
def ptpTime (c : Chip) (t : Nat) : Nat :=
  let p := c.net.ptp
  if p.prevLocal < p.local_ && p.prevMaster ≤ p.master
  then p.master + (t - p.local_) * (p.master - p.prevMaster) / (p.local_ - p.prevLocal)
  else p.master + (t - p.local_)

/-- R411: the time a record carries: PTP or calendar time, 0 when untimed. -/
def wallTime (c : Chip) : Nat :=
  if objGet c 0x1F10 0x05 0 != 0 then ptpTime c c.tk.now else objGet c 0x2901 0x01 0

/-- R411: the tick a record carries: all ones before the tick timer runs. -/
def logTick (c : Chip) : Nat := if c.tk.timer then c.tk.tick else allOnes64

/-- R411, R412: write a log record. Below the minimum severity it is not written; warnings and errors always are, set
alert cause [9] and make a mirror due. A record overwritten before a due mirror took it is counted lost. While the log component
restarts the kernel holds 64 records; more are dropped and counted (R409). -/
def logRec (sev src : Nat) (ev : LogEv) (ids : List Nat) (c : Chip) : Chip :=
  if sev < objGet c 0x2A00 0x04 0 && sev < 2 then c
  else if c.fw.restarting.contains 7 && decide (64 ≤ c.log.held) then objBump 0x2811 0x06 7 1 c
  else
    let r : LogRec := { seq := c.log.next, sev := sev, src := src, ev := ev, tick := logTick c, time := wallTime c
                        boot := objGet c 0x2700 0x06 0, ids := ids }
    let full := decide (1024 ≤ c.log.ring.length)
    let lost := full && c.log.mirrorDue && (match c.log.ring.head? with | some h => decide (c.log.mirrored ≤ h.seq) | none => false)
    let ring := (if full then c.log.ring.drop 1 else c.log.ring) ++ [r]
    let c := { c with log := { c.log with ring := ring, next := (c.log.next + 1) % 2 ^ 32
                                          held := if c.fw.restarting.contains 7 then c.log.held + 1 else 0
                                          mirrorDue := c.log.mirrorDue || decide (2 ≤ sev) } }
    let c := objSet 0x2A00 0x02 0 c.log.next c
    let c := if lost then objBump 0x2A00 0x03 0 1 c else c
    if 2 ≤ sev then alertLater 9 (objBump 0x2A00 0x05 0 1 c) else c

/-- Log sources of Table 13-3. -/
def srcGrid : Nat := 0x10
def srcFabric : Nat := 0x11
def srcHbm : Nat := 0x12
def srcVideo : Nat := 0x13
def srcLinks : Nat := 0x15
def srcPower : Nat := 0x16

/-- R413, R414: an enabled trace point writes a record; points 128-255 are off on three cores (R408). -/
def tracePoint (point ac value : Nat) (c : Chip) : Chip :=
  let on := bitOf (objGet c 0x2A10 0x01 0) point && !c.trace.frozen
    && (decide (point < 128) || objGet c 0x2812 0x01 0 == 0x0F)
  if !on then c
  else
    let r : TraceRec := { point := point, hw := decide (point < 128), tick := c.tk.tick % 2 ^ 32
                          ac := if point < 128 then ac else allOnes32, value := Config.traceValue point value % 2 ^ 32 }
    if c.trace.buf.length < 4096 then { c with trace := { c.trace with buf := c.trace.buf ++ [r] } }
    else if objGet c 0x2A10 0x02 0 = 0 then { c with trace := { c.trace with buf := c.trace.buf.drop 1 ++ [r] } }
    else objBump 0x2A10 0x05 0 1 c

/-! Fault classes (R447, Table 14-5). -/

/-- Severity of a class. -/
def classSeverity (n : Nat) : Nat :=
  if n = 0x05 || n = 0x09 || n = 0x0C || n = 0x10 then 1
  else if n = 0x01 || n = 0x0B || n = 0x0E || n = 0x0F then 2 else 3

/-- The 1001.00 bit a class names; bit 0 is set for any class. -/
def classErrorBit (n : Nat) : Nat :=
  match n with
  | 0x01 | 0x02 => 4
  | 0x03 | 0x04 => 8
  | 0x0C | 0x0D => 16
  | 0x06 | 0x07 | 0x08 | 0x0A | 0x0B | 0x0E | 0x0F | 0x11 => 128
  | _ => 0

def classActive (c : Chip) (n : Nat) : Bool := bitOf (objGet c 0x2A40 0x01 0) n

/-- 1001.00 from the active classes (R447). -/
def errorRegister (mask : Nat) : Nat :=
  (List.range 18).foldl (fun r n => if bitOf mask n then r ||| 1 ||| classErrorBit n else r) 0

/-- R447: a class becomes active or ends. -/
def setClass (n : Nat) (on : Bool) (c : Chip) : Chip :=
  let old := objGet c 0x2A40 0x01 0
  if bitOf old n = on then c
  else
    let mask := if on then old ||| 2 ^ n else old - 2 ^ n
    let c := objSet 0x1001 0x00 0 (errorRegister mask) (objSet 0x2A40 0x01 0 mask c)
    if on then
      let c := objSet 0x2A40 0x02 0 ((objGet c 0x2A40 0x02 0) ||| 2 ^ n) c
      let c := objBumpSat 0x2A42 0x01 n 1 c
      let c := objSet 0x2A42 0x02 n c.tk.tick (objSet 0x2A42 0x03 n (wallTime c) (objSet 0x2A42 0x04 n (objGet c 0x2700 0x06 0) c))
      logRec (classSeverity n) 0 .faultClass [n, 1] c
    else logRec 1 0 .faultClass [n, 0] c

/-- R447: a class held for a fixed time from now. -/
def holdClass (n ns : Nat) (c : Chip) : Chip :=
  setClass n true { c with life := { c.life with classUntil := cellsPut c.life.classUntil n (c.tk.now + ns) } }

/-! The maintenance lease (R442-R444). -/

/-- Table 14-3. -/
def leaseCompat (a b : LeaseEntry) : Bool :=
  match a.act, b.act with
  | .si, .lr | .lr, .si | .si, .ds | .ds, .si => true
  | .es, .ppr | .ppr, .es | .es, .lr | .lr, .es | .es, .ds | .ds, .es => true
  | .ppr, .lr | .lr, .ppr => true
  | .lr, .lr => a.obj != b.obj
  | .lr, .ds | .ds, .lr => true
  | _, _ => false

/-- 2902.01: the activities that hold the lease. -/
def holdersMask (l : List LeaseEntry) : Nat := l.foldl (fun m e => m ||| 2 ^ (activityCode e.act - 1)) 0

/-- Keep 2902.01 and 2902.02 with the lease. -/
def leaseShow (c : Chip) : Chip :=
  objSet 0x2902 0x01 0 (holdersMask c.life.lease.holders) (objSet 0x2902 0x02 0 c.life.lease.queue.length c)

/-- The lease is granted to an entry: alert cause [12] and the grant count (R444, 2902.06). -/
def leaseGrant (e : LeaseEntry) (c : Chip) : Chip :=
  let c := { c with life := { c.life with lease := { c.life.lease with holders := c.life.lease.holders ++ [e] } } }
  leaseShow (objBump 0x2902 0x06 0 1 (alertLater 12 c))

/-- Whether the module's state lets the lease grant anything (R446). -/
def leaseOpen (c : Chip) : Bool :=
  match c.tk.mode with
  | .idle | .loaded | .running | .paused => true
  | _ => false

/-- R129, R444: where a request enters the queue. -/
def leaseEnqueue (e : LeaseEntry) (q : List LeaseEntry) : List LeaseEntry :=
  if e.act = .si then q.takeWhile (fun x => x.act = .si) ++ [e] ++ q.dropWhile (fun x => x.act = .si) else q ++ [e]

/-- R444, R445: request the lease; the answer is OK when granted at acceptance, QUEUED, or NO_RESOURCE. -/
def leaseRequest (act : Activity) (obj : Nat) (commanded : Bool) (c : Chip) : Chip × Nat :=
  let e : LeaseEntry := { act := act, obj := obj, tick := c.tk.tick, commanded := commanded }
  let l := c.life.lease
  if leaseOpen c && l.holders.all (leaseCompat e) && l.queue.all (leaseCompat e) then (leaseGrant e c, stOk)
  else if commanded && decide (16 ≤ (l.queue.filter (·.commanded)).length) then (c, stNoResource)
  else
    (leaseShow { c with life := { c.life with lease := { l with queue := leaseEnqueue e l.queue } } }, stQueued)

/-- R444: a release, applied at the next boundary's scan. -/
def leaseRelease (act : Activity) (obj : Nat) (c : Chip) : Chip :=
  let l := c.life.lease
  match l.holders.find? (fun e => e.act = act && e.obj == obj) with
  | none => c
  | some e => { c with life := { c.life with lease := { l with releases := l.releases ++ [e] } } }

/-- Whether an activity holds the lease and has not given it back. -/
def leaseKept (c : Chip) (act : Activity) : Bool :=
  c.life.lease.holders.any (fun e => e.act = act && !c.life.lease.releases.contains e)
/-- Whether an activity holds the lease. -/
def leaseHeld (c : Chip) (act : Activity) : Bool := c.life.lease.holders.any (fun e => e.act = act)

/-! Access contexts (R394, R395, R476). -/

/-- A role's context. -/
def ctxOf (c : Chip) (r : Role) : AccessCtx := (cellsFind c.dict.ctxs (roleKey r)).getD {}
def setCtx (r : Role) (a : AccessCtx) (c : Chip) : Chip := { c with dict := { c.dict with ctxs := cellsPut c.dict.ctxs (roleKey r) a } }
/-- A selector or command parameter as the role's context holds it. -/
def ctxVal (c : Chip) (r : Role) (idx sub : Nat) : Nat :=
  cellsGet (objDefault (okey idx sub 0)) (ctxOf c r).vals (okey idx sub 0)
def setCtxVal (r : Role) (idx sub v : Nat) (c : Chip) : Chip :=
  let a := ctxOf c r
  setCtx r { a with vals := cellsSet (objDefault (okey idx sub 0)) a.vals (okey idx sub 0) v } c

/-- The tenant a role acts for: the operator is tenant 0 (R340). -/
def roleTenant : Role → Nat
  | .tenant t => t
  | _ => 0
/-- R337: tenant 0 is always assigned. -/
def tenantAssigned (c : Chip) (t : Nat) : Bool := t = 0 || objGet c 0x2201 0x01 t == 1
def isTenant : Role → Bool
  | .tenant _ => true
  | _ => false

/-! Staged images (R274, R275). -/

/-- Units of an image. -/
def unitCount (h : Handle) : Nat := cdiv h.size 1024
/-- Mark a staging handle in use, or complete again (R154, R419). -/
def useHandle (h : Nat) (use : Bool) (c : Chip) : Chip :=
  match cellsFind c.intake.handles h with
  | none => c
  | some hd => { c with intake := { c.intake with handles := cellsPut c.intake.handles h { hd with st := if use then .inUse else .complete } } }

/-! Pauses (R124, R420). -/

/-- Whether a component's activation pause or revert pause runs. -/
def fwPause (c : Chip) (comp : Nat) : Bool :=
  c.fw.updates.any (fun u => u.component == comp && (u.phase == .pause || u.phase == .reverting))
/-- An activation pause of the tile microcode stops the tiles as a repair pause does (R421). -/
def workPaused (c : Chip) : Bool := c.grid.pauseFrom.isSome || fwPause c 1

/-- Functions that do no work: aborted, or of a shed tenant (R159, R357); function 0 always works. -/
def fnStopped (c : Chip) (p : Plan) (f : Nat) : Bool :=
  f != 0 && (c.plan.aborted.contains f || (match planFn p f with | some e => c.plan.shed.contains e.tenant | none => false))

/-- R422: the dark time of a management firmware activation, 800 µs from ac 0 of its boundary. -/
def darkNow (c : Chip) : Bool := c.fw.dark && decide (c.tk.now < c.tk.boundaryAt + 800000)
/-- R410, R422: the hardware guard acts while the complex is down and in the dark time of an activation. -/
def guarded (c : Chip) : Bool := c.fw.down || darkNow c
/-- What breaks the condition of an image that is being confirmed (Table 13-7). -/
def breakUpd (n : Nat) (c : Chip) : Chip :=
  { c with fw := { c.fw with updates := c.fw.updates.map (fun (u : Update) =>
    if u.component = n && u.phase = .confirming then { u with broken := true } else u) } }

/-- The state a command is judged in (R391): that of the last latch, and Survival or Stopped as soon as the module enters it
(R156, R160, R396). -/
def judgedMode (img c : Chip) : ModState := if c.tk.mode = .survival || c.tk.mode = .stopped then c.tk.mode else img.tk.mode

/-- R137, R299: the tick that a write accepted now counts as its acceptance tick: after the domain's command latch has
closed it is the next one. -/
def acceptTick (c : Chip) : Nat := c.tk.tick + (if c.link.dom.latched then 1 else 0)

/-! Time. -/

/-- A command that carries a time brings the block's clock forward to it. -/
def atTime (t : Nat) (c : Chip) : Chip := { c with tk := { c.tk with now := max c.tk.now t } }

/-- An event of the boundary window, the work window or the slack window: it happens once in its place in the order of
Table 5-1. -/
def atPhase (p : Phase) (f : Chip → Chip) (c : Chip) : Chip :=
  if c.tk.timer && decide (phaseRank c.tk.phase < phaseRank p) then f { c with tk := { c.tk with phase := p } } else c

/-! Free values. -/

/-- Take a fresh index for a free value. -/
def takeFree (c : Chip) : Nat × Chip := (c.free, { c with free := c.free + 1 })

/-! Tiles. -/

def tileAt (c : Chip) (t : Nat) : Tile := cellsGet {} c.grid.tiles t
def setTile (t : Nat) (v : Tile) (c : Chip) : Chip := { c with grid := { c.grid with tiles := cellsSet {} c.grid.tiles t v } }

/-! Physical places (R98, R131) and lifetime counts per physical tile (R433, R441). -/

/-- Quarter of a logical tile: NW 0, NE 1, SW 2, SE 3. -/
def tileQuarter (t : Nat) : Nat := (if t % 64 < 32 then 0 else 1) + (if t / 64 < 16 then 0 else 2)
/-- The physical column of logical column lx under a quarter's retired columns. -/
def physCol (retired : List Nat) (lx : Nat) : Nat :=
  match retired.insertionSort (· ≤ ·) with
  | [] => lx
  | [f] => if lx < f then lx else lx + 1
  | f1 :: f2 :: _ => if lx < f1 then lx else if lx + 1 < f2 then lx + 1 else lx + 2
def routedCols (c : Chip) (q : Nat) : List Nat := c.grid.routed.toList.getD q []
def retiredCols (c : Chip) (q : Nat) : List Nat := c.grid.retired.toList.getD q []
/-- Index of a physical tile (2920.00): 528 × quarter + 33 × py + px. -/
def physIndex (c : Chip) (t : Nat) : Nat :=
  let q := tileQuarter t
  528 * q + 33 * (t / 64 % 16) + physCol (routedCols c q) (t % 32)

/-- Nanoseconds of a day. -/
def dayNs : Nat := 86400000000000
/-- R433, R441: a corrected read of a tile, in its lifetime count and in those of the last 24 h. -/
def wearRead (t : Nat) (c : Chip) : Chip :=
  let k := physIndex c t
  let c := objBumpSat 0x2921 0x01 k 1 c
  let ts := (cellsGet [] c.life.dayReads k).filter (fun x => decide (c.tk.now ≤ x + dayNs)) ++ [c.tk.now]
  let c := { c with life := { c.life with dayReads := cellsSet [] c.life.dayReads k ts } }
  if objGet c 0x2933 0x01 0 < ts.length then holdClass 0x10 dayNs c else c

/-- R366, R371, R421: decoding and encoding stop in Survival, below Hold, and in a pause of the Yarrow firmware. -/
def yarrowStopped (c : Chip) : Bool := c.tk.mode = .survival || (c.tk.wake ≠ .run && c.tk.wake ≠ .hold) || fwPause c 2
/-- R440: an engine held by a declared failure, by its code in 2911.01, or stopped. -/
def engineHeld (c : Chip) (k : EngineKind) (i : Nat) : Bool :=
  c.life.heldEngines.contains (engineCode k * 16 + i) || (yarrowStopped c && decide (k = .decode ∨ k = .encode))

/-- R222: the key run, which never wraps. -/
def runExhausted (c : Chip) : Bool := objGet c 0x2700 0x0A 0 == allOnes32
/-- R447: the condition of class 0x11: 2930.05 = 0x04, identity not valid, fewer than 8 good life counter blocks, or the key
run exhausted. -/
def replaceDue (c : Chip) : Bool :=
  objGet c 0x2930 0x05 0 == 4 || decide (2 ≤ objGet c 0x2700 0x01 0) || decide (56 < c.life.lifeBad) || runExhausted c
def replaceShow (c : Chip) : Chip := setClass 0x11 (replaceDue c) c

end Sys2Proof.Machine
end

