-- ==== Sys2Proof/Machine/Special.lean ====
section
/-! DEFINITION. The table functions of the special-function unit (spec/02_arithmetic.md R53, R54, Table 2-11): special cases,
the exact value in fixed point with 512 fraction bits, and the FP32 results that the stated error allows. The ROM picks one
of them (Config.special). -/

namespace Sys2Proof.Machine

/-- R53: the special cases of Table 2-11; none where the ROM table gives the value. -/
def specialCase (fn : SpecFn) (x : Num) : Option Num :=
  let one (neg : Bool) : Num := .fin neg 1 0
  let geMag (k : Nat) (m : Nat) (e : Int) : Bool := numCmp (.fin false k 0) (.fin false m e) != some .gt
  match fn, x with
  | _, .nan => some .nan
  | .rsqrt, .inf neg => some (if neg then .nan else .fin false 0 0)
  | .rsqrt, .fin neg m _ => if m = 0 then some (.inf neg) else if neg then some .nan else none
  | .exp2, .inf neg => some (if neg then .fin false 0 0 else .inf false)
  | .exp2, .fin neg m e => if !neg && geMag 128 m e then some (.inf false) else none
  | .exp, .inf neg => some (if neg then .fin false 0 0 else .inf false)
  | .exp, .fin neg m e =>
    if !neg && numCmp (ofFp32 0x42B17218) (.fin false m e) != some .gt then some (.inf false) else none
  | .log2, .inf neg | .log, .inf neg => some (if neg then .nan else .inf false)
  | .log2, .fin neg m _ | .log, .fin neg m _ =>
    if m = 0 then some (.inf true) else if neg then some .nan else none
  | .sin, .inf _ | .cos, .inf _ => some .nan
  | .sin, .fin _ m e | .cos, .fin _ m e =>
    if numCmp (.fin false m e) (.fin false 1 20) = some .gt then some .nan else none
  | .tanh, .inf neg => some (one neg)
  | .tanh, .fin neg m e => if geMag 9 m e then some (one neg) else none
  | .sigmoid, .inf neg => some (if neg then .fin false 0 0 else one false)
  | .sigmoid, .fin _ _ _ => none
  | .erf, .inf neg => some (one neg)
  | .erf, .fin neg m e => if geMag 4 m e then some (one neg) else none
  | .gelu, .inf neg | .silu, .inf neg => some (if neg then .fin true 0 0 else .inf false)
  | .gelu, .fin _ _ _ | .silu, .fin _ _ _ => none

/-- Fraction bits of the fixed-point values below. -/
def fixBits : Nat := 512
def fixOne : Int := 2 ^ fixBits
def fixMul (a b : Int) : Int := a * b / fixOne
def fixDiv (a b : Int) : Int := a * fixOne / b
/-- A finite FP32 value: exact, since its exponent is at least -149. -/
def fixOf (neg : Bool) (m : Nat) (e : Int) : Int :=
  let a : Int := (m <<< (e + fixBits).toNat : Nat)
  if neg then -a else a

/-- A series whose term n + 1 is term n times u over d n. -/
def fixSeries (u : Int) (d : Nat → Int) : Nat → Nat → Int → Int → Int
  | 0, _, _, acc => acc
  | k + 1, n, term, acc =>
    let next := fixMul term u / d n
    fixSeries u d k (n + 1) next (acc + next)
/-- The sum of z^(2n+1) / (2n+1), z squared taken with sign s: artanh (s = 1) or arctan (s = -1). -/
def fixOdd (s z : Int) : Nat → Nat → Int → Int → Int
  | 0, _, _, acc => acc
  | k + 1, n, pow, acc => fixOdd s z k (n + 1) (s * fixMul pow (fixMul z z)) (acc + pow / ((2 * n + 1 : Nat) : Int))

/-- The natural logarithm of 2, and pi by Machin's formula. -/
def fixLn2 : Int := let z := fixOne / 3; 2 * fixOdd 1 z 170 0 z 0
def fixPi : Int :=
  let z := fixOne / 5
  let y := fixOne / 239
  16 * fixOdd (-1) z 120 0 z 0 - 4 * fixOdd (-1) y 40 0 y 0

/-- e^x of a fixed-point x; 0 where it lies below 2^-2048. -/
def fixExp (x : Int) : Int :=
  if x < -1420 * fixOne then 0
  else
    let n := x / fixLn2
    let t := fixSeries (x - n * fixLn2) (fun k => ((k + 1 : Nat) : Int)) 110 0 fixOne fixOne
    if 0 ≤ n then t * 2 ^ n.toNat else t / 2 ^ (-n).toNat
/-- ln of a positive m * 2^e. -/
def fixLn (m : Nat) (e : Int) : Int :=
  let k := Nat.log2 m
  let y : Int := (m <<< (fixBits - k) : Nat)
  let z := fixDiv (y - fixOne) (y + fixOne)
  2 * fixOdd 1 z 170 0 z 0 + (e + k) * fixLn2
/-- sin of x + q * pi/2. -/
def fixSin (x : Int) (q : Int) : Int :=
  let h := fixPi / 2
  let k := (2 * x + h) / (2 * h)
  let r := x - k * h
  let u := -(fixMul r r)
  let quarter := (k + q) % 4
  let v := if quarter % 2 = 0 then fixSeries u (fun n => (((2 * n + 2) * (2 * n + 3) : Nat) : Int)) 60 0 r r
    else fixSeries u (fun n => (((2 * n + 1) * (2 * n + 2) : Nat) : Int)) 60 0 fixOne fixOne
  if quarter < 2 then v else -v
/-- e^(-u/2) times the sum of u^n / (1 * 3 * ... * (2n+1)): erf x is 2 x / sqrt pi times it at u = 2 x^2. -/
def fixErfSum (u : Int) : Int :=
  fixMul (fixExp (-u / 2)) (fixSeries u (fun n => ((2 * n + 3 : Nat) : Int)) 900 0 fixOne fixOne)
/-- The square root of a / b. -/
def fixSqrt (a b : Int) : Int := isqrt ((a * fixOne * fixOne / b).toNat)
/-- 1 / (1 + e^-x). -/
def fixSigmoid (x : Int) : Int :=
  let t := fixExp (if x < 0 then x else -x)
  if x < 0 then fixDiv t (fixOne + t) else fixDiv fixOne (fixOne + t)
/-- x (1 + erf(x / sqrt 2)) / 2; beyond 15 the factor differs from 0 or 1 by less than 2^-160. -/
def fixGelu (x : Int) : Int :=
  if 15 * fixOne < x then x
  else if x < -15 * fixOne then 0
  else fixMul x (fixOne + fixMul x (fixMul (fixSqrt (2 * fixOne) fixPi) (fixErfSum (fixMul x x)))) / 2

/-- The exact mathematical value of a table function on a finite operand, within 2^-300. -/
def fixValue (fn : SpecFn) (neg : Bool) (m : Nat) (e : Int) : Int :=
  let x := fixOf neg m e
  match fn with
  | .rsqrt => fixSqrt fixOne x
  | .exp2 => fixExp (fixMul (max x (-1500 * fixOne)) fixLn2)
  | .exp => fixExp x
  | .log => fixLn m e
  | .log2 => fixDiv (fixLn m e) fixLn2
  | .sin => fixSin x 0
  | .cos => fixSin x 1
  | .tanh =>
    let t := fixExp (-2 * |x|)
    let v := fixDiv (fixOne - t) (fixOne + t)
    if neg then -v else v
  | .sigmoid => fixSigmoid x
  | .erf => 2 * fixMul (fixMul x (fixErfSum (2 * fixMul x x))) (fixSqrt fixOne fixPi)
  | .gelu => fixGelu x
  | .silu => fixMul x (fixSigmoid x)

/-- Table 2-11: the largest error in ULP of the FP32 result. -/
def specUlp : SpecFn → Nat
  | .rsqrt | .exp2 | .exp | .log2 | .log => 1
  | .sin | .cos | .tanh | .sigmoid | .erf => 2
  | .silu => 3
  | .gelu => 4

/-- Whether a finite FP32 magnitude code of a sign lies within k ULP of a fixed-point value (to 2^-300). -/
def withinUlp (k : Nat) (v : Int) (neg : Bool) (c : Nat) : Bool :=
  match ofFp32 c with
  | .fin _ m e => decide (|fixOf neg m e - v| ≤ k * fixOf false 1 (max ((c / 2 ^ 23 : Nat) : Int) 1 - 150) + 2 ^ (fixBits - 300))
  | _ => false
/-- R53: the FP32 codes within the stated error of a function's value, the nearest among them; a zero may carry either sign. -/
def specCandidates (fn : SpecFn) (neg : Bool) (m : Nat) (e : Int) : List Nat :=
  let v := fixValue fn neg m e
  let k := specUlp fn
  let near : Int := min (fpRoundMag fpFp32 v.natAbs (-(fixBits : Int))) fpFp32.maxCode
  let centre := if v < 0 then -near else near
  (List.range (2 * k + 3)).flatMap (fun j =>
    let i := centre + j - (k + 1 : Nat)
    if i = 0 then (if withinUlp k v false 0 then [0, 2 ^ 31] else [])
    else if decide (i.natAbs ≤ fpFp32.maxCode) && withinUlp k v (decide (i < 0)) i.natAbs then [i.natAbs + if i < 0 then 2 ^ 31 else 0]
    else [])

/-- R53, R54: a table function on an FP32 code: a special case of Table 2-11, else the code within its error that the ROM
gives (Config.special; tanh is odd). -/
def specialFp32 (fn : SpecFn) (c : Nat) : Nat :=
  match specialCase fn (ofFp32 c), ofFp32 c with
  | some r, _ => toFp32 r
  | none, .fin neg m e =>
    if fn = .tanh then
      let l := (specCandidates fn false m e).map (· % 2 ^ 31)
      l.getD (Config.special fn (BitVec.ofNat 32 (c % 2 ^ 31)) % l.length) 0 + if neg then 2 ^ 31 else 0
    else
      let l := specCandidates fn neg m e
      l.getD (Config.special fn (BitVec.ofNat 32 c) % l.length) 0
  | none, _ => fpFp32.canonNan

end Sys2Proof.Machine
end

