-- ==== Sys2Proof/Machine/Vector.lean ====
section
/-! DEFINITION. Lane operations of the vector unit (R53-R55, R74, Table 3-7), the converts between SRAM formats and
lanes (R96) and pooling (R97). -/

namespace Sys2Proof.Machine

/-- The lane codes of a register (R58). -/
def lanesOf (w : Bool) (v : V2048) : List Nat := unpackLE (laneBits w) (laneCount w) v.toNat
/-- A register from its lane codes. -/
def ofLanes (w : Bool) (l : List Nat) : V2048 := BitVec.ofNat 2048 (packLE (laneBits w) l)

/-- R74: the governing mask bit of lane i. -/
def laneOn (w : Bool) (m : W128) (i : Nat) : Bool := m.getLsbD (if w then i else 2 * i)

/-- Bit mask of the positions a masked lane operation writes. -/
def laneMask (w : Bool) (m : W128) : V2048 :=
  ofLanes w ((List.range (laneCount w)).map (fun i => if laneOn w m i then 2 ^ laneBits w - 1 else 0))

/-- R74 for packed results: element i of b bits is governed by lane i; every other bit is written. -/
def packedMask (w : Bool) (m : W128) (b : Nat) : V2048 :=
  let off := packLE b ((List.range (laneCount w)).map (fun i => if laneOn w m i then 0 else 2 ^ b - 1))
  ~~~(BitVec.ofNat 2048 off)

/-- Two-operand lane operations. -/
inductive VecOp2 where
  | add | sub | mul | min | max | div
  deriving DecidableEq, Repr

def vecOp2 : VecOp2 → Num → Num → Num
  | .add, x, y => numAdd x y
  | .sub, x, y => numAdd x (numNeg y)
  | .mul, x, y => numMul x y
  | .min, x, y => numMin x y
  | .max, x, y => numMax x y
  | .div, x, y => numDiv x y

/-- R53: a two-operand lane operation on whole registers. -/
def vecBin (op : VecOp2) (w : Bool) (a b : V2048) : V2048 :=
  ofLanes w (List.zipWith (fun x y => laneRound w (vecOp2 op (laneValue w x) (laneValue w y))) (lanesOf w a) (lanesOf w b))

/-- R53: VFMA: va * vb + vd with one rounding to FP32. -/
def vecFma (w : Bool) (a b d : V2048) : V2048 :=
  ofLanes w (List.zipWith (fun (p : Nat × Nat) z =>
    laneRound w (numAdd (numMul (laneValue w p.1) (laneValue w p.2)) (laneValue w z))) ((lanesOf w a).zip (lanesOf w b)) (lanesOf w d))

/-- R53: VSQRT. -/
def vecSqrt (w : Bool) (a : V2048) : V2048 := ofLanes w ((lanesOf w a).map (fun x => laneRound w (numSqrt (laneValue w x))))

/-- R53: a table function lane by lane; a BF16 lane is widened, computed in FP32 and rounded once. -/
def vecSpecial (fn : SpecFn) (w : Bool) (a : V2048) : V2048 :=
  ofLanes w ((lanesOf w a).map (fun x => laneOfFp32 w (specialFp32 fn (toFp32 (laneValue w x)))))

/-- Table 3-7: the conditions of VCMP. -/
def cmpHolds (cond : Nat) (o : Option Ordering) : Bool :=
  match cond, o with
  | 0, some .eq => true
  | 1, o => o != some .eq
  | 2, some .lt => true
  | 3, some .lt => true
  | 3, some .eq => true
  | 4, some .gt => true
  | 5, some .gt => true
  | 5, some .eq => true
  | 6, none => true
  | 7, some _ => true
  | _, _ => false

/-- R74: VCMP: each lane's bit of the target mask (2i for FP32 lane i, i for BF16 lane i); a masked-off lane's is cleared. -/
def vecCmp (cond : Nat) (w : Bool) (a b : V2048) (m : W128) : W128 :=
  let bits := (List.zipWith (fun x y => cmpHolds cond (numCmp (laneValue w x) (laneValue w y))) (lanesOf w a) (lanesOf w b)).zipIdx.map
    (fun (r, i) => if r && laneOn w m i then 1 else 0)
  BitVec.ofNat 128 (packLE (if w then 1 else 2) bits)

/-- The bits of a lane mask that a VCMP writes: one per lane (R74); the others keep their value (log entry 7). -/
def cmpBits (w : Bool) : W128 := BitVec.ofNat 128 (packLE (if w then 1 else 2) (List.replicate (laneCount w) 1))

/-- R55: the fixed binary tree over lane values. -/
def treePairs (f : Num → Num → Num) : List Num → List Num
  | x :: y :: t => f x y :: treePairs f t
  | l => l

def treeReduce (f : Num → Num → Num) : Nat → List Num → Num
  | 0, l => l.headD .nan
  | n + 1, l => treeReduce f n (treePairs f l)

/-- R55: a lane reduction into lane 0, the other lanes +0; each addition rounds to FP32. -/
def vecReduce (f : Num → Num → Num) (w : Bool) (a : V2048) : V2048 :=
  let r := treeReduce f (if w then 7 else 6) ((lanesOf w a).map (laneValue w))
  ofLanes w [laneRound w r]

def redSum (x y : Num) : Num := rne32 (numAdd x y)

/-- Lane k of a register in every lane. -/
def vecBcast (w : Bool) (k : Nat) (a : V2048) : V2048 :=
  ofLanes w (List.replicate (laneCount w) ((lanesOf w a).getD (k % laneCount w) 0))

/-- Chunks of 32 values (R52: 32 consecutive lanes). -/
def chunks32 : Nat → List Num → List (List Num)
  | 0, _ => []
  | n + 1, l => l.take 32 :: chunks32 n (l.drop 32)

/-- R96: VCVT: the result bits, the bits it writes, the MX blocks it formed and the non-finite values it converted. -/
def vecCvt (fo : Nat) (ovf w : Bool) (a : V2048) (m : W128) : V2048 × V2048 × Option Nat × Nat :=
  let vs := (lanesOf w a).map (laneValue w)
  match fmtOf fo with
  | none | some .acc128 =>
    (ofLanes w ((List.range (laneCount w)).map (fun i => Config.looseLane fo (a.toNat + i))), laneMask w m, none, 0)
  | some f =>
    if fmtIsMx f then
      let bs := (chunks32 (laneCount w / 32) vs).map (mxBlock f ovf)
      let bits := packLE (fmtBits f) (bs.map (·.2)).flatten + 2 ^ 2016 * packLE 8 (bs.map (·.1))
      (BitVec.ofNat 2048 bits, packedMask w m (fmtBits f), some bs.length, 0)
    else
      let nf := if fmtIsInt f then
          (vs.zipIdx.filter (fun (x, i) => numNonFinite x && laneOn w m i)).length else 0
      (BitVec.ofNat 2048 (packLE (fmtBits f) (vs.map (convElem f ovf))), packedMask w m (fmtBits f), none, nf)

/-- R96: VLDC: the elements of one word widened to lanes, the other lanes +0; MXFP6 is not accepted. -/
def widenWord (fc : Nat) (w : Bool) (word : Nat) (scales : List Nat) (poison : Bool) : List Nat :=
  match fmtOf fc with
  | none | some .acc128 | some .mxE3m2 | some .mxE2m3 =>
    (List.range (laneCount w)).map (fun i => Config.looseLane (16 + fc) (word + i))
  | some f =>
    let n := 256 / fmtBits f
    let codes := unpackLE (fmtBits f) n word
    let vals := codes.zipIdx.map fun (c, i) =>
      let v := if fmtIsMx f then numScale (scales.getD (i / 32) 0x7F) (elemValue f c) else elemValue f c
      if poison then laneNan w else if w then fpEncode fpBf16 true v else toFp32 v
    vals.take (laneCount w) ++ List.replicate (laneCount w - n) 0

/-- R97: combine the taps of one output position. -/
def poolLanes (kind : Nat) (w : Bool) (taps : List (List Nat)) (khw inside : Nat) : List Nat :=
  match taps with
  | [] => List.replicate (laneCount w) 0
  | first :: rest =>
    let acc := rest.foldl (fun a t => List.zipWith (fun x y =>
      laneRound w (if kind = 0 then numMax (laneValue w x) (laneValue w y) else numAdd (laneValue w x) (laneValue w y))) a t) first
    match kind with
    | 2 => acc.map (fun x => laneRound w (numDiv (laneValue w x) (.fin false khw 0)))
    | 3 => acc.map (fun x => laneRound w (numDiv (laneValue w x) (.fin false inside 0)))
    | _ => acc

end Sys2Proof.Machine
end

