-- ==== Sys2Proof/Machine/Tile.lean ====
section
/-! DEFINITION. A tile's ac by ac operation: results landing at their latency (R73, R85, R95), the further ac of long
operations, and the sequencer (R75-R79). A tile function maps a tile to a tile; what the module must count or route is
left in the tile's event list. -/

namespace Sys2Proof.Machine

/-- Schedule a micro-operation k ac after the present one. -/
def later (k : Nat) (m : Micro) (t : Tile) : Tile := { t with pend := t.pend ++ [(t.ac + k, m)] }

/-- Result writes land before the reads of the same ac (R73). -/
def microLands : Micro → Bool
  | .mload .. | .mpre128 .. | .mrun .. | .mout .. | .vpool .. | .wld .. => false
  | _ => true

/-- R81: one ac of MLOAD: up to 4 words, usable 2 ac later. -/
def mloadStep (base next total : Nat) (t : Tile) : Tile :=
  let n := min 4 (total - next)
  let r := sramReadRun n t (base + next)
  let t := (r.1.zipIdx).foldl (fun t (w, i) => later 2 (.shadow (next + i) w) t) r.2
  if next + n < total then later 1 (.mload base (next + n) total) t else t

/-- R84: one ac of an MPRE with PRE 0b11: 8, 8 and 1 words, the entry usable 2 ac after its last ac. -/
def mpre128Step (agd m left step : Nat) (got : List SWord) (t : Tile) : Tile :=
  let ad := takes (if step = 2 then 1 else 8) t agd
  let r := ad.1.foldl (fun (p : List SWord × Tile) wa => let q := sramRead p.2 wa; (p.1 ++ [q.1], q.2)) (got, ad.2)
  if step < 2 then later 1 (.mpre128 agd m left (step + 1) r.1) r.2
  else
    let t := later 2 (.accSet m (importWords r.1)) r.2
    if left ≤ 1 then t else later 1 (.mpre128 agd (m + 1) (left - 1) 0 []) t

/-- R82: the elements an AGD take supplies for one entry, by operand A's format. -/
def aFromWords (f : Fmt) (k : Nat) (half second : Bool) (ws : List SWord) (scales : List Nat) : List Num × Bool :=
  let w (i : Nat) : SWord := ws.getD i sWordZero
  match f with
  | .bf16 | .fp16 => (elemsOf f 8 ((w 0).data.toNat / 2 ^ (if half then 128 else 0)) [], (w 0).poison)
  | .mxE3m2 | .mxE2m3 =>
    let grp := (w 0).data.toNat + 2 ^ 256 * (w 1).data.toNat + 2 ^ 512 * (w 2).data.toNat
    if second then (elemsOf f k (grp / 2 ^ 384) (scales.drop 2), (w 1).poison || (w 2).poison)
    else (elemsOf f k grp (scales.take 2), (w 0).poison || (w 1).poison)
  | _ => (elemsOf f k (w 0).data.toNat scales, (w 0).poison)

/-- R80, R82: one ac of MRUN: one entry. R82 takes no MXFP6 operand from the window register: what such an MRUN adds is open (log
entry 2). -/
def mrunStep (win : Bool) (sel aod m left d : Nat) (half odd first : Bool) (carry : List SWord) (base : Nat)
    (scales : List Nat × Bool) (t : Tile) : Tile :=
  let aw := aodAt t aod
  let fa := (aodOf aw).fa.getD .int8
  let mx6 := fa == .mxE3m2 || fa == .mxE2m3
  let next (odd : Bool) (carry : List SWord) (base : Nat) (scales : List Nat × Bool) (t : Tile) : Tile :=
    if left ≤ 1 then t else later 1 (.mrun win sel aod (m + 1) (left - 1) d half odd false carry base scales) t
  if win then
    let e : WinEntry := cellsGet {} t.window (64 * sel + (m + d) % 64)
    let add := if mx6 then looseAdd aw m else mrunAdd t.active aw m fun f k =>
      aFromWords f k half false [{ data := e.data, poison := e.poison || (fmtIsMx f && e.spoison) }] [e.scale % 256, e.scale / 256]
    next false [] 0 ([], false) (later 6 add t)
  else if mx6 then
    if odd then
      let r := sramRead t (base + 2)
      let t := later 6 (mrunAdd t.active aw m fun f k =>
        let v := aFromWords f k half true (carry ++ [r.1]) scales.1
        (v.1, v.2 || scales.2)) r.2
      next false [] 0 ([], false) t
    else
      let ad := take t sel
      let r := sramReadRun 2 ad.2 ad.1
      let sc := takeScales r.2 sel 4 first
      let t := later 6 (mrunAdd t.active aw m fun f k =>
        let v := aFromWords f k half false r.1 sc.1.1
        (v.1, v.2 || sc.1.2)) sc.2
      next true r.1 ad.1 sc.1 t
  else
    let ad := take t sel
    let r := sramRead ad.2 ad.1
    if fmtIsMx fa then
      let sc := takeScales r.2 sel (if fa == .mxE2m1 then 2 else 1) first
      let t := later 6 (mrunAdd t.active aw m fun f k =>
        let v := aFromWords f k half false [r.1] sc.1.1
        (v.1, v.2 || sc.1.2)) sc.2
      next false [] 0 ([], false) t
    else
      let t := later 6 (mrunAdd t.active aw m fun f k => aFromWords f k half false [r.1] []) r.2
      next false [] 0 ([], false) t

/-- R84: write the complete words of an MOUT buffer 5 ac later, through the AGD. -/
def moutFlush (agd : Nat) : Nat → Nat → Nat → Tile → (Nat × Nat) × Tile
  | 0, buf, nbits, t => ((buf, nbits), t)
  | n + 1, buf, nbits, t =>
    if nbits < 256 then ((buf, nbits), t)
    else
      let ad := take t agd
      moutFlush agd n (buf / 2 ^ 256) (nbits - 256) (later 5 (.sram ad.1 { data := BitVec.ofNat 256 buf }) ad.2)

/-- R84: one scale word of an MOUT: its codes from their first byte on, zeros above them (R34); the bytes that earlier
entries filled stay. -/
def moutScaleWord (agd : Nat) (codes : List Nat) (sfirst : Nat) (t : Tile) : Tile :=
  later 5 (.sramScale (scaleWord (agdAt t agd) sfirst) (sfirst % 32)
    (codes ++ List.replicate (32 - sfirst % 32 - codes.length) 0)) t

/-- R34, R84: words that the end of an MOUT still writes: the word under way, of MXFP6 also what is left of its group of 3. -/
def moutTail (fo : Fmt) (nbits : Nat) : Nat :=
  if nbits = 0 then 0 else if fo == .mxE3m2 || fo == .mxE2m3 then nbits / 64 else 1

/-- R34, R84: the end of an MOUT: the bits left over, filled up with zeros. -/
def moutEnd (agd buf : Nat) : Nat → Tile → Tile
  | 0, t => t
  | n + 1, t =>
    let ad := take t agd
    moutEnd agd (buf / 2 ^ 256) n (later 5 (.sram ad.1 { data := BitVec.ofNat 256 buf }) ad.2)

/-- R84: one ac of MOUT: one entry read, converted once and packed. -/
def moutStep (agd aod m left : Nat) (buf nbits : Nat) (scales : List Nat) (sfirst : Nat) (t : Tile) : Tile :=
  let aw := aodAt t aod
  let d := aodOf aw
  let xs := entryOf t m
  match d.fo with
  | none =>
    let ad := take t agd
    let t := later 5 (.sram ad.1 { data := BitVec.ofNat 256 (Config.looseOut aw m) }) ad.2
    if left ≤ 1 then t else later 1 (.mout agd aod (m + 1) (left - 1) buf nbits scales sfirst) t
  | some .acc128 =>
    let t := (readoutEvents d .acc128 xs).foldl (fun t e => tileEv e t) t
    let t := (exportWords d xs).zipIdx.foldl (fun t (w, i) =>
      let ad := take t agd
      later (5 + i / 4) (.sram ad.1 { data := w }) ad.2) t
    if left ≤ 1 then t else later 5 (.mout agd aod (m + 1) (left - 1) 0 0 [] 0) t
  | some fo =>
    let t := (readoutEvents d fo xs).foldl (fun t e => tileEv e t) t
    let b := readoutBits d fo xs
    let f := moutFlush agd 4 (buf + 2 ^ nbits * b.1) (nbits + b.2.1) t
    let t := f.2
    let k := walkAt t agd
    let sc := scales ++ b.2.2.toList
    let sfirst := if scales.isEmpty then k.sidx else sfirst
    let t := if b.2.2.isSome then setWalk t agd { k with sidx := k.sidx + 1 } else t
    let full := !sc.isEmpty && decide ((sfirst + sc.length) % 32 = 0)
    let t := if full then moutScaleWord agd sc sfirst t else t
    let sc := if full then [] else sc
    if left ≤ 1 then
      moutEnd agd f.1.1 (moutTail fo f.1.2) (if sc.isEmpty then t else moutScaleWord agd sc sfirst t)
    else later 1 (.mout agd aod (m + 1) (left - 1) f.1.1 f.1.2 sc sfirst) t

/-- R97: one tap of VPOOL: its word, and for an MX format its scale word, read for the tap (log entry 10). -/
def vpoolStep (vd : Nat) (d : W256) (k : Walk) (kind : Nat) (w : Bool) (lanes : V2048) (tap : Nat) (got : List (List Nat))
    (inside : Nat) (t : Tile) : Tile :=
  let v := winOf d
  let yi : Int := (k.oy * v.sy + tap / v.kw * v.dy : Int) - v.pt
  let xi : Int := (k.ox * v.sx + tap % v.kw * v.dx : Int) - v.pl
  let src := winSource v yi xi k.g
  let r := winFetch (readHeld d [src] t) d src
  let lane := widenWord v.fmt w r.1.data.toNat [r.1.scale % 256, r.1.scale / 256] (r.1.poison || (winScaled v && r.1.spoison))
  let inside := if 0 ≤ yi ∧ yi < v.h ∧ 0 ≤ xi ∧ xi < v.w then inside + 1 else inside
  let got := got ++ [lane]
  if tap + 1 < v.kh * v.kw then later 1 (.vpool vd d k kind w lanes (tap + 1) got inside) r.2
  else later 7 (.vreg vd (ofLanes w (poolLanes kind w got (v.kh * v.kw) inside)) lanes none) r.2

/-- R92: one group of WLD entries, each usable 1 ac later. -/
def wldStep (slot : Nat) (d : W256) (groups : List (List (Nat × WinSrc))) (t : Tile) : Tile :=
  match groups with
  | [] => t
  | g :: rest =>
    let t := g.foldl (fun t (j, s) =>
      let r := winFetch t d s
      later 1 (.win slot j r.1) r.2) t
    if rest.isEmpty then t else later 1 (.wld slot d rest) t

/-- Merge bits into a vector register. -/
def mergeBits (old val lanes : V2048) : V2048 := (old &&& ~~~lanes) ||| (val &&& lanes)

/-- Carry out a micro-operation in the present ac. -/
def microStep (t : Tile) : Micro → Tile
  | .vreg vd val lanes blocks =>
    { t with vregs := t.vregs.setIfInBounds vd (mergeBits (vregAt t vd) val lanes)
             vblocks := t.vblocks.setIfInBounds vd (blocks.getD 4) }
  | .mask i val bits => { t with masks := t.masks.setIfInBounds i ((maskAt t i &&& ~~~bits) ||| (val &&& bits)) }
  | .agd i val => setWalk { t with agds := t.agds.setIfInBounds i val } i (walkResetOf val)
  | .walkStep i kind => setWalk t i (winStep (agdAt t i) (walkAt t i) kind)
  | .walkReset i => setWalk t i (walkResetOf (agdAt t i))
  | .aods q val =>
    { t with aods := (List.range 4).foldl (fun a i => a.setIfInBounds (4 * q + i) (val.extractLsb' (64 * i) 64)) t.aods }
  | .sram wa w => sramWrite (portUse true wa t) wa w
  | .sramScale wa byte codes =>
    let old := sramPeek t wa
    let v := (codes.zipIdx).foldl (fun v (c, i) => if byte + i < 32 then putElem 8 (byte + i) c v else v) old.data.toNat
    sramWrite (portUse true wa t) wa { data := BitVec.ofNat 256 v }
  | .shadow i w => { t with shadow := cellsSet sWordZero t.shadow i w }
  | .accSet m vals => setEntry t m vals
  | .accAdd m ds => setEntry t m (List.zipWith accMerge (entryOf t m) ds)
  | .accChunk m cs => setEntry t m (List.zipWith Machine.accChunk (entryOf t m) cs)
  | .win slot j e => if slot < 15 then { t with window := cellsSet {} t.window (64 * slot + j) e } else t
  | .mload base next total => mloadStep base next total t
  | .mpre128 agd m left step got => mpre128Step agd m left step got t
  | .mrun win sel aod m left d half odd first carry base scales => mrunStep win sel aod m left d half odd first carry base scales t
  | .mout agd aod m left buf nbits scales sfirst => moutStep agd aod m left buf nbits scales sfirst t
  | .vpool vd d k kind w lanes tap got inside => vpoolStep vd d k kind w lanes tap got inside t
  | .wld slot d groups => wldStep slot d groups t

/-- The next ac: what is due lands. -/
def acLand (t : Tile) : Tile :=
  let ac := t.ac + 1
  let due := t.pend.filter (fun e => decide (e.1 ≤ ac))
  (due.filter (fun e => microLands e.2)).foldl (fun t e => microStep t e.2) { t with ac := ac, pend := t.pend.filter (fun e => decide (ac < e.1)) }
/-- The long operations that have a further ac then. -/
def acMore (t : Tile) : List Micro :=
  ((t.pend.filter (fun e => decide (e.1 ≤ t.ac + 1))).filter (fun e => !microLands e.2)).map (·.2)
/-- The next ac: what is due lands, then the further ac of long operations read (R73). -/
def acStep (t : Tile) : Tile := (acMore t).foldl microStep (acLand t)

/-- n further ac; once nothing is pending they only count. -/
def acSteps : Nat → Tile → Tile
  | 0, t => t
  | n + 1, t => if t.pend.isEmpty then { t with ac := t.ac + (n + 1) } else acSteps n (acStep t)

/-- After ENDT the operations already issued still complete (R79, R85). -/
def acDrain : Nat → Tile → Tile
  | 0, t => t
  | n + 1, t => if t.pend.isEmpty then t else acDrain n (acStep t)

/-- Ac any issued operation can still take to complete: the longest is an MPRE of 32 ACC128 entries or a WLD of 64
groups, with its latency. -/
def drainBound : Nat := 512

/-- R76: leaving the end bundle: loop back at no cost, or pop and look at the enclosing loop. -/
def loopEnd : List LoopLevel → Nat → List LoopLevel × Nat
  | [], pc => ([], pc + 1)
  | l :: t, pc =>
    if pc = l.stop then
      if 1 < l.remaining then ({ l with remaining := l.remaining - 1 } :: t, l.start) else loopEnd t pc
    else (l :: t, pc + 1)

/-- A tile's sequencer has bundles left to issue: it runs and the tile is not held (R75, R79, R122). -/
def tileIssues (t : Tile) : Bool := t.running && !t.held && !t.lineLost

/-- The pc and the loop stack after a bundle (R76). -/
def nextPc (t : Tile) : Tile :=
  let r := loopEnd t.loops t.pc
  { t with loops := r.1, pc := r.2 % 4096 }

/-- The CTL slot closes its bundle: the pc moves and the ac advances by 1 plus the empty ac. -/
def closeBundle (bubbles : Nat) (t : Tile) : Tile := acSteps (1 + bubbles) (nextPc t)

/-- R77: a taken branch. -/
def branchTo (target : Nat) (t : Tile) : Tile := { t with pc := target % 4096 }
def takeBranch (target : Nat) (t : Tile) : Tile := acSteps 2 (branchTo target t)

/-- R75: the first ac of a work window. -/
def workStart (s14 s15 : Nat) (t : Tile) : Tile :=
  { t with sregs := (t.sregs.setIfInBounds 14 (BitVec.ofNat 32 s14)).setIfInBounds 15 (BitVec.ofNat 32 s15)
           loops := [], pc := t.entry, running := !t.held, lineLost := false, ac := 0 }

/-- The items of Table 3-2 that a partition scrub clears when the tile changes tenant (R71). -/
def scrubUnits (t : Tile) : Tile :=
  { t with vregs := Vector.replicate 32 0, vblocks := Vector.replicate 32 4
           masks := (Vector.replicate 8 0).set 0 (BitVec.allOnes 128)
           acc := [], active := [], shadow := [], window := [], pend := [] }

end Sys2Proof.Machine
end

