-- ==== Sys2Proof/Machine/Fabric.lean ====
section
/-! DEFINITION. The fabric (spec/04_grid_fabric.md R98-R117): positions, paths and fc of flits, the ejection latch, the
events a tile command leaves for the module to count, and words that edge engines put on channels. -/

namespace Sys2Proof.Machine

/-- A tile's position; logical index x + 64*y (R98). -/
def tilePos (t : Nat) : Int × Int := ((t % 64 : Nat), (t / 64 : Nat))

/-- An edge port's position (R101). -/
def portPos (p : Nat) : Int × Int := if p < 64 then ((p : Int), -1) else (((p - 64 : Nat) : Int), 32)

/-- The end positions of a channel (R108). -/
def chanSrc (ch : Channel) : Int × Int := if ch.kind = 1 then portPos ch.src else tilePos ch.src
def chanDst (ch : Channel) : Int × Int := if ch.kind = 2 then portPos ch.dst else tilePos ch.dst

/-- Whether a move between two positions passes a seam lane or an attach stage (R100, R101). -/
def crosses (x y x' y' : Int) : Bool :=
  (x = 31 && x' = 32) || (x = 32 && x' = 31) || (y = 15 && y' = 16) || (y = 16 && y' = 15)
    || (y = -1) || (y' = -1) || (y = 32) || (y' = 32)

/-- R113: hops of a channel. -/
def chanHops (ch : Channel) : Nat :=
  ((chanDst ch).1 - (chanSrc ch).1).natAbs + ((chanDst ch).2 - (chanSrc ch).2).natAbs

/-- R113: seam lanes and attach stages on a channel's path. -/
def chanStages (ch : Channel) : Nat :=
  let s := chanSrc ch
  let d := chanDst ch
  (if (s.1 ≤ 31) != (d.1 ≤ 31) then 1 else 0) + (if (s.2 ≤ 15) != (d.2 ≤ 15) then 1 else 0)
    + (if ch.kind = 1 then 1 else 0) + (if ch.kind = 2 then 1 else 0)

/-- R113: fc at which word i of the send at ac t enters the first link. -/
def slotFc (ch : Channel) (t i : Nat) : Nat := 4 * t + 4 + ch.ph + i

/-- R113: fc at which that word is ejected. -/
def ejectFc (ch : Channel) (t i : Nat) : Nat := slotFc ch t i + chanHops ch + 2 * chanStages ch

/-- R114: the least and the largest DLY of a channel. -/
def dlyMin (ch : Channel) : Nat := cdiv (ch.ph + ch.w + chanHops ch + 2 * chanStages ch + 4) 4
def dlyMax (ch : Channel) : Nat := (ch.ph + chanHops ch + 2 * chanStages ch + 12) / 4

/-- R109: the ac of send j. -/
def sendAc (ch : Channel) (j : Nat) : Nat := ch.o + j * ch.p

/-- R104, R108: the flits of one send. The sideband comes from the descriptor. -/
def sendFlits (ch : Channel) (t : Nat) (ws : List (SWord × Bool)) : List Flit :=
  (ws.zipIdx).map fun (w, i) =>
    { rt := ch.rt, ek := decide (ch.kind = 2), dest := ch.dst, p := w.1.poison, i := w.2, data := w.1.data
      inj := if ch.inj then some ch.iagd else none, x := (chanSrc ch).1, y := (chanSrc ch).2, fc := slotFc ch t i }

/-- R104, Table 4-2: the sideband of a flit. -/
def sideOf (f : Flit) : BitVec 16 :=
  BitVec.ofNat 16 ((if f.mg then 2 ^ 15 else 0) + (if f.rt then 2 ^ 14 else 0) + (if f.ek then 2 ^ 13 else 0) + f.dest % 2048 * 4
    + (if f.p then 2 else 0) + (if f.i then 1 else 0))
/-- The flit with another sideband. -/
def withSide (f : Flit) (s : BitVec 16) : Flit :=
  if s = sideOf f then f
  else { f with mg := s.getLsbD 15, rt := s.getLsbD 14, ek := s.getLsbD 13, dest := fld s.toNat 12 2, p := s.getLsbD 1, i := s.getLsbD 0 }
/-- R104, Table 4-2: the 312 bits of a flit: sideband, SC, CHK and DATA, with the errors it carries. -/
def flitBits (f : Flit) : BitVec 312 :=
  let word : BitVec 288 := (Config.burstCheck f.data ++ f.data) ^^^ f.err
  sideOf f ++ Config.sideCheck (sideOf f) ++ word

/-- Wrong bits of a sideband and its check. -/
def wrongBits (e : BitVec 24) : Nat := ((List.range 24).filter (fun i => e.getLsbD i)).length
/-- R104, R105: what the sideband check makes of wrong bits (sideband at [23:8], SC at [7:0]): one is corrected, two are detected; more
may be corrected wrongly, go undetected or be detected (log entry 21). -/
def sideDecode (s : BitVec 16) (e : BitVec 24) : CodeResult × BitVec 16 :=
  match wrongBits e with
  | 0 => (.clean, s)
  | 1 => (.corrected, s)
  | 2 => (.uncorrectable, s)
  | _ => match Config.sideOpen e % 3 with
    | 0 => (.clean, s ^^^ e.extractLsb' 8 16)
    | 1 => (.corrected, s ^^^ BitVec.ofNat 16 (Config.sideOpen e / 3))
    | _ => (.uncorrectable, s)

/-- The channels of the loaded plan. -/
def channels (c : Chip) : List Channel := match c.plan.loaded with | some p => planChannels p | none => []

/-- The channel a tile sends on under a handle, and the one it receives on (R108). -/
def sendChannel (c : Chip) (t h : Nat) : Option Channel :=
  (channels c).find? (fun ch => (ch.kind = 0 || ch.kind = 2) && ch.src == t && ch.sh == h)
def recvChannel (c : Chip) (t h : Nat) : Option Channel :=
  (channels c).find? (fun ch => (ch.kind = 0 || ch.kind = 1) && ch.dst == t && ch.dh == h && !ch.inj)

/-- Put flits into flight. -/
def addFlits (fs : List Flit) (c : Chip) : Chip := { c with grid := { c.grid with flits := c.grid.flits ++ fs } }

/-- The place of a tile event in a dictionary place word: [30:25] x, [24:20] y (2A30.05). -/
def placeWord (instr : Bool) (t wa : Nat) : Nat :=
  (if instr then 2 ^ 31 else 0) + (t % 64) * 2 ^ 25 + (t / 64) * 2 ^ 20 + wa

/-- R42: a counted high escape. source 0 is a tile, 1 a Campion engine; the first of each tick writes a notice. -/
def countHighEscape (place : Nat) (c : Chip) : Chip :=
  let firstOfTick := objGet c 0x2A20 0x05 0 != c.tk.tick
  let c := objSet 0x2A20 0x05 0 c.tk.tick (objSet 0x2A20 0x04 0 place (objBump 0x2A20 0x01 0 1 c))
  let c := tracePoint 35 0 place c
  if firstOfTick then logRec 1 srcGrid .highEscape [place] c else c

/-- What the module counts, records or sends for one event of tile t (R42, R56, R64, R66, R68, R69, R115, R121, R439). -/
def tileEvent (t : Nat) (c : Chip) : TileEv → Chip
  | .corrected _ => wearRead t (objBump 0x2A30 0x01 0 1 (objBumpSat 0x2A32 0x01 t 1 c))
  | .poisoned wa =>
    let c := objBumpSat 0x2A32 0x02 t 1 (objBump 0x2A30 0x02 0 1 c)
    let c := objSet 0x2A30 0x06 0 c.tk.tick (objSet 0x2A30 0x05 0 (placeWord false t wa) c)
    let c := tracePoint 36 0 (placeWord false t wa) c
    let tl := tileAt c t
    if tl.logTick = some c.tk.tick then c
    else logRec 1 srcGrid .poisonedDelivery [t, wa] (setTile t { tl with logTick := some c.tk.tick } c)
  | .badWord wa =>
    let c := objBumpSat 0x2921 0x02 (physIndex c t) 1 c
    let tl := tileAt c t
    if tl.spareWords.contains wa then c
    else
      let keep := tl.badWords.filter (fun e => e.1 != wa && decide (c.tk.tick ≤ e.2 + 1024))
      let sus := if tl.suspects.contains wa then tl.suspects else tl.suspects ++ [wa]
      setTile t { tl with badWords := keep ++ [(wa, c.tk.tick)], suspects := sus } c
  | .queued wa =>
    let tl := tileAt c t
    let twice := match cellsFind tl.wbTicks wa with | some k => decide (c.tk.tick ≤ k + 1024) | none => false
    let sus := if twice && !tl.suspects.contains wa && !tl.spareWords.contains wa then tl.suspects ++ [wa] else tl.suspects
    setTile t { tl with wbTicks := cellsPut tl.wbTicks wa c.tk.tick, suspects := sus } c
  | .wbDrop => objBump 0x2A30 0x04 0 1 c
  | .port _ _ => c
  | .highEscape col => countHighEscape ((t % 64) * 2 ^ 10 + (t / 64) * 2 ^ 5 + col) c
  | .lowEscape => objBump 0x2A20 0x02 0 1 c
  | .nonFinite => objBump 0x2A20 0x03 0 1 c
  | .missingWord => objBump 0x2A34 0x04 0 1 c
  | .lineLost line =>
    let c := objBumpSat 0x2A32 0x03 t 1 (objBump 0x2A30 0x03 0 1 c)
    let c := objSet 0x2A30 0x06 0 c.tk.tick (objSet 0x2A30 0x05 0 (placeWord true t line) c)
    let tl := tileAt c t
    let twice := match cellsGet none tl.lineErr line with | some k => decide (c.tk.tick ≤ k + 1024) | none => false
    let c := if c.tk.mode = .running then breakUpd 1 c else c
    setTile t { tl with lineErr := cellsSet none tl.lineErr line (some c.tk.tick), lineTwice := tl.lineTwice || twice } c
  | .send h n words =>
    match sendChannel c t h with
    | none => c
    | some ch => addFlits (sendFlits ch (tileAt c t).ac ((words.take n).map (fun w => (w, false)))) c

/-- Hand a tile's events to the module. -/
def flushTile (t : Nat) (c : Chip) : Chip :=
  let tl := tileAt c t
  tl.ev.foldl (tileEvent t) (setTile t { tl with ev := [] } c)

/-- An operation of tile t that its running sequencer issues, in the work window (R75, R122, R138). -/
def issueTile (t : Nat) (f : Tile → Tile) (c : Chip) : Chip :=
  if decide (c.tk.phase = .work) && tileIssues (tileAt c t) then flushTile t (setTile t (f (tileAt c t)) c) else c

/-- An edge engine sends W words on a channel at its send ac; a missing word list is an invalid zero send (R117). -/
def edgeSend (ch : Channel) (t : Nat) (ws : List (SWord × Bool)) (c : Chip) : Chip :=
  addFlits (sendFlits ch t ((ws ++ List.replicate (ch.w - ws.length) (sWordZero, true)).take ch.w)) c

/-- An edge port's slot is served, or left empty on purpose (R117, R200). -/
def markSlot (port fc : Nat) (c : Chip) : Chip := { c with grid := { c.grid with used := c.grid.used ++ [(port, fc)] } }
/-- R117: an edge engine that has no word ready in the due slots of a send: a flit with I = 1 in each that is not served. -/
def edgeInvalid (ch : Channel) (t : Nat) (c : Chip) : Chip :=
  (sendFlits ch t (List.replicate ch.w (sWordZero, true))).foldl (fun c f =>
    if c.grid.used.contains (ch.src, f.fc) then c else markSlot ch.src f.fc (addFlits [f] c)) c

/-- The active channels from an edge port at the armed position (R109, R117). -/
def edgeChannels (c : Chip) (port : Nat) : List Channel :=
  match c.plan.armed with
  | none => []
  | some pos => (channels c).filter (fun ch => ch.kind = 1 && ch.src == port && channelActive c.plan.active pos ch)

/-! Flit moves. -/

/-- Where a flit is bound (R101, R104). -/
def flitDest (f : Flit) : Int × Int := if f.ek then portPos f.dest else tilePos f.dest

/-- R110: the next position: XY takes the horizontal leg first, YX the vertical. Directions 0 east, 1 west, 2 south, 3 north. -/
def flitNext (f : Flit) : Option (Int × Int × Nat) :=
  let d := flitDest f
  let horiz : Option (Int × Int × Nat) :=
    if f.x < d.1 then some (f.x + 1, f.y, 0) else if d.1 < f.x then some (f.x - 1, f.y, 1) else none
  let vert : Option (Int × Int × Nat) :=
    if f.y < d.2 then some (f.x, f.y + 1, 2) else if d.2 < f.y then some (f.x, f.y - 1, 3) else none
  if f.rt then (match vert with | some v => some v | none => horiz)
  else (match horiz with | some v => some v | none => vert)

/-- R105: a data error found uncorrectable in transit. -/
def poisonFlit (f : Flit) (c : Chip) : Chip :=
  let place := (if f.ek then 2 ^ 31 else 0) + f.dest * 2 ^ 20
  objSet 0x2A34 0x08 0 c.tk.tick (objSet 0x2A34 0x07 0 place (objBump 0x2A34 0x02 0 1 c))

/-- R105: the data check of a stage or an ejection: what it finds, the flit after it, what is counted. -/
def checkData (f : Flit) (c : Chip) : CodeResult × Flit × Chip :=
  let r := burstDecode f.data f.err
  let f : Flit := { f with data := r.2, err := 0 }
  match r.1 with
  | .clean => (.clean, f, c)
  | .corrected => (.corrected, f, objBump 0x2A34 0x01 0 1 c)
  | .uncorrectable => (.uncorrectable, { f with p := true }, poisonFlit f c)

/-- R121: a sideband error on a flit that the router at a tile's position sent, within the last 64 tk. -/
def sidebandEvent (x y : Int) (lost : Bool) (c : Chip) : Chip :=
  if x < 0 || y < 0 || 63 < x || 31 < y then c
  else
    let t := x.toNat + 64 * y.toNat
    let tl := tileAt c t
    let keep := tl.sbErrs.filter (fun k => decide (c.tk.tick ≤ k + 64))
    setTile t (if lost then { tl with sbLost := true } else { tl with sbErrs := keep ++ [c.tk.tick] }) c

/-- Remove flit i from flight. -/
def dropFlit (i : Nat) (c : Chip) : Chip := { c with grid := { c.grid with flits := c.grid.flits.eraseIdx i } }
def putFlit (i : Nat) (f : Flit) (c : Chip) : Chip := { c with grid := { c.grid with flits := c.grid.flits.set i f } }

/-- R447 class 0x07: errors decoded at a stage; 8 corrected or 1 uncorrectable within 64 tk raise it until power-up. -/
def stageError (r : CodeResult) (x y : Int) (c : Chip) : Chip :=
  match r with
  | .clean => c
  | .uncorrectable => setClass 0x07 true c
  | .corrected =>
    let key := ((x + 1).toNat * 64 + (y + 1).toNat)
    let ticks := (cellsGet [] c.grid.stageErrs key).filter (fun k => decide (c.tk.tick ≤ k + 64)) ++ [c.tk.tick]
    let c := { c with grid := { c.grid with stageErrs := cellsSet [] c.grid.stageErrs key ticks } }
    if 8 ≤ ticks.length then setClass 0x07 true c else c

/-- R119: a router input has a credit for a management flit: its buffer of 4 flits is not full. A port's sink takes flits at once. -/
def mgCredit (x y : Int) (dir : Nat) (c : Chip) : Bool :=
  y = 32 || decide (((c.grid.flits.filter (fun g => g.mg && g.x = x && g.y = y &&
    (match g.last with | some l => l.2.2.1 == dir | none => false))).length) < 4)

/-- R118, R119: the fc in which a management flit enters a link: the first from its own on in which no other management flit
enters the link; in the work window only the reserved ones count. -/
def mgSlot (work : Bool) (x y : Int) (dir : Nat) (c : Chip) : Nat → Nat → Nat
  | 0, fc => fc
  | n + 1, fc =>
    let at_ := if work then fc + (35 - fc % 32) % 32 else fc
    if c.grid.flits.any (fun g => g.mg && g.last = some (x, y, dir, at_)) then mgSlot work x y dir c n (at_ + 1) else at_

/-- R118: at the first fc of a window the fc of management flits count from 0 again. -/
def mgRestart (c : Chip) : Chip :=
  let again (f : Flit) : Flit := if f.mg then { f with fc := 0, last := f.last.map (fun l => (l.1, l.2.1, l.2.2.1, 0)) } else f
  { c with grid := { c.grid with flits := c.grid.flits.map again } }

/-- R106: the second of two data-plane flits for one output in one fc: the slot carries P = 1 and zero data. -/
def collide (x y : Int) (c : Chip) : Chip :=
  let c := if c.tk.mode = .running then breakUpd 1 c else c
  holdClass 0x08 60000000000 (logRec 3 srcFabric .collision [x.toNat, y.toNat] (objBump 0x2A34 0x05 0 1 c))

/-- R105, R106, R113, R118, R119: one hop of flit i, with the errors its sideband and its data meet on the way there. -/
def hopFlit (i : Nat) (side : BitVec 24) (data : Upset) (c : Chip) : Chip :=
  match c.grid.flits[i]? with
  | none => c
  | some f0 =>
    let sd := sideDecode (sideOf f0) side
    match sd.1 with
    | .uncorrectable => sidebandEvent f0.x f0.y true (dropFlit i (objBump 0x2A34 0x03 0 1 c))
    | k =>
      let c := if k = .corrected then sidebandEvent f0.x f0.y false c else c
      let f : Flit := { withSide f0 sd.2 with err := f0.err ^^^ data }
      match flitNext f with
      | none => putFlit i f c
      | some (x', y', dir) =>
        let stage := crosses f.x f.y x' y'
        let r := if stage then checkData f c else (.clean, f, c)
        let at_ := if f.mg then mgSlot (decide (c.tk.phase = .work)) f.x f.y dir c (c.grid.flits.length + 1) f.fc else f.fc
        let link := (f.x, f.y, dir, at_)
        if f.mg && !mgCredit x' y' dir c then putFlit i { f0 with err := f.err } c
        else if !f.mg && c.grid.flits.any (fun g => !g.mg && g.last = some link) then
          let c := if stage then stageError r.1 x' y' r.2.2 else r.2.2
          let flits := c.grid.flits.map fun g => if !g.mg && g.last = some link then { g with p := true, data := 0, err := 0 } else g
          collide x' y' (dropFlit i { c with grid := { c.grid with flits := flits } })
        else
          let c := if stage then stageError r.1 x' y' r.2.2 else r.2.2
          putFlit i { r.2.1 with x := x', y := y', fc := at_ + 1 + (if stage then 2 else 0), last := some link } c

/-- Whether a flit has reached its destination. -/
def flitArrived (f : Flit) : Bool := (f.x, f.y) = flitDest f

/-- R106: an earlier ejection into the tile in the same fc. -/
def ejectedAt (c : Chip) (t fc : Nat) : Option (Option Nat) := (c.grid.ejected.find? (fun e => e.1 == t && e.2.1 == fc)).map (·.2.2)
def noteEjected (t fc : Nat) (wa : Option Nat) (c : Chip) : Chip :=
  { c with grid := { c.grid with ejected := c.grid.ejected ++ [(t, fc, wa)] } }
/-- R106: two flits for the ejection output of a tile in one fc: what the first one left becomes poisoned zeros. -/
def ejectClash (t fc : Nat) (wa : Option Nat) (c : Chip) : Chip :=
  let tl := tileAt c t
  let c := match wa with
    | some a => setTile t (sramWrite tl a { data := 0, poison := true }) c
    | none => setTile t { tl with latch := tl.latch.setIfInBounds (fc % 8) { valid := true, data := 0, poison := true, fc := fc } } c
  collide (tilePos t).1 (tilePos t).2 c

/-- R105, R107: a flit taken out of the fabric at its destination. -/
def takeFlit (i : Nat) (f : Flit) (data : Upset) (c : Chip) : Flit × Chip :=
  let r := checkData { f with err := f.err ^^^ data } (dropFlit i c)
  (r.2.1, if r.2.1.i then objBump 0x2A34 0x06 0 1 r.2.2 else r.2.2)

/-- R107, R114: ejection into a tile's latch or an edge port. -/
def ejectFlit (i : Nat) (data : Upset) (c : Chip) : Chip :=
  match c.grid.flits[i]? with
  | none => c
  | some f =>
    if !flitArrived f || f.mg || f.inj.isSome then c
    else
      let r := takeFlit i f data c
      let f := r.1
      let c := r.2
      if f.ek then
        { c with grid := { c.grid with edge := c.grid.edge ++
          [{ port := f.dest, fc := f.fc, data := f.data, poison := f.p, invalid := f.i }] } }
      else match ejectedAt c f.dest f.fc with
        | some wa => ejectClash f.dest f.fc wa c
        | none =>
          let tl := tileAt c f.dest
          let pos : LatchPos := { valid := true, data := f.data, poison := f.p || f.i, fc := f.fc }
          noteEjected f.dest f.fc none (setTile f.dest { tl with latch := tl.latch.setIfInBounds (f.fc % 8) pos } c)

/-- R116: the write of an injected word, in ac ⌊e / 4⌋ + 1: at once where the tile has come that far or does not run. -/
def injectWrite (fc wa : Nat) (w : SWord) (t : Tile) : Tile :=
  if tileIssues t && decide (t.ac < fc / 4 + 1) then { t with pend := t.pend ++ [(fc / 4 + 1, .sram wa w)] } else sramWrite t wa w

/-- R200: slots left empty before fc toward an injection AGD advance it as if it had written. -/
def passSkips (t agd fc : Nat) (c : Chip) : Chip :=
  let due (x : Nat × Nat × Nat) : Bool := x.1 == t && x.2.1 == agd && decide (x.2.2 < fc)
  let n := (c.grid.skips.filter due).length
  let c := { c with grid := { c.grid with skips := c.grid.skips.filter (fun x => !due x) } }
  (List.range n).foldl (fun c _ => setTile t (take (tileAt c t) agd).2 c) c
/-- R116: an ejected word of an injection channel written through the tile's AGD. -/
def injectFlit (i : Nat) (data : Upset) (c : Chip) : Chip :=
  match c.grid.flits[i]? with
  | none => c
  | some f =>
    match f.inj with
    | none => c
    | some agd =>
      if !flitArrived f || f.ek then c
      else
        let r := takeFlit i f data c
        let f := r.1
        let c := r.2
        match ejectedAt c f.dest f.fc with
        | some wa => ejectClash f.dest f.fc wa c
        | none =>
          let c := passSkips f.dest agd f.fc c
          let ad := take (tileAt c f.dest) agd
          noteEjected f.dest f.fc (some ad.1)
            (setTile f.dest (injectWrite f.fc ad.1 { data := f.data, poison := f.p || f.i } ad.2) c)

/-- R116: at the start of an active tick the walk of every injection AGD is reset. -/
def resetInjection (c : Chip) : Chip :=
  match c.plan.armed with
  | none => c
  | some pos =>
    ((channels c).filter (fun ch => ch.inj && channelActive c.plan.active pos ch)).foldl
      (fun c ch => let tl := tileAt c ch.dst; setTile ch.dst (setWalk tl ch.iagd (walkResetOf (agdAt tl ch.iagd))) c) c

end Sys2Proof.Machine
end

