-- ==== Sys2Proof/Machine/Hbm.lean ====
section
/-! DEFINITION. The HBM stack (spec/08_memory.md R257-R273): the address map, reads with the line code's outcomes, the
poison map, revoked ranges, patrol and row sparing, and the plan's command stream (spec/05_ticks_and_plans.md
R168-R171). -/

namespace Sys2Proof.Machine

/-! Address map (R258-R260). -/

/-- R259: plan-space bytes of one pseudo-channel. -/
def perPc : Nat := 45024 * 16384

/-- VPC_MASK in force (2B00.03). -/
def vpcMask (c : Chip) : Nat := objGet c 0x2B00 0x03 0
/-- R259: the non-video and the video pseudo-channels, ascending. -/
def pcSet (mask : Nat) (video : Bool) : List Nat := (List.range 32).filter (fun p => bitOf mask p == video)

/-- Number of a line in the stack: pseudo-channel, SID, bank, row, line. -/
def rowKey (pc sid bank row : Nat) : Nat := ((pc * 3 + sid) * 16 + bank) * 16384 + row
def lineKey (pc sid bank row line : Nat) : Nat := rowKey pc sid bank row * 16 + line
def keyRow (k : Nat) : Nat := k / 16
def keyPc (k : Nat) : Nat := k / (3 * 16 * 16384 * 16)
def rowPc (r : Nat) : Nat := r / (3 * 16 * 16384)
def rowNo (r : Nat) : Nat := r % 16384
def rowBank (r : Nat) : Nat := r / 16384 % 16
def rowSid (r : Nat) : Nat := r / (16384 * 16) % 3

/-- R259: the line a plan-space byte address maps to. -/
def planLineKey (mask a : Nat) : Option Nat :=
  let nv := pcSet mask false
  let inNv := decide (a < nv.length * perPc)
  let set := if inNv then nv else pcSet mask true
  let a2 := if inNv then a else a - nv.length * perPc
  let n := set.length
  if n = 0 || decide (n * perPc ≤ a2) then none
  else
    let col := a2 / 16384
    let u := col / n
    some (lineKey (set.getD (col % n) 0) (u / 16368) (a2 / 1024 % 16) (u % 16368) (a2 / 64 % 16))

/-- R259 inverted: the plan-space byte address of a line's first byte, if the line is plan space (R258). -/
def keyPlanAddr (mask k : Nat) : Option Nat :=
  let row := keyRow k
  let sid := rowSid row
  let r := rowNo row
  if (if sid = 2 then 12288 ≤ r else 16368 ≤ r) then none
  else
    let video := bitOf mask (rowPc row)
    let set := pcSet mask video
    match set.findIdx? (· == rowPc row) with
    | none => none
    | some i =>
      let u := sid * 16368 + r
      let a2 := ((u * set.length + i) * 16 + rowBank row) * 1024 + k % 16 * 64
      some (if video then (pcSet mask false).length * perPc + a2 else a2)

/-- The plan line number (byte address over 64) of a line. -/
def keyPlanLine (c : Chip) (k : Nat) : Option Nat := (keyPlanAddr (vpcMask c) k).map (· / 64)

/-! Lines. -/

/-- R270: the row that serves accesses of a row. -/
def servedRow (c : Chip) (row : Nat) : Nat :=
  match c.hbm.spares.find? (fun p => p.1 == row) with | some p => p.2 | none => row
/-- The row whose accesses a row serves: itself, or of a spare row the row it stands in for. -/
def rowServed (c : Chip) (row : Nat) : Nat :=
  match c.hbm.spares.find? (fun p => p.2 == row) with | some p => p.1 | none => row
def servedKey (c : Chip) (k : Nat) : Nat := servedRow c (keyRow k) * 16 + k % 16

def hbmPeek (c : Chip) (k : Nat) : Line := cellsGet zeroLine c.hbm.lines (servedKey c k)
def hbmPut (k : Nat) (l : Line) (c : Chip) : Chip :=
  { c with hbm := { c.hbm with lines := cellsSet zeroLine c.hbm.lines (servedKey c k) l } }

/-- A value in intervals. -/
def inRanges (l : List (Nat × Nat)) (x : Nat) : Bool := l.any (fun r => decide (r.1 ≤ x) && decide (x < r.2))
/-- Intervals without [lo, hi). -/
def cutRange (lo hi : Nat) (l : List (Nat × Nat)) : List (Nat × Nat) :=
  l.flatMap fun r =>
    if r.2 ≤ lo || hi ≤ r.1 then [r]
    else (if r.1 < lo then [(r.1, lo)] else []) ++ (if hi < r.2 then [(hi, r.2)] else [])
/-- Lines covered by disjoint intervals. -/
def rangeSize (l : List (Nat × Nat)) : Nat := (l.map (fun r => r.2 - r.1)).sum

/-- Keep 2B00.05 (bytes of lines poisoned) and 2B00.06 with the maps. -/
def hbmMaps (c : Chip) : Chip :=
  objSet 0x2B00 0x05 0 (64 * rangeSize c.hbm.poison) (objSet 0x2B00 0x06 0 c.hbm.revoked.length c)

/-- R268: poison the lines [lo, hi). -/
def poisonLines (lo hi : Nat) (c : Chip) : Chip :=
  hbmMaps { c with hbm := { c.hbm with poison := cutRange lo hi c.hbm.poison ++ (if lo < hi then [(lo, hi)] else []) } }
/-- R268: the first write of a line clears its bit. -/
def unpoison (lo hi : Nat) (c : Chip) : Chip :=
  hbmMaps { c with hbm := { c.hbm with poison := cutRange lo hi c.hbm.poison } }

/-- The plan lines of an HBM region. -/
def regionLines (r : Region) : Nat × Nat := (r.base / 64, cdiv (r.base + r.length) 64)

/-- R268: a read of a line that is poisoned in the map or revoked. -/
def lineMasked (c : Chip) (k : Nat) : Bool :=
  match keyPlanLine c k with
  | none => false
  | some n => inRanges c.hbm.poison n || c.hbm.revoked.any (fun r => decide (r.lo ≤ n) && decide (n < r.hi))

/-- Spares of a row's bank (R258: rows 16,368-16,383). -/
def bankSpares (row : Nat) : List Nat := (List.range 16).map (fun i => row / 16384 * 16384 + 16368 + i)
def spareUsed (c : Chip) (s : Nat) : Bool := c.hbm.spares.any (fun p => p.2 == s) || c.hbm.copied.any (fun p => p.2 == s)
/-- R270: the lowest free spare row of a row's bank. -/
def freeSpare (c : Chip) (row : Nat) : Option Nat := (bankSpares row).find? (fun s => !spareUsed c s)

/-- 2B30 and fault class 0x0B from the maps (R270, R271, R447). -/
def hbmRowsShow (c : Chip) : Chip :=
  let rows := c.hbm.spares.map (·.1)
  let banks := ((rows ++ c.hbm.suspects).map (· / 16384)).dedup
  let full := (banks.filter fun b => (freeSpare c (b * 16384)).isNone).length
  let wait := (c.hbm.suspects.filter fun r => (freeSpare c r).isNone).length
  let c := objSet 0x2B30 0x01 0 c.hbm.spares.length (objSet 0x2B30 0x02 0 full (objSet 0x2B30 0x05 0 wait c))
  let c := objSet 0x2B30 0x03 0 c.hbm.repaired.length (objSet 0x2B30 0x06 0 c.hbm.unrepairable.length c)
  setClass 0x0B (decide (0 < full) || decide (0 < c.hbm.unrepairable.length)) c

/-- R270: a row becomes suspect. -/
def suspectRow (row : Nat) (c : Chip) : Chip :=
  if c.hbm.suspects.contains row || c.hbm.copied.any (fun p => p.1 == row) then c
  else hbmRowsShow { c with hbm := { c.hbm with suspects := c.hbm.suspects ++ [row] } }

/-- 2B20.05: the place of an uncorrectable line. -/
def hbmPlace (k : Nat) : Nat :=
  let r := keyRow k
  rowPc r * 2 ^ 27 + rowSid r * 2 ^ 25 + rowBank r * 2 ^ 21 + rowNo r * 2 ^ 7 + k % 16 * 2 ^ 3

/-- R266, R267: read a line with the symbol errors that strike it; what the controller counts. -/
def readLine (k : Nat) (errs : List (Nat × Byte)) (c : Chip) : LineClass × Line × Chip :=
  if lineMasked c k then (.poisoned, poisonLine, objBump 0x2B20 0x03 0 1 c)
  else
    let c := if errs.isEmpty then c else hbmPut k (strikeLine (hbmPeek c k) errs) c
    match classLine (hbmPeek c k) with
    | (.clean, l) => (.clean, l, c)
    | (.corrected, l) => (.corrected, l, objBump 0x2B20 0x01 0 1 c)
    | (.poisoned, l) => (.poisoned, l, objBump 0x2B20 0x03 0 1 c)
    | (.uncorrectable, l) =>
      let c := objSet 0x2B20 0x05 0 (hbmPlace k) (objSet 0x2B20 0x06 0 c.tk.tick (objBump 0x2B20 0x02 0 1 c))
      (.uncorrectable, l, suspectRow (keyRow k) c)

/-- R267: a corrected line joins its pseudo-channel's write-back queue of 256 entries, or is dropped and counted. -/
def queueLine (k : Nat) (c : Chip) : Chip :=
  let q := cellsGet [] c.hbm.wbQueue (keyPc k)
  if q.length < 256 then { c with hbm := { c.hbm with wbQueue := cellsSet [] c.hbm.wbQueue (keyPc k) (q ++ [k]) } }
  else objBump 0x2B20 0x04 0 1 c

/-- A data read: class, line, and the write-back queueing of R267. -/
def dataRead (k : Nat) (errs : List (Nat × Byte)) (c : Chip) : LineClass × Line × Chip :=
  let r := readLine k errs c
  (r.1, r.2.1, if r.1 = .corrected then queueLine k r.2.2 else r.2.2)

/-- Write a line of plan space: its poison bit clears (R268). -/
def writeLine (k : Nat) (l : Line) (c : Chip) : Chip :=
  let c := hbmPut k l c
  match keyPlanLine c k with
  | none => c
  | some n => if inRanges c.hbm.poison n then unpoison n (n + 1) c else c

/-- Write bytes of data into consecutive plan lines from line n on; a short last line is filled with zeros. -/
def writePlanData : Nat → Nat → List Byte → Chip → Chip
  | 0, _, _, c => c
  | fuel + 1, n, d, c =>
    if d.isEmpty then c
    else
      let c := match planLineKey (vpcMask c) (64 * n) with | none => c | some k => writeLine k (lineBytes (bytesAt d 0 64)) c
      writePlanData fuel (n + 1) (d.drop 64) c

/-- Zero the plan lines [lo, hi): stored lines only, the rest are zero lines already (R338). -/
def zeroLines (lo hi : Nat) (c : Chip) : Chip :=
  let hit (k : Nat) : Bool := match keyPlanLine c k with | some n => decide (lo ≤ n) && decide (n < hi) | none => false
  let served (k : Nat) : Nat := rowServed c (keyRow k) * 16 + k % 16
  { c with hbm := { c.hbm with lines := cellsClear (fun k => hit (served k)) c.hbm.lines } }

/-! Staging (R258, R259, R274-R276). -/

/-- Lines of the staging area: rows 12,288 to 14,063 of SID 2 in every pseudo-channel. -/
def stagingLines : Nat := 1776 * 32 * 16 * 16
/-- R259: line n of the staging area: the rule of plan space with all 32 pseudo-channels, rows counted from 12,288 of SID 2. -/
def stagedKey (n : Nat) : Nat := lineKey (n / 256 % 32) 2 (n / 16 % 16) (12288 + n / 8192) (n % 16)
/-- The line of the staging area that a line of the stack is. -/
def keyStaged (k : Nat) : Option Nat :=
  let row := keyRow k
  if rowSid row = 2 && decide (12288 ≤ rowNo row) && decide (rowNo row < 14064) then
    some ((((rowNo row - 12288) * 32 + rowPc row) * 16 + rowBank row) * 16 + k % 16)
  else none
/-- The length of unit u. -/
def unitLen (h : Handle) (u : Nat) : Nat := min 1024 (h.size - 1024 * u)
/-- Line i of a handle's area. -/
def areaLine : List (Nat × Nat) → Nat → Nat
  | [], _ => 0
  | r :: rest, i => if i < r.2 then r.1 + i else areaLine rest (i - r.2)
/-- The lines of unit u of a handle. -/
def unitLines (h : Handle) (u : Nat) : List Nat := (List.range (cdiv (unitLen h u) 64)).map (fun i => areaLine h.area (16 * u + i))
/-- A unit put into staging. -/
def stageUnit (h : Handle) (u : Nat) (d : List Byte) (c : Chip) : Chip :=
  ((unitLines h u).zipIdx).foldl (fun c l => hbmPut (stagedKey l.1) (lineBytes (bytesAt d (64 * l.2) 64)) c) c
/-- The bytes of a staged line as the line code delivers them; of a line beyond the code they are open (log entry 109). -/
def stagedBytes (c : Chip) (n : Nat) : List Byte :=
  let k := stagedKey n
  match classLine (hbmPeek c k) with
  | (.clean, l) | (.corrected, l) => let w := lineWords l; bytesLE 32 w.1.toNat ++ bytesLE 32 w.2.toNat
  | _ => bytesLE 64 (Config.stagedLine k (hbmPeek c k).toNat).toNat
/-- A unit: from the intake buffer while it waits there, else from staging. -/
def unitBytes (c : Chip) (n : Nat) (h : Handle) (u : Nat) : List Byte :=
  match c.intake.buffer.find? (fun x => x.1 == n && x.2.1 == u) with
  | some x => x.2.2
  | none => ((unitLines h u).flatMap (stagedBytes c)).take (unitLen h u)
/-- The image of handle number n. -/
def imageOf (c : Chip) (n : Nat) (h : Handle) : List Byte := (List.range (unitCount h)).flatMap (unitBytes c n h)
/-- What reading a staged image does to the controller: corrected lines are counted and queued, uncorrectable ones counted and placed
(R267). -/
def readImage (h : Handle) (c : Chip) : Chip :=
  (List.range (unitCount h)).foldl (fun c u => (unitLines h u).foldl (fun c n => (dataRead (stagedKey n) [] c).2.2) c) c
/-- Zero staging lines [lo, hi). -/
def zeroStaged (lo hi : Nat) (c : Chip) : Chip :=
  let hit (k : Nat) : Bool := match keyStaged k with | some n => decide (lo ≤ n) && decide (n < hi) | none => false
  let served (k : Nat) : Nat := rowServed c (keyRow k) * 16 + k % 16
  { c with hbm := { c.hbm with lines := cellsClear (fun k => hit (served k)) c.hbm.lines } }
/-- Bytes of a plan's regions and of the resident copies of its tiles. -/
def planBytes (p : Plan) : Nat :=
  ((planRegions p).map (fun r => if r.hbm then r.length else 32 * r.length)).sum + 589824 * (planPrograms p).length
/-- The plan whose regions wait to be zeroed: one unloaded, or one that a LOAD replaces (R338). -/
def zeroPlan (c : Chip) : Option Plan :=
  c.plan.scrub.orElse (fun _ => if c.plan.loading.any (·.scrubbing) then c.plan.loaded else none)
/-- 2700.09: the bytes not yet zeroed (R338, Table 10-8): of an old plan, of staging given back, of tiles in retired columns. -/
def showZero (c : Chip) : Chip :=
  objSet 0x2700 0x09 0 (((zeroPlan c).map planBytes).getD 0 + 64 * rangeSize c.intake.unzeroed + 589824 * c.grid.stale) c
/-- Table 10-8: the staging lines given back are zeroed; 2700.09 no longer counts them. -/
def zeroFreed (c : Chip) : Chip :=
  let c := c.intake.unzeroed.foldl (fun c r => zeroStaged r.1 r.2 c) c
  showZero { c with intake := { c.intake with unzeroed := [] } }

/-! The plan's command stream. -/

/-- Entries of a pseudo-channel's stream with the overlay of their section (R168). -/
def hbmEntries (p : Plan) (pc : Nat) : List (Nat × HbmCmd) :=
  ((secsOf p 0x0008).filter (fun s => s.item == pc)).flatMap
    (fun s => (entriesOf 8 (s.data.length / 8) (s.data.drop 16)).map (fun e => (s.overlay, hbmCmdOf e)))

/-- Whether an entry runs in the present work window (R125, R159, R168, R357): its overlay and that of its function active, the
function neither aborted nor of a shed tenant; in a repair pause and in Survival only refresh and scrub run (R366). -/
def entryRuns (c : Chip) (p : Plan) (ovl : Nat) (e : HbmCmd) : Bool :=
  bitOf c.plan.active ovl && (match planFn p e.fn with | some f => bitOf c.plan.active f.overlay | none => true) && !fnStopped c p e.fn
    && ((c.tk.mode = .running && !workPaused c) || e.cmd == 8 || e.cmd == 9)
/-- The place of entry j in the order in which a pseudo-channel's entries issue. -/
def entryPlace (j : Nat) (e : HbmCmd) : Nat := e.fc * 2 ^ 32 + j + 1
/-- R143, R168: the entry that a pseudo-channel issues next: the first in the order of FC that runs and has not issued. -/
def nextEntry (pc : Nat) (c : Chip) : Option (Nat × HbmCmd) :=
  match c.plan.loaded, c.plan.armed with
  | some p, some _ =>
    let last := cellsGet 0 c.hbm.issued pc
    let due := ((hbmEntries p pc).zipIdx).filterMap (fun x => if entryRuns c p x.1.1 x.1.2 && decide (last < entryPlace x.2 x.1.2) then some (x.2, x.1.2) else none)
    due.foldl (fun m x => match m with | some y => if entryPlace x.1 x.2 < entryPlace y.1 y.2 then some x else m | none => some x) none
  | _, _ => none
/-- Entry j of a pseudo-channel, of a given command, if it is the one that issues now. -/
def hbmEntry (pc j cmd : Nat) (c : Chip) : Option HbmCmd :=
  match nextEntry pc c with
  | some (j', e) => if c.tk.phase = .work && j' = j && e.cmd = cmd then some e else none
  | none => none
/-- The entry has issued. -/
def markEntry (pc j : Nat) (e : HbmCmd) (c : Chip) : Chip :=
  { c with hbm := { c.hbm with issued := cellsSet 0 c.hbm.issued pc (entryPlace j e) } }

/-- The bank state key. -/
def bankKey (pc bank : Nat) : Nat := pc * 48 + bank

/-- R273: the row an ACT opens after the translated windows. -/
def translatedRow (c : Chip) (row : Nat) : Nat :=
  match keyPlanAddr (vpcMask c) (row * 16) with
  | none => row
  | some a =>
    match c.hbm.binds.find? (fun b => decide (b.window ≤ a) && decide (a < b.window + b.bytes)) with
    | none => row
    | some b =>
      match planLineKey (vpcMask c) (b.slot + (a - b.window)) with
      | some k => keyRow k
      | none => row

/-- Open, close and look up the row of a bank. -/
def openRow (pc bank row : Nat) (c : Chip) : Chip :=
  { c with hbm := { c.hbm with opened := cellsSet 0 c.hbm.opened (bankKey pc bank) (row + 1) } }
def closeBank (pc bank : Nat) (c : Chip) : Chip :=
  { c with hbm := { c.hbm with opened := cellsSet 0 c.hbm.opened (bankKey pc bank) 0 } }
def closeAll (pc : Nat) (c : Chip) : Chip :=
  { c with hbm := { c.hbm with opened := cellsClear (fun k => k / 48 == pc) c.hbm.opened } }
def openedRow (c : Chip) (pc bank : Nat) : Option Nat :=
  match cellsGet 0 c.hbm.opened (bankKey pc bank) with | 0 => none | r + 1 => some r

def hbmCert (c : Chip) : Nat × Nat := match c.plan.loaded with | some p => (p.cert.rret, p.cert.wpre) | none => (0, 0)

/-- ACT (R169, R260). -/
def hbmAct (pc : Nat) (e : HbmCmd) (c : Chip) : Chip :=
  openRow pc e.bank (translatedRow c (rowKey pc (e.bank / 16) (e.bank % 16) (e.addr % 16384))) c

/-- RD: the line, with the symbol errors that strike it, is read and waits in the return buffer of its port for fc FC + RRET (R169,
R267). -/
def hbmRd (pc : Nat) (e : HbmCmd) (errs : List (Nat × Byte)) (c : Chip) : Chip :=
  match openedRow c pc e.bank with
  | none => c
  | some row =>
    let d := dataRead (row * 16 + e.addr % 16) errs c
    let ws := lineWords d.2.1
    let r : HbmReturn := { port := 2 * pc + e.port, fc := e.fc + (hbmCert c).1, w0 := ws.1, w1 := ws.2
                           poison := decide (d.1 = .uncorrectable) || decide (d.1 = .poisoned) }
    { d.2.2 with hbm := { d.2.2.hbm with returns := d.2.2.hbm.returns ++ [r] } }

/-- The word a port received in a given fc: a word that did not arrive, or that is marked, is poison (R107). -/
def portWord (c : Chip) (port fc : Nat) : SWord :=
  match c.grid.edge.find? (fun w => w.port == port && w.fc == fc) with
  | some w => { data := w.data, poison := w.poison || w.invalid }
  | none => { poison := true }

/-- R241: a line of the window of an idle out-lane. -/
def idleWindow (c : Chip) (k : Nat) : Bool :=
  match keyPlanAddr (vpcMask c) k with
  | none => false
  | some a => c.hbm.idleOut.any (fun w => decide (w.1 ≤ a) && decide (a < w.1 + w.2))

/-- WR: the two words the port received WPRE fc before (R169); a line with a poisoned word is the poison word (R266). -/
def hbmWr (pc : Nat) (e : HbmCmd) (c : Chip) : Chip :=
  match openedRow c pc e.bank with
  | none => c
  | some row =>
    let port := 2 * pc + e.port
    let f := e.fc - (hbmCert c).2
    let w0 := portWord c port f
    let w1 := portWord c port (f + 1)
    let c := { c with grid := { c.grid with edge := c.grid.edge.filter (fun w => !(w.port == port && (w.fc == f || w.fc == f + 1))) } }
    if idleWindow c (row * 16 + e.addr % 16) then c
    else writeLine (row * 16 + e.addr % 16) (if w0.poison || w1.poison then poisonLine else lineData w0.data w1.data) c

/-- A refresh of one bank, counted. -/
def refreshBank (pc bank : Nat) (c : Chip) : Chip :=
  { c with hbm := { c.hbm with refreshes := cellsMod 0 c.hbm.refreshes (bankKey pc bank) (· + 1) } }
/-- R171: every bank of a pseudo-channel precharged, and one all-bank refresh. -/
def refreshAll (c : Chip) : Chip :=
  let c := (List.range 32).foldl (fun c pc => closeAll pc c) c
  (List.range (32 * 48)).foldl (fun c k => refreshBank (k / 48) (k % 48) c) c

/-- A word put on the channel slot that leaves an edge port at a given fc (R117, R169). -/
def slotSend (ch : Channel) (fc i : Nat) : Option Nat :=
  let base := 4 + ch.ph + i
  if fc < base || (fc - base) % 4 != 0 then none
  else
    let t := (fc - base) / 4
    if t < ch.o then none
    else if ch.p = 0 then (if t = ch.o && decide (0 < ch.k) then some 0 else none)
    else if (t - ch.o) % ch.p = 0 && decide ((t - ch.o) / ch.p < ch.k) then some ((t - ch.o) / ch.p) else none
def portDeliverI (port fc : Nat) (w : SWord) (invalid : Bool) (c : Chip) : Chip :=
  match (edgeChannels c port).findSome? (fun ch => (List.range ch.w).findSome? (fun i => (slotSend ch fc i).map (fun j => (ch, i, j)))) with
  | none => c
  | some (ch, i, j) => markSlot port fc (addFlits ((sendFlits ch (sendAc ch j) (List.replicate (i + 1) (w, invalid))).drop i) c)
def portDeliver (port fc : Nat) (w : SWord) (c : Chip) : Chip := portDeliverI port fc w false c

/-- R169, R267: return i leaves on its port as two words; an uncorrectable or poisoned line leaves with P = 1. -/
def hbmReturn (i : Nat) (c : Chip) : Chip :=
  match c.hbm.returns[i]? with
  | none => c
  | some r =>
    let c := { c with hbm := { c.hbm with returns := c.hbm.returns.eraseIdx i } }
    portDeliver r.port (r.fc + 1) { data := r.w1, poison := r.poison } (portDeliver r.port r.fc { data := r.w0, poison := r.poison } c)

/-! Patrol (R269) and sparing (R270). -/

/-- Lines of a pseudo-channel's address range. -/
def pcLines : Nat := 3 * 16 * 16384 * 16

/-- R269: whether a line is in use: every line but those of spare rows that serve no row and of rows that a spare serves. -/
def lineInUse (c : Chip) (pc pos : Nat) : Bool :=
  let row := pc * (3 * 16 * 16384) + pos / 16
  if rowNo row < 16368 then !c.hbm.spares.any (fun p => p.1 == row) else c.hbm.spares.any (fun p => p.2 == row)

/-- R269: lines in use of a pseudo-channel: a spare row in use stands for the row it serves. -/
def linesInUse : Nat := 48 * 16368 * 16
/-- R442: a patrolled line counts toward a demand scrub; 2903.03 shows the part of all lines scrubbed. -/
def scrubCount (pc : Nat) (c : Chip) : Chip :=
  if !c.life.scrubbing then c
  else
    let n := cellsMod 0 c.life.scrubLines pc (fun x => min linesInUse (x + 1))
    objSet 0x2903 0x03 0 (min 999 ((n.map (·.2)).sum * 1000 / (32 * linesInUse))) { c with life := { c.life with scrubLines := n } }

/-- The first position in use from pos on; an unused stretch is at most 32 rows of 16 lines: a bank leaves 16 rows unused. -/
def nextInUse (c : Chip) (pc : Nat) : Nat → Nat → Nat
  | 0, pos => pos
  | fuel + 1, pos =>
    let pos := pos % pcLines
    if lineInUse c pc pos then pos else nextInUse c pc fuel (pos + 1)

/-- R269, R270: patrol one line: read, correct, rewrite if needed; a spare's line is a line of the row it serves. -/
def patrolLine (pos : Nat) (errs : List (Nat × Byte)) (c : Chip) : Chip :=
  let k := rowServed c (keyRow pos) * 16 + pos % 16
  let r := readLine k errs (objBump 0x2B10 0x02 0 1 c)
  let c := r.2.2
  if r.1 = .corrected then
    let c := hbmPut k r.2.1 c
    let others := c.hbm.hits.any (fun h => keyRow h == keyRow k && h != k)
    let again := c.hbm.lastHits.contains k
    let c := if c.hbm.hits.contains k then c else { c with hbm := { c.hbm with hits := c.hbm.hits ++ [k] } }
    if others || again then suspectRow (keyRow k) c else c
  else if r.1 = .uncorrectable then breakUpd 4 c else c

/-- R269: the pass of a pseudo-channel ends. -/
def patrolWrap (pc : Nat) (c : Chip) : Chip :=
  let dur := (c.tk.now - cellsGet 0 c.hbm.passStart pc) / 1000000000
  let late := decide (objGet c 0x2B10 0x01 0 * 3600 * 5 < dur * 4)
  let h := c.hbm
  let keep (l : List Nat) := l.filter (fun k => keyPc k != pc)
  let c := { c with hbm := { h with lastHits := keep h.lastHits ++ h.hits.filter (fun k => keyPc k == pc), hits := keep h.hits
                                    passStart := cellsSet 0 h.passStart pc c.tk.now } }
  let c := objSet 0x2B10 0x04 0 dur (objBump 0x2B10 0x03 0 1 c)
  if late then objBump 0x2B10 0x05 0 1 c else c

/-- R269: one step of a pseudo-channel's patrol pointer. -/
def patrolStep (pc : Nat) (errs : List (Nat × Byte)) (c : Chip) : Chip :=
  let pos := nextInUse c pc 600 (cellsGet 0 c.hbm.patrol pc)
  let c := scrubCount pc (patrolLine (pc * pcLines + pos) errs c)
  let next := nextInUse c pc 600 (pos + 1)
  let c := { c with hbm := { c.hbm with patrol := cellsSet 0 c.hbm.patrol pc next } }
  if next ≤ pos then patrolWrap pc c else c

/-- R170: a scrub slot of a bank takes the pointer's line when it lies in that bank, else the bank's next line in the
patrol's order, which moves no pointer. -/
def scrubSlot (pc bank : Nat) (errs : List (Nat × Byte)) (c : Chip) : Chip :=
  let pos := nextInUse c pc 600 (cellsGet 0 c.hbm.patrol pc)
  if pos / (16384 * 16) = bank then patrolStep pc errs c
  else
    let at_ := nextInUse c pc 600 (bank * (16384 * 16) + cellsGet 0 c.hbm.scrubNext (bankKey pc bank))
    let off := if at_ / (16384 * 16) = bank then at_ % (16384 * 16) else 0
    let c := { c with hbm := { c.hbm with scrubNext := cellsSet 0 c.hbm.scrubNext (bankKey pc bank) ((off + 1) % (16384 * 16)) } }
    patrolLine (pc * pcLines + bank * (16384 * 16) + off) errs c

/-- R270 step 1: copy a suspect row into a spare, correcting its lines. -/
def copyRow (row : Nat) (c : Chip) : Chip :=
  match freeSpare c row with
  | none => c
  | some sp =>
    if !c.hbm.suspects.contains row then c
    else
      let c := (List.range 16).foldl (fun c i =>
        let l := hbmPeek c (row * 16 + i)
        let cl := classLine l
        let v := if cl.1 = .uncorrectable then poisonLine else cl.2
        { c with hbm := { c.hbm with lines := cellsSet zeroLine c.hbm.lines (sp * 16 + i) v } }) c
      { c with hbm := { c.hbm with suspects := c.hbm.suspects.filter (· != row), copied := c.hbm.copied ++ [(row, sp)] } }

/-- R270 step 2, R272: switch every later access of the row to the spare. -/
def switchRow (row : Nat) (c : Chip) : Chip :=
  match c.hbm.copied.find? (fun p => p.1 == row) with
  | none => c
  | some p =>
    let h := c.hbm
    tracePoint 99 3584 row
      (hbmRowsShow { c with hbm := { h with copied := h.copied.filter (fun q => q.1 != row)
                                            spares := h.spares.filter (fun q => q.1 != row) ++ [p] } })

/-- R271: the rows post-package repair works on. -/
def repairRows (c : Chip) : List Nat := c.hbm.suspects ++ c.hbm.spares.map (·.1)

/-- R271: a row repaired in place: its data written back, its spare freed. -/
def repairRow (c : Chip) (row : Nat) : Chip :=
  let data := (List.range 16).map (fun i => hbmPeek c (row * 16 + i))
  let h := c.hbm
  let c := { c with hbm := { h with spares := h.spares.filter (fun p => p.1 != row), suspects := h.suspects.filter (· != row)
                                    repaired := h.repaired.filter (· != row) ++ [row], unrepairable := h.unrepairable.filter (· != row) } }
  data.zipIdx.foldl (fun c p => hbmPut (row * 16 + p.2) p.1 c) c

/-- R268: revocation of a range begins: reads return the poison word; at most 1,024 ranges. -/
def revokeRegion (r : Region) (c : Chip) : Chip :=
  let l := regionLines r
  let v : Revoked := { fn := r.fn, lo := l.1, hi := l.2, init := r.init }
  let c := { c with hbm := { c.hbm with revoked := (c.hbm.revoked ++ [v]).take 1024 } }
  objSet 0x2412 0x06 r.fn 1 (hbmMaps c)

/-- The initial data of a section number, empty when it names none. -/
def initData (p : Plan) (init : Nat) : List Byte :=
  if init = 0xFFFF then [] else match p.sections[init]? with | some s => s.data | none => []

/-- R268: zeroing and reinitialisation of revoked range i end; it leaves the table. -/
def revocationDone (i : Nat) (c : Chip) : Chip :=
  match c.hbm.revoked[i]? with
  | none => c
  | some r =>
    let c := unpoison r.lo r.hi (zeroLines r.lo r.hi c)
    let d := match c.plan.loaded with | some p => initData p r.init | none => []
    let c := writePlanData (d.length + 1) r.lo (d.take (64 * (r.hi - r.lo))) c
    let c := hbmMaps { c with hbm := { c.hbm with revoked := c.hbm.revoked.eraseIdx i } }
    let c := if c.hbm.revoked.any (fun q => q.fn == r.fn) then c else objSet 0x2412 0x06 r.fn 0 c
    tracePoint 100 0 r.fn c

/-- R261, R263: the per-bank interval for a temperature in °C. -/
def refreshInterval (t : Int) : Nat := if t ≤ 85 then 3900 else if t ≤ 95 then 1950 else 975

end Sys2Proof.Machine
end

