-- ==== Sys2Proof/Machine/Security.lean ====
section
/-! DEFINITION. Identity, measurement registers, quotes, keys and tenants (spec/10_security.md R314-R346). -/

namespace Sys2Proof.Machine

/-- What a dictionary command does: the latched image its checks use, the requester, the selected entry, the data. -/
abbrev Cmd := Chip → Role → Nat → List Byte → Chip → Chip × Res

def resSt (st : Nat) : Res := { st := st }
/-- Entry of another tenant (Table 12-9, 0x06). -/
def resOther : Res := { st := stRights, detail := 0x06 }
/-- A reserved field or code (0x08), a wrong length (0x03). -/
def resReserved : Res := { st := stRange, detail := 0x08 }
def resLength : Res := { st := stRange, detail := 0x03 }

/-! Byte-string cryptography over the free functions of Config. -/

/-- SHA3-256 as 32 bytes. -/
def sha3Bytes (l : List Byte) : List Byte := bytesLE 32 (Config.sha3 l).toNat
/-- AES-256-GCM: ciphertext and tag. -/
def gcmSeal (k : BitVec 256) (iv aad pt : List Byte) : List Byte :=
  (List.range pt.length).map (Config.gcmByte k iv aad pt) ++ bytesLE 16 (Config.gcmTag k iv aad pt).toNat
/-- Open a ciphertext with its tag. -/
def gcmOpen (k : BitVec 256) (iv aad ct tag : List Byte) : Option (List Byte) :=
  if Config.gcmOk k iv aad ct tag then some ((List.range ct.length).map (Config.gcmPlain k iv aad ct)) else none

/-! Identity (R314-R317). -/

/-- Fields of the birth record (Table 10-1). -/
def birthSerial (b : List Byte) : Nat := numAt b 0x10 8
def birthMac (b : List Byte) (port : Nat) : Nat := numAt b (if port = 0 then 0x18 else 0x1E) 6
def birthOk (b : List Byte) : Bool :=
  decide (b.length = 6516) && Config.dsaOk Config.vendorKey (b.take 0x1000) (b.drop 0x1000)

/-- R315: xi, d and z of a seed: its SHA3-256 with 0x01, 0x02 and 0x03 behind it. -/
def seedPart (seed : BitVec 256) (n : Nat) : BitVec 256 := Config.sha3 (bytesLE 32 seed.toNat ++ bytesLE 1 n)
/-- R315: the public keys of a seed. -/
def idPublic (seed : BitVec 256) : List Byte := (List.range 1312).map (Config.dsaPublic (seedPart seed 1))
def kemKey (seed : BitVec 256) : List Byte := (List.range 1184).map (Config.kemPublic (seedPart seed 2) (seedPart seed 3))
/-- A signature under the identity key, and a decapsulation under the KEM key. -/
def idSign (seed : BitVec 256) (m : List Byte) : List Byte := (List.range 2420).map (Config.dsaByte (seedPart seed 1) m)
def kemOpen (seed : BitVec 256) (ct : List Byte) : BitVec 256 := Config.kemDecaps (seedPart seed 2) (seedPart seed 3) ct

/-- R317: whether a copy of the helper data is the one the birth record names. -/
def helperOk (b helper : List Byte) : Bool := sha3Bytes helper == bytesAt b 0x30 32
/-- The copy of the helper data in use: the first that is right. -/
def helperUsed (b : List Byte) (copies : List (List Byte)) : List Byte := (copies.find? (helperOk b)).getD (copies.headD [])
/-- R314: the seed from a readout of the PUF array with so many flipped cells: up to 1,100 are corrected, given the right helper data. -/
def pufSeed (b : List Byte) (copies : List (List Byte)) (flips : Nat) : Option (BitVec 256) :=
  if flips ≤ 1100 && copies.any (helperOk b) then some Config.pufSeed else none

/-- R317: 2700.01 of a birth record, the copies of the helper data and the seed. -/
def identityOf (b : List Byte) (copies : List (List Byte)) (seed : Option (BitVec 256)) : Nat :=
  if !birthOk b then 4
  else match seed with
    | none => 2
    | some sd =>
      if !copies.any (helperOk b) then 2
      else if idPublic sd ≠ bytesAt b 0x80 1312 || sha3Bytes (kemKey sd) ≠ bytesAt b 0x50 32 then 3
      else 1
def identityValid (c : Chip) : Bool := objGet c 0x2700 0x01 0 == 1

/-! Measurement registers and the epoch (R318-R320). -/

def measGet (c : Chip) (n : Nat) : BitVec 256 := BitVec.ofNat 256 (objGet c 0x2701 (n + 1) 0)
def setMeas (n : Nat) (v : BitVec 256) (c : Chip) : Chip := objSet 0x2701 (n + 1) 0 v.toNat c

/-- R320: an entry of the measurement log; a full log sets its truncated bit. -/
def measLog (reg ev : Nat) (d : BitVec 256) (c : Chip) : Chip :=
  let e : MeasEntry := { reg := reg, ev := ev, epoch := objGet c 0x2700 0x07 0 % 2 ^ 32, tick := logTick c, digest := d }
  if c.sec.mlog.length < 1024 then { c with sec := { c.sec with mlog := c.sec.mlog ++ [e] } }
  else { c with sec := { c.sec with truncated := true } }

/-- R318: extend a register with a digest. -/
def extend (reg ev : Nat) (d : BitVec 256) (c : Chip) : Chip :=
  measLog reg ev d (setMeas reg (Config.sha3 (bytesLE 32 (measGet c reg).toNat ++ bytesLE 32 d.toNat)) c)
/-- R318, R319: reset a register outside boot: the epoch's low part counts it. ev is what the log calls it. -/
def resetMeasAs (ev reg : Nat) (c : Chip) : Chip :=
  let e := objGet c 0x2700 0x07 0
  let c := objSet 0x2700 0x07 0 (e / 2 ^ 32 * 2 ^ 32 + (e % 2 ^ 32 + 1) % 2 ^ 32) c
  measLog reg ev 0 (setMeas reg 0 c)
def resetMeas : Nat → Chip → Chip := resetMeasAs 0x0B
/-- R318: the extend of M10 for a written configuration object. -/
def extendConfig (v : List Byte) (c : Chip) : Chip := extend 10 0x07 (Config.sha3 v) c

/-- R320: the log as 2702.01 reads it. -/
def measLogBytes (c : Chip) : List Byte :=
  bytesLE 8 (c.sec.mlog.length + (if c.sec.truncated then 2 ^ 32 else 0))
    ++ c.sec.mlog.flatMap (fun e => bytesLE 1 e.reg ++ bytesLE 1 e.ev ++ bytesLE 2 0 ++ bytesLE 4 e.epoch ++ bytesLE 8 e.tick ++ bytesLE 32 e.digest.toNat)

/-! Keys (R325-R331). -/

def keyId (kind scope gen : Nat) : Nat := (kind * 65536 + scope) * 2 + gen
def keyAt (c : Chip) (kind scope gen : Nat) : Option KeyPos := cellsFind c.sec.keys (keyId kind scope gen)

/-- The object that shows the states of a key's two generations (R346). -/
def showKey (kind scope : Nat) (c : Chip) : Chip :=
  let code (g : Nat) := match keyAt c kind scope g with | none => 0 | some k => genCode k.st
  let v := code 0 + 4 * code 1
  if kind < 3 then objSet 0x2201 (3 + kind) scope v c else objSet 0x2306 (kind - 2) scope v c
def setKey (kind scope gen : Nat) (k : Option KeyPos) (c : Chip) : Chip :=
  let keys := match k with
    | some v => cellsPut c.sec.keys (keyId kind scope gen) v
    | none => cellsDrop c.sec.keys (keyId kind scope gen)
  showKey kind scope { c with sec := { c.sec with keys := keys } }

/-- The current generation of a key. -/
def currentKey (c : Chip) (kind scope : Nat) : Option (Nat × KeyPos) :=
  [0, 1].findSome? fun g => match keyAt c kind scope g with
    | some k => if k.st = .current then some (g, k) else none
    | none => none
def retiringKey (c : Chip) (kind scope : Nat) : Option (Nat × KeyPos) :=
  [0, 1].findSome? fun g => match keyAt c kind scope g with
    | some k => if k.st = .retiring then some (g, k) else none
    | none => none
/-- A live generation: current or retiring (R329). -/
def liveKey (c : Chip) (kind scope gen : Nat) : Option KeyPos :=
  match keyAt c kind scope gen with
  | some k => if k.st = .retired then none else some k
  | none => none
def keyRetired (c : Chip) (kind scope gen : Nat) : Bool :=
  match keyAt c kind scope gen with | some k => k.st = .retired | none => false

/-- R331: an item that names a retired generation. -/
def integrityFail (tenant : Nat) (c : Chip) : Chip :=
  alertLater 11 (objBump 0x2201 0x09 tenant 1 (objBump 0x2730 0x01 0 1 c))

/-- R222: the key run counts on, unless it is exhausted. -/
def bumpRun (c : Chip) : Chip :=
  let c := objBumpSat 0x2700 0x0A 0 1 c
  if runExhausted c then setClass 0x11 true c else c

/-- The owning tenant of a stream of the loaded plan. -/
def streamTenant (c : Chip) (st : Nat) : Option Nat :=
  match c.plan.loaded with | none => none | some p => (planStream p st).map (·.tenant)

/-- R328, Table 10-7: the first row a record fails with its status, or the key it carries. -/
def keyRecordCheck (c : Chip) (r : Role) (b : List Byte) : Except (Nat × Nat) KeyInstall :=
  let kind := numAt b 1 1
  let gen := numAt b 2 1
  let tenant := numAt b 4 2
  let stream := numAt b 6 2
  let pk := bytesAt b 0x4CC 1312
  let anchor := objGet c 0x2201 0x02 tenant
  let scope := if kind < 3 then tenant else stream
  if b.length ≠ 4960 || numAt b 0 1 ≠ 1 || 4 < kind || 1 < gen || numAt b 3 1 ≠ 0 || numAt b 0x30 16 ≠ 0
      || (decide (kind < 3) != decide (stream = 0xFFFF)) then .error (1, stRange)
  else if !identityValid c || (kind = 2 && runExhausted c) then .error (2, stNoResource)
  else if (isTenant r && roleTenant r ≠ tenant) || !tenantAssigned c tenant || (3 ≤ kind && streamTenant c stream ≠ some tenant)
    then .error (3, stRights)
  else if !Config.dsaOk pk (b.take 0x9EC) (bytesAt b 0x9EC 2420) then .error (4, stIntegrity)
  else if anchor ≠ 0 && anchor ≠ (Config.sha3 pk).toNat then .error (5, stRights)
  else if !(c.sec.posted.any (fun q => q.nonce == bytesAt b 0x10 32 && q.tenant == tenant && decide (c.tk.now ≤ q.t + 600000000000)))
      || numAt b 8 8 ≠ objGet c 0x2700 0x07 0 then .error (6, stState)
  else match c.sec.seed with
    | none => .error (7, stIntegrity)
    | some sd =>
      let kek := Config.sha3 (bytesLE 32 (kemOpen sd (bytesAt b 0x40 1088)).toNat ++ b.take 0x40)
      match gcmOpen kek (bytesAt b 0x480 12) (b.take 0x40) (bytesAt b 0x48C 48) (bytesAt b 0x4BC 16) with
      | none => .error (7, stIntegrity)
      | some pt =>
        if numAt pt 44 4 ≠ 0 then .error (7, stIntegrity)
        else if (liveKey c kind scope gen).isSome then .error (8, stState)
        else .ok { kind := kind, scope := scope, gen := gen, key := BitVec.ofNat 256 (numAt pt 0 32), salt := bytesAt pt 32 12, tenant := tenant }

/-- KEY_RELEASE: 2710.01 (R327-R329). -/
def cmdKeyRelease : Cmd := fun _ r _ b c =>
  match keyRecordCheck c r b with
  | .error (row, st) => (objSet 0x2710 0x03 0 row c, resSt st)
  | .ok k =>
    let tenant := numAt b 4 2
    let anchor := Config.sha3 (bytesAt b 0x4CC 1312)
    let c := objSet 0x2710 0x03 0 0 (objSet 0x2201 0x02 tenant anchor.toNat c)
    let c := { c with sec := { c.sec with installs := c.sec.installs ++ [{ k with tick := c.tk.tick }] } }
    (extend 11 0x08 (Config.sha3 (b.take 0x40 ++ bytesLE 32 anchor.toNat)) c, resPending)

/-- R329, R222, R332: install i takes effect at the boundary. -/
def installKey (i : Nat) (c : Chip) : Chip :=
  match c.sec.installs[i]? with
  | none => c
  | some k =>
    let c := { c with sec := { c.sec with installs := c.sec.installs.eraseIdx i } }
    let old := currentKey c k.kind k.scope
    let c := match old with
      | some (g, p) => setKey k.kind k.scope g (some { p with st := .retiring, since := c.tk.boundaryAt }) c
      | none => c
    let c := { c with sec := { c.sec with sweeps := c.sec.sweeps.filter (· != (k.kind, k.scope)) } }
    let c := setKey k.kind k.scope k.gen (some { st := .current, key := k.key, salt := k.salt, tenant := k.tenant }) c
    let c := if k.kind = 2 && c.sec.runTick ≠ some c.tk.tick
      then bumpRun { c with sec := { c.sec with runTick := some c.tk.tick } } else c
    let c := if k.kind = 2 && old.isSome then objSet 0x2201 0x08 k.scope 1 c else c
    if c.sec.installs.isEmpty then postStatus 0x2710 0x02 0 stOk c else c

/-- T of the running plan in ns (2000.03). -/
def tickNs (c : Chip) : Nat := objGet c 0x2000 0x03 0 * 1000

/-- R330, R12: the instant at which a retiring generation's deadline passes; 2712.01 binds in hours at every tick setting. -/
def retireDeadline (c : Chip) (since : Nat) : Nat := since + objGet c 0x2712 0x01 0 * 3600 * 1000000000

/-- R330: erase a retiring generation whose sweeps are done or whose deadline has passed. -/
def retireKey (kind scope : Nat) (c : Chip) : Chip :=
  match retiringKey c kind scope with
  | none => c
  | some (g, k) =>
    let swept := c.sec.sweeps.contains (kind, scope) && (kind != 2 || objGet c 0x2201 0x08 scope == 2)
    if swept || decide (retireDeadline c k.since ≤ c.tk.boundaryAt) then
      let c := setKey kind scope g (some { st := .retired, key := 0, salt := [], tenant := k.tenant }) c
      { c with sec := { c.sec with sweeps := c.sec.sweeps.filter (· != (kind, scope)) } }
    else c

/-- STORE_SWEEP_DONE and STREAM_SWEEP_DONE (R330): counted for the generation that is retiring. -/
def cmdSweep : Cmd := fun _ _ inst b c =>
  let kind := numAt b 0 1
  if (retiringKey c kind inst).isSome && !c.sec.sweeps.contains (kind, inst)
  then ({ c with sec := { c.sec with sweeps := c.sec.sweeps ++ [(kind, inst)] } }, resOk) else (c, resOk)

/-! Tenants (R337). -/

/-- TENANT_ASSIGN and TENANT_UNASSIGN: 2201.01. -/
def cmdTenant : Cmd := fun img _ t b c =>
  let on := decide (numAt b 0 1 = 1)
  let named := match img.plan.loaded with | some p => (planTenants p).contains t | none => false
  if t = 0 then (c, if on then resOk else resState)
  else if !on && named then (c, resState)
  else ({ c with sec := { c.sec with tenantOps := c.sec.tenantOps ++ [(t, on)] } }, resPending)

/-- R337: the keys, anchor and bucket of a tenant erased; its context's selectors return to their defaults (R395). -/
def eraseTenant (t : Nat) (c : Chip) : Chip :=
  let own := c.sec.keys.filter (fun e => e.2.tenant == t)
  let c := own.foldl (fun c e => setKey (e.1 / 131072) (e.1 / 2 % 65536) (e.1 % 2) none c) c
  let c := objSet 0x2201 0x02 t 0 (objSet 0x2421 0x03 t 0 c)
  { c with dict := { c.dict with ctxs := cellsDrop c.dict.ctxs t }
           sec := { c.sec with installs := c.sec.installs.filter (fun k => k.tenant != t) } }

/-! Plan-signing keys (R336). -/

/-- PLAN_KEY_WRITE of slot n (1-7). -/
def cmdPlanKey (n : Nat) : Cmd := fun img r _ b c =>
  let full := !(blobGet c 0x2720 (n + 1) 0).isEmpty
  if b.length ≠ 0 && b.length ≠ 1312 then (c, resLength)
  else if judgedMode img c ≠ .idle && judgedMode img c ≠ .loaded then (c, resState)
  else if (full || b.isEmpty) && r ≠ .service then (c, resRights)
  else ({ c with sec := { c.sec with planKeys := c.sec.planKeys ++ [(n, b)] } }, resPending)
/-- R336: the slot writes take effect at the boundary, measured into M7. -/
def applyPlanKeys (c : Chip) : Chip :=
  if c.sec.planKeys.isEmpty then c
  else
    let ws := c.sec.planKeys
    let c := { c with sec := { c.sec with planKeys := [] } }
    let c := ws.foldl (fun c w => extend 7 0x07 (Config.sha3 w.2) (blobSet 0x2720 (w.1 + 1) 0 w.2 c)) c
    postStatus 0x2720 0x09 0 stOk c

/-! EXTEND (R318). -/
def cmdExtend : Cmd := fun _ _ _ b c =>
  let n := numAt b 0 1
  if b.length ≠ 33 then (c, resLength)
  else if n < 13 || 15 < n then (c, resRange)
  else (extend n 0x0A (BitVec.ofNat 256 (numAt b 1 32)) c, resOk)

/-! Quotes (R321-R323). -/

def quoteSlot (c : Chip) (n : Nat) : QuoteSlot := c.sec.quotes.toList.getD n {}
def setQuote (n : Nat) (q : QuoteSlot) (c : Chip) : Chip :=
  let c := { c with sec := { c.sec with quotes := c.sec.quotes.setIfInBounds n q } }
  objSet 0x2704 0x05 n (match q.owner with | some o => if o = 0x1000 then 0 else o | none => 0xFFFF) c

/-- R321: the nonce write, which takes the slot for its requester. -/
def cmdNonce : Cmd := fun _ r n b c =>
  let q := quoteSlot c n
  match q.owner with
  | some o => if o ≠ roleKey r then (c, resOther) else (objSet 0x2704 0x01 n (numAt b 0 32) c, resOk)
  | none => (objSet 0x2704 0x01 n (numAt b 0 32) (setQuote n { q with owner := some (roleKey r) } c), resOk)

/-- QUOTE_REQUEST and QUOTE_FREE: 2704.02. -/
def cmdQuote : Cmd := fun _ r n b c =>
  let q := quoteSlot c n
  if q.owner = none then (c, resState)
  else if q.owner ≠ some (roleKey r) then (c, resOther)
  else if numAt b 0 1 = 1 then
    if q.asked.isSome then (c, resState)
    else if !identityValid c then (c, resSt stNoResource)
    else (setQuote n { q with asked := some c.tk.tick, posted := none } c, resPending)
  else if numAt b 0 1 = 2 then (blobSet 0x2704 0x04 n [] (objSet 0x2704 0x01 n 0 (setQuote n {} c)), resOk)
  else (c, resRange)

/-- Owner tenant of a quote slot, 0 for operator and service (Table 10-3). -/
def quoteTenant (q : QuoteSlot) : Nat := match q.owner with | some o => if o = 0x1000 then 0 else o | none => 0

/-- Table 10-3: bytes 0x000-0x28F of a quote or retry hint of slot n. -/
def quoteBody (n : Nat) (settled : Bool) (retryMs : Nat) (c : Chip) : List Byte :=
  let q := quoteSlot c n
  let locked := objGet c 0x1F10 0x05 0 == 1
  let timed := objGet c 0x1F10 0x05 0 != 0
  [0x51, 0x54, 0x58, 0x38] ++ bytesLE 1 1
    ++ bytesLE 1 ((if settled then 1 else 2) + (if locked then 4 else 0)) ++ bytesLE 2 (quoteTenant q)
    ++ bytesLE 8 (objGet c 0x2700 0x02 0) ++ bytesLE 8 (objGet c 0x2700 0x07 0) ++ bytesLE 8 c.tk.tick
    ++ bytesLE 8 (if timed then objGet c 0x1F10 0x06 0 else 0)
    ++ bytesLE 4 retryMs ++ bytesLE 4 (modCode c.tk.mode + 256 * objGet c 0x2700 0x08 0)
    ++ bytesLE 32 (objGet c 0x2704 0x01 n)
    ++ (match c.sec.seed with | some sd => sha3Bytes (kemKey sd) | none => List.replicate 32 0)
    ++ bytesLE 32 (objGet c 0x2201 0x02 (quoteTenant q))
    ++ (List.range 16).flatMap (fun i => bytesLE 32 (if settled then (measGet c i).toNat else 0))

/-- QUOTE_SIGN: registers latched, quote signed and posted (R323). -/
def signQuote (n : Nat) (c : Chip) : Chip :=
  match c.sec.seed with
  | none => c
  | some sd =>
    let q := quoteSlot c n
    let body := quoteBody n true 0 c
    let c := blobSet 0x2704 0x04 n (body ++ idSign sd body) c
    let c := setQuote n { q with asked := none, posted := some c.tk.now } c
    let keep := c.sec.posted.filter (fun p => decide (c.tk.now ≤ p.t + 600000000000))
    let p : PostedQuote := { nonce := bytesLE 32 (objGet c 0x2704 0x01 n), tenant := quoteTenant q, t := c.tk.now }
    postStatus 0x2704 0x03 n stOk { c with sec := { c.sec with posted := keep ++ [p] } }
/-- QUOTE_RETRY_HINT (R323). -/
def hintQuote (n retryMs : Nat) (c : Chip) : Chip :=
  let q := quoteSlot c n
  let c := blobSet 0x2704 0x04 n (quoteBody n false retryMs c) c
  postStatus 0x2704 0x03 n stUnsettled (setQuote n { q with asked := none, posted := some c.tk.now } c)

/-! Service sessions (R341). -/

def sessionEvent (on : Bool) (c : Chip) : Chip :=
  let d := Config.sha3 (bytesLE 1 (if on then 1 else 2) ++ bytesLE 8 c.tk.tick)
  let c := objSet 0x2722 0x01 0 (if on then 1 else 0) (extend 12 0x09 d c)
  logRec 0 5 .serviceSession [if on then 1 else 2] (if on then objBump 0x2722 0x02 0 1 c else c)

end Sys2Proof.Machine
end

