-- ==== Sys2Proof/Machine/Frames.lean ====
section
/-! DEFINITION. Addresses of the service ports and the frames they send (spec/06_video_path.md R175, R178, R179;
spec/00_scope.md R9): a received or sent Ethernet, ARP, IP, UDP, ICMP, ND or IEEE 1588 field stands in network order, as
those standards lay it out. -/

namespace Sys2Proof.Machine

/-! Addresses: an address object's bytes stand in network order, so its number has the first byte lowest. -/

/-- The number with its n bytes reversed. -/
def beNum (n v : Nat) : Nat := natLE (bytesLE n v).reverse
/-- An IPv4 address (4 bytes as stored) as IPv4-mapped IPv6. -/
def mapped4 (a : Nat) : Nat := a % 2 ^ 32 * 2 ^ 96 + 0xFFFF * 2 ^ 80
def isV4 (a : Nat) : Bool := a % 2 ^ 96 == 0xFFFF * 2 ^ 80
def addrMulticast (a : Nat) : Bool := if isV4 a then fld a 103 100 == 0xE else a % 256 == 0xFF
/-- 1F00 or 1F01. -/
def portIdx (port : Nat) : Nat := 0x1F00 + port % 2
def portV4 (c : Chip) (port : Nat) : Nat := objGet c (portIdx port) 0x01 0
def portV6 (c : Chip) (port : Nat) : Nat := objGet c (portIdx port) 0x03 0
/-- R178: a port that has an address. -/
def portHasAddr (c : Chip) (port : Nat) : Bool := portV4 c port != 0 || portV6 c port != 0
def portOwns (c : Chip) (port a : Nat) : Bool :=
  (portV4 c port != 0 && a == mapped4 (portV4 c port)) || (portV6 c port != 0 && a == portV6 c port)
/-- R178: the address to resolve for a destination: itself when on the port's prefix, else the gateway. -/
def nextHop (c : Chip) (port a : Nat) : Nat :=
  let onLink := if isV4 a
    then let s := 32 - min 32 (objGet c (portIdx port) 0x02 0); beNum 4 (a / 2 ^ 96) / 2 ^ s == beNum 4 (portV4 c port) / 2 ^ s
    else let s := 128 - min 128 (objGet c (portIdx port) 0x04 0); beNum 16 a / 2 ^ s == beNum 16 (portV6 c port) / 2 ^ s
  if onLink then a else objGet c (portIdx port) 0x05 0

/-- The ones'-complement sum of 16-bit words, folded. -/
def sum16 : Nat → List Byte → Nat
  | 0, _ => 0
  | n + 1, l => match l with
    | [] => 0
    | [a] => a.toNat * 256
    | a :: b :: t => a.toNat * 256 + b.toNat + sum16 n t
def csum16 (l : List Byte) : Nat :=
  let s := sum16 l.length l
  let s := s % 65536 + s / 65536
  s % 65536 + s / 65536

/-! Frames sent. -/

/-- EUI-64 clock identity from the port's MAC address, and the port number (IEEE 1588). -/
def ptpIdentity (c : Chip) (port : Nat) : List Byte :=
  let m := bytesLE 6 (birthMac c.sec.birth port)
  m.take 3 ++ [0xFF, 0xFE] ++ m.drop 3 ++ (bytesLE 2 (port + 1)).reverse

/-- The n bytes of a number, the most significant first. -/
def bytesBE (n v : Nat) : List Byte := (bytesLE n v).reverse
/-- A checksum field over bytes in which it stands as zero. -/
def csumField (l : List Byte) : List Byte := bytesBE 2 (65535 - csum16 l)
/-- The port's own MAC address as it stands in a frame. -/
def ownMac (c : Chip) (port : Nat) : List Byte := bytesLE 6 (birthMac c.sec.birth port)
/-- The bytes of an address as it stands in a packet: four of an IPv4 address, sixteen of an IPv6 address. -/
def addrBytes (a : Nat) : List Byte := if isV4 a then bytesLE 4 (a / 2 ^ 96) else bytesLE 16 a
/-- The MAC address of a multicast destination (RFC 1112, RFC 2464). -/
def groupMac (a : Nat) : List Byte :=
  if isV4 a then
    let b := addrBytes a
    [0x01, 0x00, 0x5E] ++ ((b.drop 1).take 1).map (· &&& 0x7F) ++ b.drop 2
  else [0x33, 0x33] ++ (addrBytes a).drop 12
/-- R175: an Ethernet frame without its FCS: the port's VLAN tag, none where 1F0n.06 is 0, and padding to 60 bytes. -/
def etherFrame (c : Chip) (port : Nat) (dst : List Byte) (type : Nat) (body : List Byte) : List Byte :=
  let vlan := objGet c (portIdx port) 0x06 0
  let tag := if vlan = 0 then [] else bytesBE 2 0x8100 ++ bytesBE 2 (vlan % 4096)
  let f := dst ++ ownMac c port ++ tag ++ bytesBE 2 type ++ body
  f ++ List.replicate (60 - f.length) 0
/-- An IPv4 packet: no options, not fragmented. -/
def ipV4 (c : Chip) (port dst proto ttl : Nat) (body : List Byte) : List Byte :=
  let h (ck : List Byte) : List Byte :=
    [0x45, 0x00] ++ bytesBE 2 (20 + body.length) ++ bytesBE 2 (Config.ipIdent c.net.wire.length).toNat ++ bytesBE 2 0
      ++ bytesLE 1 ttl ++ bytesLE 1 proto ++ ck ++ bytesLE 4 (portV4 c port) ++ addrBytes dst
  h (csumField (h [0, 0])) ++ body
/-- An IPv6 packet: no extension header. -/
def ipV6 (c : Chip) (port dst proto hops : Nat) (body : List Byte) : List Byte :=
  [0x60, 0x00, 0x00, 0x00] ++ bytesBE 2 body.length ++ bytesLE 1 proto ++ bytesLE 1 hops ++ bytesLE 16 (portV6 c port)
    ++ addrBytes dst ++ body
/-- The source address of packets to an address. -/
def sourceBytes (c : Chip) (port dst : Nat) : List Byte := if isV4 dst then bytesLE 4 (portV4 c port) else bytesLE 16 (portV6 c port)
/-- An IP packet to an address, in its frame. -/
def ipFrame (c : Chip) (port : Nat) (mac : List Byte) (dst proto hops : Nat) (body : List Byte) : List Byte :=
  if isV4 dst then etherFrame c port mac 0x0800 (ipV4 c port dst proto hops body)
  else etherFrame c port mac 0x86DD (ipV6 c port dst proto hops body)
/-- A UDP datagram, its checksum filled in. -/
def udpBody (c : Chip) (port dst sport dport : Nat) (d : List Byte) : List Byte :=
  let n := 8 + d.length
  let h := bytesBE 2 sport ++ bytesBE 2 dport ++ bytesBE 2 n
  let pseudo := sourceBytes c port dst ++ addrBytes dst ++
    (if isV4 dst then [0x00, 0x11] ++ bytesBE 2 n else bytesBE 4 n ++ [0x00, 0x00, 0x00, 0x11])
  let ck := 65535 - csum16 (pseudo ++ h ++ [0, 0] ++ d)
  h ++ bytesBE 2 (if ck = 0 then 65535 else ck) ++ d
/-- An ICMPv6 message with its checksum, from its type, code and the rest after the checksum. -/
def icmp6Body (c : Chip) (port dst type : Nat) (rest : List Byte) : List Byte :=
  let n := 4 + rest.length
  let pseudo := bytesLE 16 (portV6 c port) ++ addrBytes dst ++ bytesBE 4 n ++ [0x00, 0x00, 0x00, 0x3A]
  bytesLE 1 type ++ [0x00] ++ csumField (pseudo ++ bytesLE 1 type ++ [0x00, 0x00, 0x00] ++ rest) ++ rest
/-- An ARP packet for IPv4 over Ethernet: operation, target MAC address and target address. -/
def arpBody (c : Chip) (port op mac target : Nat) : List Byte :=
  bytesBE 4 0x00010800 ++ bytesBE 2 0x0604 ++ bytesBE 2 op ++ ownMac c port ++ bytesLE 4 (portV4 c port) ++ bytesBE 6 mac ++ addrBytes target

/-- A timestamp of IEEE 1588: seconds in 6 bytes, nanoseconds in 4. -/
def ptpStampBytes (ns : Nat) : List Byte := bytesBE 6 (ns / 1000000000) ++ bytesBE 4 (ns % 1000000000)
/-- R179: logarithm of the interval between messages of a kind: -4 to 1, and 0 to 3 for Announce. -/
def ptpLogOf : PtpSend → Int
  | .announce => (Config.ptpLog 0 % 4 : Nat)
  | .sync => (Config.ptpLog 1 % 6 : Nat) - 4
  | .delayReq => (Config.ptpLog 2 % 6 : Nat) - 4
/-- A message of IEEE 1588-2019 after its type: header and body. Transport UDP over the layer of 1F10.02[15], multicast. -/
def ptpFrame (c : Chip) (port type flags seq : Nat) (log : Int) (body : List Byte) : List Byte :=
  let cfg := objGet c 0x1F10 0x02 0
  let dst := if bitOf cfg 15 then 0x8101 * 2 ^ 112 + 0x0EFF else mapped4 (natLE [224, 0, 1, 129])
  let dport := if type < 8 then 319 else 320
  let control := match type with | 0 => 0 | 1 => 1 | 8 => 2 | 9 => 3 | _ => 5
  let m := bytesLE 1 type ++ [0x12] ++ bytesBE 2 (34 + body.length) ++ bytesLE 1 (cfg % 128) ++ [0x00] ++ bytesBE 2 flags
    ++ List.replicate 12 0 ++ ptpIdentity c port ++ bytesBE 2 seq ++ bytesLE 1 control ++ bytesLE 1 (log % 256).toNat ++ body
  ipFrame c port (groupMac dst) dst 17 1 (udpBody c port dst dport dport m)
/-- R179: the data set a boundary clock announces: that of the master its slave port follows, one step further, or its own. -/
def announceBody (c : Chip) (port prio1 prio2 : Nat) : List Byte :=
  let (r, steps) : List Nat × Nat := match c.net.ptp.best with
    | some b => (b.rank, b.rank.getD 6 0 + 1)
    | none => ([prio1, 248, 0xFE, 0xFFFF, prio2, natLE (((ptpIdentity c port).take 8).reverse)], 0)
  ptpStampBytes 0 ++ bytesBE 2 Config.utcOffset.toNat ++ [0x00] ++ bytesLE 1 (r.getD 0 0) ++ bytesLE 1 (r.getD 1 0)
    ++ bytesLE 1 (r.getD 2 0) ++ bytesBE 2 (r.getD 3 0) ++ bytesLE 1 (r.getD 4 0) ++ bytesBE 8 (r.getD 5 0) ++ bytesBE 2 steps ++ [0xA0]

/-- The service port a message leaves from. -/
def Sent.port : Sent → Nat
  | .datagram d _ => d.port
  | .arpReply p _ _ => p
  | .arpRequest p _ => p
  | .advert p _ _ => p
  | .solicit p _ => p
  | .echoReply p _ _ => p
  | .ptpSync p _ => p
  | .ptpFollowUp p _ _ => p
  | .ptpAnnounce p _ _ _ => p
  | .ptpDelayReq p _ => p
  | .ptpDelayResp p _ _ _ => p

/-- The MAC address a packet to an address goes to: its group's, or that of the resolved next hop. -/
def hopMac (c : Chip) (port dst : Nat) : List Byte :=
  if addrMulticast dst then groupMac dst
  else match c.net.neighbors.find? (fun n => n.port == port && n.addr == nextHop c port dst) with
    | some n => bytesBE 6 n.mac
    | none => bytesBE 6 Config.replyMac.toNat

/-- The frame of a message, without its FCS. -/
def sentFrame (c : Chip) : Sent → List Byte
  | .datagram d mac => ipFrame c d.port (if addrMulticast d.dst then groupMac d.dst else bytesBE 6 mac) d.dst 17
      Config.ipHops.toNat (udpBody c d.port d.dst d.sport d.dport d.payload)
  | .arpReply p target mac => etherFrame c p (bytesBE 6 mac) 0x0806 (arpBody c p 2 mac target)
  | .arpRequest p target => etherFrame c p (bytesBE 6 0xFFFFFFFFFFFF) 0x0806 (arpBody c p 1 0 target)
  | .advert p dst mac => ipFrame c p (bytesBE 6 mac) dst 58 255
      (icmp6Body c p dst 136 (bytesBE 4 0x60000000 ++ bytesLE 16 (portV6 c p) ++ [0x02, 0x01] ++ ownMac c p))
  | .solicit p target =>
      let group := natLE ([0xFF, 0x02] ++ List.replicate 9 0 ++ [0x01, 0xFF] ++ (addrBytes target).drop 13)
      ipFrame c p (groupMac group) group 58 255
        (icmp6Body c p group 135 (bytesBE 4 0 ++ addrBytes target ++ [0x01, 0x01] ++ ownMac c p))
  | .echoReply p dst d =>
      let body := if isV4 dst then [0x00, 0x00] ++ csumField ([0x00, 0x00, 0x00, 0x00] ++ d.drop 4) ++ d.drop 4
        else icmp6Body c p dst 129 (d.drop 4)
      ipFrame c p (hopMac c p dst) dst (if isV4 dst then 1 else 58) Config.ipHops.toNat body
  | .ptpSync p seq => ptpFrame c p 0 0x0200 seq (ptpLogOf .sync) (ptpStampBytes 0)
  | .ptpFollowUp p seq time => ptpFrame c p 8 0 seq (ptpLogOf .sync) (ptpStampBytes time)
  | .ptpAnnounce p seq prio1 prio2 => ptpFrame c p 11 0 seq (ptpLogOf .announce) (announceBody c p prio1 prio2)
  | .ptpDelayReq p seq => ptpFrame c p 1 0 seq 127 (ptpStampBytes 0)
  | .ptpDelayResp p seq time requester => ptpFrame c p 9 0 seq (ptpLogOf .delayReq) (ptpStampBytes time ++ requester)

end Sys2Proof.Machine
end

