-- ==== Sys2Proof/Machine/Net.lean ====
section
/-! DEFINITION. The service ports: frame parsing and classification (spec/06_video_path.md R175-R178), PTP (R179, R180),
emission of datagrams and of result datagrams (R178, R220-R223). Frame layouts are those of the standards R175 names. -/

namespace Sys2Proof.Machine

/-! Frames received. -/

/-- What a frame parses to. -/
inductive Parsed where
  | udp (src dst sport dport : Nat) (payload : List Byte)
  | echo (src dst : Nat) (payload : List Byte)
  | arpRequest (sender mac target : Nat)
  | arpReply (sender mac : Nat)
  | solicit (src mac target : Nat)
  | advert (target mac : Nat)
  | fragment
  | malformed
  | other
  deriving DecidableEq, Repr

def parseUdp (src dst : Nat) (pseudo b : List Byte) (v4 : Bool) : Parsed :=
  let n := numAtBE b 4 2
  let ck := numAtBE b 6 2
  if b.length < 8 || n < 8 || b.length < n then .malformed
  else if !(v4 && ck = 0) && csum16 (pseudo ++ bytesLE 2 0 ++ (bytesLE 2 n).reverse ++ b.take n) ≠ 65535 then .malformed
  else .udp src dst (numAtBE b 0 2) (numAtBE b 2 2) ((b.take n).drop 8)

def parseV4 (b : List Byte) : Parsed :=
  let ihl := numAt b 0 1 % 16 * 4
  let tot := numAtBE b 2 2
  if numAt b 0 1 / 16 ≠ 4 || ihl < 20 || tot < ihl || b.length < tot || csum16 (b.take ihl) ≠ 65535 then .malformed
  else if numAtBE b 6 2 % 0x4000 ≠ 0 then .fragment
  else
    let src := mapped4 (numAt b 12 4)
    let dst := mapped4 (numAt b 16 4)
    let d := (b.take tot).drop ihl
    match numAt b 9 1 with
    | 17 => parseUdp src dst (bytesAt b 12 8 ++ bytesLE 1 0 ++ bytesLE 1 17) d true
    | 1 => if csum16 d ≠ 65535 then .malformed else if numAt d 0 2 = 8 then .echo src dst d else .other
    | _ => .other

def parseV6 (b : List Byte) : Parsed :=
  let n := numAtBE b 4 2
  if numAt b 0 1 / 16 ≠ 6 || b.length < 40 + n then .malformed
  else
    let src := numAt b 8 16
    let dst := numAt b 24 16
    let d := (b.drop 40).take n
    match numAt b 6 1 with
    | 17 => parseUdp src dst (bytesAt b 8 32 ++ bytesLE 3 0 ++ bytesLE 1 17) d false
    | 44 => .fragment
    | 58 =>
      if csum16 (bytesAt b 8 32 ++ (bytesLE 4 n).reverse ++ bytesLE 3 0 ++ bytesLE 1 58 ++ d) ≠ 65535 then .malformed
      else match numAt d 0 1 with
        | 128 => .echo src dst d
        | 135 => .solicit src (numAtBE d 26 6) (numAt d 8 16)
        | 136 => .advert (numAt d 8 16) (numAtBE d 26 6)
        | _ => .other
    | _ => .other

/-- R175: a frame without FCS: 60-9,212 bytes, none or one 802.1Q tag of the port's VLAN, its own address or a group. -/
def parseFrame (c : Chip) (port : Nat) (b : List Byte) : Parsed :=
  let tagged := numAtBE b 12 2 = 0x8100
  let vid := numAtBE b 14 2 % 4096
  let vlan := objGet c (portIdx port) 0x06 0
  let et := if tagged then numAtBE b 16 2 else numAtBE b 12 2
  let d := b.drop (if tagged then 18 else 14)
  let mac := numAt b 0 6
  if b.length < 60 || 9212 < b.length then .malformed
  else if (if tagged then vid else 0) ≠ vlan || et = 0x8100 then .other
  else if mac % 2 = 0 && mac ≠ birthMac c.sec.birth port then .other
  else if et = 0x0800 then parseV4 d
  else if et = 0x86DD then parseV6 d
  else if et = 0x0806 then
    if numAtBE d 0 4 ≠ 0x00010800 || numAtBE d 4 2 ≠ 0x0604 then .malformed
    else if numAtBE d 6 2 = 1 then .arpRequest (mapped4 (numAt d 14 4)) (numAtBE d 8 6) (mapped4 (numAt d 24 4))
    else if numAtBE d 6 2 = 2 then .arpReply (mapped4 (numAt d 14 4)) (numAtBE d 8 6)
    else .malformed
  else .other

/-- R185: the enabled stream a datagram belongs to. -/
def matchStream (c : Chip) (port dst dport : Nat) (payload : List Byte) : Option Nat :=
  (List.range 256).find? fun s =>
    let g (sub : Nat) := objGet c 0x2301 sub s
    g 1 == 1 && (g 2 == 2 || g 2 == port) && g 3 == dst && g 4 == dport && (g 6 == 0 || g 5 == numAtBE payload 8 4)

/-- R176: the class of a parsed frame, in the order of the rule. -/
def classify (c : Chip) (port t : Nat) (p : Parsed) : Option RxFrame :=
  match p with
  | .udp src dst sport dport d =>
    let f (cls : RxClass) : Option RxFrame := some { cls := cls, port := port, src := src, dst := dst, sport := sport, payload := d, t := t }
    if dport = 319 || dport = 320 then (if isV4 dst != bitOf (objGet c 0x1F10 0x02 0) 15 then f .ptp else none)
    else match matchStream c port dst dport d with
      | some s => f (.rtp s)
      | none =>
        if portOwns c port dst && dport ≠ 0 && dport = objGet c 0x2400 0x01 0 then f .request
        else if portOwns c port dst && dport ≠ 0 && dport = objGet c 0x2B40 0x01 0 then f .intake
        else none
  | .echo src dst d => if portOwns c port dst then some { cls := .echo, port := port, src := src, dst := dst, payload := d, t := t } else none
  | .arpRequest s m tgt => if portOwns c port tgt then some { cls := .arpRequest, port := port, src := s, dst := tgt, mac := m, t := t } else none
  | .arpReply s m => some { cls := .arpReply, port := port, src := s, mac := m, t := t }
  | .solicit s m tgt => if portOwns c port tgt then some { cls := .solicit, port := port, src := s, dst := tgt, mac := m, t := t } else none
  | .advert tgt m => some { cls := .advert, port := port, src := tgt, mac := m, t := t }
  | _ => none

/-- R176: a received frame is classified, or counted and dropped. -/
def receiveFrame (port t : Nat) (b : List Byte) (c : Chip) : Chip :=
  match parseFrame c port b with
  | .fragment => objBump 0x2340 0x03 0 1 c
  | .malformed => objBump 0x2340 0x02 0 1 c
  | p =>
    match classify c port t p with
    | none => objBump 0x2340 0x01 0 1 c
    | some f => { c with net := { c.net with inbox := c.net.inbox ++ [f] } }

/-- Take the oldest classified frame that satisfies p. -/
def takeRx (p : RxFrame → Bool) (c : Chip) : Option (RxFrame × Chip) :=
  match c.net.inbox.findIdx? p with
  | none => none
  | some i => match c.net.inbox[i]? with
    | none => none
    | some f => some (f, { c with net := { c.net with inbox := c.net.inbox.eraseIdx i } })

/-! Transmission (R178). -/

/-- A frame leaves a service port (R175). -/
def transmit (s : Sent) (c : Chip) : Chip :=
  { c with net := { c.net with sent := c.net.sent ++ [s], wire := c.net.wire ++ [(s.port, sentFrame c s)] } }

/-- R223: a numbered datagram counted as sent or as dropped. -/
def countSent (d : Datagram) (c : Chip) : Chip :=
  match d.origin with
  | .channel o => objBump 0x2332 0x01 o 1 c
  | .encoder s => objBump 0x2304 0x03 s d.payload.length c
def countDropped (o : Origin) (c : Chip) : Chip :=
  match o with
  | .channel n => objBump 0x2332 0x04 n 1 c
  | .encoder _ => c

/-- R178: emit a datagram to a destination that is resolved, or hold it while the next hop is resolved. -/
def emitDatagram (d : Datagram) (c : Chip) : Chip :=
  if !portHasAddr c d.port then countDropped d.origin c
  else if addrMulticast d.dst then countSent d (transmit (.datagram d 0) c)
  else
    let hop := nextHop c d.port d.dst
    match c.net.neighbors.find? (fun n => n.port == d.port && n.addr == hop) with
    | some n => countSent d (transmit (.datagram d n.mac) c)
    | none =>
      let c := if c.net.waiting.any (fun w => w.dgram.port == d.port && w.hop == hop) then c
        else transmit (if isV4 hop then .arpRequest d.port hop else .solicit d.port hop) c
      { c with net := { c.net with waiting := c.net.waiting ++ [{ dgram := d, hop := hop, since := c.tk.now }] } }

/-- R178: a next hop is resolved: what waits for it is sent. -/
def resolveHop (port addr mac : Nat) (c : Chip) : Chip :=
  let n := c.net
  let nb := n.neighbors.filter (fun x => !(x.port == port && x.addr == addr)) ++ [{ port := port, addr := addr, mac := mac }]
  let hit (w : Unresolved) : Bool := w.dgram.port == port && w.hop == addr
  let go := n.waiting.filter hit
  let c := { c with net := { n with neighbors := nb, waiting := n.waiting.filter (fun w => !hit w) } }
  go.foldl (fun c w => countSent w.dgram (transmit (.datagram w.dgram mac) c)) c

/-- R178: datagrams whose next hop was not resolved within 1 s are dropped and counted. -/
def dropUnresolved (t : Nat) (c : Chip) : Chip :=
  let old (w : Unresolved) : Bool := decide (w.since + 1000000000 ≤ t)
  let go := c.net.waiting.filter old
  let c := { c with net := { c.net with waiting := c.net.waiting.filter (fun w => !old w) } }
  go.foldl (fun c w => countDropped w.dgram.origin c) c

/-! Result datagrams (R220-R223). -/

/-- R310: the number space and the number of a channel's next datagram. -/
def ochNumber (c : Chip) (och : Nat) : Nat := cellsGet 0 c.net.nums och
def epochField (c : Chip) (num : Nat) : Nat := num / 2 ^ 32 % 2 ^ 15 + (if c.net.space then 2 ^ 15 else 0)

/-- R221: the 48-byte header. -/
def resultHeader (c : Chip) (o : OchEntry) (key num flags ts len : Nat) : List Byte :=
  bytesLE 1 1 ++ bytesLE 1 key ++ bytesLE 2 o.och ++ bytesLE 4 (num % 2 ^ 32) ++ bytesLE 2 (epochField c num) ++ bytesLE 2 flags
    ++ bytesLE 4 (objGet c 0x1018 0x04 0) ++ bytesLE 8 c.tk.tick ++ bytesLE 2 o.tenant ++ bytesLE 2 o.stream ++ bytesLE 4 ts
    ++ bytesLE 4 len ++ bytesLE 8 (if objGet c 0x1F10 0x05 0 != 0 then objGet c 0x1F10 0x06 0 else 0)
    ++ bytesLE 4 (objGet c 0x2700 0x0A 0)

/-- R222: the datagram key of a result key. -/
def datagramKey (c : Chip) (k : BitVec 256) : BitVec 256 :=
  Config.sha3 (bytesLE 32 k.toNat ++ bytesLE 4 (objGet c 0x1018 0x04 0) ++ bytesLE 4 (objGet c 0x2700 0x0A 0))

/-- Whether the module emits datagrams of a channel: an inactive member of a redundant pair does not, unless the pair is
lockstep and the channel dual-send (R307, R308); 2620.07 shows which module is active. A joined standby emits nothing until
its convergence ends (R307). -/
def emitsChannel (c : Chip) (o : OchEntry) : Bool :=
  let role := objGet c 0x2620 0x01 0
  role == 0 || (c.link.pair.converge == 0
    && (objGet c 0x2620 0x07 0 == 1 || (bitOf o.flags 1 && decide (objGet c 0x2620 0x03 0 < 7))))

/-- R223: emit a datagram of a channel with its picture flags and RTP timestamp; an invalid one has its payload zeroed. -/
def emitResult (o : OchEntry) (payload : List Byte) (invalid : Bool) (picFlags ts : Nat) (c : Chip) : Chip :=
  let num := ochNumber c o.och
  let late := c.tk.edgeAt.isSome
  let flags := (if invalid then 1 else 0) + (if late then 2 else 0) + picFlags
  let body := if invalid then List.replicate payload.length 0 else payload
  let c1 := { c with net := { c.net with nums := cellsSet 0 c.net.nums o.och ((num + 1) % 2 ^ 47) } }
  let c1 := objSet 0x2332 0x05 o.och (num % 2 ^ 32) (objSet 0x2332 0x06 o.och (epochField c num) c1)
  if !emitsChannel c o then c1 else
  let c1 := if invalid then objBump 0x2332 0x02 o.och 1 c1 else c1
  let c1 := if late then objBump 0x2332 0x03 o.och 1 c1 else c1
  let dst := objGet c 0x2331 0x01 o.och
  let enc := bitOf o.flags 0
  let ipLen := (if isV4 dst then 20 else 40) + 8 + 48 + payload.length + (if enc then 16 else 0)
  let key := if enc then currentKey c 2 o.tenant else none
  if dst = 0 || (enc && key.isNone) || objGet c 0x2331 0x04 o.och < ipLen then countDropped (.channel o.och) c1
  else
    let g := match key with | some (g, _) => g | none => 0
    let h := resultHeader c o (if enc then 0x80 + g else 0) num flags ts payload.length
    let nonce := bytesLE 2 o.och ++ bytesLE 2 (epochField c num) ++ bytesLE 4 (num % 2 ^ 32) ++ bytesLE 4 (objGet c 0x1018 0x04 0)
    let data := match key with
      | some (_, k) => gcmSeal (datagramKey c k.key) nonce h body
      | none => body
    emitDatagram { port := o.port, dst := dst, sport := objGet c 0x2331 0x03 o.och, dport := objGet c 0x2331 0x02 o.och
                   payload := h ++ data, origin := .channel o.och } c1

/-! PTP (R179, R180). Messages are laid out as IEEE 1588-2019 lays them out. -/

def ptpSlavePort (c : Chip) : Option Nat :=
  match objGet c 0x1F10 0x01 0 with | 1 => some 0 | 2 => some 1 | 3 => some 0 | 4 => some 1 | _ => none
def ptpMasterPort (c : Chip) : Option Nat :=
  match objGet c 0x1F10 0x01 0 with | 3 => some 1 | 4 => some 0 | _ => none
def ptpType (b : List Byte) : Nat := numAt b 0 1 % 16
def ptpSeq (b : List Byte) : Nat := numAtBE b 30 2
def ptpTwoStep (b : List Byte) : Bool := bitOf (numAt b 6 1) 1
def ptpCorr (b : List Byte) : Int := sx 64 (numAtBE b 8 8) / 65536
def ptpStamp (b : List Byte) : Nat := numAtBE b 34 6 * 1000000000 + numAtBE b 40 4
def ptpSource (b : List Byte) : List Byte := bytesAt b 20 10
/-- R179: a message of this domain, protocol version 2. -/
def ptpOk (c : Chip) (b : List Byte) : Bool :=
  decide (44 ≤ b.length) && numAt b 1 1 % 16 == 2 && numAt b 4 1 == objGet c 0x1F10 0x02 0 % 128
/-- The oldest waiting message of a type on a port. -/
def takePtp (type : Nat) (port : Option Nat) (c : Chip) : Option (RxFrame × Chip) :=
  takeRx (fun f => f.cls = .ptp && ptpType f.payload == type && port == some f.port && ptpOk c f.payload) c

/-- 2^k seconds in ns, k from -4 to 3. -/
def logInterval (k : Int) : Nat := if k < 0 then 1000000000 / 2 ^ (-k).toNat else 1000000000 * 2 ^ k.toNat

/-- Set the PTP state; in the unlocked state the boundary time is 0 (R180). -/
def setPtpState (st : Nat) (c : Chip) : Chip :=
  let c := objSet 0x1F10 0x05 0 st c
  if st = 0 then objSet 0x1F10 0x06 0 0 c else c

/-- R180: a measured Sync: master time t1 (corrected), local receive time t2. -/
def measureSync (t1 t2 : Nat) (corr : Int) (log : Int) (c : Chip) : Chip :=
  let p := c.net.ptp
  let m : Int := t1 + corr + p.delay
  let err : Int := (ptpTime c t2 : Int) - m
  let ok := decide (err.natAbs ≤ 100)
  let inRow := if ok then p.inRow + 1 else 0
  let st := objGet c 0x1F10 0x05 0
  let st' := if st = 0 then (if 16 ≤ inRow then 1 else 0) else if st = 2 then (if ok then 1 else 0) else 1
  let p' : PtpSt := { p with inRow := inRow, lastSync := some t2, interval := logInterval log, prevMaster := p.master, prevLocal := p.local_
                             master := m.toNat, local_ := t2, msDiff := (t2 : Int) - t1 - corr }
  setPtpState st' { c with net := { c.net with ptp := p' } }

/-- R180: four Sync intervals without a valid Sync. -/
def syncTimeout (t : Nat) (c : Chip) : Chip :=
  match c.net.ptp.lastSync with
  | none => c
  | some l => if objGet c 0x1F10 0x05 0 = 1 && decide (l + 4 * c.net.ptp.interval ≤ t) then setPtpState 2 c else c
/-- R180: holdover ends 10 s after the last valid Sync. -/
def holdoverExpiry (t : Nat) (c : Chip) : Chip :=
  match c.net.ptp.lastSync with
  | none => c
  | some l =>
    if objGet c 0x1F10 0x05 0 = 2 && decide (l + 10000000000 ≤ t)
    then setPtpState 0 { c with net := { c.net with ptp := { c.net.ptp with inRow := 0 } } } else c

/-- Order of the default best master clock algorithm: lexicographic on the announced ranks. -/
def rankLess : List Nat → List Nat → Bool
  | [], _ => false
  | _ :: _, [] => false
  | a :: s, b :: t => decide (a < b) || (a == b && rankLess s t)
/-- R179: no Announce message of a master for three of its intervals (announceReceiptTimeout of the default profile): it is no
longer followed. -/
def Announced.silent (a : Announced) (t : Nat) : Bool := decide (a.t + 3 * a.every ≤ t)
/-- The announced data set. -/
def announcedOf (f : RxFrame) : Announced :=
  let b := f.payload
  { port := f.port, source := ptpSource b, t := f.t
    every := logInterval (sx 8 (numAt b 33 1))
    rank := [numAt b 47 1, numAt b 48 1, numAt b 49 1, numAtBE b 50 2, numAt b 52 1, numAtBE b 53 8, numAtBE b 61 2] }

end Sys2Proof.Machine
end

