-- ==== Sys2Proof/Machine/Video.lean ====
section
/-! DEFINITION. Streams: ingest, decoding, slot handover, encoding (spec/06_video_path.md R185-R201, R213-R218). -/

namespace Sys2Proof.Machine

def streamAt (c : Chip) (s : Nat) : StreamSt := (cellsFind c.video.streams s).getD {}
def setStream (s : Nat) (v : StreamSt) (c : Chip) : Chip := { c with video := { c.video with streams := cellsPut c.video.streams s v } }
def modStream (s : Nat) (f : StreamSt → StreamSt) (c : Chip) : Chip := setStream s (f (streamAt c s)) c

/-- The declaration of a stream in the loaded plan. -/
def vdecl (c : Chip) (s : Nat) : Option VStream := match c.plan.loaded with | none => none | some p => planStream p s

/-- A function that runs: not aborted, not completed, its tenant not shed (R159, R357). -/
def fnLive (c : Chip) (fn tenant : Nat) : Bool := !c.plan.aborted.contains fn && !c.plan.shed.contains tenant

/-- 2302.01 (Table 6-16). -/
def showStream (s : Nat) (c : Chip) : Chip :=
  let st := streamAt c s
  let v := if objGet c 0x2301 0x01 s = 0 then 0 else if st.aborted then 4 else if st.refused then 3 else if st.waitIrap then 1 else 2
  objSet 0x2302 0x01 s v c

/-- R159, R193, R366: the decoder context reset. -/
def resetDecoder (s : Nat) (c : Chip) : Chip :=
  let core := match vdecl c s with | some v => v.dcore | none => 0
  let q := cellsGet [] c.video.cores core
  let since := if (match q with | u :: _ => u.1 == s | [] => false) then cellsSet 0 c.video.since core c.tk.now else c.video.since
  let c := { c with video := { c.video with cores := cellsSet [] c.video.cores core (q.filter (fun u => u.1 != s)), since := since } }
  showStream s (modStream s (fun st => { st with waitIrap := true, skipRasl := false, refused := false
                                                 pictures := st.pictures.filter (·.complete) }) c)
/-- R185: the packet store emptied and the decoder context reset. -/
def resetStream (s : Nat) (c : Chip) : Chip :=
  resetDecoder s (modStream s (fun st => { st with packets := [], next := none, partial_ := none, gap := false, held := []
                                                   srtp := none, replay := [] }) c)

/-! RTP (R186-R190). -/

/-- R186: payload offset and length of an RTP version 2 packet; none when it is malformed. -/
def rtpBody (b : List Byte) : Option (Nat × Nat) :=
  let b0 := numAt b 0 1
  let off := 12 + 4 * (b0 % 16)
  let off := if bitOf b0 4 then off + 4 + 4 * numAtBE b (off + 2) 2 else off
  let pad := if bitOf b0 5 then numAt b (b.length - 1) 1 else 0
  if b0 / 64 ≠ 2 || b.length < off + pad then none else some (off, b.length - off - pad)

/-- R188, Table 6-6: payload types a depacketizer supports. -/
def payloadOk (codec : Nat) (d : List Byte) : Bool :=
  match codec with
  | 0 => let t := numAt d 0 1 % 32; (decide (1 ≤ t) && decide (t ≤ 24)) || t == 28
  | 1 => let t := numAt d 0 1 / 2 % 64; decide (t ≤ 49)
  | _ =>
    let t := numAt d 4 1
    let q := numAt d 5 1
    (t == 0 || t == 1 || t == 64 || t == 65) && ((decide (1 ≤ q) && decide (q ≤ 99)) || decide (128 ≤ q))

/-- RFC 3711: the packet index estimated from the highest one. -/
def srtpIndex (highest : Option Nat) (seq : Nat) : Nat :=
  match highest with
  | none => seq
  | some h =>
    let roc := h / 65536
    let sl := h % 65536
    let v := if sl < 32768 then (if sl + 32768 < seq && 0 < roc then roc - 1 else roc)
      else (if seq + 32768 < sl then roc + 1 else roc)
    v * 65536 + seq

/-- RFC 7714: the 12-byte nonce. -/
def srtpNonce (salt : BitVec 96) (ssrc : List Byte) (index : Nat) : List Byte :=
  let raw := bytesLE 2 0 ++ ssrc ++ (bytesLE 6 index).reverse
  (raw.zip (bytesLE 12 salt.toNat).reverse).map (fun p => p.1 ^^^ p.2)

/-- R187: open an SRTP packet under one key. -/
def srtpOpen (k : KeyPos) (index off : Nat) (b : List Byte) : Option (List Byte) :=
  let body := b.drop off
  gcmOpen (Config.srtpKey k.key k.salt) (srtpNonce (Config.srtpSalt k.key k.salt) (bytesAt b 8 4) index) (b.take off)
    (body.take (body.length - 16)) (body.drop (body.length - 16))

/-- R187: authenticate a packet of a stream: its plain bytes and packet index. -/
def srtpPacket (c : Chip) (s : Nat) (b : List Byte) : Option (List Byte × Nat) :=
  let st := streamAt c s
  let index := srtpIndex st.srtp (numAtBE b 2 2)
  let fresh := match st.srtp with
    | none => true
    | some h => decide (h < index + 64) && !st.replay.contains index
  let off := 12 + 4 * (numAt b 0 1 % 16)
  let off := if bitOf (numAt b 0 1) 4 then off + 4 + 4 * numAtBE b (off + 2) 2 else off
  if !fresh || b.length < off + 16 then none
  else if objGet c 0x2301 0x07 s = 2 then
    let mki := numAt b (b.length - 1) 1
    if 1 < mki then none
    else match liveKey c 3 s mki with
      | none => none
      | some k => (srtpOpen k index off (b.take (b.length - 1))).map (fun d => (b.take off ++ d, index))
  else
    let try_ (g : Option (Nat × KeyPos)) : Option (List Byte × Nat) :=
      match g with | none => none | some (_, k) => (srtpOpen k index off b).map (fun d => (b.take off ++ d, index))
    match try_ (currentKey c 3 s) with
    | some r => some r
    | none => try_ (retiringKey c 3 s)

/-- One released packet at time t: packets of one RTP timestamp are a unit, which the marker bit ends (R186, R189). A unit that ends
without one, or with a packet missing or unsupported, has lost a part (R188, R195). -/
def releasePacket (t : Nat) (st : StreamSt) (p : Packet) : StreamSt :=
  let own : CodedUnit := { ts := p.ts, payloads := if p.bad then [] else [p.payload], lost := p.bad, first := t }
  let out : List CodedUnit × CodedUnit := match st.partial_ with
    | none => ([], own)
    | some u =>
      if u.ts = p.ts then ([], { u with payloads := u.payloads ++ own.payloads, lost := u.lost || st.gap || p.bad })
      else ([{ u with lost := true }], own)
  { st with held := st.held ++ out.1 ++ (if p.marker then [out.2] else []), partial_ := if p.marker then none else some out.2, gap := false }

/-- R189: release in sequence order while the next packet is there. -/
def releaseRun (t : Nat) : Nat → StreamSt → StreamSt
  | 0, st => st
  | fuel + 1, st =>
    match st.next with
    | none => st
    | some n =>
      match st.packets.find? (fun p => p.seq == n) with
      | none => st
      | some p =>
        releaseRun t fuel (releasePacket t { st with next := some ((n + 1) % 65536), packets := st.packets.filter (fun q => q.seq != n) } p)

/-- How far a sequence number lies ahead of the next expected one. -/
def seqAhead (next seq : Nat) : Nat := (seq + 65536 - next % 65536) % 65536

/-- The stored packet nearest ahead of the gap. -/
def nearestAhead (next : Nat) (ps : List Packet) : Option Nat :=
  (ps.map (fun p => seqAhead next p.seq)).foldl (fun m d => match m with | none => some d | some x => some (min x d)) none

/-- R189: release what can be released. -/
def settleStream (s t : Nat) (c : Chip) : Chip :=
  let held := match vdecl c s with | some v => engineHeld c .decode v.dcore | none => false
  modStream s (fun st => if held then st else releaseRun t (st.packets.length + 1) st) c

/-- R189: the time at which the open gap was seen: that of the first packet that arrived beyond it. -/
def gapSince (st : StreamSt) : Option Nat :=
  if st.packets.any (fun p => some p.seq == st.next) then none
  else st.packets.foldl (fun m p => match m with | none => some p.t | some x => some (min x p.t)) none

/-- R189: the open gap is declared lost, counted, and release continues past it. -/
def declareLost (s t : Nat) (c : Chip) : Chip :=
  let st := streamAt c s
  match st.next with
  | none => c
  | some n =>
    match nearestAhead n st.packets with
    | none => c
    | some d =>
      let c := objBump 0x2302 0x03 s d c
      settleStream s t (setStream s { st with next := some ((n + d) % 65536), gap := true } c)

/-- Bytes a stream holds in the packet store, and the store's size (R190). -/
def storeBytes (st : StreamSt) : Nat := (st.packets.map (fun p => p.payload.length)).sum
def storeTotal (c : Chip) : Nat := (c.video.streams.map (fun e => storeBytes e.2)).sum
/-- R190: a full store declares the oldest gap of the stream that holds the most bytes lost. -/
def storeLimit (t : Nat) (c : Chip) : Chip :=
  if storeTotal c ≤ 16 * 1024 * 1024 then c
  else
    match c.video.streams.foldl (fun b e => match b with
        | none => some e
        | some x => if storeBytes x.2 < storeBytes e.2 then some e else some x) none with
    | none => c
    | some e => declareLost e.1 t (objBump 0x2340 0x06 0 1 c)

/-- R189: a packet enters its stream's order. -/
def placePacket (s t : Nat) (p : Packet) (c : Chip) : Chip :=
  let st := streamAt c s
  match st.next with
  | none => settleStream s t (setStream s { st with next := some p.seq, packets := [p] } c)
  | some n =>
    let d := seqAhead n p.seq
    if 32768 ≤ d || st.packets.any (fun q => q.seq == p.seq) then objBump 0x2302 0x04 s 1 c
    else if 65 ≤ d then
      let c := objBump 0x2302 0x03 s d c
      settleStream s t (setStream s { st with next := some p.seq, packets := [p], gap := true } c)
    else
      let c := settleStream s t (setStream s { st with packets := st.packets ++ [p] } c)
      let c := if 64 ≤ (streamAt c s).packets.length then declareLost s t c else c
      storeLimit t c

/-- RTP_PACKET: the oldest classified packet of stream s (R186-R190). One of an unsupported type takes its place in the order without
its payload: its unit has lost a part (R188). -/
def rtpPacket (s : Nat) (c : Chip) : Chip :=
  match takeRx (fun f => f.cls = .rtp s) c with
  | none => c
  | some (f, c) =>
    let c := objBump 0x2302 0x02 s 1 c
    let mode := objGet c 0x2301 0x07 s
    let plain := if mode = 0 then some (f.payload, 0) else srtpPacket c s f.payload
    match plain with
    | none =>
      let c := objBump 0x2302 0x05 s 1 c
      let mki := numAt f.payload (f.payload.length - 1) 1
      if mode = 2 && decide (mki ≤ 1) && keyRetired c 3 s mki then integrityFail ((streamTenant c s).getD 0) c else c
    | some (b, index) =>
      let c := if mode = 0 then c else modStream s (fun st =>
        { st with srtp := some (max index (st.srtp.getD 0)), replay := (st.replay ++ [index]).drop ((st.replay.length + 1) - 64) }) c
      match rtpBody b with
      | none => objBump 0x2302 0x06 s 1 c
      | some (off, len) =>
        let d := bytesAt b off len
        let codec := match vdecl c s with | some v => v.codec | none => 0
        if numAt b 1 1 % 128 ≠ objGet c 0x2301 0x09 s then objBump 0x2302 0x06 s 1 c
        else
          let bad := !payloadOk codec d
          placePacket s f.t { seq := numAtBE b 2 2, ts := numAtBE b 4 4, marker := decide (128 ≤ numAt b 1 1)
                              payload := if bad then [] else d, t := f.t, bad := bad } (if bad then objBump 0x2302 0x06 s 1 c else c)

/-- GAP_JITTER_TIMEOUT (R189). -/
def gapTimeout (s t : Nat) (c : Chip) : Chip :=
  match gapSince (streamAt c s) with
  | none => c
  | some g => if g + objGet c 0x2301 0x08 s * 1000000 ≤ t then declareLost s t c else c

/-- R196: a unit takes its place in a core's queue, by the release of its first packet; the unit at the front is being decoded. -/
def enqueueUnit (s : Nat) (u : CodedUnit) : List (Nat × CodedUnit) → List (Nat × CodedUnit)
  | [] => [(s, u)]
  | f :: t => f :: (t.takeWhile (fun x => decide (x.2.first ≤ u.first)) ++ (s, u) :: t.dropWhile (fun x => decide (x.2.first ≤ u.first)))

/-- PICTURE_RELEASE (R196): the oldest held picture goes to its core, 0.9 of the frame period after the previous one. -/
def releasePicture (s t : Nat) (c : Chip) : Chip :=
  match vdecl c s, (streamAt c s).held with
  | some v, u :: rest =>
    let due := match (streamAt c s).released with
      | none => true
      | some r => decide (r * v.fpsNum + 900000000 * v.fpsDen ≤ t * v.fpsNum)
    if due && !engineHeld c .decode v.dcore then
      let q := cellsGet [] c.video.cores v.dcore
      let c := modStream s (fun st => { st with held := rest, released := some t }) c
      { c with video := { c.video with cores := cellsSet [] c.video.cores v.dcore (enqueueUnit s u q)
                                       since := if q.isEmpty then cellsSet 0 c.video.since v.dcore t else c.video.since } }
    else c
  | _, _ => c

/-! What a unit's payloads carry (R188, R193). -/

/-- NAL unit types of an aggregation packet: 2-byte sizes, each before its NAL unit. -/
def aggregated (h265 : Bool) : Nat → List Byte → List Nat
  | 0, _ => []
  | n + 1, b =>
    if b.length < 3 then []
    else (if h265 then numAt b 2 1 / 2 % 64 else numAt b 2 1 % 32) :: aggregated h265 n (b.drop (2 + numAtBE b 0 2))
/-- NAL unit types of a payload (RFC 6184, RFC 7798): of a single NAL unit, of each in an aggregation packet, of a fragment. -/
def payloadNals (codec : Nat) (d : List Byte) : List Nat :=
  match codec with
  | 0 => (match numAt d 0 1 % 32 with
    | 24 => aggregated false d.length (d.drop 1)
    | 28 => [numAt d 1 1 % 32]
    | n => [n])
  | 1 => (match numAt d 0 1 / 2 % 64 with
    | 48 => aggregated true d.length (d.drop 2)
    | 49 => [numAt d 2 1 % 64]
    | n => [n])
  | _ => []
def unitNals (codec : Nat) (u : CodedUnit) : List Nat := u.payloads.flatMap (payloadNals codec)
/-- R193: an IRAP picture: IDR for H.264; BLA, IDR or CRA for H.265; every JPEG frame. -/
def unitIrap (codec : Nat) (u : CodedUnit) : Bool :=
  codec == 2 || (unitNals codec u).any (fun n => if codec = 0 then n == 5 else decide (16 ≤ n) && decide (n ≤ 21))
/-- A RASL picture of H.265. -/
def unitRasl (codec : Nat) (u : CodedUnit) : Bool := codec == 1 && (unitNals codec u).any (fun n => n == 8 || n == 9)
/-- R193: a unit that the decoder takes: not before the first IRAP picture, and no RASL picture of that one. -/
def unitTaken (v : VStream) (st : StreamSt) (u : CodedUnit) : Bool :=
  !(st.waitIrap && !unitIrap v.codec u) && !(st.skipRasl && unitRasl v.codec u)

/-- R191, R192: whether a picture fits Table 6-7 and its stream's declaration. -/
def paramsFit (v : VStream) (p : CodedParams) : Bool :=
  let profiles : List CodedProfile := match v.codec with
    | 0 => [.baseline, .main, .high]
    | 1 => [.main, .main10]
    | _ => [.jpegBaseline]
  let chroma : List Chroma := match v.codec with
    | 0 => [.mono, .c420]
    | 1 => [.c420]
    | _ => [.c420, .c422]
  let bits := p.bits == 8 || (p.profile == .main10 && decide (8 ≤ p.bits) && decide (p.bits ≤ 10))
  profiles.contains p.profile && chroma.contains p.chroma && bits && (p.profile != .main10 || v10bit v) && !p.refusedTool
    && (v.codec == 2 || decide (p.level ≤ v.level)) && !(v.codec == 1 && p.highTier) && p.w == v.w && p.h == v.h

/-! Decoding (R191-R197). -/

/-- Mid-grey of a sample depth (R195). -/
def midGrey (tenBit : Bool) : Nat := if tenBit then 512 else 128

/-- A sample of a picture: mid-grey where it has no chroma planes (R191), or where its line of the frame buffer came back poisoned or
uncorrectable (R267). -/
def pictureSample (v : VStream) (p : Picture) (plane y x : Nat) : Nat :=
  if (p.mono && plane ≠ 0) || (!p.badLines.isEmpty && p.badLines.contains (Config.framePlace (v.w + 65536 * v.h) plane y x / 64))
  then midGrey p.tenBit else cellsGet 0 p.samples (plane * 2 ^ 26 + y * 2 ^ 13 + x)

/-- R195: the samples with undecoded units concealed. -/
def conceal (prev : Option Picture) (d : Decoded) : Cells Nat :=
  d.bad.flatten.foldl (fun m k =>
    cellsSet 0 m k (match prev with | some p => cellsGet 0 p.samples k | none => midGrey (decide (8 < d.params.bits)))) d.samples
/-- R195: what undecoded units are filled from: the most recent reference picture; of a JPEG stream, the previous picture of its frame
buffer, if it has one. -/
def concealFrom (v : VStream) (id : Nat) (ps : List Picture) : Option Picture :=
  let older := ps.filter (fun p => p.complete && p.id != id)
  if v.codec = 2 then (if vFrameBuffer v then older.getLast? else none) else (older.filter (·.isRef)).getLast?

/-- R211: a slot's picture stays until the end of the tick in which the stream's next slot binds. -/
def stillBound (tick id : Nat) : List SlotUse → Bool
  | [] => false
  | u :: rest => (u.pic == some id && (match rest.find? (·.pic.isSome) with | none => true | some n => n.tick == tick)) || stillBound tick id rest
/-- Pictures kept: those a frame buffer of FB_PICS holds, those still incomplete, and those a slot holds (R211). -/
def trimPictures (keep tick : Nat) (slots : List SlotUse) (ps : List Picture) : List Picture :=
  (ps.take (ps.length - keep)).filter (fun p => !p.complete || stillBound tick p.id slots) ++ ps.drop (ps.length - keep)

/-- Take the unit at the front of a core's queue at time t; the core begins the next. -/
def coreFront (core t : Nat) (c : Chip) : Option (Nat × CodedUnit × Chip) :=
  match cellsGet [] c.video.cores core with
  | [] => none
  | (s, u) :: rest => some (s, u, { c with video := { c.video with cores := cellsSet [] c.video.cores core rest, since := cellsSet 0 c.video.since core t } })

/-- The picture being decoded from a unit has its entry from its first slice, or from a slot that binds it (R199). -/
def decoding (ts : Nat) (st : StreamSt) : StreamSt :=
  if st.pictures.any (fun p => !p.complete && p.ts == ts) then st
  else { st with pictures := st.pictures ++ [{ id := st.nextPic, ts := ts }], nextPic := st.nextPic + 1 }
/-- The entry of that picture. -/
def decodingId (ts : Nat) (st : StreamSt) : Nat :=
  match st.pictures.find? (fun p => !p.complete && p.ts == ts) with | some p => p.id | none => st.nextPic
/-- R192, R193: a picture that is discarded is not bound. -/
def dropDecoding (ts : Nat) (st : StreamSt) : StreamSt :=
  let st := decoding ts st
  { st with pictures := st.pictures.filter (fun p => p.complete || p.ts != ts) }

/-- R197: slices of a direct stream waiting in the handover buffer, oldest first: picture and slice. -/
def quotaSlices (st : StreamSt) : List (Nat × Nat) :=
  st.pictures.flatMap (fun p => (p.ready.filter (fun b => !p.taken.contains b)).map (fun b => (p.id, b)))
/-- R197: slice b of a picture enters the stream's quota; when that is full, its oldest slice is overwritten and counted. -/
def quotaPut (s quota id b : Nat) (c : Chip) : Chip :=
  let st := streamAt c s
  let old := if quota ≤ (quotaSlices st).length then (quotaSlices st).head? else none
  let drop (p : Picture) : Picture := match old with
    | some (i, x) => if p.id = i then { p with ready := p.ready.filter (· != x) } else p
    | none => p
  let add (p : Picture) : Picture :=
    if p.id = id then { p with ready := p.ready.filter (· != b) ++ [b], done := p.done.filter (· != b) ++ [b] } else p
  let c := setStream s { st with pictures := st.pictures.map (fun p => add (drop p)) } c
  if old.isSome then objBump 0x2302 0x12 s 1 c else c

/-- R221, R223: the slots that bound a picture carry its state. -/
def noteSlots (p : Picture) (st : StreamSt) : StreamSt :=
  { st with slots := st.slots.map (fun u => if u.pic = some p.id then { u with ts := p.ts, damaged := p.damaged, tainted := p.tainted } else u) }

/-- The lines [lo, hi) of the frame buffer that a picture stands in (R183): frame id mod FB_PICS of its region. -/
def frameLines (c : Chip) (v : VStream) (id : Nat) : Nat × Nat :=
  match c.plan.loaded.bind (fun p => (planRegions p)[v.fbRegion]?) with
  | some r =>
    let n := picBytes v / 64
    let lo := r.base / 64 + id % max 1 v.fbPics * n
    (lo, lo + n)
  | none => (0, 0)
/-- A picture written to its frame: its lines are codewords again. Their bytes stand in the picture's samples. -/
def writeFrame (v : VStream) (id : Nat) (c : Chip) : Chip :=
  if v.fbPics = 0 then c else let l := frameLines c v id; unpoison l.1 l.2 (zeroLines l.1 l.2 c)

/-- R192: a picture refused: counted, never bound. -/
def refuseUnit (s : Nat) (u : CodedUnit) (c : Chip) : Chip :=
  showStream s (modStream s (fun st => { dropDecoding u.ts st with refused := true }) (objBump 0x2302 0x0A s 1 c))

/-- R193-R196: the unit u of stream s, as the core leaves it. -/
def finishUnit (s : Nat) (u : CodedUnit) (d : Decoded) (c : Chip) : Chip :=
  match vdecl c s with
  | none => c
  | some v =>
    let st := streamAt c s
    if !unitTaken v st u then showStream s (setStream s (dropDecoding u.ts st) c)
    else if !paramsFit v d.params then refuseUnit s u c
    else
      let irap := unitIrap v.codec u
      let direct := !vFrameBuffer v
      let slices := List.range (vSlices v)
      let ref (r : Nat) : Option Picture := st.pictures.find? (fun p => p.id == r && p.complete)
      let refs := if irap then [] else d.refs
      let damaged := u.lost || !d.bad.isEmpty || refs.any (fun r => (ref r).isNone)
      let tainted := damaged || refs.any (fun r => match ref r with | some p => p.tainted | none => true)
      let st := decoding u.ts st
      let id := decodingId u.ts st
      let base : Picture := (st.pictures.find? (fun p => p.id == id)).getD { id := id, ts := u.ts }
      let pic : Picture := { base with ts := u.ts, tenBit := decide (8 < d.params.bits), full422 := d.params.chroma == .c422
                                       mono := d.params.chroma == .mono, samples := conceal (concealFrom v id st.pictures) d
                                       ready := if direct then base.ready else slices
                                       complete := true, damaged := damaged, tainted := tainted, isRef := d.isRef }
      let keep := max 2 (v.fbPics + v.quota)
      let st := noteSlots pic { st with pictures := trimPictures keep c.tk.tick st.slots (st.pictures.filter (fun p => p.id != id) ++ [pic])
                                        skipRasl := if irap then st.waitIrap else st.skipRasl, waitIrap := false, refused := false }
      let c := objBump 0x2302 0x07 s 1 (objSet 0x2302 0x0F s u.ts (objBump 0x2302 0x10 s d.bad.length (setStream s st c)))
      let c := if direct then (slices.filter (fun b => !base.done.contains b)).foldl (fun c b => quotaPut s v.quota id b c) c else c
      let c := if direct && !d.isRef then c else writeFrame v id c
      let c := if damaged then objBump 0x2302 0x08 s 1 c else c
      showStream s (if tainted then objBump 0x2302 0x09 s 1 c else c)

/-- R194: end of the core-time budget of the picture at a core's front, in ns: 1.25 W H / 2.0 Gpix/s + 20 µs from its start. -/
def budgetEnd (c : Chip) (core : Nat) : Option Nat :=
  match cellsGet [] c.video.cores core with
  | [] => none
  | (s, _) :: _ => (vdecl c s).map (fun v => cellsGet 0 c.video.since core + cdiv (v.w * v.h * 5) 8 + 20000)
/-- R194: the picture at a core's front ends at its budget: counted, and damaged from its first undecoded unit. -/
def expireBudget (core t : Nat) (d : Decoded) (c : Chip) : Chip :=
  match coreFront core t c with
  | none => c
  | some (s, u, c) => finishUnit s u { d with bad := if d.bad.isEmpty then [[]] else d.bad } (objBump 0x2302 0x11 s 1 c)
/-- PICTURE_DECODED (R193-R196) at time t: a core has finished the unit at its front, within its budget; at its budget the picture ends
as it is. -/
def decodePicture (core t : Nat) (d : Decoded) (c : Chip) : Chip :=
  if (match budgetEnd c core with | some b => decide (b < t) | none => false) then expireBudget core t d c
  else match coreFront core t c with
    | none => c
    | some (s, u, c) => finishUnit s u d c
/-- DECODE_BUDGET_EXPIRY (R194): the picture at the front has used up its budget. -/
def budgetExpiry (core t : Nat) (d : Decoded) (c : Chip) : Chip :=
  match budgetEnd c core with
  | some b => if b ≤ t then expireBudget core t d c else c
  | none => c
/-- PICTURE_REFUSED (R192): a picture that breaks Table 6-7 or its declaration is counted and never bound. -/
def refusePicture (core t : Nat) (d : CodedParams) (c : Chip) : Chip :=
  match cellsGet [] c.video.cores core with
  | [] => c
  | (s, u) :: _ =>
    match vdecl c s, coreFront core t c with
    | some v, some (_, _, c') =>
      if paramsFit v d then c
      else if unitTaken v (streamAt c s) u then refuseUnit s u c'
      else showStream s (modStream s (dropDecoding u.ts) c')
    | _, _ => c

/-- SLICE_DECODED (R197, R198): slice b of the picture at the front of a core is reconstructed; a direct stream's enters its
quota. -/
def decodeSlice (core b : Nat) (samples : Cells Nat) (c : Chip) : Chip :=
  match cellsGet [] c.video.cores core with
  | [] => c
  | (s, u) :: _ =>
    match vdecl c s with
    | none => c
    | some v =>
      if !unitTaken v (streamAt c s) u then c else
      let st := decoding u.ts (streamAt c s)
      let id := decodingId u.ts st
      let fb := vFrameBuffer v
      let put (p : Picture) : Picture :=
        if p.id = id then { p with samples := samples.foldl (fun m e => cellsSet 0 m e.1 e.2) p.samples
                                   ready := if fb then p.ready.filter (· != b) ++ [b] else p.ready } else p
      let c := setStream s { st with pictures := st.pictures.map put } c
      if fb then c else quotaPut s v.quota id b c

/-! Reads through the video memory port (R267). -/

/-- Plan lines of [lo, hi) that may not read clean: stored ones and those of the poison map or a revoked range. -/
def frameSuspects (c : Chip) (lo hi : Nat) : List Nat :=
  let served (k : Nat) : Nat := match c.hbm.spares.find? (fun p => p.2 == keyRow k) with | some p => p.1 * 16 + k % 16 | none => k
  let inside (n : Nat) : Bool := decide (lo ≤ n) && decide (n < hi)
  let listed := c.hbm.lines.filterMap (fun e => (keyPlanLine c (served e.1)).filter inside)
  let masked := (c.hbm.poison ++ c.hbm.revoked.map (fun r => (r.lo, r.hi))).flatMap (fun r =>
    (List.range (min r.2 hi - max r.1 lo)).map (· + max r.1 lo))
  (listed ++ masked).dedup
/-- Whether a line of a picture's frame holds a sample of slice b. -/
def sliceHolds (v : VStream) (p : Picture) (b line : Nat) : Bool :=
  let rows := 16 * max 1 v.bh
  (List.range 3).any (fun plane => (List.range rows).any (fun r => (List.range v.w).any (fun x =>
    let y := (rows * b + r) / (if plane = 0 || p.full422 then 1 else 2)
    Config.framePlace (v.w + 65536 * v.h) plane y (x / (if plane = 0 then 1 else 2)) / 64 == line)))
/-- R267: lines of slice b of a picture in its frame are read: those that come back poisoned or uncorrectable. -/
def readFrame (v : VStream) (p : Picture) (b : Nat) (c : Chip) : List Nat × Chip :=
  let l := frameLines c v p.id
  ((frameSuspects c l.1 l.2).filter (fun n => sliceHolds v p b (n - l.1))).foldl (fun (a : List Nat × Chip) n =>
    match planLineKey (vpcMask a.2) (64 * n) with
    | none => a
    | some k =>
      let r := dataRead k [] a.2
      (if r.1 = .poisoned || r.1 = .uncorrectable then a.1 ++ [n - l.1] else a.1, r.2.2)) ([], c)
/-- R267: a picture some of whose lines read back bad is damaged, and counted once (R195). -/
def markDamaged (s id : Nat) (bad : List Nat) (c : Chip) : Chip :=
  if bad.isEmpty then c
  else match (streamAt c s).pictures.find? (fun p => p.id == id) with
    | none => c
    | some p =>
      let q : Picture := { p with badLines := (p.badLines ++ bad).dedup, damaged := true, tainted := true }
      let c := modStream s (fun st => noteSlots q { st with pictures := st.pictures.map (fun x => if x.id = id then q else x) }) c
      let c := if p.damaged then c else objBump 0x2302 0x08 s 1 c
      if p.tainted then c else objBump 0x2302 0x09 s 1 c
/-- The slices of a picture read from its frame. -/
def readSlices (s : Nat) (v : VStream) (p : Picture) (bs : List Nat) (c : Chip) : Chip :=
  if !vFrameBuffer v then c
  else bs.foldl (fun c b => let r := readFrame v p b c; markDamaged s p.id r.1 r.2) c

/-! Slot handover (R198-R201). -/

/-- Slot entry j of an overlay in the loaded plan, with its stream. -/
def slotDecl (c : Chip) (ovl j : Nat) : Option (VSlot × VStream) :=
  match c.plan.loaded with
  | none => none
  | some p => match (planSlots p ovl)[j]? with
    | none => none
    | some sl => (planStream p sl.stream).map (fun v => (sl, v))

/-- R201: whether a due slot takes its handover. -/
def slotTaken (c : Chip) (ovl : Nat) (sl : VSlot) (v : VStream) : Bool :=
  entryActive c.plan.active ovl sl.disp && c.tk.mode = .running && !workPaused c && fnLive c v.fn v.tenant

/-- The slot's record in this tick. -/
def slotUse (st : StreamSt) (ovl j tick : Nat) : Option SlotUse :=
  st.slots.find? (fun u => u.ovl == ovl && u.idx == j && u.tick == tick)
def putSlotUse (u : SlotUse) (st : StreamSt) : StreamSt :=
  { st with slots := (st.slots.filter (fun x => !(x.ovl == u.ovl && x.idx == u.idx && x.tick == u.tick)) ++ [u]).drop ((st.slots.length + 1) - 260) }

/-- R199: the picture at the front of a stream's core is being decoded, unless the decoder does not take it (R193). -/
def underDecode (c : Chip) (s : Nat) (v : VStream) (st : StreamSt) : StreamSt :=
  match cellsGet [] c.video.cores v.dcore with
  | [] => st
  | (x, u) :: _ => if x == s && unitTaken v st u then decoding u.ts st else st
/-- R199: picture p is bound; the unbound ones before it are discarded. -/
def bindTo (p : Nat) (q : Picture) : Picture :=
  if q.id = p || (q.id ≤ p && q.spent) then { q with spent := true } else if q.id < p then { q with spent := true, ready := [] } else q

/-- R199: the picture a slot binds at the readiness point of slice 0. -/
def bindPicture (st : StreamSt) : Option Nat × List Picture × Nat :=
  let ready := st.pictures.filter (fun p => !p.spent && p.ready.contains 0)
  match ready.getLast? with
  | some p =>
    let older := (st.pictures.filter (fun q => !q.spent && q.complete && decide (q.id < p.id))).length
    (some p.id, st.pictures.map (bindTo p.id), older)
  | none =>
    match st.pictures.find? (fun p => !p.spent && !p.complete) with
    | some p => (some p.id, st.pictures.map (fun q => if q.id = p.id then { q with spent := true } else q), 0)
    | none => (none, st.pictures, 0)

/-- R307: the inactive module of a lockstep pair whose images match follows the active one. -/
def follows (c : Chip) : Bool :=
  objGet c 0x2620 0x01 0 != 0 && decide (objGet c 0x2620 0x03 0 < 7) && objGet c 0x2620 0x07 0 == 0 && c.link.pair.matched
/-- R307: the picture that the peer bound in this tick, or none; a binding that did not arrive, or names a picture not held
here, binds none and is a miss. -/
def followBind (c : Chip) (s : Nat) (st : StreamSt) : (Option Nat × List Picture × Nat) × Bool :=
  match c.link.pair.binds.find? (fun e => e.1 == s && e.2.1 == c.tk.tick) with
  | some (_, _, none) => ((none, st.pictures, 0), false)
  | some (_, _, some ts) =>
    match st.pictures.find? (fun p => !p.spent && p.ts == ts) with
    | some p => ((some p.id, st.pictures.map (bindTo p.id), 0), false)
    | none => ((none, st.pictures, 0), true)
  | none => ((none, st.pictures, 0), true)

/-- The record of a slot with the state of the picture it binds (R221, R223). -/
def slotOf (u : SlotUse) (ps : List Picture) : SlotUse :=
  match u.pic.bind (fun i => ps.find? (fun p => p.id == i)) with
  | some p => { u with ts := p.ts, damaged := p.damaged, tainted := p.tainted }
  | none => u
/-- R200: how a slice that is not ready is replaced. -/
def substOf (v : VStream) (handed : Bool) : SliceUse :=
  match vSubst v with
  | 0 => if handed then .previous else .grey
  | 2 => .skip
  | _ => .grey

/-- The plan position whose slots fall due: the armed one; in Paused no schedule is armed, and the slots that fall due are
not taken (R157, R201). -/
def slotPosition (c : Chip) : Option Nat :=
  match c.plan.armed, c.plan.loaded with
  | some pos, _ => some pos
  | none, some p => if c.tk.mode = .paused then some (c.tk.tick % max 1 p.cert.hp) else none
  | none, none => none

/-- SLICE_READINESS_POINT (R198-R201) of slice b of slot entry j. -/
def readinessPoint (ovl j b : Nat) (c : Chip) : Chip :=
  match slotDecl c ovl j, slotPosition c with
  | some (sl, v), some pos =>
    if sl.pos ≠ pos || vSlices v ≤ b then c
    else if !slotTaken c ovl sl v then objBump 0x2302 0x0E sl.stream 1 c
    else
      let s := sl.stream
      let st := underDecode c s v (streamAt c s)
      let led := b == 0 && follows c
      let fb := followBind c s st
      let c := if led && fb.2 then objBump 0x2621 0x06 0 1 c else c
      let bind := if led then fb.1 else if b = 0 then bindPicture st else (none, st.pictures, 0)
      let u0 : SlotUse := if b = 0 then slotOf { ovl := ovl, idx := j, tick := c.tk.tick, fc0 := sl.fc0, pic := bind.1 } bind.2.1
        else (slotUse st ovl j c.tk.tick).getD { ovl := ovl, idx := j, tick := c.tk.tick, fc0 := sl.fc0, pic := none }
      let pic := match u0.pic with | none => none | some i => bind.2.1.find? (fun (p : Picture) => p.id == i)
      let ready := !engineHeld c .decode v.dcore && (match pic with | some p => p.ready.contains b | none => false)
      let use := if ready then .ready else substOf v (st.handed.contains b)
      let u := { u0 with slices := u0.slices ++ [(b, use)] }
      let pics := bind.2.1.map (fun (p : Picture) => if ready && some p.id = u0.pic then { p with taken := p.taken ++ [b] } else p)
      let st := putSlotUse u { st with pictures := pics, handed := if ready && !st.handed.contains b then st.handed ++ [b] else st.handed }
      let c := objBump 0x2302 (if ready then 0x0C else 0x0D) s 1 (setStream s st c)
      let c := match pic with | some p => if ready then readSlices s v p [b] c else c | none => c
      tracePoint 64 0 (s * 256 + b) (if bind.2.2 = 0 then c else objBump 0x2302 0x0B s bind.2.2 c)
  | _, _ => c

/-- R201: a stream waits for an IRAP picture again after an abort or a restart (R193), and no slice counts as handed over. -/
def restartStream (s : Nat) (aborted : Bool) (c : Chip) : Chip :=
  showStream s (modStream s (fun st => { st with waitIrap := true, aborted := aborted, handed := [] }) c)

/-- Flags of Table 6-15 and the RTP timestamp for a channel's stream: the slot SLOT_LAG names (R221, R223). -/
def slotFlags (c : Chip) (o : OchEntry) : Nat × Nat :=
  let st := streamAt c o.stream
  let done := (st.slots.filter (·.ended)).reverse
  match (if o.stream = 0xFFFF then none else done[o.lag]?) with
  | none => (0, 0)
  | some u =>
    let has (k : SliceUse) : Bool := u.slices.any (fun x => x.2 = k)
    let sub := (if has .previous then 16 else 0) + (if has .grey || u.pic.isNone then 32 else 0) + (if has .skip then 64 else 0)
    if u.pic.isNone then (sub, 0) else (sub + (if u.damaged then 4 else 0) + (if u.tainted then 8 else 0), u.ts)

/-! Encoding (R213-R218). -/

/-- Whether a stream's encoder takes pictures (R213). -/
def encOn (c : Chip) (s : Nat) : Bool :=
  let e := (streamAt c s).enc
  match objGet c 0x2303 0x01 s with
  | 1 => !e.stopped
  | 2 => match e.clip with | some n => decide (0 < n) | none => false
  | _ => false

/-- R213: a sample as the encoder codes it: mid-grey in the slices listed, 10-bit samples as rne(s / 4), averaged over the
scale's block with one rounding to nearest even; two rows of 4:2:2 chroma make one of 4:2:0. -/
def encSample (p : Picture) (grey : List Nat) (v : VStream) (scale plane y x : Nat) : Nat :=
  let n := 2 ^ scale
  let tall := plane ≠ 0 && p.full422
  let ny := if tall then 2 * n else n
  let rows := (if plane = 0 || tall then 16 else 8) * max 1 v.bh
  let raw (yy xx : Nat) : Nat := if grey.contains (yy / rows) then midGrey p.tenBit else pictureSample v p plane yy xx
  let sum := ((List.range ny).flatMap (fun i => (List.range n).map (fun k => raw (y * ny + i) (x * n + k)))).sum
  rneShift sum (2 * scale + (if tall then 1 else 0) + (if p.tenBit then 2 else 0))

/-- The samples of a picture as the encoder codes it: luma, and chroma of half its width and height. -/
def encFrame (p : Picture) (grey : List Nat) (v : VStream) (scale : Nat) : Cells Nat :=
  (List.range 3).foldl (fun m plane =>
    let d := (if plane = 0 then 1 else 2) * 2 ^ scale
    (List.range (v.h / d)).foldl (fun m y =>
      (List.range (v.w / d)).foldl (fun m x => cellsSet 0 m (plane * 2 ^ 26 + y * 2 ^ 13 + x) (encSample p grey v scale plane y x)) m) m) []

/-- ENCODER_PICTURE_PASS (R213, R214): the picture bound to the stream's last ended slot. An IDR picture opens a session and follows each
period, each request, and a picture passed tainted or substituted; every JPEG picture stands alone. -/
def passPicture (s : Nat) (c : Chip) : Chip :=
  let st := streamAt c s
  match vdecl c s, st.slots.find? (fun u => u.ended && !u.passed) with
  | some v, some u =>
    let c := modStream s (putSlotUse { u with passed := true }) c
    let st := streamAt c s
    match u.pic.bind (fun i => st.pictures.find? (fun p => p.id == i)) with
    | none => c
    | some p =>
      if !vEncoder v || !encOn c s then c
      else if engineHeld c .encode v.ecore || 2 ≤ st.enc.queue.length then objBump 0x2304 0x04 s 1 c
      else
        let e := st.enc
        let sub := u.slices.any (fun x => x.2 ≠ .ready)
        let period := objGet c 0x2303 0x0A s
        let codec := objGet c 0x2303 0x02 s
        let scale := objGet c 0x2303 0x03 s
        let idr := codec == 2 || !e.started || e.idrAsked || (decide (0 < period) && decide (period ≤ e.sinceIdr + 1))
        let grey := (u.slices.filter (fun x => x.2 ≠ .ready)).map (·.1)
        let q : Passed := { ts := p.ts, tenBit := p.tenBit, samples := encFrame p grey v scale, idr := idr, grey := grey
                            codec := codec, w := v.w / 2 ^ scale, h := v.h / 2 ^ scale }
        let e' := { e with queue := e.queue ++ [q], started := true, sinceIdr := if idr then 0 else e.sinceIdr + 1
                           idrAsked := (p.tainted || sub) && objGet c 0x2303 0x14 s == 1, clip := e.clip.map (· - 1) }
        let c := { c with video := { c.video with ecores := cellsMod [] c.video.ecores v.ecore (· ++ [s]) } }
        objSet 0x2304 0x01 s 1 (setStream s { st with enc := e' } c)
  | _, _ => c

/-- A core that starts anew drops what it was coding of a stream; the session goes on with an IDR picture. -/
def dropCoding (s : Nat) (c : Chip) : Chip :=
  let c := modStream s (fun st => { st with enc := { st.enc with idrAsked := true, queue := [], slice := 0, bits := 0, outbox := [], window := none } }) c
  { c with video := { c.video with ecores := c.video.ecores.map (fun e => (e.1, e.2.filter (· != s))) } }

/-! The reference window (R215). -/

/-- At the start of a unit row the whole window is loaded: seven strips of 64 columns from x = -192 on. -/
def windowLoad (row : Nat) : EncWindow := { row := row, strips := (List.range 7).map (fun (i : Nat) => 64 * (i : Int) - 192) }
/-- At the step to the next column the strip ahead is loaded and the hindmost retired. -/
def windowStep (w : EncWindow) : EncWindow :=
  { w with strips := w.strips.drop 1 ++ (match w.strips.getLast? with | some x => [x + 64] | none => []) }
/-- A reference area within the window: 64-column strips, and rows from 96 above the unit to 159 below its first. -/
def windowHolds (w : EncWindow) (p : Prediction) : Bool :=
  let y0 : Int := 64 * (w.row : Int) - 96
  let col (x : Int) : Bool := w.strips.any (fun s => decide (s ≤ x) && decide (x < s + 64))
  decide (1 ≤ p.w) && decide (1 ≤ p.h) && col p.x && col (p.x + p.w - 1) && decide (y0 ≤ p.y) && decide (p.y + p.h ≤ y0 + 256)
/-- The units of a row in their order, each with its predictions inside the window; the window as the row leaves it. -/
def codeRow (cols row : Nat) (preds : List Prediction) : Bool × EncWindow :=
  (List.range cols).foldl (fun a col =>
    let w := if col = 0 then a.2 else windowStep a.2
    (a.1 && (preds.filter (fun p => p.row == row && p.col == col)).all (windowHolds w), w)) (true, windowLoad row)
/-- The unit rows [first, first + n) of a picture. -/
def codeRows (cols first n : Nat) (preds : List Prediction) : Bool × EncWindow :=
  (List.range n).foldl (fun a i => let r := codeRow cols (first + i) preds; (a.1 && r.1, r.2))
    (preds.all (fun p => decide (first ≤ p.row) && decide (p.row < first + n) && decide (p.col < cols)), windowLoad first)

/-! Rate control (R216). -/

/-- The QP range, and +-4 within a picture. -/
def qpNear (base : Nat) (qps : List Nat) : Bool :=
  qps.all (fun q => decide (10 ≤ q) && decide (q ≤ 51) && decide (q ≤ base + 4) && decide (base ≤ q + 4))
/-- Bits of a slice. -/
def sliceBits (d : CodedSlice) : Nat := 8 * (d.packets.map (·.length)).sum
/-- The hypothetical reference buffer at time t: filled at the bit rate up to its size, from which each picture takes its bits. -/
def hrdLevel (rate ms t : Nat) (e : EncSt) : Nat :=
  match e.hrd with
  | none => rate * ms
  | some (l, t0) => min (rate * ms) (l + rate * (t - t0) / 1000000)
/-- R216: whether a slice keeps to the mode of 2303.04. CQP: the fixed QPs. CBR: the buffer does not underflow, but where every row is at
the largest QP. CVBR: QP from 2303.07 up, and no 1 s window above the bit rate. -/
def rateOk (c : Chip) (s t level : Nat) (p : Passed) (e : EncSt) (d : CodedSlice) : Bool :=
  let g (sub : Nat) := objGet c 0x2303 sub s
  let base := if e.slice = 0 then d.qps.headD 0 else e.baseQp
  let bits := e.bits + sliceBits d
  match g 4 with
  | 0 => d.qps.all (· == g (if p.idr then 7 else 8))
  | 1 => qpNear base d.qps && (decide (bits ≤ level) || d.qps.all (· == 51))
  | _ => qpNear base d.qps && d.qps.all (fun q => decide (g 7 ≤ q))
      && decide (((e.recent.filter (fun x => decide (t < x.1 + 1000000000))).map (·.2)).sum + sliceBits d ≤ 1000 * g 5)

/-! Packetisation (R214, R218). -/

/-- The codec number of Table 6-4 for a codec of 2303.02. -/
def rtpCodec (codec : Nat) : Nat := match codec with | 0 => 1 | 1 => 0 | _ => 2
/-- A payload of RFC 6184 mode 1, RFC 7798 without DONL, or RFC 2435 type 1 at the quality of 2303.09. -/
def packetFits (codec quality : Nat) (b : List Byte) : Bool :=
  match codec with
  | 2 => decide (8 ≤ b.length) && numAt b 4 1 == 1 && (if quality ≤ 99 then numAt b 5 1 == quality else decide (128 ≤ numAt b 5 1))
  | _ => decide (2 ≤ b.length) && payloadOk (rtpCodec codec) b
/-- R214: the NAL units of a slice: parameter sets before an IDR picture, then slices of an IDR picture, or of a P picture. -/
def nalsFit (codec : Nat) (idr opening : Bool) (nals : List Nat) : Bool :=
  let h265 := codec == 0
  let vcl (n : Nat) : Bool := if h265 then decide (n < 32) else decide (1 ≤ n) && decide (n ≤ 5)
  let own : List Nat := if h265 then (if idr then [19, 20] else [0, 1]) else if idr then [5] else [1]
  let sets : List Nat := if h265 then [32, 33, 34] else [7, 8]
  codec == 2 || (nals.any vcl && (nals.filter vcl).all own.contains
    && (!(idr && opening) || sets.all (nals.takeWhile (fun n => !vcl n)).contains))

/-- R218: one RTP packet of an encoder. -/
def encPacket (s ts : Nat) (last : Bool) (body : List Byte) (c : Chip) : Chip :=
  let e := (streamAt c s).enc
  let r := takeFree c
  let seq := match e.seq with | some n => n | none => Config.randomDraw r.1 % 65536
  let c := match e.seq with | some _ => c | none => r.2
  -- the sequence number the session started from: RFC 3711 counts its roll-overs from there
  let first := (seq + 65536 - e.index % 65536) % 65536
  let h := bytesLE 1 0x80 ++ bytesLE 1 (objGet c 0x2303 0x10 s + (if last then 128 else 0)) ++ (bytesLE 2 seq).reverse
    ++ (bytesLE 4 ts).reverse ++ (bytesLE 4 (objGet c 0x2303 0x0F s)).reverse
  let data := if objGet c 0x2303 0x12 s = 0 then some (h ++ body)
    else (currentKey c 4 s).map (fun k => h ++ gcmSeal (Config.srtpKey k.2.key k.2.salt)
      (srtpNonce (Config.srtpSalt k.2.key k.2.salt) ((bytesLE 4 (objGet c 0x2303 0x0F s)).reverse) (first + e.index)) h body)
  let c := modStream s (fun st => { st with enc := { st.enc with seq := some ((seq + 1) % 65536)
                                                                 index := st.enc.index + 1 } }) c
  let dst := objGet c 0x2303 0x0D s
  let port := objGet c 0x2301 0x02 s % 2
  match data with
  | none => c
  | some d =>
    if dst = 0 then c
    else emitDatagram { port := port, dst := dst, sport := objGet c 0x2303 0x0E s, dport := objGet c 0x2303 0x0E s, payload := d
                        origin := .encoder s } c

/-- R214-R218: whether what the core makes of the unit rows [first, first + n) of a picture keeps the rules: payload format, in-band parameter
sets, MTU, rate control, and predictions within the window, of P pictures only. -/
def sliceOk (c : Chip) (s t level first n : Nat) (p : Passed) (e : EncSt) (d : CodedSlice) : Bool :=
  let ovh := if isV4 (objGet c 0x2303 0x0D s) then 20 + 8 + 12 else 40 + 8 + 12
  let tag := if objGet c 0x2303 0x12 s = 0 then 0 else 16
  !d.packets.isEmpty
    && d.packets.all (fun b => decide (b.length + ovh + tag ≤ objGet c 0x2303 0x11 s) && packetFits p.codec (objGet c 0x2303 0x09 s) b)
    && nalsFit p.codec p.idr (first == 0) (d.packets.flatMap (payloadNals (rtpCodec p.codec)))
    && (p.codec == 2 || (d.qps.length == n && rateOk c s t level p e d))
    && (d.preds.isEmpty || (p.codec != 2 && !p.idr)) && (codeRows (cdiv p.w 64) first n d.preds).1

/-- The packets of a picture leave, the marker on the last if the picture ends with them (R218). -/
def sendPackets (s ts : Nat) (last : Bool) (packets : List (List Byte)) (c : Chip) : Chip :=
  packets.zipIdx.foldl (fun c b => encPacket s ts (last && b.2 + 1 == packets.length) b.1 c) c

/-- The stream whose picture an encode core codes: sessions are served in order of passing (R217). -/
def codesNow (c : Chip) (s ecore : Nat) : Bool := match cellsGet [] c.video.ecores ecore with | x :: _ => x == s | [] => false

/-- ENCODER_SLICE_SENT (R214-R218) at time t: the next 2303.0B unit rows of the picture being coded. In sub-frame mode their packets leave at
once, otherwise when the picture is complete. What breaks a rule of the encoder is not sent. -/
def sendCoded (s t : Nat) (d : CodedSlice) (c : Chip) : Chip :=
  match vdecl c s, (streamAt c s).enc.queue with
  | some v, p :: rest =>
    let e := (streamAt c s).enc
    let rows := cdiv p.h 64
    let per := max 1 (objGet c 0x2303 0x0B s)
    let first := e.slice * per
    let n := min per (rows - first)
    let last := decide (rows ≤ first + per)
    let level := if e.slice = 0 then hrdLevel (objGet c 0x2303 0x05 s) (objGet c 0x2303 0x06 s) t e else (e.hrd.map (·.1)).getD 0
    if engineHeld c .encode v.ecore || !codesNow c s v.ecore || !sliceOk c s t level first n p e d then c
    else
      let bits := e.bits + sliceBits d
      let since := if e.slice = 0 then t else (e.hrd.map (·.2)).getD t
      let out := e.outbox ++ d.packets
      let now := objGet c 0x2303 0x0C s == 1
      let e' : EncSt := { e with
        slice := if last then 0 else e.slice + 1, bits := if last then 0 else bits
        baseQp := if e.slice = 0 then d.qps.headD 0 else e.baseQp
        hrd := some (if last then level - bits else level, since)
        recent := e.recent.filter (fun x => decide (t < x.1 + 1000000000)) ++ [(t, sliceBits d)]
        window := some (codeRows (cdiv p.w 64) first n d.preds).2
        outbox := if now || last then [] else out, queue := if last then rest else e.queue }
      let c := modStream s (fun st => { st with enc := e' }) c
      let c := if last then { c with video := { c.video with ecores := cellsMod [] c.video.ecores v.ecore (·.drop 1) } } else c
      let c := if p.codec = 2 then c else objSet 0x2304 0x05 s (d.qps.getLastD 0) c
      let c := if now || last then sendPackets s p.ts last (if now then d.packets else out) c else c
      if last then objBump 0x2304 0x02 s 1 c else c
  | _, _ => c

/-- CLIP_END (R213): the clip has reached its length. -/
def endClip (s : Nat) (c : Chip) : Chip :=
  match (streamAt c s).enc.clip with
  | some 0 => objSet 0x2304 0x01 s 2 (modStream s (fun st => { st with enc := { st.enc with clip := none, started := false } }) c)
  | _ => c

/-- START_CLIP, STOP_ENCODER, REQUEST_IDR: 2305.01 (R213, R214). -/
def cmdEncoder : Cmd := fun _ _ s b c =>
  match vdecl c s with
  | none => (c, resState)
  | some v =>
    if !vEncoder v then (c, resState)
    else
      let e := (streamAt c s).enc
      let put (e : EncSt) (c : Chip) : Chip := modStream s (fun st => { st with enc := e }) c
      match numAt b 0 1 with
      | 1 => (objSet 0x2304 0x01 s 1 (put { e with clip := some (objGet c 0x2303 0x13 s), started := false, stopped := false } c), resOk)
      | 2 => (objSet 0x2304 0x01 s 0 (put { e with clip := none, started := false, stopped := true } c), resOk)
      | 3 => (put { e with idrAsked := true } c, resOk)
      | _ => (c, resRange)

end Sys2Proof.Machine
end

