-- ==== Sys2Proof/Machine/Engines.lean ====
section
/-! DEFINITION. Campion and Teasel (spec/06_video_path.md R202-R212): the first layer, last-layer jobs with detection and
suppression, crop-and-resize, and how the engines' words leave in their channel slots (R117). -/

namespace Sys2Proof.Machine

/-! Words on engine ports. -/

/-- Every slot of this tick on an edge port, as (fc, channel, word, send), in fc order. -/
def portSlots (c : Chip) (port : Nat) : List (Nat × Channel × Nat × Nat) :=
  let all := (edgeChannels c port).flatMap fun ch =>
    (List.range ch.k).flatMap fun j => (List.range ch.w).map fun i => (slotFc ch (sendAc ch j) i, ch, i, j)
  all.insertionSort (fun a b => a.1 ≤ b.1)

/-- What an engine puts into a slot on a port: a word, an invalid flit, or nothing (R200). -/
inductive PortWord where
  | word (w : SWord)
  | invalid
  | empty
  deriving DecidableEq, Repr

/-- R200: a slot left empty: an injection port that finds it so advances its AGD as if it had written. -/
def leaveEmpty (ch : Channel) (j i : Nat) (c : Chip) : Chip :=
  if ch.inj then { c with grid := { c.grid with skips := c.grid.skips ++ [(ch.dst, ch.iagd, ejectFc ch (sendAc ch j) i)] } } else c

/-- The n-th slot of the tick on a port. -/
def portSend (port n : Nat) (w : PortWord) (c : Chip) : Chip :=
  match (portSlots c port)[n]? with
  | none => c
  | some (fc, ch, i, j) =>
    let put (x : SWord) (bad : Bool) : Chip := addFlits ((sendFlits ch (sendAc ch j) (List.replicate (i + 1) (x, bad))).drop i) c
    markSlot port fc (match w with
      | .word x => put x false
      | .invalid => put sWordZero true
      | .empty => leaveEmpty ch j i c)

def campionAt (c : Chip) (e : Nat) : CampionSt := (cellsFind c.video.campion e).getD {}
def setCampion (e : Nat) (v : CampionSt) (c : Chip) : Chip := { c with video := { c.video with campion := cellsPut c.video.campion e v } }
def teaselAt (c : Chip) (e : Nat) : TeaselSt := (cellsFind c.video.teasel e).getD {}
def setTeasel (e : Nat) (v : TeaselSt) (c : Chip) : Chip := { c with video := { c.video with teasel := cellsPut c.video.teasel e v } }

/-- Words that an engine has for its ports at one time: an output row of a slot (R205) or the output of a job (R208, R212): the fc at
which they are available, how many, and the ports they go round-robin over. `key` says whose they are. -/
structure PortBlock where
  key : Nat × Nat × Nat × Nat
  avail : Nat
  n : Nat
  port0 : Nat
  ports : Nat
  deriving DecidableEq, Repr

/-- Words of a block on port q of an engine of m ports. -/
def blockWordsOn (m q : Nat) (b : PortBlock) : Nat :=
  let i := (q + m - b.port0 % m) % m
  if i < b.ports then cdiv (b.n - i) b.ports else 0
/-- Words on a port before those of a block: the blocks of a tick take a port's slots in the order in which they are available. -/
def blockStart (m q : Nat) (bs : List PortBlock) (key : Nat × Nat × Nat × Nat) : Nat :=
  match bs.findIdx? (fun b => b.key == key) with
  | none => 0
  | some k =>
    let own := (bs.map (·.avail)).getD k 0
    ((bs.zipIdx.filter (fun b => decide (b.1.avail < own) || (b.1.avail == own && decide (b.2 < k)))).map (fun b => blockWordsOn m q b.1)).sum
/-- The words of a block, round-robin over its ports from the first (R205, R212), in the slots that are the block's; `base` is the engine's
first edge port. A slot's words that are not handed over leave its slots to R117. -/
def sendBlock (base m : Nat) (bs : List PortBlock) (key : Nat × Nat × Nat × Nat) (port0 ports : Nat) (ws : List PortWord) (c : Chip) : Chip :=
  let starts := (List.range m).map (fun q => blockStart m q bs key)
  ws.zipIdx.foldl (fun c x =>
    let p := (port0 + x.2 % max 1 ports) % m
    portSend (base + p) (starts.getD p 0 + x.2 / max 1 ports) x.1 c) c

/-- Values packed as in Table 2-5 into words, starting a new word. -/
def packWords (f : Fmt) (codes : List Nat) : List SWord :=
  (wordsOf (cdiv (codes.length * fmtBits f) 256) (packLE (fmtBits f) codes)).map (fun d => { data := d })

/-- Convert values to a format's codes: MX blocks of 32, or element by element (R48, R52). -/
def packCodes (f : Fmt) (ovf : Bool) (vs : List Num) : List Nat :=
  if fmtIsMx f then (entriesN vs (vs.length / 32 + 1)).flatMap (fun b => (mxBlock f ovf b).2) else vs.map (convElem f ovf)
where
  entriesN (l : List Num) : Nat → List (List Num)
    | 0 => []
    | n + 1 => if l.isEmpty then [] else l.take 32 :: entriesN (l.drop 32) n

/-! The first layer (R203-R205). -/

/-- Table 6-10: ky, krv, kgu, kgv, kbu; yo. -/
def cscCoef (csc : Nat) : Int × Int × Int × Int × Int × Int :=
  match csc with
  | 1 => (19077, 26149, 6419, 13320, 33050, 16)
  | 2 => (16384, 22970, 5638, 11700, 29032, 0)
  | 3 => (19077, 29372, 3494, 8731, 34610, 16)
  | _ => (16384, 25802, 3069, 7670, 30402, 0)

/-- Input channels of a program. -/
def cscChannels (p : CProgram) : Nat := if p.csc = 5 then 1 else 3

/-- R204: the colour channels in units of 1/65536 from samples in units of 1/4. -/
def cscValues (p : CProgram) (y cb cr : Int) : List Int :=
  if p.csc = 0 then [y * 16384, cb * 16384, cr * 16384]
  else if p.csc = 5 then [y * 16384]
  else
    let (ky, krv, kgu, kgv, kbu, yo) := cscCoef p.csc
    let y := y - 4 * yo; let u := cb - 512; let v := cr - 512
    let r := ky * y + krv * v
    let g := ky * y - kgu * u - kgv * v
    let b := ky * y + kbu * u
    if p.order = 0 then [r, g, b] else [b, g, r]

/-- R204: the INT8 operand of channel n. -/
def cscOperand (p : CProgram) (vals : List Int) (n : Nat) : Int :=
  let x := (vals.getD n 0 - p.mean.getD n 0 * 4096) * p.mul.getD n 0
  clampI (-128) 127 (numRoundInt (decide (x < 0)) x.natAbs (-(16 + (p.sh : Int))))

/-- A picture's sample in units of 1/4; padded rows repeat the last (R198). -/
def picSample (v : VStream) (p : Picture) (plane y x : Nat) : Int :=
  let y := min y (v.h - 1)
  let (yy, xx) := if plane = 0 then (y, x) else (if p.full422 then y else y / 2, x / 2)
  let s := pictureSample v p plane yy xx
  if p.tenBit then s else 4 * s

/-- The channel operands at row y, column x of the padded picture: mid-grey where the row's slice is not the picture's. -/
def firstOperands (p : CProgram) (v : VStream) (pic : Option Picture) (grey : Nat → Bool) (y x : Nat) : List Int :=
  let vals := match pic with
    | some q => if grey y then cscValues p 512 512 512
      else cscValues p (picSample v q 0 y x) (picSample v q 1 y x) (picSample v q 2 y x)
    | none => cscValues p 512 512 512
  (List.range (cscChannels p)).map (cscOperand p vals)

/-- An element of the parameter store: code n elements of w bits from byte off. -/
def storeElem (params : List Byte) (off w n : Nat) : Nat := fld (numAt params (off + w * n / 8) 5) (w * n % 8 + w - 1) (w * n % 8)

/-- A weight's value. -/
def weightVal (params : List Byte) (woff wfmt o ky kx ch : Nat) : Num :=
  match fmtOf wfmt with
  | none => .fin false 0 0
  | some f =>
    let n := Config.weightPos o ky kx ch woff
    let v := elemValue f (storeElem params woff (fmtBits f) n)
    if fmtIsMx f then numScale (numAt params (Config.campionScale 0 woff (n / 32)) 1) v else v

/-- The preload of output o (R40). -/
def biasPre (params : List Byte) (woff o : Nat) (d : Aod) : Acc :=
  match d.pre with
  | .zero => accZero
  | _ => biasAcc d (numAt params (Config.biasPos woff o 0 / 8) 4) false

/-- Sum products into an accumulator. -/
def dotInto (d : Aod) (a : Acc) (xs : List (Num × Num)) : Acc :=
  xs.foldl (fun a p => accMerge a (accTerm d.l (numMul p.1 p.2))) a

/-- Width and height of the first layer's output, and r(o) (R205). -/
def firstWidth (p : CProgram) (v : VStream) : Nat := (v.w + p.pl + p.pr - p.kw) / p.sx + 1
def firstHeight (p : CProgram) (v : VStream) : Nat := (v.h + v.pad + 2 * p.pt - p.kh) / p.sy + 1
def firstRow (p : CProgram) (v : VStream) (o : Nat) : Nat := min (o * p.sy + p.kh - 1 - p.pt) (v.h + v.pad - 1)

/-- R205: the fc at which output row o of a slot is available. -/
def rowAvail (p : CProgram) (v : VStream) (sl : VSlot) (o : Nat) : Nat :=
  let b := firstRow p v o / (16 * max 1 v.bh)
  sl.fc0 + b * sl.sfc + 64 + cdiv (v.w * (firstRow p v o - 16 * v.bh * b + 1)) 8
/-- Words of an output pixel. -/
def pixelWords (p : CProgram) : Nat := cdiv (p.cout * fmtBits ((aodOf (BitVec.ofNat 64 p.aod)).fo.getD .int8)) 256
/-- R206, R208: words of a last-layer job's output on its ports, and the fc from START_FC to its end. -/
def cjobWords (jb : CJob) : Nat :=
  if jb.dec = 0 then jb.hi * jb.wi * cdiv (jb.cout * fmtBits ((aodOf (BitVec.ofNat 64 jb.aod)).fo.getD .fp32)) 256 else cdiv (16 + 24 * jb.kmax) 32
def cjobSpan (jb : CJob) : Nat :=
  let k := if jb.khead = 0 then 1 else 3
  64 + cdiv (jb.hi * jb.wi * 16 * jb.cin * k * k) 4096
    + (if jb.dec = 0 then 0 else cdiv (jb.hi * jb.wi * jb.ncls) 16 + 4096 + cdiv (jb.topk * jb.kmax) 64 + jb.kmax)
/-- The blocks of Campion engine e in a tick at plan position pos under a mask: output rows of the active slots, outputs of the
active jobs. -/
def campionBlocks (p : Plan) (mask pos e : Nat) : List PortBlock :=
  let rows := (List.range 16).flatMap fun ovl => ((planSlots p ovl).zipIdx).flatMap fun (sl, j) =>
    match planStream p sl.stream with
    | none => []
    | some v =>
      if v.campion ≠ e || sl.pos ≠ pos || !entryActive mask ovl sl.disp then []
      else match planProgram p e v.program with
        | none => []
        | some g => (List.range (firstHeight g v)).map fun o =>
          { key := (0, ovl, j, o), avail := rowAvail g v sl o, n := firstWidth g v * pixelWords g, port0 := g.port0, ports := g.ports : PortBlock }
  rows ++ ((planCJobs p e).zipIdx).filterMap fun (jb, n) =>
    if jb.pos = pos && entryActive mask jb.ovl jb.disp && jb.ports ≠ 0
    then some { key := (1, 0, n, 0), avail := jb.startFc + cjobSpan jb, n := cjobWords jb, port0 := jb.port0, ports := jb.ports } else none
/-- Words of Campion engine e in this tick. -/
def campionWords (e : Nat) (key : Nat × Nat × Nat × Nat) (port0 ports : Nat) (ws : List PortWord) (c : Chip) : Chip :=
  match c.plan.loaded, c.plan.armed with
  | some p, some pos => sendBlock (64 + 8 * e) 8 (campionBlocks p c.plan.active pos e) key port0 ports ws c
  | _, _ => c

/-- R205: the accumulators of one output pixel. -/
def firstPixel (p : CProgram) (v : VStream) (params : List Byte) (pic : Option Picture) (grey : Nat → Bool) (d : Aod) (o ox : Nat) : List Acc :=
  let taps : List (Nat × Nat × List Int) := (List.range p.kh).flatMap fun ky => (List.range p.kw).map fun kx =>
    let y : Int := (o * p.sy + ky : Nat) - (p.pt : Int)
    let x : Int := (ox * p.sx + kx : Nat) - (p.pl : Int)
    let H := v.h + v.pad
    let inside := decide (0 ≤ y) && decide (y < H) && decide (0 ≤ x) && decide (x < v.w)
    let yc := (clampI 0 (H - 1) y).toNat
    let xc := (clampI 0 (v.w - 1) x).toNat
    (ky, kx, if inside || p.replicate then firstOperands p v pic grey yc xc else List.replicate (cscChannels p) 0)
  (List.range p.cout).map fun co =>
    dotInto d (biasPre params p.woff co d) (taps.flatMap fun t =>
      t.2.2.zipIdx.map fun x => (numOfInt x.1 0, weightVal params p.woff p.wfmt co t.1 t.2.1 x.2))

/-- The place word of a Campion engine (2A20.04). -/
def campionPlace (e : Nat) : Nat := 2 ^ 31 + e % 4

/-- R42, R56: what a Campion job counts: one high escape for each call (a slice of the first layer, a job; log entry 42), low escapes and non-finite conversions by run and value. -/
def countReadouts (e : Nat) (d : Aod) (fo : Fmt) (xs : List Acc) (c : Chip) : Chip :=
  let c := if xs.any (accHighFired d) then countHighEscape (campionPlace e) c else c
  let c := objBump 0x2A20 0x02 0 (xs.filter (accLowCounted d)).length c
  if fmtIsInt fo then objBump 0x2A20 0x03 0 (xs.filter (fun x => numNonFinite (readoutValue d x))).length c else c

/-- CAMPION_FIRST_LAYER: slice b of slot entry j of an overlay (R200, R205). A high escape counts once in each slice that has
one (log entry 42). -/
def firstLayer (ovl j b : Nat) (c : Chip) : Chip :=
  match slotDecl c ovl j, c.plan.loaded with
  | some (sl, v), some p =>
    let st := streamAt c sl.stream
    match slotUse st ovl j c.tk.tick, planProgram p v.campion v.program with
    | some u, some prog =>
      match u.slices.find? (fun x => x.1 == b) with
      | none => c
      | some (_, use) =>
        let slotEnd (c : Chip) : Chip := if b + 1 = vSlices v then modStream sl.stream (putSlotUse { u with ended := true }) c else c
        if engineHeld c .campion v.campion || c.tk.mode ≠ .running then slotEnd c
        else
        let d := aodOf (BitVec.ofNat 64 prog.aod)
        let params := campionParams p v.campion
        let pic := u.pic.bind (fun i => st.pictures.find? (fun q => q.id == i))
        let h16 := 16 * max 1 v.bh
        let grey (y : Nat) : Bool := !(u.slices.any (fun x => x.1 == y / h16 && x.2 = .ready))
        let rows := (List.range (firstHeight prog v)).filter (fun o => firstRow prog v o / h16 == b)
        let fo := d.fo.getD .int8
        let nw := pixelWords prog
        let counted := if use = .ready || use = .grey
          then rows.flatMap (fun o => (List.range (firstWidth prog v)).flatMap (firstPixel prog v params pic grey d o)) else []
        let c := countReadouts v.campion d fo counted c
        let c := rows.foldl (fun c o =>
          match use with
          | .previous => campionWords v.campion (0, ovl, j, o) prog.port0 prog.ports (List.replicate (firstWidth prog v * nw) .empty) c
          | .skip => campionWords v.campion (0, ovl, j, o) prog.port0 prog.ports (List.replicate (firstWidth prog v * nw) .invalid) c
          | _ =>
            let px := (List.range (firstWidth prog v)).map (firstPixel prog v params pic grey d o)
            campionWords v.campion (0, ovl, j, o) prog.port0 prog.ports
              (px.flatMap (fun xs => (packWords fo (packCodes fo d.ovf (xs.map (readoutValue d)))).map .word)) c) c
        slotEnd c
    | _, _ => c
  | _, _ => c

/-! Last-layer jobs (R206-R208). -/

/-- The words that tiles have sent to an engine's ports, in the order of their arrival, join those that wait for a job (R206, R209). -/
def takeInputs (first n : Nat) (c : Chip) : List SWord × Chip :=
  let mine (w : EdgeWord) : Bool := decide (first ≤ w.port) && decide (w.port < first + n)
  let ws := (c.grid.edge.filter mine).insertionSort (fun a b => a.fc < b.fc || (a.fc == b.fc && a.port ≤ b.port))
  (ws.map (fun w => { data := w.data, poison := w.poison || w.invalid }),
    { c with grid := { c.grid with edge := c.grid.edge.filter (fun w => !mine w) } })
def campionInputs (e : Nat) (c : Chip) : Chip :=
  let r := takeInputs (64 + 8 * e) 8 c
  if r.1.isEmpty then r.2 else let s := campionAt r.2 e; setCampion e { s with arrived := s.arrived ++ r.1 } r.2
def teaselInputs (e : Nat) (c : Chip) : Chip :=
  let r := takeInputs (96 + 4 * e) 4 c
  if r.1.isEmpty then r.2 else let s := teaselAt r.2 e; setTeasel e { s with arrived := s.arrived ++ r.1 } r.2
/-- Before a tick's edge words are gone, the engines have taken theirs. -/
def keepInputs (c : Chip) : Chip :=
  (List.range 2).foldl (fun c e => teaselInputs e c) ((List.range 4).foldl (fun c e => campionInputs e c) c)
/-- The next n waiting words fill an input buffer of `size` words from `base` on; an area that a job has filled in this tick keeps its
words (log entry 108). -/
def fillBuffer (size base n : Nat) (ws : List SWord) (m : Cells SWord) (filled : List Nat) : List SWord × Cells SWord × List Nat :=
  if filled.contains base then (ws, m, filled)
  else (ws.drop n, ((ws.take n).zipIdx).foldl (fun m w => if base + w.2 < size then cellsSet sWordZero m (base + w.2) w.1 else m) m, base :: filled)
/-- Whether a job's position, overlay and state let it run in this tick. -/
def jobDue (c : Chip) (k : EngineKind) (e pos ovl disp : Nat) : Bool :=
  !engineHeld c k e && c.plan.armed == some pos && entryActive c.plan.active ovl disp && c.tk.mode = .running && !workPaused c

/-- R159, R357: a job that an aborted function or one of a shed tenant owns is suppressed. A job's owner is the function of
its output channel or of the stream it reads; of a job that names neither, the functions whose tiles receive its outputs, and it
is suppressed when all of them have stopped (log entry 105). -/
def portsLive (c : Chip) (p : Plan) (ports : List Nat) (ovl pos : Nat) : Bool :=
  let fs := portFns p ports (1 ||| 2 ^ ovl) pos
  fs.isEmpty || fs.any (fun f => !fnStopped c p f)
def campionLive (c : Chip) (p : Plan) (e : Nat) (jb : CJob) : Bool :=
  if jb.dec = 0 then portsLive c p ((List.range jb.ports).map (fun i => 64 + 8 * e + jb.port0 + i)) jb.ovl jb.pos
  else match planOch p jb.och with | some o => fnLive c o.fn o.tenant | none => true
def teaselLive (c : Chip) (p : Plan) (e : Nat) (jb : TJob) : Bool :=
  if jb.src = 1 then portsLive c p ((List.range jb.ports).map (fun i => 64 + 32 + 4 * e + jb.port0 + i)) jb.ovl jb.pos
  else match planStream p jb.stream with | some v => fnLive c v.fn v.tenant | none => true

/-- Element ch of pixel (i, j) of a feature map at a buffer base. -/
def mapElem (buf : Cells SWord) (base wi cin : Nat) (f : Fmt) (i j ch : Nat) : Num :=
  let grp := cdiv (cin * fmtBits f) 256
  let bit := ch * fmtBits f
  let w := cellsGet sWordZero buf (base / 32 + (i * wi + j) * grp + bit / 256)
  if w.poison then .nan
  else
    let v := elemValue f (fld w.data.toNat (bit % 256 + fmtBits f - 1) (bit % 256))
    if fmtIsMx f then
      let s := Config.campionScale 1 base (((i * wi + j) * cin + ch) / 32)
      numScale (fld (cellsGet sWordZero buf (s / 32)).data.toNat (8 * (s % 32) + 7) (8 * (s % 32))) v
    else v

/-- R206: the head outputs of one cell. -/
def headCell (jb : CJob) (params : List Byte) (buf : Cells SWord) (d : Aod) (i j : Nat) : List Acc :=
  match fmtOf jb.ifmt with
  | none => List.replicate jb.cout accZero
  | some f =>
    let k := if jb.khead = 0 then 1 else 3
    let taps := (List.range k).flatMap fun ky => (List.range k).map fun kx => (ky, kx)
    (List.range jb.cout).map fun o =>
      dotInto d (biasPre params jb.woff o d) (taps.flatMap fun t =>
        let y : Int := (i + t.1 : Nat) - (if k = 3 then 1 else 0)
        let x : Int := (j + t.2 : Nat) - (if k = 3 then 1 else 0)
        if y < 0 || jb.hi ≤ y.toNat || x < 0 || jb.wi ≤ x.toNat then []
        else (List.range jb.cin).map fun ch =>
          (mapElem buf jb.inBase jb.wi jb.cin f y.toNat x.toNat ch, weightVal params jb.woff jb.wfmt o t.1 t.2 ch))

/-! FP32 operations in the order written (R207). -/
def fAdd (a b : Nat) : Nat := toFp32 (numAdd (ofFp32 a) (ofFp32 b))
def fSub (a b : Nat) : Nat := toFp32 (numAdd (ofFp32 a) (numNeg (ofFp32 b)))
def fMul (a b : Nat) : Nat := toFp32 (numMul (ofFp32 a) (ofFp32 b))
def fDiv (a b : Nat) : Nat := toFp32 (numDiv (ofFp32 a) (ofFp32 b))
def fMin (a b : Nat) : Nat := toFp32 (numMin (ofFp32 a) (ofFp32 b))
def fMax (a b : Nat) : Nat := toFp32 (numMax (ofFp32 a) (ofFp32 b))
def fNat (n : Nat) : Nat := toFp32 (numOfInt n 0)
def fHalf : Nat := 0x3F000000
def fLt (a b : Nat) : Bool := numCmp (ofFp32 a) (ofFp32 b) == some .lt
/-- Clip a coordinate to [0, hi]; NaN clips to 0. -/
def fClip (hi x : Nat) : Nat :=
  match ofFp32 x with
  | .nan => 0
  | _ => if fLt x 0 then 0 else if fLt (fNat hi) x then fNat hi else x

/-- A detection candidate. -/
structure Cand where
  score : Nat
  cls : Nat
  box : List Nat
  index : Nat
  deriving DecidableEq, Repr

/-- R207: the box of cell (i, j). -/
def decodeBox (jb : CJob) (params : List Byte) (i j : Nat) (t : List Nat) : List Nat :=
  let s := fNat jb.stride
  let x (n : Nat) := t.getD n 0
  let raw : List Nat :=
    if jb.dec = 1 then
      let cx := fMul (fAdd (fNat j) fHalf) s
      let cy := fMul (fAdd (fNat i) fHalf) s
      [fSub cx (fMul (x 0) s), fSub cy (fMul (x 1) s), fAdd cx (fMul (x 2) s), fAdd cy (fMul (x 3) s)]
    else
      let cx := fMul (fAdd (fAdd (fNat j) fHalf) (x 0)) s
      let cy := fMul (fAdd (fAdd (fNat i) fHalf) (x 1)) s
      let w := fMul (numAt params jb.aoff 4) (specialFp32 .exp (x 2))
      let h := fMul (numAt params (jb.aoff + 4) 4) (specialFp32 .exp (x 3))
      [fSub cx (fMul fHalf w), fSub cy (fMul fHalf h), fAdd cx (fMul fHalf w), fAdd cy (fMul fHalf h)]
  [fClip jb.imgW (raw.getD 0 0), fClip jb.imgH (raw.getD 1 0), fClip jb.imgW (raw.getD 2 0), fClip jb.imgH (raw.getD 3 0)]

/-- R207: whether one candidate ranks before another. -/
def candBefore (a b : Cand) : Bool := fLt b.score a.score || (!fLt a.score b.score && a.index ≤ b.index)

/-- R207: intersection over union; the area of an inverted box is 0. -/
def boxArea (b : List Nat) : Nat :=
  let x := fSub (b.getD 2 0) (b.getD 0 0)
  let y := fSub (b.getD 3 0) (b.getD 1 0)
  if fLt x 0 || fLt y 0 then 0 else fMul x y
def boxIou (a b : List Nat) : Nat :=
  let dx := fMax 0 (fSub (fMin (a.getD 2 0) (b.getD 2 0)) (fMax (a.getD 0 0) (b.getD 0 0)))
  let dy := fMax 0 (fSub (fMin (a.getD 3 0) (b.getD 3 0)) (fMax (a.getD 1 0) (b.getD 1 0)))
  let inter := fMul dx dy
  let union := fSub (fAdd (boxArea a) (boxArea b)) inter
  if numCmp (ofFp32 union) (ofFp32 0) == some .eq then 0 else fDiv inter union

/-- R207: class-aware suppression of the ranked candidates. -/
def suppress (nms kmax : Nat) (ranked : List Cand) : List Cand :=
  ranked.foldl (fun kept x =>
    if kmax ≤ kept.length then kept
    else if kept.any (fun k => k.cls == x.cls && fLt nms (boxIou k.box x.box)) then kept else kept ++ [x]) []

/-- R207, R208: the detection list of a job's head outputs (FP32 codes by cell in raster order). -/
def detections (jb : CJob) (params : List Byte) (heads : List (List Nat)) : List Cand × Nat :=
  let all := (heads.zipIdx.map fun (t, n) =>
    (List.range jb.ncls).filterMap fun k =>
      let score := specialFp32 .sigmoid (t.getD (4 + k) 0)
      match numCmp (ofFp32 score) (ofFp32 jb.thr) with
      | some .lt | none => none
      | _ => some { score := score, cls := k, box := decodeBox jb params (n / max 1 jb.wi) (n % max 1 jb.wi) t, index := n * jb.ncls + k : Cand }).flatten
  let ranked := (all.insertionSort (fun a b => candBefore a b = true)).take 4096
  (suppress jb.nms jb.kmax (ranked.take jb.topk), all.length)

/-- R208: the detection list's bytes, and padded with zero records to KMAX for ports. -/
def detectionBytes (jb : CJob) (kept : List Cand) (qualified : Nat) : List Byte :=
  bytesLE 2 kept.length ++ bytesLE 2 jb.kmax ++ bytesLE 4 qualified ++ bytesLE 8 0
    ++ kept.flatMap (fun k => k.box.flatMap (bytesLE 4) ++ bytesLE 4 k.score ++ bytesLE 1 k.cls ++ bytesLE 3 k.index)
def bytesToWords (b : List Byte) : List SWord := (wordsOf (cdiv b.length 32) (natLE b)).map (fun d => { data := d })

/-- CAMPION_LAST_LAYER_JOB: job n of engine e starts (R206). -/
def startCampionJob (e n : Nat) (c : Chip) : Chip :=
  match c.plan.loaded with
  | none => c
  | some p =>
    match (planCJobs p e)[n]? with
    | none => c
    | some jb =>
      if !jobDue c .campion e jb.pos jb.ovl jb.disp || !campionLive c p e jb then c
      else
        let c := campionInputs e c
        let s := campionAt c e
        let base := jb.inBase / 32
        let size := mapWords jb.hi jb.wi jb.cin jb.ifmt
        let fill := fillBuffer 32768 base size s.arrived s.inBuf s.filled
        let buf := fill.2.1
        let params := campionParams p e
        let d := aodOf (BitVec.ofNat 64 jb.aod)
        let fo := d.fo.getD .fp32
        let cells := (List.range (jb.hi * jb.wi)).map (fun k => headCell jb params buf d (k / max 1 jb.wi) (k % max 1 jb.wi))
        let c := countReadouts e d fo cells.flatten c
        let codes := cells.map (fun xs => packCodes fo d.ovf (xs.map (readoutValue d)))
        let det := detections jb params codes
        let words := if jb.dec = 0 then codes.flatMap (packWords fo) else []
        let list := if jb.dec = 0 then [] else detectionBytes jb det.1 det.2
        setCampion e { campionAt c e with inBuf := buf, arrived := fill.1, filled := fill.2.2, job := some (n, words, list)
                                          poisoned := (List.range size).any (fun i => (cellsGet sWordZero buf (base + i)).poison) } c

/-- R220: one output channel carries at most one datagram per tick. -/
def ochFree (c : Chip) (och : Nat) : Bool := !c.net.emitted.contains och
def takeOch (och : Nat) (c : Chip) : Chip := { c with net := { c.net with emitted := och :: c.net.emitted } }
/-- A record refused (R220). -/
def refuseRecord (c : Chip) : Chip := objBump 0x2340 0x05 0 1 c

/-- CAMPION_JOB_END: the outputs delivered to channel, ports and Teasel (R208, R220, R477). -/
def endCampionJob (e : Nat) (c : Chip) : Chip :=
  let s := campionAt c e
  match s.job, c.plan.loaded with
  | some (n, words, list), some p =>
    match (planCJobs p e)[n]? with
    | none => c
    | some jb =>
      if engineHeld c .campion e then setCampion e { s with job := none } c
      else
      let c := setCampion e { s with job := none, list := if jb.dec = 0 then s.list else list } c
      let toPorts := if jb.dec = 0 then words else bytesToWords (list ++ List.replicate (16 + 24 * jb.kmax - list.length) 0)
      let c := if jb.ports = 0 then c else campionWords e (1, 0, n, 0) jb.port0 jb.ports (toPorts.map .word) c
      let c := tracePoint 65 0 (e * 65536 + n) c
      match (if jb.dec = 0 then none else planOch p jb.och) with
      | none => c
      | some o =>
        if !fnLive c o.fn o.tenant then c
        else if o.maxlen < list.length || !ochFree c o.och then refuseRecord c
        else
          let f := slotFlags c o
          emitResult o list s.poisoned f.1 f.2 (takeOch o.och c)
  | _, _ => c

/-! Teasel (R209-R212). -/

/-- Round a quotient to the nearest integer, ties to even. -/
def rneDiv (n d : Int) : Int :=
  let q := n / d
  let r := n % d
  if 2 * r < d then q else if d < 2 * r then q + 1 else if q % 2 = 0 then q else q + 1

/-- An FP32 value on the grid of 2^-149. -/
def fGrid (code : Nat) : Int :=
  match ofFp32 code with
  | .fin neg m e => numOnGrid (-149) neg m e
  | _ => 0

/-- R211: the position of output sample u of n in a box side, as rne(x * 4096), with x divided by div for chroma. -/
def samplePos (lo hi : Nat) (u n div : Nat) : Int :=
  let a := fGrid lo
  let b := fGrid hi
  rneDiv ((a * (2 * n) + (2 * u + 1) * (b - a)) * 4096) (2 * n * div * 2 ^ 149)

/-- A source sample: outside the plane the index is clamped, or the border value read. -/
def srcAt {α : Type} (constant : Bool) (border : α) (h w : Nat) (get : Nat → Nat → α) (y x : Int) : α :=
  if constant && (y < 0 || (h : Int) ≤ y || x < 0 || (w : Int) ≤ x) then border
  else get (clampI 0 ((h : Int) - 1) y).toNat (clampI 0 ((w : Int) - 1) x).toNat

/-- R211: an exact sample in units of 2^-24. -/
def exactSample (nearest : Bool) (get : Int → Int → Int) (yq xq : Int) : Int :=
  if nearest then get (yq / 4096) (xq / 4096) * 2 ^ 24
  else
    let px := xq - 2048; let py := yq - 2048
    let i := px / 4096; let j := py / 4096
    let fx := px % 4096; let fy := py % 4096
    (4096 - fy) * ((4096 - fx) * get j i + fx * get j (i + 1)) + fy * ((4096 - fx) * get (j + 1) i + fx * get (j + 1) (i + 1))

/-- R211: a feature-map sample in FP32, in the order written. -/
def floatSample (nearest : Bool) (get : Int → Int → Nat) (yq xq : Int) : Nat :=
  if nearest then get (yq / 4096) (xq / 4096)
  else
    let px := xq - 2048; let py := yq - 2048
    let i := px / 4096; let j := py / 4096
    let fx := toFp32 (numOfInt (px % 4096) (-12)); let fy := toFp32 (numOfInt (py % 4096) (-12))
    let one := 0x3F800000
    let row (jj : Int) : Nat := fAdd (fMul (fSub one fx) (get jj i)) (fMul fx (get jj (i + 1)))
    fAdd (fMul (fSub one fy) (row j)) (fMul fy (row (j + 1)))

/-- R211: a frame sample converted to the output format. -/
def frameOut (ofmt : Nat) (tenBit : Bool) (v : Int) : Nat :=
  match fmtOf ofmt with
  | some .int8 => toTwos 8 (clampI (-128) 127 (rneDiv (v - (if tenBit then 512 else 128) * 2 ^ 24) (2 ^ 24)))
  | some f => convElem f false (numOfInt v (-24))
  | none => 0

/-- The boxes of a job, scaled, with whether each is refused (R210). -/
def jobBoxes (jb : TJob) (s : TeaselSt) (campion : List Byte) : List (List Nat × Bool) :=
  let fromList := bitOf jb.boxsrc 7
  let word (a : Nat) : SWord := cellsGet sWordZero s.inBuf (a / 32)
  let coord (a : Nat) : Nat := if (word a).poison then 0x7FC00000 else fld (word a).data.toNat (8 * (a % 32) + 31) (8 * (a % 32))
  let count := if fromList then numAt campion 0 2 else (if (word jb.boxBase).poison then 0 else coord jb.boxBase % 65536)
  (List.range (min count jb.nbox)).map fun n =>
    let raw := (List.range 4).map fun k =>
      if fromList then numAt campion (16 + 24 * n + 4 * k) 4 else coord (jb.boxBase + 16 + 16 * n + 4 * k)
    let b := raw.map (fun x => fMul x jb.scale)
    let outside (x : Nat) : Bool := match ofFp32 x with
      | .nan | .inf _ => true
      | _ => fLt x (toFp32 (numOfInt (-(2 ^ 19)) 0)) || fLt (toFp32 (numOfInt (2 ^ 19) 0)) x
    let big := jb.src = 0 && (decide ((jb.wmax : Int) * 2 ^ 149 < fGrid (b.getD 2 0) - fGrid (b.getD 0 0))
      || decide ((jb.hmax : Int) * 2 ^ 149 < fGrid (b.getD 3 0) - fGrid (b.getD 1 0)))
    (b, b.any outside || !fLt (b.getD 0 0) (b.getD 2 0) || !fLt (b.getD 1 0) (b.getD 3 0) || big)

/-- R211: the frame of a job: the picture bound to the stream's most recent slot whose slice 0 started before START_FC. -/
def jobFrame (c : Chip) (jb : TJob) : Option (VStream × Picture × List Nat) :=
  let st := streamAt c jb.stream
  match vdecl c jb.stream, (st.slots.filter (fun u => decide (u.tick < c.tk.tick) || decide (u.fc0 < jb.startFc))).getLast? with
  | some v, some u =>
    (u.pic.bind (fun i => st.pictures.find? (fun p => p.id == i))).map
      (fun p => (v, p, (u.slices.filter (fun x => x.2 ≠ .ready)).map (·.1)))
  | _, _ => none

/-- R211: the sample codes of one box of a frame. -/
def frameBox (jb : TJob) (fr : Option (VStream × Picture × List Nat)) (b : List Nat) : List (List Nat) :=
  let nearest := bitOf jb.sample 0
  let constant := bitOf jb.sample 1
  let planes := if bitOf jb.sample 2 then 3 else 1
  (List.range jb.oh).flatMap fun v => (List.range jb.ow).map fun u => (List.range planes).map fun pl =>
    match fr with
    | none => frameOut jb.ofmt false ((midGrey false : Int) * 2 ^ 24)
    | some (vs, p, missing) =>
      let hx := if pl = 0 then 1 else 2
      let hy := if pl = 0 || p.full422 then 1 else 2
      let rows := 16 * max 1 vs.bh / hy
      let get (y x : Nat) : Int :=
        if missing.contains (y / rows) then (midGrey p.tenBit : Nat) else (pictureSample vs p pl y x : Nat)
      let src := srcAt constant (jb.border : Int) (vs.h / hy) (vs.w / hx) get
      frameOut jb.ofmt p.tenBit (exactSample nearest src (samplePos (b.getD 1 0) (b.getD 3 0) v jb.oh hy)
        (samplePos (b.getD 0 0) (b.getD 2 0) u jb.ow hx))

/-- R211: the sample codes of one box of a feature map. -/
def mapBox (jb : TJob) (s : TeaselSt) (b : List Nat) : List (List Nat) :=
  match fmtOf jb.fmFmt, fmtOf jb.ofmt with
  | some f, some fo =>
    let nearest := bitOf jb.sample 0
    let constant := bitOf jb.sample 1
    (List.range jb.oh).flatMap fun v => (List.range jb.ow).map fun u => (List.range jb.fmC).map fun ch =>
      let get (y x : Nat) : Nat := toFp32 (mapElem s.inBuf jb.fmBase jb.fmW jb.fmC f y x ch)
      let src := srcAt constant (toFp32 (elemValue f (jb.border % 2 ^ fmtBits f))) jb.fmH jb.fmW get
      convElem fo false (ofFp32 (floatSample nearest src (samplePos (b.getD 1 0) (b.getD 3 0) v jb.oh 1)
        (samplePos (b.getD 0 0) (b.getD 2 0) u jb.ow 1)))
  | _, _ => []

/-- R212: values per sample. -/
def jobNv (jb : TJob) : Nat := if jb.src = 1 then jb.fmC else if bitOf jb.sample 2 then 3 else 1

/-- TEASEL_JOB: job n of engine e starts (R210-R212). -/
def startTeaselJob (e n : Nat) (c : Chip) : Chip :=
  match c.plan.loaded with
  | none => c
  | some p =>
    match (planTJobs p e)[n]? with
    | none => c
    | some jb =>
      if !jobDue c .teasel e jb.pos jb.ovl jb.disp || !teaselLive c p e jb then c
      else
        let c := teaselInputs e c
        let s := (jobAreas jb).foldl (fun (s : TeaselSt) a =>
          let f := fillBuffer 65536 a.1 a.2 s.arrived s.inBuf s.filled
          { s with arrived := f.1, inBuf := f.2.1, filled := f.2.2 }) (teaselAt c e)
        let boxes := jobBoxes jb s (campionAt c (jb.boxsrc % 4)).list
        let c := match (if jb.src = 0 then jobFrame c jb else none) with
          | some (v, q, _) => readSlices jb.stream v q (List.range (vSlices v)) c
          | none => c
        let fo := (fmtOf jb.ofmt).getD .int8
        let fr := jobFrame c jb
        let zero := List.replicate (jb.ow * jb.oh) (List.replicate (jobNv jb) 0)
        let body := (List.range jb.nbox).map fun k => match boxes[k]? with
          | some (b, false) => if jb.src = 0 then frameBox jb fr b else mapBox jb s b
          | _ => zero
        let refused := (boxes.filter (·.2)).length
        let mask := boxes.zipIdx.foldl (fun m x => if x.1.2 then m + 2 ^ x.2 else m) 0
        let head : List SWord := { data := BitVec.ofNat 256 (boxes.length + 65536 * refused) } :: (wordsOf 4 mask).map (fun d => { data := d })
        let words := head ++ body.flatMap (fun b => packWords fo b.flatten)
        let c := if jb.src = 0 then objBump 0x2302 0x13 jb.stream refused c else objBump 0x2340 0x04 0 refused c
        setTeasel e { s with job := some (n, words) } c

/-- R212: words of a job's output, and the fc from START_FC to its end. -/
def tjobWords (jb : TJob) : Nat := 5 + jb.nbox * cdiv (jb.ow * jb.oh * jobNv jb * fmtBits ((fmtOf jb.ofmt).getD .int8)) 256
def tjobSpan (p : Plan) (jb : TJob) : Nat :=
  let ten := match planStream p jb.stream with | some v => v10bit v | none => false
  let chroma := bitOf jb.sample 2
  -- in half bytes per sample position: 2 for Y, 3 for Y, Cb, Cr, doubled for 10-bit
  let half := (if chroma then 3 else 2) * (if ten then 2 else 1)
  let fetch := if jb.src = 1 then 0 else cdiv ((jb.hmax + 2) * (cdiv (jb.wmax + 2) 64 + 1) * 64 * half) 256
  32 + jb.nbox * max (cdiv (jb.ow * jb.oh * jobNv jb) 64) fetch
/-- Words of job n of Teasel engine e in this tick. -/
def teaselWords (e n : Nat) (jb : TJob) (ws : List PortWord) (c : Chip) : Chip :=
  match c.plan.loaded, c.plan.armed with
  | some p, some pos =>
    let bs := ((planTJobs p e).zipIdx).filterMap fun (x, k) =>
      if x.pos = pos && entryActive c.plan.active x.ovl x.disp
      then some { key := (1, 0, k, 0), avail := x.startFc + tjobSpan p x, n := tjobWords x, port0 := x.port0, ports := x.ports : PortBlock } else none
    sendBlock (96 + 4 * e) 4 bs (1, 0, n, 0) jb.port0 jb.ports ws c
  | _, _ => c

/-- TEASEL_JOB_END: the output sequence leaves on the job's ports (R212). -/
def endTeaselJob (e : Nat) (c : Chip) : Chip :=
  let s := teaselAt c e
  match s.job, c.plan.loaded with
  | some (n, words), some p =>
    match (planTJobs p e)[n]? with
    | none => c
    | some jb =>
      if engineHeld c .teasel e then setTeasel e { s with job := none } c
      else tracePoint 66 0 (e * 65536 + n) (teaselWords e n jb (words.map .word) (setTeasel e { s with job := none } c))
  | _, _ => c

/-- What the engines note of a tick starts anew (R143). -/
def resetEngines (c : Chip) : Chip :=
  { c with video := { c.video with campion := c.video.campion.map (fun e => (e.1, { e.2 with filled := [] }))
                                   teasel := c.video.teasel.map (fun e => (e.1, { e.2 with filled := [] })) } }

end Sys2Proof.Machine
end

