-- ==== Sys2Proof/Machine/Run.lean ====
section
/-! DEFINITION. How a meaning answers: an effect on the module lifted to the block's state, with the at-once re-latch of
R396, the result of a dictionary command (R392), and the fault of a command that names a tile or unit that does not exist. -/

namespace Sys2Proof.Machine

/-- What a command answers. -/
abbrev Result := Host.Outcome State Fault Refusal

/-- R396: the objects re-latched at once on entry to Survival and on a halt of compute. -/
def relatchKeys : List (Nat × Nat) := [(0x2000, 0x01), (0x2502, 0x01), (0x2502, 0x02), (0x2502, 0x03), (0x2502, 0x04)]

/-- Apply a pending at-once re-latch (R396); STATE of the window shows 2000.01 as latched (Table 12-4). -/
def settle (s : State) : State :=
  if s.chip.dict.relatch then
    { s with chip := { s.chip with dict := { s.chip.dict with relatch := false }, win := { s.chip.win with stateByte := modCode s.chip.tk.mode } }
             img := relatchKeys.foldl (fun i k => objSet k.1 k.2 0 (objGet s.chip k.1 k.2 0) i) s.img }
  else s

/-- An effect on the module. -/
def onChip (f : Chip → Chip) (s : State) : Result := .next (settle { s with chip := f s.chip })

/-- An effect of a running tile's sequencer (R75). -/
def onTile (t : Nat) (f : Tile → Tile) (s : State) : Result :=
  if t < 2048 then onChip (issueTile t f) s else .fault .noSuchTile

/-- An effect on a tile that exists, whether or not its sequencer runs. -/
def onAnyTile (t : Nat) (f : Chip → Chip) (s : State) : Result :=
  if t < 2048 then onChip f s else .fault .noSuchTile

/-- An effect on one of n units of a kind. -/
def onUnit (n i : Nat) (f : Chip → Chip) (s : State) : Result :=
  if i < n then onChip f s else .fault .noSuchUnit

/-- Record the STATUS and DETAIL of a dictionary command. -/
def noteRes (p : Chip × Res) : Chip := { p.1 with dict := { p.1.dict with lastRes := p.2 } }

/-- The image that dictionary reads and checks take: the last latch's, or, before the first latch since power-up, the
module as it stands (R396). -/
def dictImage (s : State) : Chip := if s.chip.dict.latched then s.img else s.chip

end Sys2Proof.Machine
end

