-- ==== Sys2Proof/Machine/PlanExec.lean ====
section
/-! DEFINITION. What plan events do to regions and tiles: poisoning, zeroing and initial data (R126, R141, R158, R159),
tile programs and their resident copies (R127, R277), and whose program a tile runs. -/

namespace Sys2Proof.Machine

/-! Regions. -/

def poisonWord : SWord := { poison := true }

/-- Write n words of a tile from a base on. -/
def sramFill (t base : Nat) (ws : List SWord) (c : Chip) : Chip :=
  let tl := tileAt c t
  let hit (k : Nat) : Bool := decide (base ≤ k) && decide (k < base + ws.length)
  setTile t { tl with sram := cellsSetRun sWordZero (cellsClear hit tl.sram) base ws, upsets := cellsClear hit tl.upsets } c

/-- R126, R141, R158: a region written as poisoned. -/
def poisonRegion (r : Region) (c : Chip) : Chip :=
  if r.hbm then let l := regionLines r; poisonLines l.1 l.2 c
  else sramFill r.tile (r.base % 16384) (List.replicate (min r.length 16384) poisonWord) c

/-- Zero with valid check bits (R159, R338). -/
def zeroRegion (r : Region) (c : Chip) : Chip :=
  if r.hbm then let l := regionLines r; unpoison l.1 l.2 (zeroLines l.1 l.2 c)
  else sramFill r.tile (r.base % 16384) (List.replicate (min r.length 16384) sWordZero) c

/-- The words of an SRAM region's initial data: zero where the image gives none. -/
def initWords (p : Plan) (r : Region) : List SWord :=
  let d := initData p r.init
  (List.range (min r.length 16384)).map (fun i => { data := BitVec.ofNat 256 (numAt d (32 * i) 32) })

/-- R141: initialised from the image, or to zero. -/
def initRegion (p : Plan) (r : Region) (c : Chip) : Chip :=
  if r.hbm then
    let l := regionLines r
    let d := (initData p r.init).take (64 * (l.2 - l.1))
    writePlanData (d.length + 1) l.1 d (unpoison l.1 l.2 (zeroLines l.1 l.2 c))
  else sramFill r.tile (r.base % 16384) (initWords p r) c

def foldRegions (l : List Region) (f : Region → Chip → Chip) (c : Chip) : Chip := l.foldl (fun c r => f r c) c

/-- Region classes (Table 5-7). -/
def isConstant (r : Region) : Bool := r.cls == 0
def isPersistent (r : Region) : Bool := r.cls == 1
def isTransient (r : Region) : Bool := r.cls == 2

/-- Every region of the loaded plan that satisfies a condition. -/
def regionsWhere (c : Chip) (q : Region → Bool) : List Region :=
  match c.plan.loaded with | none => [] | some p => (planRegions p).filter q

/-! Tiles and functions. -/

/-- A tile runs while it has a program and not every function that owns it has stopped. -/
def tileWorks (c : Chip) (p : Plan) (t : Nat) : Bool :=
  (planPrograms p).any (fun g => g.tile == t) && (let fs := tileFns p t; fs.isEmpty || fs.any (fun f => !fnStopped c p f))

def tileProgram (p : Plan) (t : Nat) : Option TileProgram := (planPrograms p).find? (fun g => g.tile == t)

/-- The ENDT entry of R75: nothing runs until a start. -/
def idleTile (t : Nat) (c : Chip) : Chip := setTile t { tileAt c t with idle := true, running := false } c
/-- Tiles whose functions have all stopped get the ENDT entry; others keep theirs. -/
def stopIdle (c : Chip) : Chip :=
  match c.plan.loaded with
  | none => c
  | some p => (planPrograms p).foldl (fun c g => if tileWorks c p g.tile then c else idleTile g.tile c) c
/-- An ENDT entry for every tile (R157). -/
def idleAll (c : Chip) : Chip :=
  { c with grid := { c.grid with tiles := cellsMap {} (fun (t : Tile) => { t with idle := true, running := false }) c.grid.tiles } }

/-! Resident copies (R258, R277). -/

/-- The HBM line and half of a 32-byte word of a tile's resident copy: resident rows begin at row 14,064 of SID 2. -/
def residentPlace (t off : Nat) : Nat × Bool :=
  let o := (t % 64 % 2 * 32 + t / 64) * 589824 + off
  (lineKey (t % 64 / 2) 2 (o / 1024 % 16) (14064 + o / 16384) (o / 64 % 16), decide (o % 64 = 32))

/-- Read a word of the resident copy. -/
def residentWord (t off : Nat) (c : Chip) : SWord × Chip :=
  let p := residentPlace t off
  let r := dataRead p.1 [] c
  let bad := decide (r.1 = .uncorrectable) || decide (r.1 = .poisoned)
  let ws := lineWords r.2.1
  ({ data := if p.2 then ws.2 else ws.1, poison := bad }, r.2.2)

/-- Write consecutive bytes of a resident copy, line by line. -/
def residentWrite : Nat → Nat → Nat → List Byte → Chip → Chip
  | 0, _, _, _, c => c
  | fuel + 1, t, off, d, c =>
    if d.isEmpty then c
    else residentWrite fuel t (off + 64) (d.drop 64) (hbmPut (residentPlace t off).1 (lineBytes (bytesAt d 0 64)) c)

/-- R277 step 2: the resident copy of a tile: its instruction store image, then its constant regions in a zero image. -/
def writeResident (p : Plan) (g : TileProgram) (c : Chip) : Chip :=
  let store := g.bundles.flatMap (fun b => bytesLE 16 b.toNat)
  let sram := ((planRegions p).filter (fun r => !r.hbm && r.tile == g.tile && isConstant r)).foldl
    (fun m r => cellsSetRun 0 m r.base ((initWords p r).map (fun w => w.data.toNat))) ([] : Cells Nat)
  let c := residentWrite (store.length + 1) g.tile 0 store c
  sram.foldl (fun c e =>
    let pl := residentPlace g.tile (65536 + 32 * e.1)
    let old := lineWords (hbmPeek c pl.1)
    let w := BitVec.ofNat 256 e.2
    hbmPut pl.1 (if pl.2 then lineData old.1 w else lineData w old.2) c) c

/-- Zero every resident copy (R338). -/
def zeroResident (c : Chip) : Chip :=
  let hit (k : Nat) : Bool := let r := rowServed c (keyRow k); rowSid r == 2 && decide (14064 ≤ rowNo r) && decide (rowNo r < 16368)
  { c with hbm := { c.hbm with lines := cellsClear hit c.hbm.lines } }

/-- R68: reload an instruction line from the resident copy. -/
def reloadLine (t line : Nat) (c : Chip) : Chip :=
  let r := residentWord t (32 * line) c
  setTile t (setIstoreLine line r.1.data (tileAt r.2 t)) r.2

/-- R67: reload words [from_, from_ + n) of a constant region from the resident copy. -/
def reloadWords (t base : Nat) : Nat → Nat → Chip → Chip
  | 0, _, c => c
  | n + 1, i, c =>
    let r := residentWord t (65536 + 32 * ((base + i) % 16384)) c
    reloadWords t base n (i + 1) (setTile t (sramWrite (tileAt r.2 t) (base + i) r.1) r.2)

/-- The program-visible state of Table 3-2 reset (R58), with what the image supplies. -/
def resetProgram (g : Option TileProgram) (t : Tile) : Tile :=
  let r : Tile := {}
  let t := { t with sregs := r.sregs, loops := [], vregs := r.vregs, vblocks := r.vblocks, masks := r.masks
                    walks := r.walks, acc := [], active := [], shadow := [], window := [], pend := [], pst := []
                    running := false, lineLost := false, pc := 0, ac := 0, latch := r.latch, reload := [] }
  match g with
  | none => { t with entry := 0, aods := r.aods, agds := r.agds, istore := [], lineUpsets := [], idle := true }
  | some g =>
    { t with entry := g.entry, aods := Vector.ofFn (fun i => g.aods.getD i 0), agds := Vector.ofFn (fun i => g.agds.getD i 0)
             istore := cellsSetRun 0 [] 0 g.bundles, lineUpsets := [] }

/-- R127: reload a tile: program, descriptors and constant regions from the resident copy; the rest reset by R58. -/
def reloadTile (p : Plan) (t : Nat) (c : Chip) : Chip :=
  let g := tileProgram p t
  let c := setTile t (resetProgram (g.map (fun g => { g with bundles := [] })) (tileAt c t)) c
  let c := match g with
    | none => c
    | some g => (List.range (cdiv g.bundles.length 2)).foldl (fun c n => reloadLine t n c) c
  foldRegions ((planRegions p).filter (fun r => !r.hbm && r.tile == t && isConstant r && !c.plan.aborted.contains r.fn))
    (fun r c => reloadWords t r.base (min r.length 16384) 0 c) c

/-- Every function that owns SRAM in a tile is aborted. -/
def fnsAborted (c : Chip) (p : Plan) (t : Nat) : Bool := let fs := tileFns p t; !fs.isEmpty && fs.all c.plan.aborted.contains
/-- R129: a moved tile of aborted functions is scrubbed in place of its reload; its program returns when it starts again. -/
def scrubTile (t : Nat) (c : Chip) : Chip := setTile t { resetProgram none (tileAt c t) with sram := [], upsets := [] } c

/-- A start at the entry or the resume entry address (R124, R141); a scrubbed tile is loaded first (R129). -/
def startTile (p : Plan) (resume : Bool) (t : Nat) (c : Chip) : Chip :=
  match tileProgram p t with
  | none => idleTile t c
  | some g =>
    if tileWorks c p t then
      let c := if (tileAt c t).istore.isEmpty then reloadTile p t c else c
      setTile t { tileAt c t with idle := false, entry := if resume then g.resume else g.entry } c
    else idleTile t c
/-- Give every tile of the plan its entry. -/
def startTiles (resume : Bool) (c : Chip) : Chip :=
  match c.plan.loaded with
  | none => c
  | some p => (planPrograms p).foldl (fun c g => startTile p resume g.tile c) c
/-- The regions of a function as at RUN (R141, R162): transient poisoned, persistent and constant from the image. -/
def initFn (p : Plan) (q : Region → Bool) (c : Chip) : Chip :=
  let rs := (planRegions p).filter q
  let c := foldRegions (rs.filter isTransient) poisonRegion c
  foldRegions (rs.filter (fun r => !isTransient r)) (initRegion p) c

end Sys2Proof.Machine
end

