-- ==== Sys2Proof/Machine/Egress.lean ====
section
/-! DEFINITION. Egress records and the egress schedule (spec/06_video_path.md R220, R477). -/

namespace Sys2Proof.Machine

/-- Words of a channel into an edge port that have arrived in this tick, in order: send, word index, word. -/
def arrivedWords (c : Chip) (ch : Channel) : List (Nat × Nat × EdgeWord) :=
  (List.range ch.k).flatMap fun j => (List.range ch.w).filterMap fun i =>
    (c.grid.edge.find? (fun w => w.port == ch.dst && w.fc == ejectFc ch (sendAc ch j) i)).map (fun w => (j, i, w))

/-- Remove words that a unit has taken. -/
def dropWords (ws : List EdgeWord) (c : Chip) : Chip :=
  { c with grid := { c.grid with edge := c.grid.edge.filter (fun w => !ws.contains w) } }

/-- A channel toward the egress ports S61 and S62 that is active in this tick; after entry to Survival nothing is emitted
(R366). -/
def egressActive (c : Chip) (ch : Channel) : Bool :=
  ch.kind == 2 && (ch.dst == 64 + 61 || ch.dst == 64 + 62) && c.tk.mode = .running
    && (match c.plan.armed with | some pos => channelActive c.plan.active pos ch | none => false)

/-- The egress schedule entry of a channel's send in this tick (R477). -/
def egressEntry (c : Chip) (ch : Channel) (j : Nat) : Option EgressEntry :=
  match c.plan.loaded, c.plan.armed with
  | some p, some pos => (planEgress p).find? (fun e => bitOf c.plan.active e.ovl && e.pos == pos && e.send == j && egressChannel p e == some ch)
  | _, _ => none

/-- What the words of a channel into the egress unit amount to (R220, R477): a refused record, a record with its output channel, payload
and whether a payload word is poisoned or invalid, or an invalid header at a send, with the output channel its entry names. -/
inductive EgressEvent where
  | refused
  | record (o : OchEntry) (words : List EdgeWord) (payload : List Byte) (bad : Bool)
  | lost (send : Nat) (och : Option Nat)
  deriving DecidableEq, Repr

/-- Where the egress unit stands on a channel between two words: between records, skipping the payload of a refused record, inside an
accepted one, or discarding up to the next scheduled header (R477). -/
inductive EgressPhase where
  | free
  | skip (left : Nat)
  | collect (o : OchEntry) (len left : Nat) (got : List EdgeWord)
  | discard
  deriving DecidableEq, Repr

/-- The record complete once no word is missing. -/
def collected (o : OchEntry) (len left : Nat) (got : List EdgeWord) : EgressPhase × List EgressEvent :=
  if left = 0 then
    let body := got.drop 1
    (.free, [.record o got ((body.flatMap (fun w => bytesLE 32 w.data.toNat)).take len) (body.any (fun w => w.poison || w.invalid))])
  else (.collect o len left got, [])

/-- A valid header word (R220): judged on arrival; a refused record's payload words are skipped. `named` is the output channel of the
schedule entry of its send, if one names it (R477). -/
def judgeHeader (p : Plan) (ch : Channel) (named : Option Nat) (w : EdgeWord) : EgressPhase × List EgressEvent :=
  let len := fld w.data.toNat 31 16
  let och := fld w.data.toNat 9 0
  let n := cdiv len 32
  match planOch p och with
  | some o =>
    if o.source == ch.src && decide (len ≤ o.maxlen) && (named.getD och == och) then collected o len n [w]
    else (if n = 0 then .free else .skip n, [.refused])
  | none => (if n = 0 then .free else .skip n, [.refused])

/-- One arrived word: word 0 of a scheduled send is a header whatever came before it; word 0 of another send is one only between
records (R477). An invalid header that no entry names takes the words up to the next scheduled header with it. -/
def egressWord (c : Chip) (p : Plan) (ch : Channel) (ph : EgressPhase) (j i : Nat) (w : EdgeWord) : EgressPhase × List EgressEvent :=
  let header (named : Option Nat) : EgressPhase × List EgressEvent :=
    if w.invalid || w.poison then (.discard, [.lost j named]) else judgeHeader p ch named w
  match (if i = 0 then egressEntry c ch j else none) with
  | some e => header (some e.och)
  | none => match ph with
    | .free => if i = 0 then header none else (.free, [])
    | .skip n => (if n ≤ 1 then .free else .skip (n - 1), [])
    | .collect o len left got => collected o len (left - 1) (got ++ [w])
    | .discard => (.discard, [])

/-- What a channel's arrived words amount to, in order. -/
def egressFrom (c : Chip) (p : Plan) (ch : Channel) : EgressPhase → List (Nat × Nat × EdgeWord) → List EgressEvent
  | _, [] => []
  | ph, (j, i, w) :: rest =>
    let r := egressWord c p ch ph j i w
    r.2 ++ egressFrom c p ch r.1 rest
def egressEvents (c : Chip) (ch : Channel) : List EgressEvent :=
  match c.plan.loaded with
  | some p => egressFrom c p ch .free (arrivedWords c ch)
  | none => []

/-- The first event of channel number n that the egress unit has not dealt with in this tick. -/
def nextEgress (c : Chip) (n : Nat) : Option EgressEvent :=
  match (channels c)[n]? with
  | some ch => if egressActive c ch then (egressEvents c ch)[cellsGet 0 c.net.egress n]? else none
  | none => none
/-- It is dealt with. -/
def egressTaken (n : Nat) (c : Chip) : Chip :=
  { c with net := { c.net with egress := cellsSet 0 c.net.egress n (cellsGet 0 c.net.egress n + 1) } }

/-- EGRESS_RECORD on channel number n of the plan (R220). pools lists the output channels the serving unit takes itself. -/
def egressRecord (n : Nat) (c : Chip) (pools : List Nat) : Chip :=
  match nextEgress c n with
  | some .refused => refuseRecord (egressTaken n c)
  | some (.record o _ d bad) =>
    if pools.contains o.och then c
    else
      let c := egressTaken n c
      if !fnLive c o.fn o.tenant then c
      else if !ochFree c o.och then refuseRecord c
      else
        let f := slotFlags c o
        emitResult o d bad f.1 f.2 (takeOch o.och c)
  | _ => c

/-- The invalid zero-length datagram of an output channel (R477); `slot` says whether a serving slot's channel emits and
counts what its tick commits (R231). -/
def emitInvalid (slot : Nat → Chip → Bool × Chip) (o : OchEntry) (c : Chip) : Chip :=
  let r := slot o.och c
  if !r.1 then r.2
  else
  let c := r.2
  if fnLive c o.fn o.tenant && c.tk.mode = .running && ochFree c o.och then
    let f := slotFlags c o
    emitResult o [] true f.1 f.2 (takeOch o.och c)
  else c

/-- EGRESS_INVALID_HEADER: send j of channel number n brought a header with I = 1 or P = 1 (R477). -/
def egressInvalid (slot : Nat → Chip → Bool × Chip) (n j : Nat) (c : Chip) : Chip :=
  match nextEgress c n with
  | some (.lost k named) =>
    if k ≠ j then c
    else
      let c := egressTaken n c
      match named with
      | none => refuseRecord c
      | some och => match c.plan.loaded with
        | some p => (match planOch p och with | some o => emitInvalid slot o c | none => c)
        | none => c
  | _ => c

/-- EGRESS_PAUSE_DATAGRAM: in a repair pause tick, egress entry n, or job n of Campion engine e, falls due (R477). -/
def egressPause (slot : Nat → Chip → Bool × Chip) (campion : Bool) (e n : Nat) (c : Chip) : Chip :=
  match c.plan.loaded, c.plan.armed, workPaused c with
  | some p, some pos, true =>
    if campion then
      match (planCJobs p e)[n]? with
      | none => c
      | some jb =>
        if jb.pos == pos && entryActive c.plan.active jb.ovl jb.disp && jb.dec != 0
        then (match planOch p jb.och with | some o => emitInvalid slot o c | none => c) else c
    else
      match (planEgress p)[n]? with
      | none => c
      | some x =>
        let on := match egressChannel p x with | some ch => channelActive c.plan.active pos ch | none => false
        if x.pos == pos && bitOf c.plan.active x.ovl && on
        then (match planOch p x.och with | some o => emitInvalid slot o c | none => c) else c
  | _, _, _ => c

end Sys2Proof.Machine
end

