-- ==== Sys2Proof/Machine/Serving.lean ====
section
/-! DEFINITION. The serving unit (spec/07_model_serving.md R225-R255): requests on the wire, admission, pages and lanes,
trees, summaries, adapters. -/

namespace Sys2Proof.Machine

/-! Lookups. -/

def convKey (t i : Nat) : Nat := t * 2 ^ 32 + i

def setServ (v : ServSt) (c : Chip) : Chip := { c with serv := v }
def servSlot (c : Chip) (n : Nat) : ServSlot := (cellsFind c.serv.slots n).getD {}
def setServSlot (n : Nat) (v : ServSlot) (c : Chip) : Chip := setServ { c.serv with slots := cellsPut c.serv.slots n v } c

def reqInSlot (q : LmReq) : Bool := q.st = .prefill || q.st = .generating || q.st = .cancelled
def reqQueued (q : LmReq) : Bool := q.st = .restoring || q.st = .waiting
def reqLive (q : LmReq) : Bool := reqInSlot q || reqQueued q
def reqIs (t i : Nat) (q : LmReq) : Bool := q.tenant == t && q.id == i && q.st ≠ .assembling
/-- The request of an identifier past assembly, and the one still assembling. -/
def findReq (c : Chip) (t i : Nat) : Option LmReq := c.serv.reqs.find? (reqIs t i)
def findAsm (c : Chip) (t i : Nat) : Option LmReq := c.serv.reqs.find? (fun q => q.tenant == t && q.id == i && q.st = .assembling)
def setReq (q : LmReq) (c : Chip) : Chip :=
  setServ { c.serv with reqs := c.serv.reqs.map (fun r => if reqIs q.tenant q.id r then q else r) } c
def dropAsm (t i : Nat) (c : Chip) : Chip :=
  setServ { c.serv with reqs := c.serv.reqs.filter (fun q => !(q.tenant == t && q.id == i && q.st = .assembling)) } c
/-- A request takes its place at the tail; an older one of its identifier is forgotten, and of final requests the last
4,096 are kept (2402.01). -/
def addReq (q : LmReq) (c : Chip) : Chip :=
  let rs := c.serv.reqs.filter (fun r => !reqIs q.tenant q.id r) ++ [q]
  let final (r : LmReq) : Bool := !reqLive r && r.st ≠ .assembling
  let rs := if 4096 < (rs.filter final).length then (match rs.find? final with | some f => rs.erase f | none => rs) else rs
  setServ { c.serv with reqs := rs } c
def findConv (c : Chip) (t i : Nat) : Option Conv := c.serv.convs.find? (fun v => v.tenant == t && v.conv == i)
def setConv (v : Conv) (c : Chip) : Chip :=
  setServ { c.serv with convs := c.serv.convs.filter (fun w => !(w.tenant == v.tenant && w.conv == v.conv)) ++ [v] } c
/-- A conversation with a request waiting or in a slot. -/
def convBusy (c : Chip) (t i : Nat) : Bool :=
  c.serv.reqs.any (fun q => q.tenant == t && q.conv == i && reqLive q && (q.taken || reqInSlot q))
def findSummary (c : Chip) (t i : Nat) : Option Summary := c.serv.sums.find? (fun v => v.tenant == t && v.conv == i)

/-- Whether a slot is active for this module: overlay, function and tenant, its entry position (R225, R251, R255).
Survival leaves the requests in slots, as PAUSE does: the plan is Paused when it ends (R369). -/
def slotActive (c : Chip) (p : Plan) (s : RSlot) : Bool :=
  let mode := if c.tk.mode = .survival then c.tk.before else c.tk.mode
  entryActive c.plan.active s.ovl s.disp && s.entryPos == p.domainPos && (mode = .running || mode = .paused)
    && (match planPool p s.pool with
      | none => false
      | some q => match planFn p q.fn with | none => false | some f => fnLive c f.fn f.tenant)
def activeSlots (c : Chip) : List RSlot :=
  match c.plan.loaded with
  | none => []
  | some p => ((planRSlots p).filter (slotActive c p)).insertionSort (fun a b => a.slot ≤ b.slot)
def activeSlot (c : Chip) (n : Nat) : Option RSlot := (activeSlots c).find? (fun s => s.slot == n)
def slotFn (p : Plan) (s : RSlot) : Nat := match planPool p s.pool with | some q => q.fn | none => 0xFFFF
/-- Slot entries of a function in the plan, those of this module's position. -/
def fnSlots (p : Plan) (fn : Nat) : List RSlot := (planRSlots p).filter (fun s => slotFn p s == fn && s.entryPos == p.domainPos)
def slotReq (c : Chip) (n : Nat) : Option LmReq := c.serv.reqs.find? (fun q => reqInSlot q && q.slot == n)
/-- The committed length at the start of the tick: L0 in prefill, then what the generation ticks committed after the prompt
(R249). -/
def reqLen (q : LmReq) : Nat := if q.ticks < q.prefill then q.l0 else q.l0 + q.p + q.grown

/-! Status datagrams (R230); none leaves while the plan does not run (R157). -/

def emitStatusOn (fn tenant och id conv ev st : Nat) (c : Chip) : Chip :=
  match c.plan.loaded with
  | none => c
  | some p => match planFn p fn, planOch p och with
    | some f, some o =>
      if f.kind = 1 && f.tenant == tenant && fnLive c fn tenant && c.tk.mode = .running then
        let fl := slotFlags c o
        emitResult o (bytesLE 4 id ++ bytesLE 4 conv ++ bytesLE 1 ev ++ bytesLE 1 st ++ bytesLE 2 0) false fl.1 fl.2 c
      else c
    | _, _ => c
/-- STATUS_OCH of a function's lowest-numbered pool. -/
def fnStatusOch (p : Plan) (fn : Nat) : Nat :=
  match ((planPools p).filter (fun q => q.fn == fn)).insertionSort (fun a b => a.pool ≤ b.pool) with
  | q :: _ => q.statusOch
  | [] => 0xFFFF
def emitStatus (q : LmReq) (slot : Option Nat) (ev st : Nat) (c : Chip) : Chip :=
  match c.plan.loaded with
  | none => c
  | some p =>
    let pool := slot.bind (fun n => (planRSlots p).find? (fun s => s.slot == n) |>.bind (fun s => planPool p s.pool))
    emitStatusOn q.fn q.tenant (match pool with | some x => x.statusOch | none => fnStatusOch p q.fn) q.id q.conv ev st c

/-! Requests on the wire (R227-R229). -/

/-- R331, R227: authenticate a request datagram; its header and tokens, or none when it is dropped. -/
def openRequest (b : List Byte) (c : Chip) : Option (List Byte) × Chip :=
  let tenant := numAt b 4 2
  let key := numAt b 1 1
  let fail (c : Chip) : Option (List Byte) × Chip := (none, objBump 0x2400 0x04 0 1 c)
  if !bitOf key 7 then (if tenant = 0 then (some (b.drop 72), c) else fail c)
  else
    let g := key % 2
    match liveKey c 1 tenant g with
    | none => fail (if keyRetired c 1 tenant g then integrityFail tenant c else c)
    | some k =>
      let d := b.drop 72
      match gcmOpen k.key (bytesAt b 0x38 12) (b.take 72) (d.take (d.length - 16)) (d.drop (d.length - 16)) with
      | none => fail c
      | some pt => if d.length < 16 then fail c else (some pt, c)

/-- Tokens as they stand, 4 bytes each. -/
def tokensOf (b : List Byte) : List Nat := (entriesOf 4 (b.length / 4) b).map natLE
def noToken : Nat := 0xFFFFFFFF

/-- R229, row 8: the store or the tenant's quota is full. -/
def storeFull (c : Chip) (q : LmReq) : Bool :=
  let held := c.serv.reqs.filter (fun r => reqQueued r || r.st = .assembling)
  decide (4096 ≤ held.length) || decide (32 * 2 ^ 20 < 4 * (q.p + (held.map (·.p)).sum))
    || decide (objGet c 0x2201 0x0A q.tenant ≤ (held.filter (fun r => r.tenant == q.tenant)).length)
/-- R229, Table 7-5, rows 1-5 and 8: a completed submit; none is a duplicate, dropped silently. -/
def submitCheck (c : Chip) (q : LmReq) : Option Nat :=
  let toks := q.got.flatMap (·.2)
  let row1 := q.bad || q.p = 0 || q.g = 0 || (bitOf q.flags 0 && bitOf q.flags 2) || decide (8 ≤ q.flags)
    || toks.length ≠ q.p || toks.contains noToken || (decide (255 < q.adapter) && q.adapter != 0xFFFF)
  if row1 then some stRange
  else match c.plan.loaded with
  | none => some stRights
  | some p =>
    match planFn p q.fn with
    | none => some stRights
    | some f =>
      let ad := planAdapter p q.adapter
      let slots := fnSlots p q.fn
      let l0 := if bitOf q.flags 0 then (match findConv c q.tenant q.conv with | some v => v.len | none => 0) else 0
      let live := match findReq c q.tenant q.id with | some r => reqLive r | none => false
      if f.kind ≠ 1 || f.tenant ≠ q.tenant || (match ad with | some a => a.tenant != q.tenant | none => false) then some stRights
      else if c.plan.aborted.contains q.fn || !slots.any (slotActive c p) then some stState
      else if slots.all (fun s => decide (s.pMax < q.p)) || objGet c 0x2421 0x02 q.tenant < q.p + q.g
        || slots.all (fun s => decide (slotCap s < l0 + q.p + q.g + slotX s)) then some stRange
      else if live then none
      else if storeFull c q then some stNoResource else some stOk

/-- R229: a request whose parts have all arrived. -/
def completeRequest (q : LmReq) (c : Chip) : Chip :=
  let q := { q with got := q.got.insertionSort (fun a b => a.1 ≤ b.1) }
  let c := objBump 0x2400 0x02 0 1 (dropAsm q.tenant q.id c)
  match submitCheck c q with
  | none => objBump 0x2400 0x06 0 1 c
  | some st =>
    if st = stOk then addReq { q with st := .waiting } c
    else setServ { c.serv with refusals := c.serv.refusals ++ [(q, st)] } c

/-- A part of a submit (R227, R228): the request is complete when as many different parts as it has have arrived; a part that
arrived before changes nothing. -/
def submitPart (t : Nat) (b tokens : List Byte) (c : Chip) : Chip :=
  let tenant := numAt b 4 2
  let id := numAt b 8 4
  let part := numAt b 0x16 2
  let idx := part / 256
  let n := part % 256 + 1
  let toks := tokensOf tokens
  let stop := (tokensOf (bytesAt b 0x18 16)).filter (· != noToken)
  let badPart := numAt b 0 1 ≠ 1 || numAt b 2 1 ≠ 1 || fld (numAt b 1 1) 6 1 ≠ 0 || numAt b 0x44 4 ≠ 0 || 16 < n || n ≤ idx
    || tokens.length % 4 ≠ 0
  let parts := min n 16
  let q0 : LmReq := match findAsm c tenant id with
    | some q => q
    | none => { tenant := tenant, fn := numAt b 6 2, id := id, conv := numAt b 0xC 4, flags := numAt b 3 1, adapter := numAt b 0x10 2
                p := numAt b 0x12 2, g := numAt b 0x14 2, stop := stop, params := bytesAt b 0x28 16, parts := parts, got := [], first := t }
  let again := q0.got.any (fun g => g.1 == idx)
  let q := { q0 with got := if again then q0.got else q0.got ++ [(idx, toks)], bad := q0.bad || (!again && (badPart || parts ≠ q0.parts)) }
  if q.parts ≤ q.got.length then completeRequest { q with done := c.tk.tick } c
  else
    let c := dropAsm tenant id c
    setServ { c.serv with reqs := c.serv.reqs ++ [q] } c

/-- The oldest request datagram whose OP satisfies f, opened: its time, bytes and tokens. -/
def takeRequest (f : Nat → Bool) (c : Chip) : Option ((Nat × List Byte × List Byte) × Chip) × Chip :=
  match takeRx (fun x => x.cls = .request && f (numAt x.payload 2 1)) c with
  | none => (none, c)
  | some (x, c) =>
    if x.payload.length < 72 then (none, objBump 0x2340 0x02 0 1 c)
    else match openRequest x.payload c with
    | (none, c) => (none, c)
    | (some d, c) => (some ((x.t, x.payload, d), c), c)

/-- REQUEST_SUBMIT (R229). -/
def requestSubmit (c : Chip) : Chip :=
  match takeRequest (fun op => op != 2 && op != 3) c with
  | (none, c) => c
  | (some ((t, b, d), c), _) => submitPart t b d c
/-- REQUEST_CANCEL and REQUEST_RELEASE (R250, R242): taken up at the next boundary. -/
def requestOp (op : Nat) (c : Chip) : Chip :=
  match takeRequest (· == op) c with
  | (none, c) => c
  | (some ((_, b, d), c), _) =>
    let bad := numAt b 0 1 ≠ 1 || fld (numAt b 1 1) 6 1 ≠ 0 || decide (8 ≤ numAt b 3 1) || numAt b 0x16 2 ≠ 0 || numAt b 0x44 4 ≠ 0 || !d.isEmpty
    let o : ServOp := { tenant := numAt b 4 2, key := numAt b (if op = 2 then 8 else 0xC) 4, fn := numAt b 6 2, conv := numAt b 0xC 4
                        datagram := true, tick := c.tk.tick, bad := bad }
    if op = 2 then setServ { c.serv with cancels := c.serv.cancels ++ [o] } c
    else setServ { c.serv with releases := c.serv.releases ++ [o] } c
/-- REQUEST_ASSEMBLY_TIMEOUT (R228). -/
def assemblyTimeout (tenant id t : Nat) (c : Chip) : Chip :=
  match findAsm c tenant id with
  | none => c
  | some q =>
    if t < q.first + 1000000000 then c
    else
      let c := objBump 0x2400 0x05 0 1 (dropAsm tenant id c)
      match findReq c tenant id with
      | some r => if reqLive r then c else addReq { q with st := .dropped } c
      | none => addReq { q with st := .dropped } c

/-! Pages (R239-R243). -/

/-- The group of a position. -/
def posGroup (h : Nat × Nat × Nat) (pos : Nat) : Nat := h.2.1 + pos / h.2.2
/-- KV slots of a group in use: mapped by a conversation, or being filled by an in-lane. -/
def kvUsed (c : Chip) (pool grp : Nat) : List Nat :=
  c.serv.convs.flatMap (fun v => match v.home with
    | some h => if h.1 = pool then (v.kv.filter (fun e => posGroup h e.1 == grp)).map (·.2) else []
    | none => []) ++ (c.serv.moves.filter (fun m => m.pool == pool && m.group == grp)).flatMap (·.kv)
def kvFree (c : Chip) (p : Pool) (grp : Nat) : List Nat :=
  let used := kvUsed c p.pool grp
  (List.range (p.nks - 32)).filter (fun t => !used.contains t)
/-- A page of a conversation that is hot. -/
def pageHot (v : Conv) (i : Nat) : Bool := (cellsFind v.kv (32 * i)).isSome
def pageWarm (v : Conv) (i : Nat) : Bool := (cellsFind v.warm i).isSome
/-- KV slots of a group promised to admitted requests and not yet mapped. -/
def kvPromised (c : Chip) (pool grp : Nat) : Nat :=
  (c.serv.convs.map (fun v => match v.home with
    | some h => if h.1 = pool then
        32 * ((List.range (cdiv v.reserve 32)).filter (fun i => posGroup h (32 * i) == grp && !pageHot v i && !pageWarm v i)).length else 0
    | none => 0)).sum
/-- R240: map page i of a conversation to the group's lowest free KV slots. -/
def mapPage (p : Pool) (v : Conv) (i : Nat) (c : Chip) : Chip :=
  match v.home with
  | none => c
  | some h =>
    let free := kvFree c p (posGroup h (32 * i))
    if pageHot v i || pageWarm v i || free.length < 32 then c
    else setConv { v with kv := ((free.take 32).zipIdx).foldl (fun m e => cellsPut m (32 * i + e.2) e.1) v.kv } c
def mapPages (p : Pool) (t i hi : Nat) (c : Chip) : Chip :=
  (List.range (cdiv hi 32)).foldl (fun c n => match findConv c t i with | some v => mapPage p v n c | none => c) c

/-- Bytes of a page, stride P of the non-video set, and base addresses (R241, R273). -/
def pageBytes (p : Pool) : Nat := 32 * (match p.groups with | g :: _ => g.length | [] => 0) * 2 ^ p.pgw * 32
def stride (c : Chip) : Nat := (pcSet (vpcMask c) false).length * 16384
def laneBase (p : Pool) (g lane : Nat) : Nat := p.window + (g * (p.inLanes + p.outLanes) + lane) * pageBytes p
def warmBase (c : Chip) (p : Pool) (j : Nat) : Nat :=
  (match c.plan.loaded with | some pl => (match (planRegions pl)[p.region]? with | some r => r.base | none => 0) | none => 0) + j * pageBytes p
def sameClass (c : Chip) (p : Pool) (g lane j : Nat) : Bool :=
  laneBase p g lane % max 1 (stride c) == warmBase c p j % max 1 (stride c)
def warmUsed (c : Chip) (pool j : Nat) : Bool :=
  c.serv.convs.any (fun v => (match v.home with | some h => h.1 == pool | none => false) && v.warm.any (fun e => e.2 == j))
    || c.serv.moves.any (fun m => m.pool == pool && m.warm == j)

/-- Moves of the tick that ended: done when the plan ran in it, else bound again later (R241, R243). -/
def finishMove (m : LaneMove) (ran : Bool) (c : Chip) : Chip :=
  match findConv c m.tenant m.conv with
  | none => c
  | some v =>
    if !ran then c
    else
      let c := objBump 0x2431 0x05 m.pool 1 c
      let out := pageHot v m.page
      let clear (k : Nat) : Bool := k / 32 == m.page
      if out then setConv { v with kv := cellsClear clear v.kv, warm := cellsPut v.warm m.page m.warm } c
      else setConv { v with kv := m.kv.zipIdx.foldl (fun x e => cellsPut x (32 * m.page + e.2) e.1) v.kv, warm := cellsDrop v.warm m.page } c
def finishMoves (c : Chip) : Chip :=
  let ms := c.serv.moves
  let ran := c.serv.ran
  ms.foldl (fun c m => finishMove m ran c) (setServ { c.serv with moves := [] } c)

/-- Pages waiting to go out of a group, in the order of R241. -/
def outPages (c : Chip) (pool grp : Nat) : List (Conv × Nat) :=
  let vs := (c.serv.convs.filter (fun v => v.leaving && v.idle.isSome)).insertionSort (fun a b =>
    let ka := a.idle.getD 0
    let kb := b.idle.getD 0
    ka < kb || (ka == kb && (a.tenant < b.tenant || (a.tenant == b.tenant && a.conv ≤ b.conv))))
  vs.flatMap (fun v => match v.home with
    | some h => if h.1 = pool then ((List.range (cdiv v.len 32)).filter (fun i => pageHot v i && posGroup h (32 * i) == grp
        && !c.serv.moves.any (fun m => m.tenant == v.tenant && m.conv == v.conv && m.page == i))).map (fun i => (v, i)) else []
    | none => [])
/-- Warm pages that a restoring request waits for, in queue order and ascending page index (R243). -/
def inPages (c : Chip) (pool grp : Nat) : List (Conv × Nat × Nat) :=
  (c.serv.reqs.filter (fun q => q.st = .restoring)).flatMap fun q => match findConv c q.tenant q.conv with
    | none => []
    | some v => match v.home with
      | some h => if h.1 = pool then (v.warm.filter (fun e => posGroup h (32 * e.1) == grp
          && !c.serv.moves.any (fun m => m.tenant == v.tenant && m.conv == v.conv && m.page == e.1))).map (fun e => (v, e.1, e.2)) else []
      | none => []
def laneBusy (c : Chip) (pool grp lane : Nat) : Bool := c.serv.moves.any (fun m => m.pool == pool && m.group == grp && m.lane == lane)

/-- R241: bind a page that may leave to the first idle out-lane for which a warm slot of its class is free; a page refused counts. -/
def bindOut (p : Pool) (grp : Nat) (v : Conv) (i : Nat) (c : Chip) : Chip :=
  let idle := ((List.range p.outLanes).map (p.inLanes + ·)).filter (fun l => !laneBusy c p.pool grp l)
  match idle.findSome? (fun l => ((List.range p.warmPages).find? (fun j => sameClass c p grp l j && !warmUsed c p.pool j)).map (fun j => (l, j))) with
  | none => objBump 0x2431 0x06 p.pool 1 c
  | some (l, j) =>
    let kv := (List.range 32).map (fun n => cellsGet 0 v.kv (32 * i + n))
    setServ { c.serv with moves := c.serv.moves ++ [{ pool := p.pool, group := grp, lane := l, tenant := v.tenant, conv := v.conv
                                                      page := i, kv := kv, warm := j }] } c
/-- The out-lanes of a group at a boundary: as many pages, in their order, as lanes are idle. -/
def bindOuts (p : Pool) (grp : Nat) (c : Chip) : Chip :=
  let idle := ((List.range p.outLanes).filter (fun l => !laneBusy c p.pool grp (p.inLanes + l))).length
  ((outPages c p.pool grp).take idle).foldl (fun c e => bindOut p grp e.1 e.2 c) c
/-- R243: bind in-lane `lane` to the next warm page of its class; KV slots promised to admitted requests are not free (R240). -/
def bindIn (p : Pool) (grp lane : Nat) (c : Chip) : Chip :=
  if laneBusy c p.pool grp lane then c
  else match (inPages c p.pool grp).find? (fun e => sameClass c p grp lane e.2.2) with
  | none => c
  | some (v, i, j) =>
    let free := kvFree c p grp
    if free.length < 32 + kvPromised c p.pool grp then c
    else setServ { c.serv with moves := c.serv.moves ++ [{ pool := p.pool, group := grp, lane := lane, tenant := v.tenant, conv := v.conv
                                                           page := i, kv := free.take 32, warm := j }] } c
def bindLanes (c : Chip) : Chip :=
  match c.plan.loaded with
  | none => c
  | some pl =>
    (planPools pl).foldl (fun c p => (List.range p.groups.length).foldl (fun c g =>
      let c := (List.range p.inLanes).foldl (fun c l => bindIn p g l c) c
      if p.region = 0xFFFF then c else bindOuts p g c) c) c

/-! Page-slot tables (R239, R240, R253, R273). -/

def setPst (t e v : Nat) (c : Chip) : Chip := setTile t { tileAt c t with pst := cellsSet 0 (tileAt c t).pst (e % 256) v } c
def setPstGroup (ts : List Nat) (e v : Nat) (c : Chip) : Chip := ts.foldl (fun c t => setPst t e v c) c
/-- The position window of a slot. -/
def writeWindow (p : Pool) (s : RSlot) (c : Chip) : Chip :=
  let v := match slotReq c s.slot with | some q => findConv c q.tenant q.conv | none => none
  (List.range s.nseg).foldl (fun c g =>
    (List.range (slotSeg s)).foldl (fun c i =>
      let pos := g * slotSeg s + i
      let kv := match v with | some x => (cellsFind x.kv pos).getD (p.nks - 32 + pos % 32) | none => p.nks - 32 + pos % 32
      setPstGroup (p.groups.getD (s.g0 + g) []) (s.pti + i) kv c) c) c
/-- The lane windows of a pool. -/
def writeLanes (p : Pool) (c : Chip) : Chip :=
  (List.range p.groups.length).foldl (fun c g =>
    (List.range (p.inLanes + p.outLanes)).foldl (fun c l =>
      let m := c.serv.moves.find? (fun m => m.pool == p.pool && m.group == g && m.lane == l)
      (List.range 32).foldl (fun c i =>
        setPstGroup (p.groups.getD g []) (p.lanePti + 32 * l + i)
          (match m with | some x => x.kv.getD i 0 | none => p.nks - 32 + i) c) c) c) c
/-- R241, R273: the windows the HBM controller translates, and those of idle out-lanes. -/
def writeBinds (pl : Plan) (c : Chip) : Chip :=
  let lanes := (planPools pl).flatMap (fun p => (List.range p.groups.length).flatMap (fun g =>
    (List.range (p.inLanes + p.outLanes)).map (fun l => (p, g, l))))
  let bound (x : Pool × Nat × Nat) : Option LaneMove :=
    c.serv.moves.find? (fun m => m.pool == x.1.pool && m.group == x.2.1 && m.lane == x.2.2)
  let binds : List WinBind := lanes.filterMap (fun x => (bound x).map (fun m =>
    { window := laneBase x.1 x.2.1 x.2.2, slot := warmBase c x.1 m.warm, bytes := pageBytes x.1 }))
  let idle := lanes.filterMap (fun x => if (bound x).isNone && decide (x.1.inLanes ≤ x.2.2)
    then some (laneBase x.1 x.2.1 x.2.2, pageBytes x.1) else none)
  { c with hbm := { c.hbm with binds := binds, idleOut := idle } }
/-- R253: the adapter windows at an admission. -/
def writeAdapter (pl : Plan) (s : RSlot) (q : LmReq) (c : Chip) : Chip :=
  let put (a : AdDecl) (base : Nat) (c : Chip) : Chip :=
    (List.range a.awin).foldl (fun c i => setPstGroup a.tiles (s.adpti + i) (base + i) c) c
  match q.pin, planAdapter pl q.adapter with
  | some (b, _), some a => put a (if b = 0 then a.v0 else a.v1) c
  | _, _ => ((planAdapters pl).filter (fun a => a.fn == q.fn)).foldl (fun c a => put a (planNullSlot pl) c) c
/-- All page-slot table writes of a boundary. -/
def writeTables (c : Chip) : Chip :=
  match c.plan.loaded with
  | none => c
  | some pl =>
    let c := (activeSlots c).foldl (fun c s => match planPool pl s.pool with
      | none => c
      | some p =>
        let c := match slotReq c s.slot with
          | some q => mapPages p q.tenant q.conv ((if q.ticks < q.prefill then q.l0 + q.p else reqLen q) + slotX s) c
          | none => c
        writeWindow p s c) c
    writeBinds pl ((planPools pl).foldl (fun c p => writeLanes p c) c)

/-! Ends of requests and conversations. -/

/-- R242: a conversation's pages are freed and its identifier forgotten; a release is counted. -/
def forgetConv (t i : Nat) (count : Bool) (c : Chip) : Chip :=
  match findConv c t i with
  | none => c
  | some v =>
    let c := setServ { c.serv with convs := c.serv.convs.filter (fun w => !(w.tenant == t && w.conv == i))
                                   moves := c.serv.moves.filter (fun m => !(m.tenant == t && m.conv == i)) } c
    match v.home, count with
    | some h, true => objBump 0x2431 0x04 h.1 1 c
    | _, _ => c
/-- A taken request leaves its conversation without being admitted. -/
def leaveConv (q : LmReq) (c : Chip) : Chip :=
  match findConv c q.tenant q.conv with
  | none => c
  | some v =>
    if !q.taken then c
    else if v.len = 0 && v.kv.isEmpty && v.warm.isEmpty then forgetConv q.tenant q.conv false c
    else setConv { v with idle := some c.tk.tick, reserve := 0 } c
/-- A request is refused at a boundary (R230). -/
def refuseReq (q : LmReq) (st : Nat) (c : Chip) : Chip :=
  let c := leaveConv q (setReq { q with st := .refused, taken := false } c)
  emitStatus q none 0x04 st (objBump 0x2400 0x03 0 1 c)

/-- R332: seal a plaintext summary under the tenant's current result key. -/
def summaryAad (t i len : Nat) : List Byte := bytesLE 2 t ++ bytesLE 4 i ++ bytesLE 4 len
def sealSummary (t i : Nat) (pt : List Byte) (c : Chip) : Option (List Byte × Chip) :=
  match currentKey c 2 t with
  | none => none
  | some (g, k) =>
    let iv := bytesLE 1 g ++ bytesLE 3 0 ++ bytesLE 8 k.iv
    some (iv ++ gcmSeal k.key iv (summaryAad t i pt.length) pt, setKey 2 t g (some { k with iv := k.iv + 1 }) c)
/-- R331: open a sealed summary under the live generation it names. -/
def openSummary (c : Chip) (t i : Nat) (b : List Byte) : Option (List Byte) :=
  let d := b.drop 12
  match liveKey c 2 t (numAt b 0 1) with
  | none => none
  | some k => if b.length < 28 then none
    else gcmOpen k.key (b.take 12) (summaryAad t i (d.length - 16)) (d.take (d.length - 16)) (d.drop (d.length - 16))
/-- Put a sealed summary into the reserve (R244, R273); false when no entry is free. -/
def storeSummary (t i : Nat) (sealed_ : List Byte) (c : Chip) : Option Chip :=
  match c.plan.loaded with
  | none => none
  | some p =>
    let keep := c.serv.sums.filter (fun v => !(v.tenant == t && v.conv == i))
    match (List.range (planSums p).1).find? (fun e => !keep.any (fun v => v.entry == e)) with
    | none => none
    | some e =>
      let base := match (planRegions p)[(planSums p).2]? with | some r => r.base + e * 262144 | none => 0
      let v : Summary := { tenant := t, conv := i, sealed := sealed_, since := c.tk.tick, entry := e }
      some (writePlanData sealed_.length (base / 64) sealed_ (setServ { c.serv with sums := keep ++ [v] } c))

/-- R237, R244, R250: the request of a slot has ended; its conversation becomes idle, is kept as a summary, or is released. -/
def finishReq (s : RSlot) (q : LmReq) (c : Chip) : Chip :=
  let c := setReq { q with st := .ended, endTick := c.tk.tick, taken := false } c
  let c := emitStatus q (some s.slot) 0x03 stOk c
  if q.st = .cancelled then forgetConv q.tenant q.conv true c
  else
    let len := q.l0 + q.p + q.emitted
    let hold (c : Chip) : Chip := match findConv c q.tenant q.conv with
      | none => c
      | some v => setConv { v with len := len, reserve := 0, idle := some c.tk.tick, leaving := false
                                   kv := cellsClear (fun k => decide (32 * cdiv len 32 ≤ k)) v.kv } c
    if bitOf q.flags 1 && decide (0 < s.sumKib) then
      match sealSummary q.tenant q.conv (servSlot c s.slot).summary c with
      | none => hold (objBump 0x2431 0x07 s.pool 1 c)
      | some (b, c1) => match storeSummary q.tenant q.conv b c1 with
        | none => hold (objBump 0x2431 0x07 s.pool 1 c)
        | some c2 => forgetConv q.tenant q.conv false c2
    else hold c

/-- R251: a request in a slot is dropped; its conversation is released. -/
def dropReq (q : LmReq) (report : Bool) (c : Chip) : Chip :=
  let c := setReq { q with st := .dropped, taken := false } c
  let c := if report then emitStatus q (some q.slot) 0x06 stOk c else c
  forgetConv q.tenant q.conv true c
/-- R251: waiting, restoring and assembling requests of some functions are discarded. -/
def discardReqs (f : LmReq → Bool) (c : Chip) : Chip :=
  let gone := c.serv.reqs.filter (fun q => f q && (reqQueued q || q.st = .assembling))
  let c := objBump 0x2400 0x07 0 gone.length c
  setServ { c.serv with reqs := c.serv.reqs.map (fun q => if f q && (reqQueued q || q.st = .assembling)
    then { q with st := .dropped, taken := false } else q) } c
/-- R251: the abort of a function: requests in its slots dropped in silence, the others discarded, conversations forgotten. -/
def serveAbort (fn : Nat) (c : Chip) : Chip :=
  let c := (c.serv.reqs.filter (fun q => q.fn == fn && reqInSlot q)).foldl (fun c q => dropReq q false c) c
  let c := discardReqs (fun q => q.fn == fn) c
  (c.serv.convs.filter (fun v => v.fn == fn)).foldl (fun c v => forgetConv v.tenant v.conv false c) c
/-- R251: UNLOAD, or a replacing LOAD that posts OK. -/
def serveUnload (c : Chip) : Chip :=
  let c := discardReqs (fun _ => true) c
  setServ { reqs := c.serv.reqs } c
/-- R251: a repair pause ends: requests in slots dropped and reported, idle conversations with a page in a moved tile
released. -/
def servePauseEnd (moved : List Nat) (c : Chip) : Chip :=
  let c := (c.serv.reqs.filter reqInSlot).foldl (fun c q => dropReq q true c) c
  let hit (v : Conv) : Bool := match v.home, c.plan.loaded with
    | some h, some p => match planPool p h.1 with
      | none => false
      | some pl => v.kv.any (fun e => (pl.groups.getD (posGroup h e.1) []).any moved.contains)
    | _, _ => false
  (c.serv.convs.filter (fun v => v.idle.isSome && hit v)).foldl (fun c v => forgetConv v.tenant v.conv true c) c

/-! The boundary (R233). -/

/-- R249: remap the positions of an accepted path. -/
def remap (t : TreeStep) (path : List Nat) (kv : Cells Nat) : Cells Nat :=
  let at_ (n : Nat) : Nat := cellsGet 0 kv (t.l + n)
  let kept := path.map at_
  let rest := ((List.range t.nEff).filter (fun n => !path.contains n)).map at_
  ((kept ++ rest).zipIdx).foldl (fun m e => cellsPut m (t.l + e.2) e.1) kv
/-- Positions that a generation tick commits: TPT, or d of the accepted path; without a valid path, node 0 alone (R231, R249). -/
def committed (s : RSlot) (sl : ServSlot) : Nat :=
  if s.treeN = 0 then s.tpt else match sl.tree with | some t => (t.path.getD [0]).length | none => 1
def applyPath (s : RSlot) (c : Chip) : Chip :=
  let sl := servSlot c s.slot
  match slotReq c s.slot with
  | none => setServSlot s.slot { sl with tree := none } c
  | some q =>
    let c := if q.prefill < q.ticks then setReq { q with grown := q.grown + committed s sl } c else c
    match sl.tree with
    | none => c
    | some t =>
      let path := t.path.getD [0]
      let c := match findConv c q.tenant q.conv with
        | some v => setConv { v with kv := remap t path v.kv } c
        | none => c
      let c := objBump 0x2426 0x04 s.slot path.length (objBump 0x2426 0x03 s.slot 1 c)
      setServSlot s.slot { sl with tree := none, cap := some t.nEff } c

/-- One tick run by every request in a slot (R232, R251). -/
def tickReqs (c : Chip) : Chip :=
  if !c.serv.ran then c
  else setServ { c.serv with reqs := c.serv.reqs.map (fun q =>
    if !reqInSlot q then q
    else
      let q := { q with ticks := q.ticks + 1 }
      if q.st = .prefill && q.prefill ≤ q.ticks then { q with st := .generating } else q) } c

/-- R234. -/
def refill (c : Chip) : Chip :=
  match c.plan.loaded with
  | none => c
  | some p => (planTenants p).foldl (fun c t =>
      let b := objGet c 0x2421 0x03 t + (if c.tk.mode = .running then objGet c 0x2421 0x01 t else 0)
      objSet 0x2421 0x03 t (min (objGet c 0x2421 0x02 t) b) c) c

/-- R229 rows 6 and 7, R243: take up a completed request. -/
def takeUp (q : LmReq) (c : Chip) : Chip :=
  let v := findConv c q.tenant q.conv
  let f0 := bitOf q.flags 0
  let f2 := bitOf q.flags 2
  let sum := findSummary c q.tenant q.conv
  let lanes (v : Conv) : Nat := match v.home, c.plan.loaded with
    | some h, some p => (match planPool p h.1 with | some x => x.inLanes | none => 0)
    | _, _ => 0
  if f0 && v.isNone then refuseReq q stNoResource c
  else if f2 && sum.isNone then refuseReq q stNoResource c
  else if f2 && (match sum with | some x => keyRetired c 2 q.tenant (numAt x.sealed 0 1) | none => false)
    then refuseReq q stIntegrity (integrityFail q.tenant c)
  else if (!f0 && !f2 && v.isSome) || convBusy c q.tenant q.conv then refuseReq q stState c
  else
    let c := if f0 then c else forgetConv q.tenant q.conv false c
    let v : Conv := match findConv c q.tenant q.conv with | some x => x | none => { tenant := q.tenant, conv := q.conv, fn := q.fn }
    if !v.warm.isEmpty && lanes v = 0 then refuseReq q stNoResource c
    else
      let c := setConv { v with idle := none, leaving := false } c
      let q := { q with taken := true, l0 := v.len, st := if v.warm.isEmpty then .waiting else .restoring }
      emitStatus q none 0x01 stOk (setReq q c)

/-- R243: a restoring request whose pages are all hot waits. -/
def restoredReqs (c : Chip) : Chip :=
  setServ { c.serv with reqs := c.serv.reqs.map (fun q =>
    if q.st = .restoring && (match findConv c q.tenant q.conv with | some v => v.warm.isEmpty | none => true)
    then { q with st := .waiting } else q) } c

/-- R250: take up a cancel; its result in 2403.03, and for a datagram as a status datagram too. A live request of the identifier
comes first, then one still assembling, then a final one. -/
def applyCancel (o : ServOp) (c : Chip) : Chip :=
  let answer (st : Nat) (slot : Option Nat) (q : Option LmReq) (c : Chip) : Chip :=
    let c := postStatus 0x2403 0x03 0 st c
    if !o.datagram then c
    else match q with
      | some q => emitStatus q slot 0x05 st c
      | none => match c.plan.loaded with
        | some p => emitStatusOn o.fn o.tenant (fnStatusOch p o.fn) o.key o.conv 0x05 st c
        | none => c
  if o.bad then answer stRange none none c
  else match findReq c o.tenant o.key, findAsm c o.tenant o.key with
  | some q, asm =>
    if reqQueued q then
      postStatus 0x2403 0x03 0 stOk (emitStatus q none 0x05 stOk (leaveConv q (setReq { q with st := .refused, taken := false } c)))
    else if q.st = .prefill || q.st = .generating then answer stOk (some q.slot) (some q) (setReq { q with st := .cancelled } c)
    else if q.st = .cancelled then answer stOk (some q.slot) (some q) c
    else if q.st = .ended && q.endTick == c.tk.tick then answer stCompleted (some q.slot) (some q) c
    else match asm with
      | some a => postStatus 0x2403 0x03 0 stOk (emitStatus a none 0x05 stOk (addReq { a with st := .refused } (dropAsm o.tenant o.key c)))
      | none => answer stState none (some q) c
  | none, some q => postStatus 0x2403 0x03 0 stOk (emitStatus q none 0x05 stOk (addReq { q with st := .refused } (dropAsm o.tenant o.key c)))
  | none, none => answer stState none none c

/-- R242: take up a release. -/
def applyRelease (o : ServOp) (c : Chip) : Chip :=
  let st := if o.bad then stRange else match findConv c o.tenant o.key with
    | none => stNoResource
    | some _ => if convBusy c o.tenant o.key then stState else stOk
  let c := if st = stOk then forgetConv o.tenant o.key true c else c
  if o.datagram then c else postStatus 0x2433 0x06 (convKey o.tenant o.key) st c

def dropSummary (t i : Nat) (c : Chip) : Chip :=
  setServ { c.serv with sums := c.serv.sums.filter (fun v => !(v.tenant == t && v.conv == i)) } c
/-- R245, R256: a deletion or an import of a summary takes effect. -/
def applySum (o : SumOp) (c : Chip) : Chip :=
  match o.data with
  | none => postStatus 0x2433 0x06 (convKey o.tenant o.conv) stOk (dropSummary o.tenant o.conv c)
  | some b => (storeSummary o.tenant o.conv b c).getD c
/-- Everything that arrived before ac 0 of this boundary (R233); what arrives later waits for the next one (R164). A request
refused at row 2 receives no status datagram (R230). -/
def takeArrivals (c : Chip) : Chip :=
  let k := c.tk.tick
  let v := c.serv
  let refs := v.refusals.filter (fun r => decide (r.1.done < k))
  let cans := v.cancels.filter (fun o => decide (o.tick < k))
  let rels := v.releases.filter (fun o => decide (o.tick < k))
  let sums := v.sumOps.filter (fun o => decide (o.tick < k))
  let c := setServ { v with refusals := v.refusals.filter (fun r => decide (k ≤ r.1.done)), cancels := v.cancels.filter (fun o => decide (k ≤ o.tick))
                            releases := v.releases.filter (fun o => decide (k ≤ o.tick)), sumOps := v.sumOps.filter (fun o => decide (k ≤ o.tick)) } c
  let c := refs.foldl (fun c r =>
    let c := match findReq c r.1.tenant r.1.id with
      | some x => if reqLive x then c else addReq { r.1 with st := .refused } c
      | none => addReq { r.1 with st := .refused } c
    let c := objBump 0x2400 0x03 0 1 c
    if r.2 = stRights then c else emitStatus r.1 none 0x04 r.2 c) c
  let c := (c.serv.reqs.filter (fun q => q.st = .waiting && !q.taken && decide (q.done < k))).foldl (fun c q => takeUp q c) c
  let c := rels.foldl (fun c o => applyRelease o c) (cans.foldl (fun c o => applyCancel o c) c)
  sums.foldl (fun c o => applySum o c) c

def adSlot (c : Chip) (n : Nat) : AdSlot := (cellsFind c.serv.adapters n).getD {}
def setAdSlot (n : Nat) (v : AdSlot) (c : Chip) : Chip := setServ { c.serv with adapters := cellsPut c.serv.adapters n v } c
/-- Requests pinned to a buffer of an adapter slot (R254). -/
def pinCount (c : Chip) (n buf : Nat) : Nat :=
  (c.serv.reqs.filter (fun q => reqInSlot q && q.adapter == n && (match q.pin with | some x => x.1 == buf | none => false))).length
/-- R254: installs, retirements, and versions whose pin count is 0. -/
def applyAdapters (c : Chip) : Chip :=
  let k := c.tk.tick
  let ops := c.serv.adOps.filter (fun o => decide (o.tick < k))
  let c := setServ { c.serv with adOps := c.serv.adOps.filter (fun o => decide (k ≤ o.tick)) } c
  let c := ops.foldl (fun c o =>
    let a := adSlot c o.slot
    let a' : AdSlot := match o.install with
      | some v => { a with live := a.live.filter (fun x => x.1 != v.1) ++ [v], cur := some v.1 }
      | none => { a with cur := none }
    let c := match o.install with
      | some v => extend 9 0x06 (cellsGet 0 a.marks v.1) c
      | none => c
    postStatus 0x2441 0x03 o.slot stOk (setAdSlot o.slot a' c)) c
  c.serv.adapters.foldl (fun c e =>
    let a := adSlot c e.1
    setAdSlot e.1 { a with live := a.live.filter (fun x => a.cur == some x.1 || pinCount c e.1 x.1 != 0) } c) c
/-- The current version of an adapter for a function. -/
def currentAdapter (c : Chip) (q : LmReq) : Option (Nat × Nat) :=
  match c.plan.loaded with
  | none => none
  | some p => match planAdapter p q.adapter with
    | none => none
    | some a => if a.fn ≠ q.fn then none
      else (adSlot c q.adapter).cur.bind (fun b => (adSlot c q.adapter).live.find? (fun x => x.1 == b))

/-- R235: whether a slot can take a request. -/
def eligible (c : Chip) (p : Plan) (s : RSlot) (q : LmReq) : Bool :=
  match planPool p s.pool, findConv c q.tenant q.conv with
  | some pool, some v =>
    let h := (s.pool, s.g0, slotSeg s)
    let hi := q.l0 + q.p + q.g + slotX s
    let fits := v.kv.isEmpty || v.home == some h
    let need (g : Nat) : Nat := 32 * ((List.range (cdiv hi 32)).filter (fun i => decide (q.l0 / 32 ≤ i) && posGroup h (32 * i) == g
      && !(pageHot v i && v.home == some h))).length
    decide (q.p ≤ s.pMax) && decide (hi ≤ slotCap s) && decide (q.p + q.g ≤ objGet c 0x2421 0x03 q.tenant) && fits
      && (List.range s.nseg).all (fun n => decide (need (s.g0 + n) + kvPromised c s.pool (s.g0 + n) ≤ (kvFree c pool (s.g0 + n)).length))
  | _, _ => false

/-- R234, R235, R240, R253: the request enters the slot at this boundary. -/
def admitReq (p : Plan) (s : RSlot) (q : LmReq) (c : Chip) : Chip :=
  let cost := q.p + q.g
  let t := q.tenant
  let c := objSet 0x2421 0x03 t (objGet c 0x2421 0x03 t - cost) (objBump 0x2421 0x04 t cost (objBump 0x2421 0x05 t 1 c))
  let c := match findConv c t q.conv with
    | none => c
    | some v => setConv { v with home := some (s.pool, s.g0, slotSeg s), fn := q.fn, reserve := q.l0 + q.p + q.g + slotX s } c
  let q := { q with st := .prefill, slot := s.slot, adm := c.tk.tick, prefill := s.prefill, charge := cost, ticks := 0
                    pin := if q.adapter = 0xFFFF then none else currentAdapter c q }
  let c := setServSlot s.slot {} (setReq q c)
  tracePoint 67 0 (s.slot * 2 ^ 16 + t) (emitStatus q (some s.slot) 0x02 stOk (writeAdapter p s q c))

/-- The first request of a function's queue that is not restoring. -/
def headReq (c : Chip) (fn : Nat) : Option LmReq := c.serv.reqs.find? (fun q => q.fn == fn && q.st = .waiting && q.taken)
/-- R254: a request that reaches the head of its queue and names an adapter slot without a current version is refused. -/
def refuseHeads : Nat → Nat → Chip → Chip
  | 0, _, c => c
  | fuel + 1, fn, c =>
    match headReq c fn with
    | none => c
    | some q => if q.adapter ≠ 0xFFFF && (currentAdapter c q).isNone then refuseHeads fuel fn (refuseReq q stNoResource c) else c
/-- A boundary at which a slot admits (Table 7-3), or at which it makes up for one in a repair pause (R125). -/
def admitsNow (c : Chip) (s : RSlot) : Bool := c.tk.tick % max 1 s.period == s.offset || c.serv.owed.contains s.slot
/-- R233, R235: admission at one slot. -/
def admitSlot (s : RSlot) (c : Chip) : Chip :=
  match c.plan.loaded with
  | none => c
  | some p =>
    if (slotReq c s.slot).isSome || !admitsNow c s || c.tk.mode ≠ .running || workPaused c then c
    else
      let fn := slotFn p s
      match headReq c fn with
      | none => c
      | some q => if eligible c p s q then refuseHeads c.serv.reqs.length fn (admitReq p s q c) else c
/-- R307: the inactive module of a lockstep pair admits only what the active one names. -/
def admitAll (c : Chip) : Chip := if follows c then c else (activeSlots c).foldl (fun c s => admitSlot s c) c

/-- Every queue's head is judged (R254). -/
def refuseAll (c : Chip) : Chip :=
  ((c.serv.reqs.map (·.fn)).dedup).foldl (fun c fn => refuseHeads c.serv.reqs.length fn c) c

/-! What runs out at a boundary (R233, R235, R241, R242, R245). SERVING_BOUNDARY carries these out in their place; the row of
each does so by itself from that point of the boundary on. -/

/-- R242, R245: ticks of a time in seconds. -/
def ttlTicks (c : Chip) (s : Nat) : Nat := cdiv (s * 1000000000) (max 1 (tickNs c))
/-- From ac 1,536 of the boundary on. -/
def served (c : Chip) : Bool := decide (phaseRank .ac1536 ≤ phaseRank c.tk.phase)
/-- CONVERSATION_EXPIRY (R242). -/
def convExpiry (t i : Nat) (c : Chip) : Chip :=
  match findConv c t i with
  | none => c
  | some v => match v.idle, v.home with
    | some k, some h => if served c && decide (k + ttlTicks c (objGet c 0x2431 0x03 h.1) ≤ c.tk.tick) then forgetConv t i true c else c
    | _, _ => c
/-- SUMMARY_EXPIRY (R245). -/
def summaryExpiry (t i : Nat) (c : Chip) : Chip :=
  match findSummary c t i with
  | none => c
  | some v => if served c && decide (v.since + ttlTicks c (objGet c 0x2435 0x01 0) ≤ c.tk.tick) then dropSummary t i c else c
/-- HOT_HOLD_EXPIRY (R241). -/
def hotHoldExpiry (t i : Nat) (c : Chip) : Chip :=
  match findConv c t i, c.plan.loaded with
  | some v, some p =>
    let hold := match v.home.bind (fun h => planPool p h.1) with | some x => x.hotHold | none => 0
    match v.idle with
    | some k => if served c && decide (k + hold ≤ c.tk.tick) && !v.leaving then setConv { v with leaving := true } c else c
    | none => c
  | _, _ => c
/-- REQUEST_WAIT_TIMEOUT (R235). -/
def waitTimeout (tenant id : Nat) (c : Chip) : Chip :=
  match findReq c tenant id, c.plan.loaded with
  | some q, some p =>
    let w := ((planRSlots p).filter (fun s => slotFn p s == q.fn)).foldl (fun m s => max m s.maxWait) 0
    if served c && q.st = .waiting && q.taken && decide (w ≤ q.waited) && decide (0 < w) then refuseReq q stTimeout c else c
  | _, _ => c
/-- Everything whose time ran out by this boundary. -/
def expireAll (c : Chip) : Chip :=
  let c := (c.serv.reqs.map (fun q => (q.tenant, q.id))).foldl (fun c e => waitTimeout e.1 e.2 c) c
  let c := (c.serv.convs.map (fun v => (v.tenant, v.conv))).foldl (fun c e => convExpiry e.1 e.2 c) c
  let c := (c.serv.sums.map (fun v => (v.tenant, v.conv))).foldl (fun c e => summaryExpiry e.1 e.2 c) c
  (c.serv.convs.map (fun v => (v.tenant, v.conv))).foldl (fun c e => hotHoldExpiry e.1 e.2 c) c

/-- SERVING_BOUNDARY (R233). -/
def servingBoundary (c : Chip) : Chip :=
  let slots := match c.plan.loaded with | some p => planRSlots p | none => []
  let c := tickReqs (finishMoves c)
  let c := slots.foldl (fun c s => if c.serv.ran && (slotReq c s.slot).isSome then applyPath s c else c) c
  let c := slots.foldl (fun c s => match slotReq c s.slot with
    | some q => if q.over_ then finishReq s q c else c
    | none => c) c
  let act := activeSlots c
  let c := (c.serv.reqs.filter (fun q => reqInSlot q && !act.any (fun s => s.slot == q.slot))).foldl (fun c q => dropReq q true c) c
  let c := refill c
  let run := c.tk.mode = .running
  let c := if run then setServ { c.serv with reqs := c.serv.reqs.map (fun q =>
    if q.st = .waiting && q.taken then { q with waited := q.waited + 1 } else q) } c else c
  let c := applyAdapters (takeArrivals c)
  let c := bindLanes (restoredReqs (refuseAll (expireAll c)))
  let c := writeTables (admitAll c)
  let owed := if workPaused c then (slots.map (·.slot)).filter (fun n => slots.any (fun s => s.slot == n && admitsNow c s)) else []
  setServ { c.serv with ran := run && !workPaused c, owed := owed } c

/-! Work of the tick (R231, R238, R246-R248). -/

/-- Words on an edge channel from its first slot of the tick. -/
def channelWords (ch : Channel) (ws : List (SWord × Bool)) (c : Chip) : Chip :=
  (List.range (min ch.k (cdiv ws.length (max 1 ch.w)))).foldl
    (fun c j => edgeSend ch (sendAc ch j) ((ws.drop (j * ch.w)).take ch.w) c) c
def plainWords (l : List (BitVec 256)) : List (SWord × Bool) := l.map (fun d => ({ data := d }, false))
/-- A slot's channel when it is active in this tick. -/
def slotChan (c : Chip) (s : RSlot) (n : Nat) : Option Channel :=
  match c.plan.loaded, c.plan.armed with
  | some p, some pos => (slotChannel p s.ovl n).bind (fun ch => if channelActive c.plan.active pos ch then some ch else none)
  | _, _ => none
/-- A slot that is served in this work window. -/
def servedSlot (c : Chip) (n : Nat) : Option RSlot :=
  if c.tk.mode = .running && !workPaused c then activeSlot c n else none

/-- Word 0 of the control block (R238). -/
def controlWord (q : LmReq) (cap : Nat) : Nat :=
  let pre := decide (q.ticks < q.prefill)
  q.id + reqLen q * 2 ^ 32 + q.p % 65536 * 2 ^ 64 + q.l0 % 65536 * 2 ^ 80 + (if pre then 1 else 2) * 2 ^ 96
    + min 255 (if pre then q.ticks else q.ticks - q.prefill) * 2 ^ 104 + cap % 256 * 2 ^ 112
/-- Eight tokens as a word, filled with the value that is no token. -/
def tokenWord (l : List Nat) : BitVec 256 :=
  BitVec.ofNat 256 (natLE ((List.range 8).flatMap (fun i => bytesLE 4 (l.getD i noToken))))
/-- CONTROL_BLOCK_SEND (R238, R245). -/
def controlBlock (n : Nat) (c : Chip) : Chip :=
  match servedSlot c n with
  | none => c
  | some s =>
    let put (k : Nat) (ws : Channel → List (SWord × Bool)) (c : Chip) : Chip := match slotChan c s k with
      | none => c
      | some ch => channelWords ch (ws ch) c
    match slotReq c n with
    | none => put s.ctl (fun _ => plainWords [0, 0]) c
    | some q =>
      let c := put s.ctl (fun _ => plainWords [BitVec.ofNat 256 (controlWord q ((servSlot c n).cap.getD s.treeN)),
                                               BitVec.ofNat 256 (natLE q.params)]) c
      if q.prefill ≤ q.ticks then c
      else
        let toks := q.got.flatMap (·.2)
        let sum := if bitOf q.flags 2 then (match findSummary c q.tenant q.conv with
          | some v => (openSummary c q.tenant q.conv v.sealed).getD []
          | none => []) else []
        let c := put s.prompt (fun ch => plainWords ((List.range (ch.k * ch.w)).map (fun i =>
          tokenWord ((toks.drop (8 * (q.ticks * ch.k * ch.w + i))).take 8)))) c
        if sum.isEmpty then c
        else put s.sumIn (fun ch => plainWords ((List.range (ch.k * ch.w)).map (fun i =>
          BitVec.ofNat 256 (numAt sum (32 * (q.ticks * ch.k * ch.w + i)) 32)))) c

/-- Depth of each node, node 0 at 1, while the tree obeys the parent rule and depth bound (R246). -/
def treeDepths (d : Nat) : List Nat → List Nat → List Nat
  | _, [] => []
  | acc, p :: ps =>
    let i := acc.length
    let ok := if i = 0 then p = 0xFF else p < i
    let depth := if i = 0 then 1 else acc.getD p 0 + 1
    if ok && decide (depth ≤ d) then depth :: treeDepths d (acc ++ [depth]) ps else []
/-- TREE_BLOCK (R246). -/
def treeBlock (n : Nat) (c : Chip) : Chip :=
  match servedSlot c n, slotReq c n with
  | some s, some q =>
    match slotChan c s s.tree with
    | none => c
    | some ch =>
      let ws := ((arrivedWords c ch).filter (fun w => w.1 == 0)).map (·.2.2)
      if s.treeN = 0 || q.ticks < q.prefill || ws.length < 3 || (servSlot c n).tree.isSome then c
      else
        let bad := (ws.take 3).any (fun w => w.poison || w.invalid)
        let fr := takeFree c
        let raw := if bad then Config.looseTree fr.1 else natLE ((ws.take 3).flatMap (fun w => bytesLE 32 w.data.toNat))
        let c := dropWords (ws.take 3) (if bad then fr.2 else c)
        let byte (i : Nat) : Nat := fld raw (8 * i + 7) (8 * i)
        let l := reqLen q
        let segEnd := (l / slotSeg s + 1) * slotSeg s
        let lim := min (min (byte 0) s.treeN) (segEnd - l)
        let parents := (List.range lim).map (fun i => byte (i + 1))
        let nEff := (treeDepths s.treeD [] parents).length
        let c := setServSlot n { servSlot c n with tree := some { l := l, nEff := nEff, parents := parents.take nEff } } c
        if nEff < byte 0 then tracePoint 68 0 n (objBump 0x2426 0x05 n 1 c) else c
  | _, _ => c
/-- Whether node j is node i or an ancestor of it. -/
def ancestor (parents : List Nat) : Nat → Nat → Nat → Bool
  | 0, _, _ => false
  | fuel + 1, i, j => i == j || (decide (parents.getD i 0xFF < i) && ancestor parents fuel (parents.getD i 0xFF) j)
/-- The 19 words of the mask block (R247). -/
def maskWords (t : TreeStep) (d : Nat) : List (BitVec 256) :=
  let row (i : Nat) : Nat := if i < t.nEff then
    (List.range t.nEff).foldl (fun m j => if ancestor t.parents (t.nEff + 1) i j then m + 2 ^ j else m) 0 else 0
  let depths := treeDepths d [] t.parents
  BitVec.ofNat 256 (t.nEff + t.l * 2 ^ 32)
    :: (List.range 16).map (fun w => BitVec.ofNat 256 ((List.range 4).foldl (fun m k => m + row (4 * w + k) * 2 ^ (64 * k)) 0))
    ++ (List.range 2).map (fun w => BitVec.ofNat 256 (natLE ((List.range 32).map (fun k => BitVec.ofNat 8 (depths.getD (32 * w + k) 0)))))
/-- MASK_BLOCK_SEND (R247). -/
def maskBlock (n : Nat) (c : Chip) : Chip :=
  match servedSlot c n, (servSlot c n).tree with
  | some s, some t => match slotChan c s s.mask with
    | none => c
    | some ch => channelWords ch (plainWords (maskWords t s.treeD)) c
  | _, _ => c
/-- The longest valid prefix of a path after node `prev` (R248). -/
def pathPrefix (t : TreeStep) (prev : Nat) : List Nat → List Nat
  | [] => []
  | a :: as => if a < t.nEff && t.parents.getD a 0xFF == prev then a :: pathPrefix t a as else []
/-- ACCEPTED_PATH (R248). -/
def acceptedPath (n : Nat) (c : Chip) : Chip :=
  match servedSlot c n, (servSlot c n).tree with
  | some s, some t => match slotChan c s s.accept with
    | none => c
    | some ch => match arrivedWords c ch with
      | [] => c
      | (_, _, w) :: _ =>
        if t.path.isSome then c
        else
          let c := dropWords [w] c
          let d := fld w.data.toNat 7 0
          let nodes := (List.range (min d 31)).map (fun i => fld w.data.toNat (8 * i + 15) (8 * i + 8))
          let bad := w.poison || w.invalid
          let path := if bad then [0] else match nodes with
            | 0 :: rest => 0 :: pathPrefix t 0 rest
            | _ => [0]
          let c := if !bad && decide (path.length < d) then tracePoint 68 0 n (objBump 0x2426 0x05 n 1 c) else c
          setServSlot n { servSlot c n with tree := some { t with path := some path } } c
  | _, _ => c
/-- SUMMARY_OUT (R244). -/
def summaryOut (n : Nat) (c : Chip) : Chip :=
  match servedSlot c n, slotReq c n with
  | some s, some q => match slotChan c s s.sumOut with
    | none => c
    | some ch =>
      let ws := ((arrivedWords c ch).map (·.2.2)).take (32 * s.sumKib)
      if s.sumKib = 0 || ws.length < 32 * s.sumKib || q.ticks < q.prefill then c
      else setServSlot n { servSlot c n with summary := ws.flatMap (fun w => bytesLE 32 w.data.toNat) } (dropWords ws c)
  | _, _ => c

/-! Token records (R231, R237). -/

/-- Output channels of the active slots. -/
def servingOchs (c : Chip) : List Nat := (activeSlots c).map (·.och)
/-- The slot an output channel belongs to in this tick. -/
def ochSlot (c : Chip) (och : Nat) : Option RSlot := (activeSlots c).find? (fun s => s.och == och)
/-- Tokens a tick commits when its record does not tell (R231). -/
def silentTokens (c : Chip) (s : RSlot) : Nat := committed s (servSlot c s.slot)
/-- The count advances without tokens (R231). -/
def countSilent (q : LmReq) (n : Nat) (c : Chip) : Chip :=
  setReq { q with emitted := min q.g (q.emitted + n), over_ := q.over_ || decide (q.g ≤ q.emitted + n) } c
/-- R237: tokens up to the first stop token or the G-th; END. -/
def cutTokens (q : LmReq) : Nat → List Nat → List Nat × Nat
  | _, [] => ([], 0)
  | e, t :: ts =>
    if q.stop.contains t then ([t], 1)
    else if q.g ≤ e + 1 then ([t], 2)
    else let r := cutTokens q (e + 1) ts; (t :: r.1, r.2)
/-- SERVING_TOKEN_RECORD on channel number n of the plan (R231). -/
def tokenRecord (n : Nat) (c : Chip) : Chip :=
  match nextEgress c n with
  | some (.record o ws d bad) =>
    match ochSlot c o.och with
    | none => c
    | some s =>
      let c := egressTaken n c
      match slotReq c s.slot with
      | none => c
      | some q =>
        if q.over_ || q.ticks < q.prefill then c
        else if !ochFree c o.och then refuseRecord c
        else
          let fl := slotFlags c o
          let countBad := match ws[1]? with | some w => w.poison || w.invalid | none => true
          let count := numAt d 0 4
          if bad then
            let c := countSilent q (if countBad then silentTokens c s else count) c
            if q.st = .cancelled then c else emitResult o (List.replicate (d.length + 12) 0) true fl.1 fl.2 (takeOch o.och c)
          else
            let r := cutTokens q q.emitted (tokensOf ((d.drop 4).take (4 * count)))
            let c := setReq { q with emitted := q.emitted + r.1.length, over_ := decide (r.2 ≠ 0) } c
            if q.st = .cancelled then c
            else emitResult o (bytesLE 4 q.id ++ bytesLE 4 q.conv ++ bytesLE 4 q.emitted ++ bytesLE 2 r.1.length ++ bytesLE 1 r.2
              ++ bytesLE 1 0 ++ r.1.flatMap (bytesLE 4)) false fl.1 fl.2 (takeOch o.och c)
  | _ => c

/-- An invalid datagram for a serving slot's channel: only while it holds a request neither cancelled nor dropped; the
tick's tokens count as emitted (R231). Whether the datagram leaves, and the counts. -/
def silentRecord (och : Nat) (c : Chip) : Bool × Chip :=
  match ochSlot c och with
  | none => (true, c)
  | some s => match slotReq c s.slot with
    | none => (false, c)
    | some q =>
      if q.over_ || q.ticks < q.prefill then (false, c)
      else (q.st ≠ .cancelled, countSilent q (silentTokens c s) c)

/-! Commands of the dictionary. -/

/-- CANCEL_REQUEST: 2403.01 (R250). -/
def cmdCancel : Cmd := fun _ r _ b c =>
  let tenant := match r with | .tenant t => t | _ => ctxVal c r 0x2403 0x02
  (setServ { c.serv with cancels := c.serv.cancels ++ [{ tenant := tenant, key := numAt b 0 4, datagram := false, tick := acceptTick c }] } c, resPending)
/-- CONVERSATION_RELEASE and DELETE_SUMMARY: 2433.06 of the selected conversation (R242, R245). -/
def cmdConv : Cmd := fun _ _ inst b c =>
  let t := inst / 2 ^ 32
  let i := inst % 2 ^ 32
  match numAt b 0 1 with
  | 1 => (setServ { c.serv with releases := c.serv.releases ++ [{ tenant := t, key := i, datagram := false, tick := acceptTick c }] } c, resPending)
  | 2 => match findSummary c t i with
    | none => (c, resSt stNoResource)
    | some _ => (setServ { c.serv with sumOps := c.serv.sumOps ++ [⟨t, i, none, acceptTick c⟩] } c, resPending)
  | _ => (c, resRange)
/-- SUMMARY_IMPORT: 2436.00 (R245, R331, R332), stored at the next boundary (R256). -/
def cmdSummary : Cmd := fun _ _ inst b c =>
  let t := inst / 2 ^ 32
  let i := inst % 2 ^ 32
  match openSummary c t i b with
  | none => (if keyRetired c 2 t (numAt b 0 1) then integrityFail t c else c, resSt stIntegrity)
  | some _ => if (storeSummary t i b c).isNone then (c, resSt stNoResource)
    else (setServ { c.serv with sumOps := c.serv.sumOps ++ [⟨t, i, some b, acceptTick c⟩] } c, resOk)
/-- R254, R278: an adapter image is for a declaration: its slot, tenant and size. -/
def adapterFits (c : Chip) (h : Nat) (d : AdDecl) (hd : Handle) : Bool :=
  let b := imageOf c h hd
  let n := numAt b 0 64
  b.length == 64 + 32 * d.tiles.length * d.words + 16 && fld n 7 0 == hd.aslot && fld n 23 8 == d.tenant && fld n 87 56 == d.words
    && fld n 103 88 == d.tiles.length && n / 2 ^ 208 == 0 && (hd.tenant == 0 || hd.tenant == d.tenant)
/-- ADAPTER_INSTALL and ADAPTER_RETIRE: 2441.01 (R254). -/
def cmdAdapter : Cmd := fun _ r n b c =>
  let h := ctxVal c r 0x2441 0x02
  let a := adSlot c n
  match c.plan.loaded.bind (fun p => planAdapter p n) with
  | none => (c, resState)
  | some d =>
    match numAt b 0 1 with
    | 1 => match cellsFind c.intake.handles h with
      | none => (c, resRange)
      | some hd =>
        if hd.kind ≠ 1 then (c, resRange)
        else if hd.st = .opened || hd.st = .placing then (c, resState)
        else if hd.aslot ≠ n || !adapterFits c h d hd then (c, resRange)
        else if hd.st ≠ .placed || 2 ≤ a.live.length then (c, resState)
        else
          let c := { c with intake := { c.intake with handles := cellsPut c.intake.handles h { hd with st := .inUse } } }
          let v := hd.placed.getD (0, 0)
          let m := Config.sha3 (bytesLE 1 n ++ bytesLE 4 v.2 ++ (imageOf c h hd).take 64)
          let c := setAdSlot n { a with marks := cellsPut a.marks v.1 m } c
          (setServ { c.serv with adOps := c.serv.adOps ++ [⟨n, hd.placed, acceptTick c⟩] } c, resPending)
    | 2 => if a.cur.isNone then (c, resState) else (setServ { c.serv with adOps := c.serv.adOps ++ [⟨n, none, acceptTick c⟩] } c, resPending)
    | _ => (c, resRange)

/-- R332: re-seal every reserve summary of a tenant under its current generation. -/
def resealTenant (t : Nat) (c : Chip) : Chip :=
  if objGet c 0x2201 0x08 t ≠ 1 then c
  else
    let c := (c.serv.sums.filter (fun v => v.tenant == t)).foldl (fun c v =>
      match openSummary c t v.conv v.sealed with
      | none => c
      | some pt => match sealSummary t v.conv pt c with
        | none => c
        | some (b, c) => setServ { c.serv with sums := c.serv.sums.map (fun w =>
            if w.tenant == t && w.conv == v.conv then { w with sealed := b } else w) } c) c
    objSet 0x2201 0x08 t 2 c

end Sys2Proof.Machine
end

