-- ==== Sys2Proof/Machine/Grid.lean ====
section
/-! DEFINITION. Failed tiles, column-shift repair and its pause, retired columns (spec/04_grid_fabric.md R121-R135). -/

namespace Sys2Proof.Machine

/-- R131: the target class of a quarter's retired columns. -/
def targetClass (cols : List Nat) : Nat :=
  match cols.insertionSort (· ≤ ·) with
  | [] => 0
  | [_] => 0
  | [a, b] => if a + 1 < b || (a = 0 && b = 1) || (a = 31 && b = 32) then 1 else 2
  | _ => 2

/-- 2930.01-2930.04. -/
def quarterWord (cols : List Nat) : Nat := targetClass cols * 2 ^ 40 + cols.foldl (fun m p => m ||| 2 ^ p) 0

/-- A spare column is unused and tested good (2910.01). -/
def spareFree (c : Chip) (q : Nat) : Bool := (retiredCols c q).isEmpty && c.grid.spareOk.toList.getD q false
/-- Any quarter beyond reduced (R132). -/
def beyondReduced (c : Chip) : Bool := c.grid.retired.toList.any (fun l => targetClass l == 2)
/-- The tiles held and neither shifted nor retired (2930.09). -/
def heldTiles (c : Chip) : Nat := (c.grid.tiles.filter (fun e => e.2.held)).length

/-- 2930.05 (R122, R124, R132). -/
def repairStatus (c : Chip) : Nat :=
  if beyondReduced c then 4
  else if c.grid.retired != c.grid.routed then 3
  else if c.grid.pauseFrom.isSome || leaseKept c .si then 1
  else if !c.grid.failed.isEmpty then 2
  else 0

/-- Keep 2930, 2910.01 and fault classes 0x05, 0x06, 0x11 with the grid; a change of 2930.05 sets alert cause [4]. -/
def gridShow (c : Chip) : Chip :=
  let c := (List.range 4).foldl (fun c q => objSet 0x2930 (q + 1) 0 (quarterWord (retiredCols c q)) c) c
  let c := objSet 0x2910 0x01 0 ((List.range 4).foldl (fun m q => if spareFree c q then m + 2 ^ q else m) 0) c
  let c := objSet 0x2930 0x09 0 (heldTiles c) c
  let st := repairStatus c
  let c := if st = objGet c 0x2930 0x05 0 then c else alertLater 4 (objSet 0x2930 0x05 0 st c)
  replaceShow (setClass 0x06 (decide (0 < heldTiles c)) (setClass 0x05 (c.grid.retired.toList.any (fun l => !l.isEmpty)) c))

/-- Table 4-5: whether a cause other than the operator's declaration holds for a tile. -/
def failureDue (c : Chip) (t : Nat) : Bool :=
  let tl := tileAt c t
  let k := c.tk.tick
  tl.lineTwice || tl.sbLost
    || decide (4 ≤ (tl.badWords.filter (fun e => decide (k ≤ e.2 + 1024) && !tl.spareWords.contains e.1)).length)
    || decide (8 ≤ (tl.sbErrs.filter (fun x => decide (k ≤ x + 64))).length)

/-- Physical column of a logical tile. -/
def tilePx (c : Chip) (t : Nat) : Nat := physCol (routedCols c (tileQuarter t)) (t % 32)

/-- R122, R129, R132: a tile is held; its repair is requested, joins one requested in the same tick, or finds no spare. -/
def declareFailed (t : Nat) (c : Chip) : Chip :=
  if (tileAt c t).held then c
  else
    let q := tileQuarter t
    let c := setTile t { tileAt c t with held := true, running := false } c
    let c := tracePoint 32 0 t (logRec 3 srcGrid .tileFailed [t] c)
    let claimed := c.grid.failed.filter (fun e => tileQuarter e.1 == q)
    if claimed.any (fun e => tilePx c e.1 == tilePx c t) then gridShow c
    else if claimed.isEmpty && spareFree c q then
      let joins := c.grid.failed.any (fun e => e.2 == c.tk.tick)
      let c := { c with grid := { c.grid with failed := c.grid.failed ++ [(t, c.tk.tick)] } }
      gridShow (if joins then c else (leaseRequest .si t false c).1)
    else gridShow { c with grid := { c.grid with noShift := c.grid.noShift ++ [(physIndex c t, c.tk.tick)] } }

/-! Repair (R123-R128). -/

/-- The tiles of a quarter in logical columns from lx on: x + 64*y (R123). -/
def columnsFrom (q lx : Nat) : List Nat :=
  (List.range 16).flatMap (fun r => (List.range (32 - lx)).map (fun i => lx + i + 32 * (q % 2) + 64 * (16 * (q / 2) + r)))

/-- What belongs to a physical tile and moves with it when the logical columns shift; the counts of 2A32 stay with the logical
tile that 2A31.00 names (log entry 27). -/
def takePlace (src dst : Tile) : Tile :=
  { dst with upsets := src.upsets, lineUpsets := src.lineUpsets, lineErr := src.lineErr, lostLines := src.lostLines, badWords := src.badWords
             wbQueue := src.wbQueue, sbErrs := src.sbErrs, spareWords := src.spareWords, suspects := src.suspects
             copied := src.copied, wbTicks := src.wbTicks, patrolHits := src.patrolHits, lineTwice := src.lineTwice
             sbLost := src.sbLost, corrected := src.corrected, poisoned := src.poisoned, linesLost := src.linesLost
             inbox := src.inbox, held := src.held, reload := [] }

/-- R98, R123, R131: a quarter's routing follows a new set of retired columns: each logical tile is then the physical tile
its column maps to, a spare where no logical column stood before. -/
def remapQuarter (q : Nat) (cols : List Nat) (c : Chip) : Chip :=
  let was := routedCols c q
  let old := c
  let c := (columnsFrom q 0).foldl (fun c t =>
    let px := physCol cols (t % 32)
    if px = physCol was (t % 32) then c
    else
      let src : Tile := match (List.range 32).find? (fun lx => physCol was lx == px) with
        | some lx => tileAt old (t - t % 32 + lx)
        | none => {}
      setTile t (takePlace src (tileAt c t)) c) c
  { c with grid := { c.grid with routed := c.grid.routed.setIfInBounds q cols } }

/-- R126: every lane the canonical FP32 NaN, every entry flagged NaN, every window entry poisoned. -/
def poisonUnits (t : Tile) : Tile :=
  { t with vregs := Vector.replicate 32 (BitVec.ofNat 2048 (packLE 32 (List.replicate 64 0x7FC00000)))
           acc := (List.range 2048).map (fun k => (k, { cellsGet accZero t.acc k with nan := true }))
           window := (List.range 960).map (fun k => (k, { cellsGet {} t.window k with poison := true })) }

/-- R124, R126, R128: the repair of the failures declared in a tick latches. -/
def latchRepair (tick : Nat) (c : Chip) : Chip :=
  let group := (c.grid.failed.filter (fun e => e.2 == tick)).map (·.1)
  let step (c : Chip) (t : Nat) : Chip :=
    let q := tileQuarter t
    let px := tilePx c t
    let c := remapQuarter q [px] c
    { c with grid := { c.grid with retired := c.grid.retired.setIfInBounds q (retiredCols c q ++ [px]).dedup, stale := c.grid.stale + 16 } }
  let moved := group.flatMap (fun t => columnsFrom (tileQuarter t) (t % 32))
  let c := group.foldl step c
  let c := { c with grid := { c.grid with failed := c.grid.failed.filter (fun e => e.2 != tick), pauseFrom := some c.tk.tick
                                          moved := moved, reloaded := 0 } }
  let lost (r : Region) : Bool := !r.hbm && isPersistent r && moved.contains r.tile
  let fns := ((regionsWhere c lost).map (·.fn)).dedup
  let c := foldRegions (regionsWhere c (fun r => isTransient r || lost r)) poisonRegion c
  let c := (List.range 2048).foldl (fun c t => setTile t (poisonUnits { tileAt c t with running := false }) c) c
  let c := objSet 0x2930 0x08 0 fns.length (objBump 0x2930 0x07 0 1 (objSet 0x2930 0x06 0 c.tk.tick c))
  let c := fns.foldl (fun c f => logRec 2 srcGrid .lostState [f] c) (logRec 1 srcGrid .repairLatched group c)
  gridShow (showZero (tracePoint 33 0 group.length c))

/-- The SI lease holder whose failures wait to be latched at this boundary (R124, R444). -/
def latchDue (c : Chip) : Option Nat :=
  if c.grid.pauseFrom.isSome then none
  else (c.life.lease.holders.find? (fun e => e.act = .si && decide (e.tick < c.tk.tick)
    && c.grid.failed.any (fun f => f.2 == e.tick))).map (·.tick)

/-- R124, R446: the reload is complete three unhalted ticks after the latch. -/
def pauseOver (c : Chip) : Bool := c.grid.pauseFrom.isSome && decide (3 ≤ c.grid.reloaded)

/-- R124, R127, R129, R251: the pause ends; moved tiles have been reloaded, those of aborted functions scrubbed, and every tile starts at its resume entry. -/
def endPause (c : Chip) : Chip :=
  let moved := c.grid.moved
  let c := match c.plan.loaded with
    | none => moved.foldl (fun c t => setTile t (resetProgram none (tileAt c t)) c) c
    | some p => moved.foldl (fun c t => if fnsAborted c p t then scrubTile t c else reloadTile p t c) c
  let c := { c with grid := { c.grid with pauseFrom := none, moved := [], reloaded := 0 } }
  let c := if c.tk.mode = .running then startTiles true c else c
  let obj := match c.life.lease.holders.find? (fun e => e.act = .si) with | some e => e.obj | none => 0
  gridShow (servePauseEnd moved (leaseRelease .si obj c))

/-- A boundary in a pause: the reload of the tick before ran unless compute was halted; a further pause tick counts
(R125, R446). -/
def pauseTick (c : Chip) : Chip :=
  if c.grid.pauseFrom.isNone then c
  else
    let n := c.grid.reloaded + (if c.power.halted then 0 else 1)
    let c := { c with grid := { c.grid with reloaded := n } }
    if n < 3 then objBump 0x2930 0x07 0 1 c else c

/-- R132: the column of a tile that failed without a spare is recorded; routing stays. -/
def retireNoShift (t : Nat) (c : Chip) : Chip :=
  let q := tileQuarter t
  let cols := retiredCols c q
  let px := tilePx c t
  if cols.contains px then gridShow c
  else gridShow (logRec 3 srcGrid .columnRetired [q, px] { c with grid := { c.grid with retired := c.grid.retired.setIfInBounds q (cols ++ [px]) } })

/-- R130: an unused spare fails its self-test: its column retires without a shift. -/
def spareTest (q : Nat) (pass : Bool) (c : Chip) : Chip :=
  if !(retiredCols c q).isEmpty || c.grid.failed.any (fun e => tileQuarter e.1 == q) then c
  else if pass then gridShow { c with grid := { c.grid with spareOk := c.grid.spareOk.setIfInBounds q true } }
  else
    gridShow (logRec 2 srcGrid .spareTest [q]
      { c with grid := { c.grid with retired := c.grid.retired.setIfInBounds q [32], routed := c.grid.routed.setIfInBounds q [32]
                                     spareOk := c.grid.spareOk.setIfInBounds q false } })

/-- R132: a plan's mapping applied at a LOAD that posts OK: routing follows the recorded map, and tiles held in retired
columns are no longer held. -/
def applyMap (c : Chip) : Chip :=
  let c := (List.range 4).foldl (fun c q => if routedCols c q = retiredCols c q then c else remapQuarter q (retiredCols c q) c) c
  gridShow { c with grid := { c.grid with noShift := [] } }

/-- R131: the first quarter for which a plan is not compiled as the module stands. -/
def targetMismatch (c : Chip) (p : Plan) : Option Nat :=
  (List.range 4).find? (fun q =>
    let cols := (retiredCols c q).insertionSort (· ≤ ·)
    if p.targetClass.getD q 0 = 0 then decide (1 < cols.length)
    else cols != [p.reducedCols.getD (2 * q) 0xFF, p.reducedCols.getD (2 * q + 1) 0xFF])

/-- R133: a write to 2931.00. -/
def cmdDeclareTile (img : Chip) (_ : Role) (_ : Nat) (b : List Byte) (c : Chip) : Chip × Res :=
  let t := numAt b 0 2
  let post (st : Nat) (c : Chip) : Chip := objSet 0x2932 0x00 0 st c
  if 2047 < t then (post stRange c, resRange)
  else
    let m := judgedMode img c
    if (m = .idle || m = .loaded || m = .running) && spareFree c (tileQuarter t) && c.grid.failed.isEmpty && c.grid.pauseFrom.isNone
      && !(tileAt c t).held
    then (declareFailed t (post stOk c), resOk)
    else (post stState c, resState)

end Sys2Proof.Machine
end

