-- ==== Sys2Proof/Machine/Links.lean ====
section
/-! DEFINITION. The Stomar ports: frames, replay, keys, lanes, link-up, beacons, the wiring check and timed transfers
(spec/09_domains_redundancy.md R280-R296, spec/10_security.md R334-R335). -/

namespace Sys2Proof.Machine

def portAt (c : Chip) (p : Nat) : PortSt := c.link.ports.toList.getD p {}
def setPort (p : Nat) (v : PortSt) (c : Chip) : Chip := { c with link := { c.link with ports := c.link.ports.setIfInBounds p v } }

/-- 2601.01: 0 down, 1 training, 2 keying, 3 in service, 4 excluded by wiring, 5 excluded by the operator, 6 failed. -/
def linkState (c : Chip) (p : Nat) : Nat := objGet c 0x2601 0x01 p
def inService (c : Chip) (p : Nat) : Bool := linkState c p == 3
/-- R24: the module behind a port carries the wiring hash of the image loaded here. -/
def hashAt (c : Chip) (port : Nat) : Bool :=
  match c.plan.loaded with
  | some pl => blobGet c 0x2601 0x07 port == bytesAt pl.wiringHash 0 32
  | none => false

/-- R447, 2910.06: classes 0x0C and 0x0D from the ports' states and lanes. -/
def linkClasses (c : Chip) : Chip :=
  let failed := (List.range 8).foldl (fun m p => if linkState c p = 6 then m + 2 ^ p else m) 0
  let bad := (List.range 8).any (fun p => linkState c p = 4 || linkState c p = 6)
  setClass 0x0D bad (setClass 0x0C (objGet c 0x2910 0x05 0 != 0) (objSet 0x2910 0x06 0 failed c))
def setLink (p st : Nat) (c : Chip) : Chip := linkClasses (objSet 0x2601 0x01 p st c)

/-- A refused frame or message (2601.0C). -/
def linkRefuse (p : Nat) (c : Chip) : Chip := objBump 0x2601 0x0C p 1 c

/-- The link goes down (R289): its keys and queues end, and it waits to start again. The delay doubles after each further
failure and returns to 1 s after 10 min in service. -/
def linkDrop (p st : Nat) (c : Chip) : Chip :=
  let s := portAt c p
  let settled := match s.upAt with | some u => decide (u + 600000000000 ≤ c.tk.now) | none => false
  let wait := if settled then 1000000000 else s.retry
  let v : PortSt := { excluded := s.excluded, retry := min 60000000000 (2 * wait), wait := wait, downAt := some c.tk.now
                      delay := s.delay, last := s.last }
  let was := s.stage
  let c := setLink p st (setPort p v c)
  let c := if was = .up then breakUpd 3 c else c
  if was = .down then c else logRec 2 srcLinks .linkDown [p] c
/-- A link that fails or goes down (R289). -/
def linkDown (p : Nat) (c : Chip) : Chip := linkDrop p (if (portAt c p).excluded then 5 else 0) c

/-! Control messages (R295). -/

def ctlKinds : List Nat := [0x01, 0x02, 0x03, 0x04, 0x10, 0x11, 0x12, 0x13, 0x14, 0x15, 0x20, 0x21, 0x22, 0x23]
def mySerial (c : Chip) : Nat := objGet c 0x2700 0x02 0

/-- The words of a message: header, then the body in words of 32 bytes. -/
def msgWords (kind dst src : Nat) (body : List Byte) : List W256 :=
  let n := 1 + cdiv body.length 32
  BitVec.ofNat 256 (kind + (n - 1) * 2 ^ 8 + body.length * 2 ^ 16 + dst * 2 ^ 32 + src * 2 ^ 96)
    :: (List.range (n - 1)).map (fun i => BitVec.ofNat 256 (numAt body (32 * i) 32))

/-- Queue a message on a port. Until the port is in service it carries only beacons and key exchange (R291). -/
def sendMsg (p kind dst : Nat) (body : List Byte) (c : Chip) : Chip :=
  let s := portAt c p
  if s.stage = .down || s.stage = .training || (kind ≠ 1 && kind ≠ 3 && !inService c p) then c
  else setPort p { s with outWords := s.outWords ++ msgWords kind dst (mySerial c) body } c

/-- Messages complete in a run of received words, and the words of a message still arriving. -/
def cutMsgs (keyed : Bool) : Nat → List W256 → List (Bool × CtlMsg × Nat) × List W256
  | 0, ws => ([], ws)
  | _, [] => ([], [])
  | fuel + 1, h :: ws =>
    let n := fld h.toNat 13 8
    if ws.length < n then ([], h :: ws)
    else
      let body := ((ws.take n).flatMap (fun w => bytesLE 32 w.toNat)).take (fld h.toNat 31 16)
      let ok := ctlKinds.contains (fld h.toNat 7 0) && decide (fld h.toNat 15 14 = 0) && decide (fld h.toNat 255 160 = 0)
      let m : CtlMsg := { kind := fld h.toNat 7 0, dst := fld h.toNat 95 32, src := fld h.toNat 159 96, body := body, keyed := keyed }
      let r := cutMsgs keyed fuel (ws.drop n)
      ((ok, m, n + 1) :: r.1, r.2)

/-- A message delivered: a bad one is counted in 2601.0C; a port that is not in service takes only beacons and key
exchange, and one for another serial is not this module's. -/
def deliverMsg (p : Nat) (c : Chip) (e : Bool × CtlMsg × Nat) : Chip :=
  let (ok, m, n) := e
  let s := portAt c p
  let mine := (m.dst = 0 || m.dst = mySerial c) && (m.kind = 1 || m.kind = 3 || inService c p)
  if !ok then linkRefuse p (setPort p { s with freed := s.freed + n } c)
  else if !mine then setPort p { s with freed := s.freed + n } c
  else setPort p { s with inbox := s.inbox ++ [m] } c

/-- Control words received in order are assembled into messages (R286, R295). -/
def takeCtl (p : Nat) (keyed : Bool) (ws : List W256) (c : Chip) : Chip :=
  let s := portAt c p
  let all := s.inWords ++ ws
  let r := cutMsgs keyed all.length all
  r.1.foldl (deliverMsg p) (setPort p { s with inWords := r.2 } c)

/-- Take the oldest message of a kind from a port's buffer; its words are free (R285). -/
def takeMsg (p kind : Nat) (c : Chip) : Option (CtlMsg × Chip) :=
  let s := portAt c p
  match s.inbox.find? (fun m => m.kind == kind) with
  | none => none
  | some m => some (m, setPort p { s with inbox := s.inbox.erase m, freed := s.freed + 1 + cdiv m.body.length 32 } c)

/-! Lanes (R288). -/

/-- A lane is replaced by the spare lane at the frame count agreed. -/
def laneApply (p lane : Nat) (c : Chip) : Chip :=
  let map := objGet c 0x2601 0x02 p
  if !bitOf map lane || objGet c 0x2601 0x03 p ≠ 0 then c
  else
    let c := objSet 0x2601 0x03 p 1 (objSet 0x2601 0x02 p ((map - 2 ^ lane) ||| 16) c)
    let c := objBumpSat 0x2910 0x07 0 1 (objSet 0x2910 0x05 0 ((objGet c 0x2910 0x05 0) ||| 2 ^ p) c)
    linkClasses (logRec 1 srcLinks .laneSubstitution [p, lane] (tracePoint 97 0 p c))
/-- The switches whose frame count has come. -/
def laneDue (p : Nat) (c : Chip) : Chip :=
  let s := portAt c p
  let c := match s.txLane with
    | some (l, n) => if n ≤ s.txCnt then laneApply p l (setPort p { s with txLane := none } c) else c
    | none => c
  let s := portAt c p
  match s.rxLane with
  | some (l, n) => if n ≤ s.rxNext then laneApply p l (setPort p { s with rxLane := none } c) else c
  | none => c

/-- LANE_SUBSTITUTION (R288): a lane over the ratio, or out of lock. The switch is agreed by a lane-control message; a
lane out of lock carries nothing more, so its receiver switches at once. A second failed lane fails the port. -/
def laneFault (p lane : Nat) (lockLost : Bool) (c : Chip) : Chip :=
  let s := portAt c p
  if s.stage = .down || s.stage = .training || fwPause c 3 || 4 < lane then c
  else if !bitOf (objGet c 0x2601 0x02 p) lane then
    if lockLost && objGet c 0x2601 0x03 p = 0 then objSet 0x2601 0x03 p 2 c else c
  else if objGet c 0x2601 0x03 p ≠ 0 then linkDrop p 6 c
  else
    let at_ := s.rxNext + 1 + Config.laneLead
    let c := sendMsg p 2 0 (Config.msgBody 2 [lane, at_]) c
    if lockLost then laneApply p lane (breakUpd 3 c)
    else setPort p { portAt c p with rxLane := some (lane, at_) } c

/-! Frames (R283-R286). -/

def lane0 (c : Chip) (p : Nat) : Nat := objGet c 0x2601 0x02 p

/-- Timed words of one tick that follow each other in its sequence. -/
def timedRun (tick idx : Nat) : Nat → List TimedWord → List TimedWord
  | n + 1, w :: t => if w.tick = tick && w.idx = idx then w :: timedRun tick (idx + 1) n t else []
  | _, _ => []

def frameIv (fcnt : Nat) : List Byte := List.replicate 4 0 ++ bytesLE 8 fcnt
/-- The 53 header bytes (Table 9-1). -/
def frameHeader (s : PortSt) (type gen wcls ttick tidx lanes : Nat) : List Byte :=
  let nak := match s.nak with | some n => if s.nakDue then n else allOnes64 | none => allOnes64
  bytesLE 2 0x4D53 ++ bytesLE 1 type ++ bytesLE 1 gen ++ bytesLE 8 s.txCnt ++ bytesLE 8 ((s.rxNext + allOnes64) % 2 ^ 64)
    ++ bytesLE 8 nak ++ bytesLE 10 wcls ++ bytesLE 4 (ttick % 2 ^ 32) ++ bytesLE 4 tidx ++ bytesLE 2 (min 65535 s.freed)
    ++ bytesLE 1 lanes ++ bytesLE 4 0

/-- R287: the key switch named for this frame count. -/
def keySwitch (s : PortSt) : PortSt :=
  match s.txSwitch with
  | some (f, k) => if f ≤ s.txCnt then { s with txKey := some k, txGen := !s.txGen, txSince := s.txCnt, txSwitch := none } else s
  | none => s

/-- R285: the next new frame: timed words first, then control words as far as the peer's credit goes. After the key
exchange the frames are plain until this end's finish has left. -/
def buildFrame (p : Nat) (c : Chip) : Chip :=
  let s := keySwitch (portAt c p)
  let s := if s.stage = .finished && s.outWords.isEmpty then { s with stage := .beacons, txSince := s.txCnt } else s
  let key := if s.stage = .finished then none else s.txKey
  let timed := match s.timedOut with
    | w :: _ => if key.isSome then timedRun w.tick w.idx 38 s.timedOut else []
    | [] => []
  let ctl := s.outWords.take (min (38 - timed.length) s.credit)
  let words := timed.map (·.data) ++ ctl
  let wcls := (List.range timed.length).foldl (fun m i => m + 4 ^ i) 0
    + (List.range ctl.length).foldl (fun m i => m + 2 * 4 ^ (timed.length + i)) 0
  let tt := match timed with | w :: _ => (w.tick, w.idx) | [] => (0, 0)
  let h := frameHeader s (if key.isSome then 1 else 2) (if key.isSome && s.txGen then 1 else 0) wcls tt.1 tt.2 (lane0 c p)
  let payload := (words ++ List.replicate (38 - words.length) 0).flatMap (fun (w : W256) => bytesLE 32 w.toNat)
  let body := match key with
    | some k => gcmSeal k (frameIv s.txCnt) h payload
    | none => payload ++ List.replicate 16 0
  let f : Frame := { fcnt := s.txCnt, bytes := h ++ body, marks := timed.map (fun w => (w.idx, w.poison, w.invalid)) }
  let full := decide (512 ≤ s.replay.length)
  laneDue p (setPort p { s with txCnt := s.txCnt + 1, freed := s.freed - min 65535 s.freed, nakDue := false
                                timedOut := s.timedOut.drop timed.length, outWords := s.outWords.drop ctl.length
                                credit := s.credit - ctl.length, last := some f
                                replay := (if full then s.replay.drop 1 else s.replay) ++ [f] } c)

/-- STOMAR_FRAME_SEND: a frame asked for again goes first, with FLAGS[1] set (R286). -/
def frameSend (p : Nat) (c : Chip) : Chip :=
  let s := portAt c p
  if s.stage = .down || s.stage = .training then c
  else match s.resend with
    | f :: rest =>
      let g := { f with bytes := f.bytes.set 3 (f.bytes.getD 3 0 ||| 2) }
      tracePoint 96 0 p (objBump 0x2601 0x0B p 1 (setPort p { s with resend := rest, last := some g } c))
    | [] => buildFrame p c

/-- R286: a frame lost: its replay is asked for in the next frame. -/
def frameLost (p : Nat) (c : Chip) : Chip :=
  let s := portAt c p
  setPort p { s with nak := some s.rxNext, nakDue := true } c

/-- R286: a NAK of the peer. -/
def peerNak (p n : Nat) (c : Chip) : Chip :=
  let s := portAt c p
  if n = allOnes64 then c
  else if s.replay.any (fun f => f.fcnt == n) then setPort p { s with resend := s.replay.filter (fun f => decide (n ≤ f.fcnt)) } c
  else linkDown p c

/-- Sections of the port's Stomar schedule that run at present: type 0x000E of the active overlays (R292). -/
def schedules (c : Chip) (p : Nat) : List Section :=
  match c.plan.loaded with
  | none => []
  | some pl => (secsOf pl 0x000E).filter (fun s => s.item == p && bitOf c.plan.active s.overlay)
/-- An entry: FC, COUNT, DIR, W2, EP (Table 9-4). -/
structure SchedEntry where
  fc : Nat
  count : Nat
  rx : Bool
  w2 : Bool
  ep : Nat
  fn : Nat
  deriving DecidableEq, Repr
def schedOf (e : List Byte) : SchedEntry :=
  let n := natLE e
  { fc := fld n 63 40, count := fld n 39 24, rx := bitOf n 23, w2 := bitOf n 22, ep := fld n 21 21, fn := fld n 20 11 }
def schedEntries (s : Section) : List SchedEntry := (entriesOf 8 (s.data.length / 8) (s.data.drop 16)).map schedOf
def portEntries (c : Chip) (p : Nat) (rx : Bool) : List SchedEntry :=
  ((schedules c p).flatMap schedEntries).filter (fun e => e.rx == rx)
/-- An entry of the schedule armed for this work window. A member in Survival goes on sending its timed words (R366). -/
def armedEntry (c : Chip) (p e : Nat) (rx : Bool) : Option SchedEntry :=
  let cut := c.tk.mode = .survival && c.tk.before = .running && !rx
  if c.tk.phase = .work && (c.plan.armed.isSome || cut) then (portEntries c p rx)[e]? else none
/-- R159, R357: a transfer whose function is aborted or of a shed tenant is suppressed: its words have I = 1. -/
def entryStopped (c : Chip) (en : SchedEntry) : Bool :=
  match c.plan.loaded with | some pl => fnStopped c pl en.fn | none => false
/-- fc and edge port (0 even, 1 odd) of word j of an entry. -/
def wordPlace (e : SchedEntry) (j : Nat) : Nat × Nat := if e.w2 then (e.fc + j / 2, j % 2) else (e.fc + j, e.ep)
/-- Words of an entry before a place in the order of the tick: ascending fc, the even port first. -/
def wordsBefore (key : Nat) (e : SchedEntry) : Nat :=
  if e.w2 then min e.count (key - 2 * e.fc) else min e.count (cdiv (key - e.ep - 2 * e.fc) 2)
/-- R293: index of a word in the tick's sequence of the port and direction. -/
def wordIndex (c : Chip) (p : Nat) (e : SchedEntry) (j : Nat) : Nat :=
  let pl := wordPlace e j
  ((portEntries c p e.rx).map (wordsBefore (2 * pl.1 + pl.2))).sum
/-- Edge port of the grid (Table 4-1). -/
def stomarEdge (p half : Nat) : Nat := 64 + 40 + 2 * p + half

/-- R293, R294: a timed word received: it is kept for its release, unless that has passed or the tick expects no such word. -/
def takeTimed (p : Nat) (c : Chip) (w : TimedWord) : Chip :=
  let s := portAt c p
  let expected := ((portEntries c p true).map (·.count)).sum
  if w.tick ≠ c.tk.tick % 2 ^ 32 || expected ≤ w.idx || (s.rxTick = c.tk.tick && decide (w.idx < s.rxIdx))
      || s.timedIn.any (fun x => x.tick == c.tk.tick && x.idx == w.idx) then c
  else setPort p { s with timedIn := s.timedIn ++ [{ w with tick := c.tk.tick }] } c

/-- The words of a frame's payload with their class. -/
def frameWords (h payload : List Byte) : List (Nat × W256) :=
  let wcls := numAt h 0x1C 10
  (List.range 38).map (fun i => (fld wcls (2 * i + 1) (2 * i), BitVec.ofNat 256 (numAt payload (32 * i) 32)))

/-- R285, R286: the words of an accepted frame are delivered. -/
def acceptFrame (p : Nat) (keyed : Bool) (h payload : List Byte) (marks : List (Nat × Bool × Bool)) (c : Chip) : Chip :=
  let s := portAt c p
  let swap := match s.rxSwitch with
    | some (f, k) => if f ≤ s.rxNext then some k else none
    | none => none
  let s := match swap with | some k => { s with rxKey := some k, rxGen := !s.rxGen, rxSwitch := none } | none => s
  let s := { s with rxNext := s.rxNext + 1, nak := none, nakDue := false, credit := s.credit + numAt h 0x2E 2 }
  let c := laneDue p (setPort p s c)
  let ws := frameWords h payload
  let tt := numAt h 0x26 4
  let ti := numAt h 0x2A 4
  let timed := ((ws.filter (fun w => w.1 == 1)).zipIdx).map fun (w, i) =>
    let m := marks.find? (fun m => m.1 == ti + i)
    ({ tick := tt, idx := ti + i, data := w.2, poison := (m.map (·.2.1)).getD false, invalid := (m.map (·.2.2)).getD false } : TimedWord)
  let c := if keyed && inService c p && hashAt c p then timed.foldl (takeTimed p) c else c
  takeCtl p keyed ((ws.filter (fun w => w.1 == 2)).map (·.2)) c

/-- R18, Table 9-1: whether a header carries a non-zero reserved field or a reserved word class. -/
def headerReserved (h : List Byte) : Bool :=
  decide (4 ≤ numAt h 3 1) || decide (32 ≤ numAt h 0x30 1) || numAt h 0x31 4 != 0 || fld (numAt h 0x1C 10) 79 76 != 0
    || (List.range 38).any (fun i => fld (numAt h 0x1C 10) (2 * i + 1) (2 * i) == 3)
/-- A frame whose codewords were corrected (R284, R286): discarded, authenticated, accepted in order, or lost. -/
def frameIn (p : Nat) (b : List Byte) (marks : List (Nat × Bool × Bool)) (c : Chip) : Chip :=
  let s := portAt c p
  let h := b.take 53
  let n := numAt h 4 8
  let keyed := numAt h 2 1 == 1
  let gen := bitOf (numAt h 3 1) 0
  if b.length ≠ 1285 || numAt h 0 2 ≠ 0x4D53 || (numAt h 2 1 ≠ 1 && numAt h 2 1 ≠ 2) || headerReserved h then frameLost p c
  else if !keyed then
    if s.rxKey.isSome then
      let c := linkRefuse p c
      if n = s.rxNext then setPort p { s with rxNext := s.rxNext + 1, nak := none, nakDue := false } c else c
    else
      let c := peerNak p (numAt h 0x14 8) c
      if n = s.rxNext then acceptFrame p false h (bytesAt b 53 1216) marks c else if s.rxNext < n && s.nak.isNone then frameLost p c else c
  else
    let key := if gen = s.rxGen then s.rxKey else s.rxSwitch.map (·.2)
    let aad := h.set 3 (h.getD 3 0 &&& 0xFD)
    match key.bind (fun k => gcmOpen k (frameIv n) aad (bytesAt b 53 1216) (bytesAt b 0x4F5 16)) with
    | none => frameLost p (linkRefuse p c)
    | some payload =>
      if n < s.rxNext then c
      else
        let c := peerNak p (numAt h 0x14 8) c
        if (portAt c p).stage = .down then c
        else if n = s.rxNext then acceptFrame p true h payload marks c
        else if s.nak.isNone then frameLost p c else c

/-- STOMAR_FRAME: corrected and uncorrectable codewords are counted (R282); a frame with one of the latter is lost. -/
def frameArrive (p corrected bad : Nat) (b : List Byte) (marks : List (Nat × Bool × Bool)) (c : Chip) : Chip :=
  let s := portAt c p
  if s.stage = .down || s.stage = .training then c
  else
    let c := objBump 0x2601 0x0A p bad (objBump 0x2601 0x09 p corrected c)
    if 0 < bad then frameLost p c else frameIn p b marks c

/-! Keys (R287, R334, R335). -/

/-- A key-exchange message body, cut into fragments that fit a message of 64 words. -/
def kexFragments (step : Nat) (body : List Byte) : List (List Byte) :=
  let n := cdiv body.length 2012
  (List.range n).map (fun i => bytesLE 1 step ++ bytesLE 1 i ++ bytesLE 1 n ++ bytesLE 1 0 ++ (body.drop (2012 * i)).take 2012)
def sendKex (p step : Nat) (body : List Byte) (c : Chip) : Chip :=
  (kexFragments step body).foldl (fun c f => sendMsg p 3 0 f c) c

/-- The KEM encapsulation key of an offer: it follows the birth record of 6,516 bytes. -/
def offerRecord (o : List Byte) : List Byte := o.take 6516
def offerKem (o : List Byte) : List Byte := o.drop 6516
/-- The offer this module sends. -/
def ownOffer (c : Chip) : List Byte := c.sec.birth ++ (match c.sec.seed with | some sd => kemKey sd | none => [])
def sendOffer (p : Nat) (c : Chip) : Chip :=
  let o := ownOffer c
  let c := sendKex p 1 o c
  let s := portAt c p
  setPort p { s with stage := .offered, kex := { s.kex with myOffer := o } } c

/-- A refusal of R335: counted, and the link retries. -/
def peerRefused (p : Nat) (c : Chip) : Chip := linkDown p (linkRefuse p c)

/-- R335: the peer's record, encapsulation key and serial. -/
def peerOk (c : Chip) (p : Nat) (o : List Byte) : Bool :=
  let r := offerRecord o
  let root := if p = 7 then blobGet c 0x2721 0x02 0 else Config.vendorKey
  decide (o.length = 7700) && Config.dsaOk root (r.take 0x1000) (r.drop 0x1000)
    && decide (sha3Bytes (offerKem o) = bytesAt r 0x50 32)
    && !((entriesOf 8 64 (blobGet c 0x2721 0x01 0)).any (fun e => natLE e == birthSerial r))

/-- Step 1 received: the peer is checked and a secret encapsulated to it. -/
def gotOffer (p : Nat) (o : List Byte) (c : Chip) : Chip :=
  if !peerOk c p o then peerRefused p c
  else
    let c := if (portAt c p).stage = .plain then sendOffer p c else c
    let fr := takeFree c
    let ct := (List.range 1088).map (Config.kemCipher (offerKem o) fr.1)
    let c := sendKex p 2 ct fr.2
    let s := portAt c p
    setPort p { s with stage := .encapsulated
                       kex := { s.kex with peerOffer := o, myCipher := ct, sent := some (Config.kemSecret (offerKem o) fr.1) } } c

/-- Whether this module has the lower serial of the two ends. -/
def lowerHere (k : KexSt) : Bool := decide (birthSerial (offerRecord k.myOffer) < birthSerial (offerRecord k.peerOffer))

/-- Step 2 received: the digest h of both steps is signed. -/
def gotCipher (p : Nat) (ct : List Byte) (c : Chip) : Chip :=
  match c.sec.seed with
  | none => peerRefused p c
  | some sd =>
    let s := portAt c p
    let k := { s.kex with peerCipher := ct, got := some (kemOpen sd ct) }
    let h := sha3Bytes (if lowerHere k then k.myOffer ++ k.peerOffer ++ k.myCipher ++ k.peerCipher
                        else k.peerOffer ++ k.myOffer ++ k.peerCipher ++ k.myCipher)
    sendKex p 3 (idSign sd h) (setPort p { s with kex := { k with digest := h } } c)

/-- k_d of R334. -/
def linkKey (k : KexSt) (d : Nat) : BitVec 256 :=
  let b (x : Option (BitVec 256)) := bytesLE 32 (x.getD 0).toNat
  let lo := if lowerHere k then k.sent else k.got
  let hi := if lowerHere k then k.got else k.sent
  Config.sha3 (b lo ++ b hi ++ k.digest ++ bytesLE 1 d)

/-- Step 3 received: the signature accepts the peer, and both keys stand at generation 0. -/
def gotFinish (p : Nat) (sig : List Byte) (c : Chip) : Chip :=
  let s := portAt c p
  let k := s.kex
  if k.digest.isEmpty || !Config.dsaOk (bytesAt (offerRecord k.peerOffer) 0x80 1312) k.digest sig then peerRefused p c
  else
    let d := if lowerHere k then 0 else 1
    setPort p { s with stage := .finished, txKey := some (linkKey k d), rxKey := some (linkKey k (1 - d)), txGen := false
                       rxGen := false, keyedAt := some c.tk.now } c

/-- K' of R287. -/
def rekeyed (k s : BitVec 256) (d : Nat) : BitVec 256 := Config.sha3 (bytesLE 32 k.toNat ++ bytesLE 32 s.toNat ++ bytesLE 1 d)

/-- REKEY_START (R287): a fresh encapsulation, with the count of the first frame under K'. -/
def rekeyStart (p : Nat) (c : Chip) : Chip :=
  let s := portAt c p
  match s.txKey with
  | none => c
  | some k =>
    if s.stage ≠ .up || s.txSwitch.isSome || fwPause c 3 || s.txCnt < s.txSince + 2 ^ 31 then c
    else
      let fr := takeFree c
      let kem := offerKem s.kex.peerOffer
      let at_ := s.txCnt + 1 + Config.rekeyLead
      let ct := (List.range 1088).map (Config.kemCipher kem fr.1)
      let c := sendMsg p 3 0 ([2, 0, 1, 0] ++ ct ++ Config.msgBody 3 [at_]) fr.2
      let s := portAt c p
      let k' := rekeyed k (Config.kemSecret kem fr.1) (if lowerHere s.kex then 0 else 1)
      tracePoint 98 0 p (objBump 0x2601 0x0E p 1 (setPort p { s with txSwitch := some (at_, k') } c))

/-- LINK_KEY_EXHAUSTED (R287). -/
def keyExhausted (p : Nat) (c : Chip) : Chip :=
  let s := portAt c p
  if s.stage = .up && decide (s.txSince + (2 ^ 32 - 2 ^ 24) ≤ s.txCnt) then logRec 2 srcLinks .linkKey [p] (linkDown p c) else c

/-- A rekey of the peer's direction: its switch takes effect at the count it names. -/
def gotRekey (p fcnt : Nat) (ct : List Byte) (c : Chip) : Chip :=
  let s := portAt c p
  match s.rxKey, c.sec.seed with
  | some k, some sd =>
    let k' := rekeyed k (kemOpen sd ct) (if lowerHere s.kex then 1 else 0)
    objBump 0x2601 0x0E p 1 (setPort p { s with rxSwitch := some (fcnt, k') } c)
  | _, _ => c

/-- KEY_EXCHANGE: the oldest key-exchange message. fcnt is the count a rekey names, whose place in the body the spec does
not give. -/
def keyExchange (p fcnt : Nat) (c : Chip) : Chip :=
  match takeMsg p 3 c with
  | none => c
  | some (m, c) =>
    let step := numAt m.body 0 1
    let s := portAt c p
    if step < 1 || 3 < step || numAt m.body 3 1 ≠ 0 || numAt m.body 2 1 = 0 then linkRefuse p c
    else if s.stage = .up || s.stage = .beacons then
      if step = 2 && m.keyed then gotRekey p fcnt (bytesAt m.body 4 1088) c else linkRefuse p c
    else
      let parts := cellsPut s.kex.parts (step * 256 + numAt m.body 1 1) (m.body.drop 4)
      let n := numAt m.body 2 1
      if !(List.range n).all (fun i => cellsHas parts (step * 256 + i)) then setPort p { s with kex := { s.kex with parts := parts } } c
      else
        let whole := (List.range n).flatMap (fun i => (cellsFind parts (step * 256 + i)).getD [])
        let c := setPort p { s with kex := { s.kex with parts := parts.filter (fun e => e.1 / 256 != step) } } c
        match step, s.stage with
        | 1, .plain | 1, .offered => gotOffer p whole c
        | 2, .encapsulated => gotCipher p whole c
        | 3, .encapsulated => gotFinish p whole c
        | _, _ => linkRefuse p c

/-! Link-up and beacons (R289-R291). -/

/-- LINK_UP_START: training and lock of a port in training, with their outcome. -/
def linkUpStart (p : Nat) (ok : Bool) (c : Chip) : Chip :=
  let s := portAt c p
  if s.stage ≠ .training then c
  else if !ok then linkDown p c
  else
    let v : PortSt := { excluded := s.excluded, retry := s.retry, wait := s.wait, delay := s.delay, last := s.last, stage := .plain }
    let spare := objGet c 0x2601 0x03 p
    let c := objSet 0x2601 0x02 p 0x0F (objSet 0x2601 0x03 p (if spare = 2 then 2 else 0) c)
    let mask := objGet c 0x2910 0x05 0
    let c := objSet 0x2910 0x05 0 (if bitOf mask p then mask - 2 ^ p else mask) c
    setLink p 2 (setPort p v c)

/-- A port begins to train. -/
def linkTrain (p : Nat) (c : Chip) : Chip :=
  setLink p 1 (setPort p { portAt c p with stage := .training, downAt := none } c)

/-- LINK_RETRY_TIMER. -/
def linkRetry (p : Nat) (c : Chip) : Chip :=
  let s := portAt c p
  match s.stage, s.downAt with
  | .down, some d => if linkState c p = 0 && !s.excluded && decide (d + s.wait ≤ c.tk.now) then linkTrain p c else c
  | _, _ => c

/-- This module's beacon body for a port (Table 9-2). -/
def beaconBody (p : Nat) (c : Chip) : List Byte :=
  let pos := match c.plan.loaded with | some pl => pl.domainPos | none => 0xFF
  let formed := objGet c 0x2610 0x02 0 == 2 || objGet c 0x2610 0x02 0 == 3
  let lead := formed && objGet c 0x2610 0x03 0 == pos
  bytesLE 1 1 ++ bytesLE 1 p ++ bytesLE 1 pos ++ bytesLE 1 (objGet c 0x2620 0x01 0 + (if lead then 4 else 0))
    ++ bytesLE 4 (objGet c 0x2610 0x01 0) ++ bytesLE 8 (mySerial c)
    ++ (match c.plan.loaded with | some pl => bytesAt pl.wiringHash 0 32 | none => List.replicate 32 0)
    ++ bytesLE 8 c.tk.tick ++ bytesLE 1 (modCode c.tk.mode) ++ List.replicate 7 0
/-- BEACON_SEND. -/
def beaconSend (p : Nat) (c : Chip) : Chip :=
  match (portAt c p).stage with
  | .plain | .beacons | .up => sendMsg p 1 0 (beaconBody p c) c
  | _ => c

/-- R291: the wiring result of a port for an authenticated beacon. -/
def wiringResult (c : Chip) (p : Nat) (b : List Byte) : Nat :=
  let switch := bitOf (numAt b 3 1) 3
  match c.plan.loaded with
  | none => 0
  | some pl =>
    match secsOf pl 0x0012 with
    | s :: _ =>
      let e := bytesAt s.data (16 + 16 * p) 16
      let serial := numAt e 8 8
      let dom := numAt s.data 0 4
      match numAt e 0 1 with
      | 0 => 0
      | 1 => if switch then 7 else if serial ≠ 0 && serial ≠ numAt b 8 8 then 2
             else if numAt b 2 1 ≠ numAt e 1 1 || numAt b 1 1 ≠ numAt e 2 1 then 3
             else if dom ≠ 0 && dom ≠ numAt b 4 4 then 4
             else if bytesAt b 0x10 32 ≠ bytesAt pl.wiringHash 0 32 then 5 else 1
      | 2 => if !switch then 7 else if serial ≠ 0 && serial ≠ numAt b 8 8 then 2 else 1
      | _ => 6
    | [] =>
      if p = 7 then (if switch then 1 else 7)
      else
        let peer := (pl.domainPos + p + 1) % 8
        if pl.domainSize ≤ peer then 6
        else if switch then 7
        else if numAt b 2 1 ≠ peer || numAt b 1 1 ≠ 6 - p then 3
        else if numAt b 4 4 ≠ objGet c 0x2610 0x01 0 then 4
        else if bytesAt b 0x10 32 ≠ bytesAt pl.wiringHash 0 32 then 5 else 1

/-- R291: a wiring result takes effect: the port enters service, leaves it, or stays. Without an authenticated beacon
(result 8) no port enters service (R289). -/
def wiringApply (p res : Nat) (c : Chip) : Chip :=
  let s := portAt c p
  let bad := decide (2 ≤ res)
  let new := bad && objGet c 0x2601 0x08 p != res
  let c := objSet 0x2601 0x08 p res c
  let c := if new then logRec 2 srcLinks .wiring [p, res] (alertLater 5 c) else c
  let out := bad && objGet c 0x2611 0x01 0 == 1
  let st := linkState c p
  if out then setLink p 4 (setPort p { s with timedOut := [], timedIn := [] } c)
  else if st = 3 || res = 8 then c
  else
    let c := setPort p { s with upAt := s.upAt.orElse (fun _ => some c.tk.now) } c
    logRec 0 srcLinks .linkUp [p] (setLink p 3 c)

/-- R305: the first comparison of the two modules of a pair, when the pair path is in service; same is its outcome, for
which the spec gives no message. -/
def pairCompare (p : Nat) (same : Bool) (c : Chip) : Chip :=
  if objGet c 0x2620 0x01 0 ≠ 0 && objGet c 0x2620 0x03 0 = p && inService c p && c.plan.loaded.isSome && !c.link.pair.matched then
    let c := { c with link := { c.link with pair := { c.link.pair with matched := same } } }
    if !same then objSet 0x2620 0x06 0 1 c
    else if objGet c 0x2620 0x06 0 ≤ 1 then
      if objGet c 0x2620 0x01 0 = 1 && objGet c 0x2620 0x07 0 = 1 then objSet 0x2620 0x06 0 4 c else objSet 0x2620 0x06 0 3 c
    else c
  else c

/-- IDENTITY_BEACON: the oldest beacon received on a port. -/
def beaconIn (p : Nat) (same : Bool) (c : Chip) : Chip :=
  match takeMsg p 1 c with
  | none => c
  | some (m, c) =>
    let b := m.body
    if b.length ≠ 64 || numAt b 0 1 ≠ 1 || numAt b 3 1 / 16 ≠ 0 || numAt b 0x39 7 ≠ 0 then linkRefuse p c
    else if !m.keyed then (if (portAt c p).stage = .plain then sendOffer p c else c)
    else
      let c := objSet 0x2601 0x04 p (numAt b 8 8) (objSet 0x2601 0x05 p (numAt b 2 1 * 256 + numAt b 1 1) c)
      let c := objSet 0x2601 0x06 p (numAt b 4 4) (blobSet 0x2601 0x07 p (bytesAt b 0x10 32) c)
      let s := portAt c p
      let c := setPort p { s with beacon := true, peerRole := numAt b 3 1, peerState := numAt b 0x38 1
                                  stage := if s.stage = .beacons then .up else s.stage } c
      let c := if s.stage = .beacons then objBump 0x2601 0x10 p 1 c else c
      pairCompare p same (wiringApply p (wiringResult c p b) c)

/-- BEACON_TIMEOUT: 100 ms after the keys without an authenticated beacon. -/
def beaconTimeout (p : Nat) (c : Chip) : Chip :=
  let s := portAt c p
  match s.keyedAt with
  | some k => if !s.beacon && decide (k + 100000000 ≤ c.tk.now) then wiringApply p 8 c else c
  | none => c

/-! Timed transfers (R292-R294). -/

/-- R125, R159, R294, R366: the word a transmit slot sends: the one ejected at the edge port in its fc; in a repair pause,
in Survival and for a stopped function a word with I = 1, whatever the port holds. -/
def slotMuted (c : Chip) (en : SchedEntry) : Bool := workPaused c || c.tk.mode = .survival || entryStopped c en
def slotWord (c : Chip) (en : SchedEntry) (arrived : Option EdgeWord) : Option (W256 × Bool × Bool) :=
  if slotMuted c en then some (0, false, true)
  else arrived.map (fun w => (w.data, w.poison, w.invalid))

/-- TIMED_WORD_TRANSMIT: word j of transmit entry e, ejected at its edge port in its fc, joins the tick's sequence; none
goes to a module of another wiring hash (R24). -/
def timedTransmit (p e j : Nat) (c : Chip) : Chip :=
  match armedEntry c p e false with
  | none => c
  | some en =>
    let pl := wordPlace en j
    if en.count ≤ j then c
    else
      let arrived := c.grid.edge.find? (fun w => w.port == stomarEdge p pl.2 && w.fc == pl.1)
      let edge := match arrived with | some w => c.grid.edge.erase w | none => c.grid.edge
      match slotWord c en arrived with
      | none => c
      | some (d, poison, invalid) =>
        let c := { c with grid := { c.grid with edge := edge } }
        if !inService c p || !hashAt c p then c
        else
          let t : TimedWord := { tick := c.tk.tick, idx := wordIndex c p en j, data := d, poison := poison, invalid := invalid }
          setPort p { portAt c p with timedOut := (portAt c p).timedOut ++ [t] } c

/-- TIMED_WORD_RELEASE: word j of receive entry e leaves in its release fc; one that has not arrived leaves with P = 1, and
a stopped function's leaves with I = 1 (R159, R294). -/
def timedRelease (p e j : Nat) (c : Chip) : Chip :=
  match armedEntry c p e true with
  | none => c
  | some en =>
    if en.count ≤ j then c
    else
      let pl := wordPlace en j
      let i := wordIndex c p en j
      let s := portAt c p
      let rest := s.timedIn.filter (fun w => w.tick == c.tk.tick && w.idx != i)
      let c1 := setPort p { s with timedIn := rest, rxTick := c.tk.tick, rxIdx := max (i + 1) (if s.rxTick = c.tk.tick then s.rxIdx else 0) } c
      if entryStopped c en then portDeliverI (stomarEdge p pl.2) pl.1 { data := 0 } true c1
      else match s.timedIn.find? (fun w => w.tick == c.tk.tick && w.idx == i) with
      | some w => portDeliverI (stomarEdge p pl.2) pl.1 { data := w.data, poison := w.poison } w.invalid c1
      | none => portDeliverI (stomarEdge p pl.2) pl.1 { data := 0, poison := true } false (objBump 0x2601 0x0D p 1 c1)

/-! Port commands (R291, R313, R442). -/

/-- The effect of a port command at its boundary. -/
def portCommand (c : Chip) (pc : Nat × Nat) : Chip :=
  let (p, cmd) := pc
  let s := portAt c p
  match cmd with
  | 1 =>
    let c := { c with life := { c.life with retrain := cellsPut c.life.retrain p c.tk.now } }
    if linkState c p = 5 || linkState c p = 6 then c else linkTrain p (linkDown p c)
  | 2 =>
    let c := linkDrop p 5 (setPort p { s with excluded := true } c)
    postStatus 0x2601 0x12 p stOk c
  | _ =>
    let c := setPort p { s with excluded := false } c
    let c := if linkState c p = 5 then linkTrain p c else c
    postStatus 0x2601 0x12 p stOk c
/-- The port commands accepted for this boundary. -/
def applyPortCmds (c : Chip) : Chip :=
  let l := c.link.portCmds
  l.foldl portCommand { c with link := { c.link with portCmds := [] } }

/-- 2601.11: retrain waits for the lease; the others take effect at the next boundary. -/
def cmdPort : Cmd := fun _ _ p b c =>
  let cmd := numAt b 0 1
  if cmd < 1 || 3 < cmd then (c, resRange)
  else if cmd = 1 then
    let r := leaseRequest .lr p true c
    if r.2 = stOk then ({ r.1 with link := { r.1.link with portCmds := r.1.link.portCmds ++ [(p, 1)] } }, resPending)
    else if r.2 = stQueued then (r.1, resQueued) else (r.1, { st := stNoResource })
  else ({ c with link := { c.link with portCmds := c.link.portCmds ++ [(p, cmd)] } }, resPending)

/-- LINK_RETRAIN_DONE (R442): the port is in service, or 10 s have passed. -/
def retrainDone (p : Nat) (c : Chip) : Chip :=
  match c.life.lease.holders.find? (fun e => e.act = .lr && e.obj == p), cellsFind c.life.retrain p with
  | some _, some t =>
    if inService c p then
      leaseRelease .lr p (postStatus 0x2601 0x12 p stOk { c with life := { c.life with retrain := cellsDrop c.life.retrain p } })
    else if t + 10000000000 ≤ c.tk.now then
      leaseRelease .lr p (postStatus 0x2601 0x12 p stTimeout { c with life := { c.life with retrain := cellsDrop c.life.retrain p } })
    else c
  | _, _ => c

/-- Every port goes down (Survival's orderly stop, Sleep, off): keys and queues end. -/
def linksOff (c : Chip) : Chip := (List.range 8).foldl (fun c p => if (portAt c p).stage = .down then c else linkDown p c) c

end Sys2Proof.Machine
end

