-- ==== Sys2Proof/Machine/Maint.lean ====
section
/-! DEFINITION. Life counters, the calendar, redundant rows, engine spares, flash blocks and the lease scan
(spec/14_life_maintenance.md R433-R448). -/

namespace Sys2Proof.Machine

/-! Time (R433, R435, R436). -/

/-- R441, R447: class 0x10 stays while life used is at its warning or a tile's threshold was crossed within 24 h. -/
def wearDue (c : Chip) : Bool :=
  decide (objGet c 0x2933 0x02 0 ≤ objGet c 0x2900 0x0B 0)
    || (match cellsFind c.life.classUntil 0x10 with | some u => decide (c.tk.now < u) | none => false)

/-- R433: power-on and run time advance while the dictionary server runs. -/
def countTime (c : Chip) : Chip :=
  let dt := c.tk.now - c.life.countedTo
  let on := c.life.onNs + (if c.fw.down then 0 else dt)
  let run := c.life.runNs + (if c.fw.down || c.tk.wake ≠ .run then 0 else dt)
  let c := { c with life := { c.life with onNs := on % 1000000000, runNs := run % 1000000000, countedTo := max c.tk.now c.life.countedTo } }
  let c := objBumpSat 0x2900 0x02 0 (run / 1000000000) (objBumpSat 0x2900 0x01 0 (on / 1000000000) c)
  let c := objSet 0x2900 0x0B 0 (min 65535 (objGet c 0x2900 0x01 0 * 1000 / 473364000)) c
  if wearDue c then setClass 0x10 true c else c

/-- R435: the calendar follows PTP while it is locked or in holdover, else a tray time written since, and runs on from its last
reading; 2901.02 shows a calendar that runs on from PTP as in holdover (log entry 73). -/
def calendarUpdate (c : Chip) : Chip :=
  let ptp := objGet c 0x1F10 0x05 0
  let cal : Option Int :=
    if ptp ≠ 0 then some ((ptpTime c c.tk.now : Int) - c.tk.now)
    else match c.life.tray with | some d => some d | none => c.life.calendar
  let tray := if ptp ≠ 0 then none else c.life.tray
  let c := { c with life := { c.life with calendar := cal, tray := tray } }
  let src := if ptp = 1 then 1 else if ptp = 2 then 3 else if tray.isSome then 2 else if cal.isSome then 3 else 0
  objSet 0x2901 0x02 0 src (objSet 0x2901 0x01 0 (match cal with | some d => (d + c.tk.now).toNat | none => 0) c)

/-- CALENDAR_KNOWN (R436). -/
def calendarKnown (c : Chip) : Chip :=
  let c := calendarUpdate c
  if c.life.calendar.isSome && objGet c 0x2901 0x04 0 == allOnes64
  then logRec 1 7 .calendarKnown [objGet c 0x2901 0x01 0, objGet c 0x2700 0x06 0, c.tk.tick] (objSet 0x2901 0x04 0 c.tk.tick c)
  else c

/-- TRAY_TIME_WRITE (R435): accepted in any state, a reading while PTP, the source before it, is neither locked nor in holdover. -/
def cmdTray : Cmd := fun _ _ _ b c =>
  let v := numAt b 0 8
  let c := objSet 0x2901 0x03 0 v c
  if objGet c 0x1F10 0x05 0 ≠ 0 then (c, resOk)
  else ({ c with life := { c.life with tray := some ((v : Int) - c.tk.now) } }, resOk)

/-- Whether an object counts from manufacture (R433). -/
def lifeKey (k : Nat) : Bool :=
  let i := k / 2 ^ 56
  i == 0x2900 || i == 0x2910 || i == 0x2921 || i == 0x2A42

/-- R437: erases of the block that holds record n: four records to a block, 64 blocks in turn, each erased before it is reused. -/
def lifeErases (n : Nat) : Nat := (n - 1) / 256
/-- R437: a life record, with or without the orderly-stop mark. -/
def writeLifeRecord (mark : Bool) (c : Chip) : Chip :=
  let c := objBumpSat 0x2900 0x0C 0 1 (countTime c)
  let n := objGet c 0x2900 0x0C 0
  let c := objSet 0x2910 0x09 0 (max (lifeErases n) (objGet c 0x2910 0x09 0)) c
  let r : LifeRecord := { seq := n, objs := c.objs.filter (fun e => lifeKey e.1), engines := c.life.sparedEngines, lost := c.life.spareLost
                          calendar := objGet c 0x2901 0x01 0, mark := mark }
  { c with life := { c.life with record := some r
                                 recordAt := objGet c 0x2900 0x01 0 } }
/-- LIFE_RECORD_WRITE: 60 s of power-on time since the last record. -/
def lifeRecordDue (c : Chip) : Chip :=
  let c := countTime c
  if c.life.recordAt + 60 ≤ objGet c 0x2900 0x01 0 then writeLifeRecord false c else c

/-! Redundant rows of tile SRAM (R439): a bank is word-address bits 13 and 2:0. -/

def sramBank (wa : Nat) : Nat := wa / 8192 % 2 * 8 + wa % 8
def bankUsed (t : Tile) (b : Nat) : Nat := ((t.spareWords ++ t.copied).filter (fun w => sramBank w == b)).length
/-- 2910.02, 2910.03, 2921.03. -/
def rowsShow (t : Nat) (c : Chip) : Chip :=
  let c := objSet 0x2921 0x03 (physIndex c t) (tileAt c t).spareWords.length c
  let total := (c.grid.tiles.map (fun e => e.2.spareWords.length)).sum
  let full := (c.grid.tiles.map (fun e => ((List.range 16).filter (fun b => decide (8 ≤ bankUsed e.2 b))).length)).sum
  objSet 0x2910 0x03 0 (min 65535 full) (objSet 0x2910 0x02 0 total c)
/-- REDUNDANT_ROW_COPY: in a slack window a suspect word is copied, corrected on the way. -/
def rowCopy (t wa : Nat) (c : Chip) : Chip :=
  let tl := tileAt c t
  if c.tk.phase ≠ .slack || tl.held || !tl.suspects.contains wa || 8 ≤ bankUsed tl (sramBank wa) then c
  else
    let w := (sramLook tl wa).2
    let tl := { tl with suspects := tl.suspects.filter (· != wa), copied := tl.copied ++ [wa] }
    setTile t (sramWrite tl wa w) c
/-- REDUNDANT_ROW_SWITCH: at ac 0 of the next boundary the word is the redundant row's. -/
def rowSwitch (t wa : Nat) (c : Chip) : Chip :=
  let tl := tileAt c t
  if c.tk.phase ≠ .ac0 || !tl.copied.contains wa then c
  else
    let c := setTile t { tl with copied := tl.copied.filter (· != wa), spareWords := tl.spareWords ++ [wa] } c
    rowsShow t (logRec 1 srcGrid .redundantRow [t, wa] c)

/-! Engines and their spares (R440). -/

def kindOf (code : Nat) : Option EngineKind :=
  match code / 16 with
  | 0 => some .decode | 1 => some .encode | 2 => some .campion | 3 => some .teasel | _ => none
def kindSize : EngineKind → Nat
  | .decode => 8 | .encode => 4 | .campion => 4 | .teasel => 2
/-- A code of 2911.01 that names an engine. -/
def engineExists (code : Nat) : Bool := match kindOf code with | some k => decide (code % 16 < kindSize k) | none => false
/-- The state of a kind's spare: 0 ready, 1 in use, 2 lost (2910.04). -/
def spareState (c : Chip) (k : EngineKind) : Nat :=
  if c.life.sparedEngines.any (fun e => e / 16 == engineCode k) then 1
  else if c.life.spareLost.contains k then 2 else 0
def engineShow (c : Chip) : Chip :=
  let v := spareState c .decode + 4 * spareState c .encode + 16 * spareState c .campion + 64 * spareState c .teasel
  let c := setClass 0x0A (!c.life.heldEngines.isEmpty) (setClass 0x09 (!c.life.sparedEngines.isEmpty) c)
  objSet 0x2910 0x04 0 v c
/-- An engine is declared failed: held, and the lease requested while its kind's spare is free and not already claimed. -/
def engineFail (code : Nat) (c : Chip) : Chip :=
  match kindOf code with
  | none => c
  | some k =>
    if c.life.heldEngines.contains code then c
    else
      let l := c.life.lease
      let claimed := (l.holders ++ l.queue).any (fun e => e.act = .es && e.obj / 16 == code / 16)
      let c := { c with life := { c.life with heldEngines := c.life.heldEngines ++ [code] } }
      let c := engineShow (logRec 3 srcVideo .engineFailed [code] c)
      if spareState c k = 0 && !claimed then (leaseRequest .es code false c).1 else c
/-- 2911.01 (R440). -/
def cmdDeclareEngine : Cmd := fun _ _ _ b c =>
  let code := numAt b 0 1
  if !engineExists code then (objSet 0x2911 0x02 0 stRange c, resRange)
  else if c.life.heldEngines.contains code then (objSet 0x2911 0x02 0 stState c, resState)
  else (objSet 0x2911 0x02 0 stOk (engineFail code c), resOk)

/-- The streams of the loaded plan that an engine of a kind serves. -/
def coreStreams (c : Chip) (k : EngineKind) (i : Nat) : List Nat :=
  match c.plan.loaded with
  | none => []
  | some p => ((planVideo p).filter (fun v => match k with
    | .decode => v.dcore == i | .encode => vEncoder v && v.ecore == i | _ => false)).map (·.stream)
/-- ENGINE_SPARE_INSERTION at the boundary at which the activity starts. -/
def engineInsert (c : Chip) : Chip :=
  match c.life.inserting, c.life.lease.holders.find? (fun e => e.act = .es && decide (e.tick < c.tk.tick)) with
  | none, some e =>
    match kindOf e.obj with
    | none => c
    | some k =>
      let i := e.obj % 16
      let late := k = .campion || k = .teasel
      let held := if late then c.life.heldEngines else c.life.heldEngines.filter (· != e.obj)
      let c := { c with life := { c.life with inserting := some (e.obj, c.tk.tick), heldEngines := held
                                              sparedEngines := c.life.sparedEngines ++ [e.obj] } }
      let c := match k with
        | .decode => (coreStreams c .decode i).foldl (fun c s => modStream s (fun st => { st with waitIrap := true, skipRasl := false, handed := [] }) c) c
        | .encode => (coreStreams c .encode i).foldl (fun c s => dropCoding s c) c
        | .campion => setCampion i {} c
        | .teasel => setTeasel i {} c
      engineShow (logRec 1 srcVideo .engineSpare [e.obj] c)
  | _, _ => c
/-- ENGINE_SPARE_INSERTION_END at boundary b + 1. -/
def engineInsertEnd (c : Chip) : Chip :=
  match c.life.inserting with
  | some (code, b) =>
    if b < c.tk.tick then
      let c := { c with life := { c.life with inserting := none, heldEngines := c.life.heldEngines.filter (· != code) } }
      engineShow (leaseRelease .es code c)
    else c
  | none => c
/-- ENGINE_SPARE_SELF_TEST: a spare that fails is lost. -/
def engineTest (k : EngineKind) (pass : Bool) (c : Chip) : Chip :=
  if pass || spareState c k ≠ 0 then c
  else engineShow (logRec 2 srcVideo .spareTest [engineCode k] { c with life := { c.life with spareLost := c.life.spareLost ++ [k] } })

/-! Flash blocks (R441). Partitions are numbered in the order of Table 13-5, the two slots of a component apart. -/

def lifePartition : Nat := 16
def flashRetire (part erases : Nat) (failed : Bool) (c : Chip) : Chip :=
  let c := objSet 0x2910 0x09 0 (max erases (objGet c 0x2910 0x09 0)) c
  if !failed && erases < 80000 then c
  else
    let free := objGet c 0x2910 0x08 0
    let c := if 0 < free then objSet 0x2910 0x08 0 (free - 1) c
      else { c with life := { c.life with badBlocks := cellsPut c.life.badBlocks part ((cellsFind c.life.badBlocks part).getD 0 + 1)
                                          lifeBad := c.life.lifeBad + (if part = lifePartition then 1 else 0) } }
    let c := setClass 0x0F (decide (objGet c 0x2910 0x08 0 < 43)) (logRec 2 7 .flashBlock [part, erases] c)
    replaceShow c

/-- R442: a demand scrub begins: nothing is scrubbed yet. -/
def beginScrub (c : Chip) : Chip :=
  objSet 0x2903 0x03 0 0 { c with life := { c.life with scrubbing := true, scrubLines := [], scrubWindows := 0 } }
/-- R442: its pass is full: every line in use of every pseudo-channel, and 256 slack windows, which scrub a tile's whole SRAM (R65). -/
def scrubFull (c : Chip) : Bool :=
  (List.range 32).all (fun pc => decide (linesInUse ≤ cellsGet 0 c.life.scrubLines pc)) && decide (256 ≤ c.life.scrubWindows)

/-! The lease scan (R444, R446). -/

/-- The status object of a commanded entry: index, sub-index, window entry. -/
def leaseStatus (e : LeaseEntry) : Option (Nat × Nat × Nat) :=
  match e.act with
  | .fw => some (0x2801, 0x0A, e.obj)
  | .ppr => some (0x2B31, 0x00, 0)
  | .lr => some (0x2601, 0x12, e.obj)
  | .ds => some (0x2903, 0x02, 0)
  | _ => none
/-- What a grant at a boundary starts. -/
def granted (e : LeaseEntry) (c : Chip) : Chip :=
  let c := match leaseStatus e with | some (i, s, n) => postStatus i s n stPending c | none => c
  match e.act with
  | .lr => portCommand c (e.obj, 1)
  | .ds => beginScrub c
  | .fw => { c with fw := { c.fw with updates := c.fw.updates.map (fun (u : Update) => if u.component = e.obj then { u with phase := .granted, boundary := c.tk.tick } else u) } }
  | .si => gridShow c
  | _ => c
/-- The scan from the head: kept holds the entries still queued ahead. -/
def leaseScan : List LeaseEntry → List LeaseEntry → Chip → Chip
  | [], kept, c => leaseShow { c with life := { c.life with lease := { c.life.lease with queue := kept } } }
  | e :: t, kept, c =>
    if !(c.life.lease.holders.all (leaseCompat e) && kept.all (leaseCompat e)) then leaseScan t (kept ++ [e]) c
    else if e.act = .ppr && c.tk.mode ≠ .idle && c.tk.mode ≠ .loaded then leaseScan t kept (postStatus 0x2B31 0x00 0 stState c)
    else leaseScan t kept (granted e (leaseGrant e c))
/-- LEASE_GRANT_SCAN at ac 0: releases, then grants, neither while the complex is down. -/
def leaseBoundary (c : Chip) : Chip :=
  if c.fw.down then c
  else
    let l := c.life.lease
    let c := leaseShow { c with life := { c.life with lease := { l with holders := l.holders.filter (fun e => !l.releases.contains e), releases := [] } } }
    if leaseOpen c then leaseScan c.life.lease.queue [] c else c

/-- R445: the queue as 2902.03 reads it. -/
def queueBytes (c : Chip) : List Byte :=
  (c.life.lease.queue.zipIdx).flatMap fun (e, i) =>
    bytesLE 1 (activityCode e.act) ++ bytesLE 1 (i + 1) ++ bytesLE 4 e.obj ++ bytesLE 2 0 ++ bytesLE 8 e.tick

/-! Demand scrub (R442). -/

def cmdScrub : Cmd := fun _ _ _ b c =>
  let v := numAt b 0 1
  let l := c.life.lease
  if v = 1 then
    let r := leaseRequest .ds 0 true c
    if r.2 = stOk then
      (objSet 0x2903 0x02 0 stPending (beginScrub r.1), resPending)
    else if r.2 = stQueued then (objSet 0x2903 0x03 0 0 (objSet 0x2903 0x02 0 stQueued r.1), resQueued)
    else (objSet 0x2903 0x02 0 r.2 r.1, { st := r.2 })
  else if v = 2 then
    if leaseHeld c .ds then
      (leaseRelease .ds 0 (postStatus 0x2903 0x02 0 stOk { c with life := { c.life with scrubbing := false } }), resOk)
    else if l.queue.any (fun e => e.act = .ds) then
      (leaseShow (postStatus 0x2903 0x02 0 stOk
        { c with life := { c.life with lease := { l with queue := l.queue.filter (fun e => e.act != .ds) } } }), resOk)
    else (objSet 0x2903 0x02 0 stState c, resState)
  else (c, resRange)
/-- DEMAND_SCRUB_DONE: the full pass is done. -/
def scrubDone (c : Chip) : Chip :=
  if c.life.scrubbing && leaseHeld c .ds && scrubFull c then
    leaseRelease .ds 0 (objSet 0x2903 0x03 0 1000 (postStatus 0x2903 0x02 0 stOk { c with life := { c.life with scrubbing := false } }))
  else c

/-! Fault classes held for a time (R447). -/

/-- FAULT_CLASS_EXPIRY: the class ends when its time has passed and no other condition holds it. -/
def classExpiry (n : Nat) (c : Chip) : Chip :=
  match cellsFind c.life.classUntil n with
  | none => c
  | some u =>
    if c.tk.now < u then c
    else
      let c := { c with life := { c.life with classUntil := cellsDrop c.life.classUntil n } }
      let still := if n = 0x10 then wearDue c else if n = 0x01 then c.power.estFault else false
      if still then c else setClass n false c

end Sys2Proof.Machine
end

