-- ==== Sys2Proof/Machine/Mask.lean ====
section
/-! DEFINITION. The active overlay mask (spec/05_ticks_and_plans.md R158), formed at ac 1,024 and, for the power
controller, ahead of it (R353); what takes effect at a boundary. -/

namespace Sys2Proof.Machine

/-- Shed overlays (2102.04). -/
def shedMask (c : Chip) : Nat := c.power.shed.foldl (fun m e => if e.overlay then m ||| 2 ^ e.what else m) 0

/-- Whether an abort has its effect boundary at or before k (R159, Table 5-12). -/
def abortDue (k : Nat) (w : FnWait) : Bool := decide (w.tick < k)
/-- SA of the loaded plan. -/
def startAlign (c : Chip) : Nat := match c.plan.loaded with | some p => max 1 p.cert.sa | none => 1
/-- A restart or an aligned plan command accepted in tick t takes effect at boundary k (R141, R162). -/
def alignedDue (c : Chip) (k t : Nat) : Bool := decide (t < k) && k % startAlign c == 0

/-- Functions out at boundary k: aborted and not restarted there, or with an abort due there. -/
def fnOut (c : Chip) (k f : Nat) : Bool :=
  (c.plan.aborted.contains f && !c.plan.restarts.any (fun w => w.fn == f && alignedDue c k w.tick))
    || c.plan.aborts.any (fun w => w.fn == f && abortDue k w)
/-- Overlays of functions that are out (R159). -/
def outMask (c : Chip) (k : Nat) : Nat :=
  match c.plan.loaded with
  | none => 0
  | some p => (planFns p).foldl (fun m e => if e.kind = 2 && fnOut c k e.fn then m ||| 2 ^ e.overlay else m) 0

/-- One pass of the loop of R158 over the overlays of m. -/
def maskPass (p : Plan) (align : Bool) (k prev m : Nat) : Nat :=
  (List.range 16).foldl (fun r n =>
    if n = 0 || !bitOf r n then r
    else
      let e := ovlEntry p n
      if e.1 &&& (65535 - m % 65536) != 0 || (align && !bitOf prev n && k % max 1 e.2.1 != 0) then r - 2 ^ n else r) m
/-- Repeat until nothing changes: each pass that changes anything clears one of 15 bits. -/
def maskLoop (p : Plan) (align : Bool) (k prev : Nat) : Nat → Nat → Nat
  | 0, m => m
  | n + 1, m => let m' := maskPass p align k prev m; if m' = m then m else maskLoop p align k prev n m'

/-- R158, R353: the mask of tick k from a request and a shed mask; align false drops the alignment test. -/
def formMask (c : Chip) (k request shed : Nat) (align : Bool) : Nat :=
  match c.plan.loaded with
  | none => 1
  | some p =>
    let out := (outMask c k ||| shed) &&& 0xFFFE
    maskLoop p align k c.plan.active 16 ((request &&& (65535 - out)) ||| 1)

/-- R372: in a domain the leader starts work only once every member present has reported Run. -/
def membersAwake (c : Chip) : Bool :=
  let st := objGet c 0x2610 0x02 0
  !(decide (2 ≤ st) && decide (st ≤ 3)) || c.link.dom.busy.all (fun e => !bitOf (objGet c 0x2610 0x04 0) e.1 || e.2.run)
/-- A plan command that takes effect at boundary k. -/
def planCmdDue (c : Chip) (k code : Nat) : Bool :=
  match c.plan.cmd with
  | some m => m.code == code && (if code = 2 || code = 4 then alignedDue c k m.tick && c.tk.wake = .run && membersAwake c else decide (m.tick < k))
  | none => false
/-- Whether the plan does its work in tick k: Running and not paused or stopped there, or started there. -/
def planWorks (c : Chip) (k : Nat) : Bool :=
  (c.tk.mode = .running && !planCmdDue c k 3 && !planCmdDue c k 5) || planCmdDue c k 2 || planCmdDue c k 4

end Sys2Proof.Machine
end

