-- ==== Sys2Proof/Machine/Palilo.lean ====
section
/-! DEFINITION. The memories of the management complex and how they are divided (spec/01_module_overview.md R21,
spec/13_firmware_update.md R405, R406, R415). What the parts hold is State's: the birth record and helper data, the slot control
record and the slots' images, key slots and counts, maps, log ring, mirror and trace buffer. -/

namespace Sys2Proof.Machine

/-- A part of a memory: its first byte and its size in bytes. -/
structure MemPart where
  start : Nat
  bytes : Nat
  deriving DecidableEq, Repr

/-- R405: RV32IMAC cores, their clock in MHz and the PMP regions of each. -/
def paliloCores : Nat := 4
def paliloMhz : Nat := 400
def pmpRegions : Nat := 16
/-- R406: PMP regions of a core that the kernel uses, and the most that a resident component uses. -/
def pmpKernel : Nat := 4
def pmpComponent : Nat := 4
/-- R405: bytes of management SRAM, recovery ROM and NOR flash. -/
def mgmtSramBytes : Nat := 2 * 2 ^ 20
def recoveryRomBytes : Nat := 256 * 2 ^ 10
def norFlashBytes : Nat := 64 * 2 ^ 20
/-- R415: bytes of an erase block. -/
def eraseBlock : Nat := 64 * 2 ^ 10

/-- Table 13-1: code banks 0 and 1, the handover area, the log ring, the trace buffer, data regions and retained blocks. -/
def sramParts : List MemPart :=
  [⟨0x000000, 0x80000⟩, ⟨0x080000, 0x80000⟩, ⟨0x100000, 0x40000⟩, ⟨0x140000, 0x10000⟩, ⟨0x150000, 0x10000⟩, ⟨0x160000, 0xA0000⟩]
/-- Bytes of the log ring and of the trace buffer: 64-byte and 16-byte records. -/
def logRingBytes : Nat := (sramParts.map (·.bytes)).getD 3 0
def traceBytesMax : Nat := (sramParts.map (·.bytes)).getD 4 0

/-- Table 13-5: the two slots of components 0 to 4. -/
def slotParts : List (MemPart × MemPart) :=
  [(⟨0x100000, 0x400000⟩, ⟨0x500000, 0x400000⟩), (⟨0x900000, 0x200000⟩, ⟨0xB00000, 0x200000⟩),
   (⟨0xD00000, 0x400000⟩, ⟨0x1100000, 0x400000⟩), (⟨0x1500000, 0x100000⟩, ⟨0x1600000, 0x100000⟩),
   (⟨0x1700000, 0x100000⟩, ⟨0x1800000, 0x100000⟩)]
/-- Bytes of a component's slot. -/
def slotBytes (n : Nat) : Nat := (slotParts.map (·.1.bytes)).getD n 0
/-- Table 13-5: birth record, helper data copies 0 and 1, slot control record, key slots and counts, maps and repair log; the slots; life
counters and calendar, log mirror, spare blocks. -/
def flashParts : List MemPart :=
  [⟨0, 0x10000⟩, ⟨0x10000, 0x10000⟩, ⟨0x20000, 0x10000⟩, ⟨0x30000, 0x20000⟩, ⟨0x50000, 0x40000⟩, ⟨0x90000, 0x70000⟩]
    ++ slotParts.flatMap (fun p => [p.1, p.2]) ++ [⟨0x1900000, 0x400000⟩, ⟨0x1D00000, 0x800000⟩, ⟨0x2500000, 0x1B00000⟩]

/-- Parts that follow one another from a place to an end, without a gap. -/
def partsFill (a z : Nat) : List MemPart → Bool
  | [] => a == z
  | p :: t => p.start == a && partsFill (a + p.bytes) z t

end Sys2Proof.Machine
end

