-- ==== Sys2Proof/Machine/Power.lean ====
section
/-! DEFINITION. Power estimation, the step choice, shedding, droop, the thermal forecast, Survival, the orderly stop,
keep-warm and wake states (spec/11_power_thermal.md R347-R374). -/

namespace Sys2Proof.Machine

/-! Steps (Table 11-1). -/

def stepMhz (s : Nat) : Nat := [125, 150, 175, 200, 225, 250, 275].getD s 275
def stepCv (s : Nat) : Nat := [50, 54, 58, 62, 66, 69, 72].getD s 72
def fv2 (s : Nat) : Rat := (stepMhz s * stepCv s * stepCv s : Nat)

/-- The module enters a state: 2000.01 follows, with alert cause [1]. -/
def setMode (m : ModState) (c : Chip) : Chip :=
  if c.tk.mode = m then c
  else alertLater 1 (objSet 0x2000 0x01 0 (modCode m) { c with tk := { c.tk with mode := m } })

def natOf (r : Rat) : Nat := r.floor.toNat
/-- A power in 0.1 W in 16 bits. -/
def deci (r : Rat) : Nat := min 65535 (natOf (r * 10))
/-- A rational rounded to REAL32. -/
def real32 (r : Rat) : Nat := toFp32 (numDiv (numOfInt r.num 0) (numOfInt r.den 0))

/-! Estimation and calibration (R349, R350). -/

/-- POWER_ESTIMATE: the events of each counter in the last 4 µs. -/
def powerEstimate (counts : List (Nat × Nat)) (c : Chip) : Chip :=
  let w := c.power
  let dyn (g : Nat) : Rat := ((counts.filter (fun e => Config.counterGroup e.1 % 4 == g)).map (fun e =>
    let v := Config.counterVolt e.1 c.tk.step
    Config.counterWeight e.1 * (e.2 : Rat) * v * v * 250000)).sum
  let all := dyn 0 + dyn 1 + dyn 2 + dyn 3
  let eta := Config.eta (w.gain * all) (objGet c 0x2510 0x03 0)
  let leak := Config.leak c.tk.step w.dieMean
  let add (s : EstSum) : EstSum :=
    { n := s.n + 1, p := s.p + w.gain * all / eta + leak, comp := s.comp + w.gain * dyn 0 / eta + leak
      mem := s.mem + w.gain * dyn 1 / eta, link := s.link + w.gain * dyn 2 / eta, unc := s.unc + w.gain * dyn 3 / eta }
  { c with power := { w with ms := add w.ms, busy := if c.tk.busyEnded then w.busy else add w.busy } }

def estMean (s : EstSum) : EstSum :=
  if s.n = 0 then s
  else { n := 1, p := s.p / s.n, comp := s.comp / s.n, mem := s.mem / s.n, link := s.link / s.n, unc := s.unc / s.n }

/-- GAIN_CALIBRATION: input voltage in mV and current in mA of the last millisecond. -/
def calibrate (mv ma : Nat) (c : Chip) : Chip :=
  let w := c.power
  let m := estMean w.ms
  let meas : Rat := (mv * ma : Nat) / 1000000
  let raw : Rat := if m.p = 0 then w.gain else w.gain * (1 + (meas / m.p - 1) / 4)
  let g := max (4 / 5) (min (5 / 4) raw)
  let limit := decide (g = 4 / 5) || decide (g = 5 / 4)
  let run := if limit then w.clampRun + 1 else 0
  let fault := decide (1000 ≤ run)
  let okSince := if 51000 ≤ mv then w.okSince.orElse (fun _ => some c.tk.now) else none
  let life := w.lifeEnergy + meas / 1000
  let full := decide (99 ≤ w.tenth.1)
  let tenth := if full then (0, 0) else (w.tenth.1 + 1, w.tenth.2 + meas)
  let mean := if full then 50 * natOf ((w.tenth.2 + meas) / 500 + 1 / 2) else w.tenthMean
  let w' : PowerSt := { w with
    gain := g, clampRun := run, estFault := fault, tickClamped := w.tickClamped || limit, ms := {}, means := m
    uncore := (m.unc :: w.uncore).take 1000, tickMeas := (w.tickMeas.1 + 1, w.tickMeas.2 + meas), meas := meas, tenth := tenth, tenthMean := mean
    energy := w.energy + meas / 1000, lifeEnergy := life - (natOf (life / 1000) * 1000 : Nat), okSince := okSince }
  let c := { c with power := w' }
  let c := objSet 0x2510 0x01 0 (deci meas) (objSet 0x2510 0x02 0 (deci m.p) c)
  let c := objSet 0x2510 0x03 0 (min 65535 mv) (objSet 0x2510 0x04 0 (min 65535 ma) (objSet 0x2510 0x05 0 (real32 g) c))
  let c := objSet 0x2510 0x06 0 (deci m.comp * 2 ^ 48 + deci m.mem * 2 ^ 32 + deci m.link * 2 ^ 16 + deci m.unc) c
  let c := objBumpSat 0x2900 0x0A 0 (natOf (life / 1000)) (objSet 0x2510 0x07 0 (natOf w'.energy) c)
  if fault && !w.estFault then setClass 0x01 true (logRec 3 srcPower .estimatorFault [] c)
  else if !fault && w.estFault && !cellsHas c.life.classUntil 0x01 then setClass 0x01 false c else c

/-! The thermal forecast (R362-R364). -/

/-- exp(-20/25) to 20 digits. -/
def expM08 : Rat := 44932896411722159143 / 100000000000000000000

/-- Inlet in °C and flow in L/min that the forecast uses: assumed until the fresh readings of R363, and while stale. -/
def coolantUsed (c : Chip) : Rat × Rat :=
  let w := c.power
  if w.fresh < 3 || w.stale then (45, 9 / 10) else ((w.inlet : Rat) / 100, (w.flow : Rat) / 1000)
def flowR (q : Rat) : Rat := 7 / 100 + 4 / 100 / q
/-- The forecast of a temperature 20 ms ahead at power p. -/
def forecast (hot tin r p : Rat) : Rat := hot + (tin + p * r - hot) * (1 - expM08)
/-- The largest power whose forecast stays at or below a limit. -/
def powerFor (limit hot tin r : Rat) : Rat := max 0 (((limit - hot) / (1 - expM08) + hot - tin) / r)
def dieHot (c : Chip) : Rat := (c.power.die : Rat) / 100 + Config.hotSpot
/-- The hottest HBM sensor in °C (2B01). -/
def hbmHot (c : Chip) : Int := (List.range 8).foldl (fun m i => max m (sx 8 (objGet c 0x2B01 (i + 1) 0))) (-128)
/-- p_thermal in W (R362): the lower of the die's and the stack's. -/
def pThermal (c : Chip) : Rat :=
  let u := coolantUsed c
  if u.2 ≤ 0 then 0
  else min (powerFor 95 (dieHot c) u.1 (flowR u.2)) (powerFor 90 (hbmHot c : Int) u.1 (Config.hbmResistance u.2))

/-- R353. -/
def budgetOf (c : Chip) : Rat :=
  let b := min (objGet c 0x2500 0x01 0 : Rat) (pThermal c)
  if c.power.stale then min b 252 else b

/-! Prediction and learning (R353, R355). -/

/-- Declared contributions of the overlays of a mask at a position, in W (R149). -/
def declared (p : Plan) (mask pos : Nat) : Rat × Rat × Rat :=
  (List.range 16).foldl (fun a n =>
    if bitOf mask n then
      let d := phasePower p n pos
      (a.1 + (d.1 : Rat) / 10, a.2.1 + (d.2.1 : Rat) / 10, a.2.2 + (d.2.2 : Rat) / 10)
    else a) (0, 0, 0)

/-- The learner's key (R355): index in SETS, phase signature, tenants shed. -/
def learnKey (p : Plan) (mask pos shed : Nat) : Nat × List Nat × Nat :=
  ((p.cert.sets.findIdx? (· == mask)).getD (65536 + mask)
   , ((List.range 16).filter (bitOf mask)).map (fun n => phaseAt p n pos), shed)
def keyMatches (k : Nat × List Nat × Nat) (e : LearnEntry) : Bool := e.set == k.1 && e.phases == k.2.1 && e.shed == k.2.2
/-- c, m and l for a configuration: learned, or the declared figures that seed it. -/
def figures (c : Chip) (p : Plan) (mask pos shed : Nat) : Rat × Rat × Rat :=
  match c.power.learner.find? (keyMatches (learnKey p mask pos shed)) with
  | some e => (e.c, e.m, e.l)
  | none => declared p mask pos

/-- Mean uncore power over the last second. -/
def uncoreMean (c : Chip) : Rat :=
  let l := c.power.uncore
  if l.isEmpty then 0 else l.sum / l.length
/-- R350: at a gain limit the measured mean stands in for the estimate in every cap decision. -/
def capFactor (c : Chip) : Rat := if c.power.estFault && c.power.means.p ≠ 0 then c.power.meas / c.power.means.p else 1
/-- p(s) of R353 from figures normalised to SC; extra is the memory and link mean of a tick without plan work. -/
def predict (c : Chip) (sc : Nat) (f : Rat × Rat × Rat) (extra : Rat) (s : Nat) : Rat :=
  let r : Rat := (stepMhz s : Rat) / stepMhz sc
  capFactor c * (uncoreMean c + extra + (f.2.1 + f.2.2) * r + f.1 * fv2 s / fv2 sc + Config.leak s c.power.dieMean)
/-- R359: the same from the declared powers and the nominal coefficients. -/
def predictNominal (sc : Nat) (f : Rat × Rat × Rat) (s : Nat) : Rat :=
  let r : Rat := (stepMhz s : Rat) / stepMhz sc
  Config.nominalUncore + (f.2.1 + f.2.2) * r + f.1 * fv2 s / fv2 sc + Config.leak s Config.nominalDie

/-- What the controller chooses a tick's step for. -/
structure TickFigures where
  sc : Nat
  sx : Nat
  figs : Rat × Rat × Rat
  decl : Rat × Rat × Rat
  extra : Rat
  work : Bool

/-- The figures of tick k under a request and a shed mask; without plan work c, m and l are 0 (R353). Without a plan every
step is a candidate. -/
def figuresFor (c : Chip) (k request shed tenants : Nat) (work : Bool) : TickFigures :=
  let extra := c.power.means.mem + c.power.means.link
  match c.plan.loaded with
  | none => { sc := 0, sx := 6, figs := (0, 0, 0), decl := (0, 0, 0), extra := extra, work := false }
  | some p =>
    let mask := formMask c k request shed true
    let pos := k % max 1 p.cert.hp
    if work then { sc := p.cert.sc, sx := p.cert.sx, figs := figures c p mask pos tenants, decl := declared p mask pos
                   extra := 0, work := true }
    else { sc := p.cert.sc, sx := p.cert.sx, figs := (0, 0, 0), decl := (0, 0, 0), extra := extra, work := false }

/-- Whether a step fits the budget; step 6 only when the nominal figures fit too (R359). -/
def stepFits (c : Chip) (budget : Rat) (t : TickFigures) (s : Nat) : Bool :=
  decide (predict c t.sc t.figs t.extra s ≤ budget) && (s < 6 || decide (predictNominal t.sc t.decl 6 ≤ budget))

def boostOk (c : Chip) : Bool :=
  (match c.plan.loaded with | some p => p.domainSize == 1 && p.cert.sx == 6 | none => false)
    && objGet c 0x2501 0x01 0 == 1 && objGet c 0x2501 0x02 0 == 6 && objGet c 0x2501 0x03 0 == 0xFF
def lockLimit (c : Chip) : Nat := if 0 < objGet c 0x2505 0x03 0 then c.power.lockStep else 6
/-- smax without the fixed step (R354). -/
def stepMax (c : Chip) (t : TickFigures) : Nat :=
  min (min t.sx (objGet c 0x2501 0x02 0)) (min (if boostOk c then 6 else 5) (lockLimit c))
/-- The fixed step clamped to SC-SX; never 6, which needs that none is set (R354, R359). -/
def fixedStep (c : Chip) (t : TickFigures) : Option Nat :=
  let f := objGet c 0x2501 0x03 0
  if f = 0xFF then none else some (max t.sc (min (min f t.sx) 5))
/-- The candidates from the highest down. -/
def candidates (c : Chip) (t : TickFigures) (cap : Nat) : List Nat :=
  match fixedStep c t with
  | some f => [max t.sc (min f cap)]
  | none => ((List.range 7).filter (fun s => decide (t.sc ≤ s) && decide (s ≤ min cap (stepMax c t)))).reverse

def tickLen (c : Chip) : Nat := objGet c 0x2000 0x03 0 * 1000
def workLen (c : Chip) : Nat := match c.plan.loaded with | some p => p.cert.lw | none => 0
/-- Time of the slack window of the present tick in ns. -/
def slackNs (c : Chip) : Nat := tickLen c - ((4000 + workLen c) * 1000 / stepMhz c.tk.step + c.power.stretch)

/-- Pass 1 of R354, with the slew of R348: a step up whose voltage cannot rise in this slack window waits a tick. -/
def passOne (c : Chip) : Chip :=
  let k := c.tk.tick + 1
  let work := planWorks c k && !workPaused c
  let t := figuresFor c k c.plan.want (shedMask c) c.plan.shed.length work
  let up := ((candidates c t 6).find? (stepFits c (budgetOf c) t)).getD t.sc
  let cur := c.tk.step
  let have_ := max cur (min up c.power.raised)
  if up ≤ cur then { c with power := { c.power with sUp := up, raised := cur } }
  else if (stepCv up - stepCv have_) * 1000 ≤ slackNs c then { c with power := { c.power with sUp := up, raised := up } }
  else { c with power := { c.power with sUp := have_, raised := up } }

/-! Shedding (R356-R358). -/

/-- Overlays of a mask that depend on an overlay, directly or through others. -/
def dependents (p : Plan) (mask n : Nat) : List Nat :=
  let step (g : List Nat) : List Nat :=
    (List.range 16).filter (fun m => m != 0 && bitOf mask m && (g.contains m || g.any (fun x => bitOf (ovlEntry p m).1 x)))
  ((List.range 16).foldl (fun g _ => step g) [n]).filter (· != n)

/-- The tenant shed next: the lowest priority, then the higher number. -/
def nextTenant (c : Chip) (p : Plan) : Option Nat :=
  let prio (t : Nat) := objGet c 0x2202 0x01 t
  ((planTenants p).filter (fun t => decide (0 < prio t) && !c.plan.shed.contains t)).foldl (fun b t =>
    match b with
    | none => some t
    | some x => if prio t < prio x || (prio t == prio x && decide (x < t)) then some t else some x) none

/-- A tenant's functions stop (R357), or work again. -/
def showShed (c : Chip) : Chip :=
  objSet 0x2503 0x01 0 c.plan.shed.length (objSet 0x2102 0x04 0 (shedMask c) c)
def pushShed (ovl : Bool) (what : Nat) (c : Chip) : Chip :=
  let c := { c with power := { c.power with shed := c.power.shed ++ [{ overlay := ovl, what := what, tick := c.tk.tick }], fit := 0 } }
  let c := objBump 0x2503 0x03 0 1 c
  if ovl then showShed c
  else stopIdle (showShed (objSet 0x2503 0x02 0 what { c with plan := { c.plan with shed := c.plan.shed ++ [what] }
                                                              power := { c.power with restoring := c.power.restoring.filter (· != what) } }))

/-- Whether the configuration as shed fits at a step. -/
def shedFits (c : Chip) (s : Nat) (budget : Rat) : Bool :=
  let t := figuresFor c c.tk.tick c.plan.request (shedMask c) c.plan.shed.length true
  decide (predict c t.sc t.figs t.extra s ≤ budget)

/-- Overlays from 15 down, each with its dependents, until the set fits. -/
def shedOverlays (p : Plan) (s : Nat) (budget : Rat) : Nat → Chip → Chip
  | 0, c => c
  | n + 1, c =>
    if shedFits c s budget then c
    else
      let mask := formMask c c.tk.tick c.plan.request (shedMask c) true
      if n + 1 > 15 || !bitOf mask (n + 1) then shedOverlays p s budget n c
      else
        let c := ((dependents p mask (n + 1)).reverse ++ [n + 1]).foldl (fun c o => pushShed true o c) c
        shedOverlays p s budget n c

def setUnattainable (on : Bool) (c : Chip) : Chip :=
  let v := if on then stCap else stOk
  if objGet c 0x2500 0x02 0 = v then c
  else
    let c := objSet 0x2500 0x02 0 v c
    if on then alertLater 3 (logRec 2 2 .capUnattainable [] c) else c

/-- R356, R358: no candidate fits. -/
def shedMore (p : Plan) (s : Nat) (budget : Rat) (c : Chip) : Chip :=
  let c := shedOverlays p s budget 15 { c with power := { c.power with fit := 0 } }
  let c := if shedFits c s budget then c else match nextTenant c p with
    | some t => pushShed false t c
    | none => c
  let floor := formMask c c.tk.tick c.plan.request (shedMask c) true == 1 && (nextTenant c p).isNone
  setUnattainable (floor && !shedFits c s budget) c

/-- Tiles of these functions that were idle start again at their resume entry. -/
def startFnTiles (p : Plan) (fns : List Nat) (c : Chip) : Chip :=
  (planPrograms p).foldl (fun c (g : TileProgram) =>
    if (tileFns p g.tile).any (fun f => fns.contains f) && (tileAt c g.tile).idle then startTile p true g.tile c else c) c
/-- Restored tenants' functions resume, their transient regions poisoned as at RESUME (R358). -/
def resumeTenants (ts : List Nat) (c : Chip) : Chip :=
  match c.plan.loaded with
  | none => c
  | some p =>
    let fns := ((planFns p).filter (fun e => e.fn != 0 && ts.contains e.tenant)).map (·.fn)
    let c := { c with plan := { c.plan with shed := c.plan.shed.filter (fun t => !ts.contains t) } }
    let c := foldRegions (regionsWhere c (fun r => isTransient r && fns.contains r.fn)) poisonRegion c
    showShed (if ts.isEmpty || c.tk.mode ≠ .running then c else startFnTiles p fns c)
/-- A restored tenant resumes at its aligned boundary (R358). -/
def restoreDue (c : Chip) : Chip :=
  if c.tk.tick % startAlign c ≠ 0 then c
  else resumeTenants c.power.restoring { c with power := { c.power with restoring := [] } }

/-- R358: one item restored after 50 boundaries at which the set with it fitted with 10 W to spare, 100 tk after its shedding. -/
def restoreOne (budget : Rat) (c : Chip) : Chip :=
  let c := setUnattainable false c
  match c.power.shed.getLast? with
  | none => { c with power := { c.power with fit := 0 } }
  | some e =>
    let rest := c.power.shed.dropLast
    let shed := if e.overlay then shedMask { c with power := { c.power with shed := rest } } else shedMask c
    let tenants := c.plan.shed.length - c.power.restoring.length - (if e.overlay then 0 else 1)
    let t := figuresFor c c.tk.tick c.plan.request shed tenants true
    let fit := if predict c t.sc t.figs t.extra t.sc + 10 ≤ budget then c.power.fit + 1 else 0
    if fit < 50 || c.tk.tick < e.tick + 100 then { c with power := { c.power with fit := fit } }
    else
      let c := { c with power := { c.power with fit := 0, shed := rest } }
      if e.overlay then showShed c else restoreDue { c with power := { c.power with restoring := c.power.restoring ++ [e.what] } }

/-- R356: STOP, UNLOAD or LOAD clears the shed set. -/
def clearShed (c : Chip) : Chip :=
  setUnattainable false (showShed (objSet 0x2503 0x02 0 0xFFFF
    { c with plan := { c.plan with shed := [] }, power := { c.power with shed := [], restoring := [], fit := 0 } }))
/-- R355: LOAD and power-up clear the learner. -/
def clearLearner (c : Chip) : Chip := objSet 0x2504 0x01 0 0 { c with power := { c.power with learner := [] } }

/-- The token of the present boundary in a domain: its step and shed sets replace pass 2 (R300, R301). -/
def tokenNow (c : Chip) : Option Token :=
  match c.link.dom.token with
  | some t => if t.tick = c.tk.tick && decide (2 ≤ objGet c 0x2610 0x02 0) && decide (objGet c 0x2610 0x02 0 ≤ 3) then some t else none
  | none => none

/-- 2500.07: what held the step below SX. -/
def limitReason (c : Chip) (t : TickFigures) (s : Nat) (dom : Bool) : Nat :=
  if t.sx ≤ s then 0
  else
    let nxt := predict c t.sc t.figs t.extra (s + 1)
    (if (objGet c 0x2500 0x01 0 : Rat) < nxt then 1 else 0) + (if pThermal c < nxt then 2 else 0)
      + (if c.power.stale && 252 < nxt then 4 else 0) + (if lockLimit c < t.sx then 8 else 0)
      + (if objGet c 0x2501 0x02 0 < t.sx || objGet c 0x2501 0x03 0 ≠ 0xFF then 16 else 0) + (if dom then 32 else 0)

/-- The floor configuration's power at SC (R352). -/
def floorPower (c : Chip) : Rat :=
  match c.plan.loaded with
  | none => 0
  | some p =>
    let n := ((planTenants p).filter (fun t => decide (0 < objGet c 0x2202 0x01 t))).length
    predict c p.cert.sc (figures c p 1 (c.tk.tick % max 1 p.cert.hp) n) 0 p.cert.sc

/-- Fault classes 0x02, 0x03 and 0x04 (Table 14-5). -/
def powerClasses (c : Chip) : Chip :=
  let w := c.power
  let inS (n : Nat) : Bool := decide (c.tk.mode = .survival) && w.causes.contains n
  if c.tk.mode = .off || c.tk.mode = .softStart then c
  else
    let c := setClass 0x02 (inS 1 || w.okSince.isNone) c
    let c := setClass 0x03 (w.stale || inS 2 || inS 3) c
    setClass 0x04 (inS 4 || w.halted || decide (pThermal c < (objGet c 0x2500 0x04 0 : Rat))) c

/-- Show the forecast, the thermal budget and the coolant state (2521). -/
def thermalShow (c : Chip) : Chip :=
  let u := coolantUsed c
  let w := c.power
  let tf := if u.2 ≤ 0 then 32767 else (forecast (dieHot c) u.1 (flowR u.2) w.chosen * 100).floor
  let c := objSet 0x2521 0x03 0 (toTwos 16 (max (-32768) (min 32767 tf))) c
  let c := objSet 0x2521 0x04 0 (if w.stale then 2 else if w.fresh < 3 then 0 else 1) c
  powerClasses (objSet 0x2521 0x05 0 (min 65535 (natOf (pThermal c))) c)

/-- Droop at a boundary: the events of the tick that ends, the lock and the worst stretch (R361). -/
def droopTick (c : Chip) : Chip :=
  let w := c.power
  let left := objGet c 0x2505 0x03 0
  let lock := decide (8 < w.tickDroops)
  let busy := (4000 + workLen c) * 1000 / stepMhz c.tk.step
  let ppm := if busy = 0 then 0 else w.stretch * 1000000 / busy
  let c := objSet 0x2505 0x02 0 (min 255 w.tickDroops) (objSet 0x2505 0x03 0 (if lock then 100 else left - 1) c)
  let c := objSet 0x2505 0x04 0 (max ppm (objGet c 0x2505 0x04 0)) c
  { c with power := { c.power with tickDroops := 0, stretch := 0, lockStep := if lock then c.tk.step else w.lockStep } }

/-- The tick that ends: ticks over cap (2500.08) and the sums of the next one. -/
def capTick (c : Chip) : Chip :=
  let m := c.power.tickMeas
  let above := decide (0 < m.1) && decide ((objGet c 0x2500 0x01 0 : Rat) < m.2 / m.1)
  let c := if above then objBump 0x2500 0x08 0 1 c else c
  { c with power := { c.power with tickMeas := (0, 0), busy := {}, tickClamped := false } }

/-- Pass 2 of R354 at ac 0 of boundary k (the tick counter already holds k), with shedding and restoring; in a domain the
token's step and shed sets stand (R301). While the complex is down the step holds (R458). -/
def passTwo (c : Chip) : Chip :=
  let work := planWorks c c.tk.tick && !workPaused c
  let budget := budgetOf c
  let c := objSet 0x2500 0x03 0 (min 65535 (natOf budget)) c
  let formed := decide (2 ≤ objGet c 0x2610 0x02 0) && decide (objGet c 0x2610 0x02 0 ≤ 3)
  let c := objSet 0x2500 0x05 0 ((if formed then 2 else 1) * objGet c 0x2000 0x03 0 + 200) c
  if c.tk.mode = .survival || c.fw.down then c
  else match tokenNow c with
    | some tok =>
      let items : List ShedItem := ((List.range 16).filter (fun n => n != 0 && bitOf tok.shedOvl n)).map (fun n => { overlay := true, what := n, tick := c.tk.tick })
        ++ tok.shedTenants.map (fun t => { overlay := false, what := t, tick := c.tk.tick })
      let t := figuresFor c c.tk.tick c.plan.request tok.shedOvl tok.shedTenants.length work
      let s := max t.sc (min t.sx (min 5 tok.step))
      let back := c.plan.shed.filter (fun x => !tok.shedTenants.contains x)
      let c := resumeTenants back { c with power := { c.power with shed := items } }
      let c := stopIdle (showShed { c with plan := { c.plan with shed := tok.shedTenants } })
      objSet 0x2500 0x06 0 s (objSet 0x2500 0x07 0 (limitReason c t s (decide (s < c.power.sUp)))
        { c with tk := { c.tk with step := s }, power := { c.power with raised := max s (if c.power.sUp < c.power.raised then c.power.raised else s)
                                                                        chosen := predict c t.sc t.figs t.extra s } })
    | none =>
      let c := restoreDue c
      let t := figuresFor c c.tk.tick c.plan.request (shedMask c) c.plan.shed.length work
      let cs := candidates c t (max t.sc c.power.sUp)
      let pick := cs.find? (stepFits c budget t)
      let s := pick.getD (match fixedStep c t with | some _ => cs.headD t.sc | none => t.sc)
      let c := match c.plan.loaded with
        | some p => if !t.work then c else if pick.isNone then shedMore p s budget c else restoreOne budget c
        | none => c
      let rising := decide (c.power.sUp < c.power.raised)
      objSet 0x2500 0x06 0 s (objSet 0x2500 0x07 0 (limitReason c t s false)
        { c with tk := { c.tk with step := s }, power := { c.power with raised := if rising then max s c.power.raised else s
                                                                        chosen := predict c t.sc t.figs t.extra s } })

/-- R355: the entry of a tick that ran in Running, from its busy part. -/
def learn (c : Chip) : Chip :=
  match c.plan.loaded with
  | none => c
  | some p =>
    let w := c.power
    if c.tk.mode ≠ .running || workPaused c || c.tk.edgeAt.isSome || w.tickClamped || w.busy.n = 0 then c
    else
      let pos := c.tk.tick % max 1 p.cert.hp
      let key := learnKey p c.plan.active pos c.plan.shed.length
      let f := figures c p c.plan.active pos c.plan.shed.length
      let m := estMean w.busy
      let s := c.tk.step
      let r : Rat := (stepMhz p.cert.sc : Rat) / stepMhz s
      let oc := (m.comp - Config.leak s w.dieMean) * fv2 p.cert.sc / fv2 s
      let e : LearnEntry := { set := key.1, phases := key.2.1, shed := key.2.2, c := f.1 + (oc - f.1) / 8
                              m := f.2.1 + (m.mem * r - f.2.1) / 8, l := f.2.2 + (m.link * r - f.2.2) / 8, used := c.tk.tick }
      let rest := w.learner.filter (fun x => !keyMatches key x)
      let old := rest.foldl (fun (b : Option LearnEntry) x => match b with
        | none => some x
        | some y => if x.used < y.used then some x else some y) none
      let rest := if 4096 ≤ rest.length then (match old with | some o => rest.erase o | none => rest) else rest
      objSet 0x2504 0x01 0 (rest.length + 1) { c with power := { w with learner := rest ++ [e] } }

/-! Droop (R361). -/

def droopStart (c : Chip) : Chip :=
  if c.power.droop.isSome || c.power.halted then c
  else objBump 0x2505 0x01 0 1 { c with power := { c.power with droop := some c.tk.now, tickDroops := c.power.tickDroops + 1 } }
def droopEnd (c : Chip) : Chip :=
  match c.power.droop with
  | none => c
  | some t => { c with power := { c.power with droop := none, stretch := c.power.stretch + (c.tk.now - t) } }

/-! Survival (R365-R369). -/

/-- States in which the protective thresholds act by entering Survival (R365). -/
def protects (c : Chip) : Bool :=
  !guarded c && match c.tk.mode with
  | .idle | .loaded | .running | .paused | .survival => true
  | _ => false

/-- A tile that ran is cut; its sends still due carry I = 1. -/
def cutTile (t : Tile) : Tile := { t with lineLost := t.lineLost || t.running, running := false }
/-- Step 1 of R366: tiles and edge jobs stop. -/
def cutTick (c : Chip) : Chip :=
  let g : Grid := { c.grid with tiles := cellsMap {} cutTile c.grid.tiles }
  let v : VideoSt := { c.video with campion := c.video.campion.map (fun e => (e.1, { e.2 with job := none })) }
  let v : VideoSt := { v with teasel := v.teasel.map (fun e => (e.1, { e.2 with job := none })) }
  { c with grid := g, video := v, serv := { c.serv with ran := false } }

/-- R156, R160: what Survival withdraws. -/
def withdrawAll (c : Chip) : Chip :=
  let c := match c.plan.loading, c.plan.cmd with
    | none, none => c
    | ld, _ =>
      let c := match ld with
        | some l => if c.plan.loaded.isSome && l.handle == c.plan.handle then c else useHandle l.handle false c
        | none => c
      postStatus 0x2100 0x02 0 stState { c with plan := { c.plan with loading := none, cmd := none } }
  let gone := c.plan.aborts.filter (fun (w : FnWait) => !w.stop && decide (c.tk.tick ≤ w.tick))
  let c := { c with plan := { c.plan with aborts := c.plan.aborts.filter (fun w => !gone.contains w) } }
  let c := gone.foldl (fun c w => postStatus 0x2412 0x02 w.fn stState c) c
  let rs := c.plan.restarts
  let c := { c with plan := { c.plan with restarts := [] } }
  rs.foldl (fun c w => postStatus 0x2413 0x00 w.fn stState (objSet 0x2412 0x02 w.fn stState c)) c

/-- The log ring and life counters written to flash (R366, R368). -/
def flashLog (c : Chip) : Chip :=
  let fresh := c.log.ring.filter (fun r => decide (c.log.mirrored ≤ r.seq))
  let all := c.log.mirror ++ fresh
  { c with log := { c.log with mirror := all.drop (all.length - 131072), mirrored := c.log.next, mirrorDue := false } }

/-- R366 on entry; a condition that arises in Survival is logged and its class becomes active. Causes: 1 undervoltage, 2 low
flow, 3 outlet jump, 4 overtemperature. -/
def enterSurvival (cause : Nat) (c : Chip) : Chip :=
  if !protects c then c
  else
    let c := if cause = 2 || cause = 3 then objBump 0x2521 0x06 0 1 (objBumpSat 0x2900 0x06 0 1 c) else c
    let c := logRec 3 2 .survival [cause] c
    if c.tk.mode = .survival then powerClasses { c with power := { c.power with causes := c.power.causes ++ [cause] } }
    else
      let was := c.tk.mode
      let c := if was = .running || was = .paused then cutTick c else c
      let c := withdrawAll c
      let c := objSet 0x2500 0x06 0 0 { c with tk := { c.tk with before := was, step := 0 }
                                               power := { c.power with vectors := false, causes := [cause], leaving := false } }
      let c := c.video.streams.foldl (fun c e => resetDecoder e.1 c) c
      let c := objBump 0x2502 0x04 0 1 (objSet 0x2502 0x02 0 cause (objBumpSat 0x2900 0x07 0 1 c))
      let c := alertNow 2 (setMode .survival c)
      let c := writeLifeRecord false (flashLog c)
      powerClasses { c with dict := { c.dict with relatch := true } }

/-- R367. -/
def haltCompute (c : Chip) : Chip :=
  if c.tk.mode ≠ .survival || c.power.halted then c
  else
    let c := objSet 0x2502 0x03 0 1 { c with power := { c.power with halted := true } }
    powerClasses (alertNow 2 (logRec 3 2 .computeHalt [] { c with dict := { c.dict with relatch := true } }))

/-- 2502.01 (R369). -/
def cmdSurvival : Cmd := fun _ _ _ b c =>
  let w := c.power
  let ok := numAt b 0 1 = 1 && c.tk.mode = .survival && !w.leaving
    && (match w.okSince with | some t => decide (t + 100000000 ≤ c.tk.now) | none => false)
    && decide (w.flows.length = 3) && w.flows.all (fun f => decide (900 ≤ f)) && decide (w.die ≤ 8500)
  if numAt b 0 1 ≠ 1 then (c, resRange)
  else if ok then
    (objSet 0x2502 0x01 0 stOk { c with power := { w with leaving := true, halted := false, vectors := true } }, resOk)
  else (objSet 0x2502 0x01 0 stState c, resState)

/-- R369: at the next boundary the module is as before Survival, Running becoming Paused. -/
def survivalEnd (c : Chip) : Chip :=
  if c.tk.mode = .survival && c.power.leaving then
    let c := setMode (if c.tk.before = .running then .paused else c.tk.before) { c with power := { c.power with leaving := false, causes := [] } }
    let c := idleAll (objSet 0x2502 0x02 0 0 (objSet 0x2502 0x03 0 0 c))
    powerClasses c
  else c

/-- What a stop of the module leaves: no tick timer, no links, nothing pending. -/
def stopWork (c : Chip) : Chip :=
  let c := linksOff (cutTick (withdrawAll c))
  { c with tk := { c.tk with timer := false, deferred := [] }
           power := { c.power with halted := false, causes := [], leaving := false, waking := false } }

/-- R368: the orderly stop. -/
def orderlyStop (cause : StopCause) (c : Chip) : Chip :=
  match c.tk.mode with
  | .off | .stopped | .softStart => c
  | _ =>
    let c := logRec 3 2 .orderlyStop [] c
    let c := writeLifeRecord true (objBumpSat 0x2900 0x08 0 1 c)
    let c := stopWork (flashLog c)
    let c := setMode .stopped { c with power := { c.power with stopCause := cause, rails := .off, pwrGood := false } }
    { c with dict := { c.dict with relatch := true } }

/-- R365: the hardware thermal trip: grid and HBM regulators off, Stopped. -/
def thermalTrip (c : Chip) : Chip :=
  match c.tk.mode with
  | .off | .stopped | .softStart => c
  | _ =>
    let c := stopWork (logRec 3 srcPower .thermalTrip [] c)
    let c := setMode .stopped { c with power := { c.power with stopCause := .trip, gridOn := false } }
    { c with dict := { c.dict with relatch := true } }

/-! Coolant readings (R362-R365). -/

/-- 2520.01: a reading, acted on at once. -/
def cmdCoolant : Cmd := fun _ _ _ b c =>
  let v := numAt b 0 8
  let c := objSet 0x2520 0x01 0 v c
  let w := c.power
  let now := c.tk.now
  if fld v 63 48 = w.seq then (c, resOk)
  else
    let outlet := sx 16 (fld v 31 16)
    let flow := fld v 47 32
    let recent := w.outlets.filter (fun e => decide (now ≤ e.1 + 50000000))
    let run := match w.lastFresh with | some t => if now < t + 100000000 then w.inRow + 1 else 1 | none => 1
    let fresh := w.fresh + 1
    let c := objBump 0x2520 0x02 0 1 { c with power := { w with
      seq := fld v 63 48, lastFresh := some now, fresh := fresh, inRow := run, inlet := sx 16 (fld v 15 0), flow := flow
      outlets := recent ++ [(now, outlet)], flows := (w.flows ++ [flow]).drop (w.flows.length + 1 - 3) } }
    let c := if fresh < w.needed then c
      else
        let c := if w.stale && decide (3 ≤ run) then { c with power := { c.power with stale := false } } else c
        if flow < 300 then enterSurvival 2 c
        else if recent.any (fun e => decide (e.2 + 500 ≤ outlet)) then enterSurvival 3 c else c
    (thermalShow c, resOk)

/-- COOLANT_STALE (R364). -/
def coolantStale (c : Chip) : Chip :=
  let w := c.power
  match w.lastFresh with
  | none => c
  | some t =>
    if w.stale || w.fresh < w.needed || !protects c || c.tk.now < t + 100000000 then c
    else
      let c := { c with power := { w with stale := true, inRow := 0 } }
      let c := objBump 0x2521 0x06 0 1 (objBumpSat 0x2900 0x06 0 1 c)
      thermalShow (alertLater 8 (logRec 2 2 .readingsStale [] c))

/-! Die sensors (R365, R434). -/

/-- R434: a thermal cycle on the mean die temperature. -/
def thermalCycle (t : Int) (c : Chip) : Chip :=
  let l := c.life
  match l.peak, l.valley with
  | none, _ => { c with life := { l with peak := some t } }
  | some p, none =>
    if p ≤ t then { c with life := { l with peak := some t } }
    else if t + 2000 ≤ p then { c with life := { l with valley := some t } } else c
  | some p, some v =>
    if t < v then { c with life := { l with valley := some t } }
    else if v + 2000 ≤ t then
      let c := objBumpSat 0x2900 0x03 0 1 { c with life := { l with peak := some t, valley := none } }
      if 4000 ≤ p - v then objBumpSat 0x2900 0x04 0 1 c else c
    else c

/-- DIE_SENSOR_SAMPLE: the readings of the die sensors in 0.01 °C; the HBM sensors are those last read (R262). -/
def dieSample (dies : List Int) (c : Chip) : Chip :=
  match dies with
  | [] => c
  | d :: ds =>
    let hot := ds.foldl max d
    let mean := dies.sum / dies.length
    let c := { c with power := { c.power with die := hot, dieMean := mean, hbm := hbmHot c } }
    let c := objSet 0x2521 0x01 0 (toTwos 16 hot) (objSet 0x2521 0x02 0 (toTwos 16 mean) c)
    let c := if sx 16 (objGet c 0x2900 0x05 0) < hot then objSet 0x2900 0x05 0 (toTwos 16 hot) c else c
    let c := thermalCycle mean c
    let above := decide (10500 < hot) || decide (100 < hbmHot c)
    let c := if guarded c then (if 10500 < hot then { c with power := { c.power with halted := true } } else c)
      else if !above then c
      else if c.tk.mode = .booting then { c with power := { c.power with bootHeld := true, gridOn := false } }
      else haltCompute (if c.tk.mode = .survival && c.power.causes.contains 4 then c else enterSurvival 4 c)
    thermalShow c

/-- UNDERVOLTAGE_QUALIFIED (R365, R451). -/
def undervoltage (c : Chip) : Chip :=
  let c := { c with power := { c.power with okSince := none } }
  if c.tk.mode = .booting then { c with power := { c.power with bootHeld := true, gridOn := false } }
  else if c.tk.mode = .survival && c.power.causes.contains 1 then c
  else enterSurvival 1 c

/-! Keep-warm (R370). -/

def keepWarm (c : Chip) : Chip :=
  let ok := objGet c 0x2540 0x03 0 == 1 && c.tk.mode ≠ .survival && protects c
  let w := objGet c 0x2540 0x02 0
  let floor : Int := (objGet c 0x2540 0x01 0 : Int) * 100
  let w' := if c.power.dieMean < floor then w + 5 else if floor + 200 < c.power.dieMean then w - 5 else w
  let room := natOf (max 0 (budgetOf c - (c.power.means.p - (w : Rat))))
  objSet 0x2540 0x02 0 (if ok then min w' (room / 5 * 5) else 0) c

/-! Wake states (R371, R372, Table 11-4). -/

def wakeCode : WakeState → Nat
  | .run => 0 | .hold => 1 | .doze => 2 | .rest => 3 | .sleep => 4
def setWake (w : WakeState) (c : Chip) : Chip := objSet 0x2530 0x02 0 (wakeCode w) { c with tk := { c.tk with wake := w } }
/-- Any stream enabled (2301.01). -/
def streamOn (c : Chip) : Bool := (List.range 256).any (fun s => objGet c 0x2301 0x01 s == 1)
/-- The deepest state that latency, module state and streams allow. -/
def wakeTarget (c : Chip) : WakeState :=
  let tol := objGet c 0x2530 0x01 0
  let rest := c.tk.mode = .idle || c.tk.mode = .loaded
  let still := rest || (c.tk.mode = .paused && !streamOn c)
  let any := rest || c.tk.mode = .paused
  if rest && decide (4000000 ≤ tol) then .sleep
  else if still && decide (40000 ≤ tol) then .rest
  else if still && decide (objGet c 0x2000 0x03 0 ≤ tol) then .doze
  else if any && decide (20 ≤ tol) then .hold else .run
/-- WAKE_STATE_ENTRY: not while a wake or a command is under way. -/
def wakeEntry (c : Chip) : Chip :=
  let busy := c.power.waking || !c.tk.deferred.isEmpty || c.plan.cmd.isSome || c.plan.loading.isSome || !c.life.lease.holders.isEmpty
  let w := wakeTarget c
  if c.tk.mode = .running || busy || wakeCode w ≤ wakeCode c.tk.wake then c
  else
    let c := setWake w c
    if w = .sleep then
      linksOff { c with grid := { c.grid with tiles := cellsMap {} (fun (t : Tile) => { t with sram := [], upsets := [], istore := [], lineUpsets := [] }) c.grid.tiles } }
    else c
/-- A wake ends: from Sleep every tile's SRAM and instruction store come back from the resident copies. -/
def wakeDone (c : Chip) : Chip :=
  let c := match c.tk.wake, c.plan.loaded with
    | .sleep, some p => (planPrograms p).foldl (fun c (g : TileProgram) => reloadTile p g.tile c) c
    | _, _ => c
  setWake .run { c with power := { c.power with waking := false } }

end Sys2Proof.Machine
end

