-- ==== Sys2Proof/Machine/Firmware.lean ====
section
/-! DEFINITION. Components and their restarts, complex resets, firmware slots, activation, confirmation and revert, Harebell
(spec/13_firmware_update.md R405-R432, spec/15_startup_reset.md R456-R458). -/

namespace Sys2Proof.Machine

def fwComp (c : Chip) (n : Nat) : FwComp := c.fw.comps.toList.getD n {}
def setComp (n : Nat) (v : FwComp) (c : Chip) : Chip := { c with fw := { c.fw with comps := c.fw.comps.setIfInBounds n v } }
def modComp (n : Nat) (f : FwComp → FwComp) (c : Chip) : Chip := setComp n (f (fwComp c n)) c
def fwActive (c : Chip) (n : Nat) : FwSlot := fwSlot (fwComp c n) (fwComp c n).active
def otherSlot (k : FwComp) : Nat := 1 - k.active
/-- States in which a slot's image can run (R453). -/
def slotUsable (s : FwSlot) : Bool := (s.st = .valid || s.st = .unconfirmed || s.st = .confirmed) && s.image.isSome
def imgVersion (s : FwSlot) : Nat := match s.image with | some i => i.version | none => 0
def anyUnconfirmed (c : Chip) : Bool := (List.range 5).any (fun n => (fwActive c n).st = .unconfirmed)

/-! Firmware images (R417-R419). -/

/-- The largest payload of a component (Table 13-6). -/
def payloadMax (n : Nat) : Nat := if n = 1 then 1048576 else if n = 2 then 3145728 else 524288
def compatEntry (b : List Byte) (i : Nat) : Nat := numAt b (0x30 + 16 * i) 16

/-- Step 1 of R419 on the 256 header bytes. -/
def fwHeader (b : List Byte) : Option FwImage :=
  let comp := numAt b 0xA 1
  let count := numAt b 0x22 2
  let pay := numAt b 0x24 4
  let size := numAt b 0x28 8
  let es := (List.range count).map (compatEntry b)
  if numAt b 0 8 ≠ 0x474D495746 || numAt b 8 2 ≠ 1 || 4 < comp || numAt b 0xB 1 ≠ 0 || 8 < count || payloadMax comp < pay
      || size ≠ 256 + 64 * cdiv pay 64 + 2460 || slotBytes comp < size || numAt b 0xB0 80 ≠ 0
      || es.any (fun e => fld e 31 8 != 0 || fld e 127 96 != 0) then none
  else
    some { component := comp, version := numAt b 0xC 4, sec := numAt b 0x10 4, hwMin := numAt b 0x14 4, hwMax := numAt b 0x18 4
           hovOut := numAt b 0x1C 2, hovInMin := numAt b 0x1E 2, hovInMax := numAt b 0x20 2
           compat := es.map (fun e => (fld e 7 0, fld e 63 32, fld e 95 64)), digest := 0 }
/-- Step 2: hardware revision and security floor. -/
def fwAllowed (c : Chip) (i : FwImage) : Bool :=
  let hw := numAt c.sec.birth 0x28 4
  decide (i.hwMin ≤ hw) && decide (hw ≤ i.hwMax) && decide ((fwComp c i.component).floor ≤ i.sec)
/-- Step 3: digest and signature under FW_KEY. -/
def fwSigned (c : Chip) (b : List Byte) : Bool :=
  let n := b.length - 2460
  let d := bytesAt b n 32
  birthOk c.sec.birth && decide (sha3Bytes (b.take n) = d) && Config.dsaOk (bytesAt c.sec.birth 0xAC0 1312) d (bytesAt b (n + 40) 2420)
/-- The checks of R419 in their order. -/
def fwCheck (c : Chip) (comp : Nat) (b : List Byte) : Except Nat FwImage :=
  match fwHeader b with
  | none => .error stRange
  | some i =>
    if i.component ≠ comp || b.length ≠ numAt b 0x28 8 || numAt b (b.length - 2428) 8 ≠ 0 then .error stRange
    else if !fwAllowed c i then .error stVersion
    else if !fwSigned c b then .error stIntegrity
    else .ok { i with digest := BitVec.ofNat 256 (numAt b (b.length - 2460) 32) }

/-- R418: whether the entries for a component accept a version. -/
def admits (es : List (Nat × Nat × Nat)) (y v : Nat) : Bool := es.all (fun e => e.1 != y || (decide (e.2.1 ≤ v) && decide (v ≤ e.2.2)))
/-- The minimum the loaded plan sets (Table 5-3). -/
def planMin (p : Option Plan) (n : Nat) : Nat :=
  match p with
  | none => 0
  | some p => if n = 1 then p.ucodeMin else if n = 2 then p.yarrowMin else if n = 3 then p.linkMin else 0
/-- R418 for an image of component x among the active versions. -/
def compatOk (c : Chip) (x : Nat) (i : FwImage) : Bool :=
  decide (planMin c.plan.loaded x ≤ i.version)
    && (List.range 5).all (fun y => admits i.compat y (if y = x then i.version else imgVersion (fwActive c y))
      && (y == x || (match (fwActive c y).image with | some j => admits j.compat x i.version | none => true)))
/-- The first active image whose record fails (Table 15-2). -/
def compatFails (c : Chip) : Option Nat :=
  (List.range 5).find? (fun x => match (fwActive c x).image with
    | none => false
    | some i => !(List.range 5).all (fun y => admits i.compat y (imgVersion (fwActive c y))))

/-! What the dictionary shows (Table 13-10). -/

def updOf (c : Chip) (n : Nat) : Option Update := c.fw.updates.find? (fun u => u.component == n)
def setUpd (u : Update) (c : Chip) : Chip :=
  { c with fw := { c.fw with updates := c.fw.updates.filter (fun x => x.component != u.component) ++ [u] } }
def dropUpd (n : Nat) (c : Chip) : Chip := { c with fw := { c.fw with updates := c.fw.updates.filter (fun x => x.component != n) } }

/-- COMPAT of an image as 2801.0E reads it. -/
def compatBytes (i : FwImage) : List Byte := i.compat.flatMap (fun e => bytesLE 4 e.1 ++ bytesLE 4 e.2.1 ++ bytesLE 4 e.2.2 ++ bytesLE 4 0)
def showComp (c : Chip) (n : Nat) : Chip :=
  let k := fwComp c n
  let left := match updOf c n with | some u => if u.phase = .confirming then cdiv (30000000000 - u.counted) 1000000000 else 0 | none => 0
  let c := objSet 0x2801 0x01 n k.active (objSet 0x2801 0x02 n (imgVersion (fwActive c n)) c)
  let c := objSet 0x2801 0x03 n (imgVersion k.slot0) (objSet 0x2801 0x04 n (imgVersion k.slot1) c)
  let c := objSet 0x2801 0x05 n (slotCode k.slot0.st) (objSet 0x2801 0x06 n (slotCode k.slot1.st) c)
  let c := objSet 0x2801 0x07 n k.floor (objSet 0x2801 0x0B n left c)
  blobSet 0x2801 0x0E n (match (fwActive c n).image with | some i => compatBytes i | none => []) c
/-- 2801 and 2802. -/
def fwShow (c : Chip) : Chip :=
  let c := (List.range 5).foldl showComp c
  let u := (c.fw.updates.find? (·.owed)).orElse (fun _ => c.fw.updates.head?)
  objSet 0x2802 0x01 0 (match u with | some u => u.component | none => 0xFF)
    (objSet 0x2802 0x02 0 (match u with | some u => updCode u.phase | none => 0) c)

/-- R323, Table 10-4: the first unsettled condition that holds. -/
def unsettledCode (c : Chip) : Nat :=
  let has (p : UpdPhase) : Bool := c.fw.updates.any (fun u => u.phase == p)
  if c.tk.mode = .booting || c.sec.rebuilding then 1
  else if has .pause then 2
  else if has .reverting then 4
  else if has .confirming then 3
  else if c.grid.pauseFrom.isSome then 5
  else if c.plan.loading.isSome || (match c.plan.cmd with | some m => m.code == 6 | none => false) then 6
  else if c.sec.restarting then 7 else 0
def showUnsettled (c : Chip) : Chip := objSet 0x2700 0x08 0 (unsettledCode c) c

/-! Identity and measurement (R314-R319, R458). -/

/-- R314, R317: the identity as derived from a readout of the PUF array with so many flipped cells. -/
def deriveIdentity (flips : Nat) (c : Chip) : Chip :=
  let seed := pufSeed c.sec.birth c.sec.helpers flips
  let c := objSet 0x2700 0x01 0 (identityOf c.sec.birth c.sec.helpers seed) { c with sec := { c.sec with seed := seed } }
  let c := blobSet 0x2700 0x04 0 (match seed with | some s => idPublic s | none => []) c
  replaceShow (blobSet 0x2700 0x05 0 (match seed with | some s => kemKey s | none => []) c)
/-- The registers and their log at zero; the epoch at a new boot (R319). -/
def zeroMeas (c : Chip) : Chip :=
  let c := (List.range 16).foldl (fun c n => setMeas n 0 c) { c with sec := { c.sec with mlog := [], truncated := false } }
  let c := objBump 0x2700 0x06 0 1 c
  objSet 0x2700 0x07 0 (objGet c 0x2700 0x06 0 * 2 ^ 32) c
/-- The digest of a component's active image. -/
def activeDigest (c : Chip) (n : Nat) : BitVec 256 := match (fwActive c n).image with | some i => i.digest | none => 0
/-- M0: the ROM, then the management image. -/
def measureRom (c : Chip) : Chip := extend 0 0x01 (activeDigest c 0) (extend 0 0x01 Config.romDigest c)
/-- M1: birth record and helper data; M7: the plan-signing slots. -/
def measureBirth (c : Chip) : Chip := extend 1 0x01 (Config.sha3 (helperUsed c.sec.birth c.sec.helpers)) (extend 1 0x01 (Config.sha3 c.sec.birth) c)
def measureKeys (c : Chip) : Chip := (List.range 8).foldl (fun c n => extend 7 0x07 (Config.sha3 (blobGet c 0x2720 (n + 1) 0)) c) c
/-- M(2 + n): a component's active image. -/
def measureComp (c : Chip) (n : Nat) : Chip := extend (2 + n) 0x02 (activeDigest c n) c

/-- R326: every key and pending installation erased. -/
def eraseKeys (c : Chip) : Chip :=
  let ids := c.sec.keys.map (·.1)
  let c := ids.foldl (fun c k => setKey (k / 2 / 65536) (k / 2 % 65536) (k % 2) none c) c
  { c with sec := { c.sec with installs := [], sweeps := [] } }

/-! Restarts and complex resets (R408-R410, R456, R458). -/

/-- R406, R408: the core of each component on the cores that work. -/
def homeCore : Nat → Nat
  | 2 => 1 | 3 => 2 | 4 => 2 | 5 => 3 | 6 => 3 | _ => 0
def coresOf (mask : Nat) : List Nat := (List.range 4).filter (bitOf mask)
def coreMap (mask : Nat) : List (Nat × Nat) :=
  let order := [2, 4, 3, 1, 5, 6, 7]
  let stay := (order.filter (fun i => bitOf mask (homeCore i))).map (fun i => (i, homeCore i))
  (order.filter (fun i => !bitOf mask (homeCore i))).foldl (fun (m : List (Nat × Nat)) i =>
    let load (k : Nat) : Nat := (m.filter (fun e => e.2 == k)).length
    let best := (coresOf mask).foldl (fun (b : Option Nat) k => match b with
      | none => some k
      | some x => if load k < load x then some k else b) none
    m ++ [(i, best.getD 0)]) stay
/-- R406: the PMP regions set on a core: the kernel's, and four of each resident component. -/
def pmpUsed (mask core : Nat) : Nat :=
  if bitOf mask core then pmpKernel + pmpComponent * ((coreMap mask).filter (fun e => e.2 == core)).length else 0
def showCores (mask : Nat) (c : Chip) : Chip :=
  (coreMap mask).foldl (fun c e => objSet 0x2811 0x05 e.1 e.2 c) (setClass 0x0E (mask != 0x0F) (objSet 0x2812 0x01 0 mask c))
/-- Cores that failed their self-test are retired. -/
def retireCores (good : Nat) (c : Chip) : Chip :=
  let was := objGet c 0x2812 0x01 0
  let mask := was &&& (good % 16)
  let c := if mask = was then c else logRec 2 0 .coreRetired [was - mask] c
  showCores mask c

/-- R390: access contexts, snapshot groups and a request taken are lost with the dictionary server. -/
def dictLost (c : Chip) : Chip :=
  { c with dict := { c.dict with ctxs := [], groups := Vector.replicate 8 {} }
           win := { c.win with taken := none, busy := false } }
/-- R427: a PROGRAM in progress ends when the update component stops, and its slot is erased. -/
def programLost (c : Chip) : Chip :=
  match c.fw.updates.find? (fun u => u.phase == .programming) with
  | none => c
  | some u =>
    let c := modComp u.component (fun k => setFwSlot k u.slot {}) (postStatus 0x2801 0x0A u.component stTimeout c)
    let c := (cellsFind c.fw.handles u.component).elim c (fun h => useHandle h false c)
    fwShow (dropUpd u.component { c with fw := { c.fw with handles := cellsDrop c.fw.handles u.component } })

/-- R458: the management complex resets while the data plane runs on. Causes as 2812.03. -/
def complexReset (cause : Nat) (c : Chip) : Chip :=
  let c := dictLost (programLost (eraseKeys c))
  let pr := c.link.pair
  let c := objBump 0x2621 0x03 0 pr.arriving.length { c with link := { c.link with pair := { pr with sending := [], arriving := [] } } }
  let c := zeroMeas { c with sec := { c.sec with seed := none, rebuilding := true, restarting := false } }
  let c := objBump 0x2812 0x02 0 1 (objSet 0x2812 0x03 0 cause c)
  let c := (List.range 8).foldl (fun c i => objSet 0x2811 0x01 i 0 (objSet 0x2811 0x02 i 0 (objSet 0x2811 0x06 i 0 c))) c
  let c := { c with fw := { c.fw with down := true, downAt := c.tk.now, dark := false, restarts := [], restarting := [] }
                    log := { c.log with ring := [], next := 0, mirrored := 0, mirrorDue := false }
                    power := { c.power with needed := 1, fresh := 0, stale := false, inRow := 0, outlets := [], flows := [] }
                    life := { c.life with calendar := none, tray := none } }
  showUnsettled (objSet 0x2901 0x04 0 allOnes64 (objSet 0x2A00 0x02 0 0 c))

/-- The first-use state of a component whose retained block does not check (R409). -/
def firstUse (id : Nat) (c : Chip) : Chip :=
  match id with
  | 2 => clearShed (clearLearner { c with power := { c.power with gain := 1, clampRun := 0, fresh := 0, stale := false, inRow := 0, lockStep := 6 } })
  | 4 => (List.range 8).foldl (fun c p => objSet 0x2601 0x0F p 0 c) c
  | 3 => { c with hbm := { c.hbm with patrol := [], scrubNext := [], suspects := [], hits := [], lastHits := [], revoked := [] } }
  | 5 => eraseKeys { c with sec := { c.sec with quotes := Vector.replicate 8 {}, posted := [] } }
  | 7 => objSet 0x2A00 0x02 0 0 { c with log := { c.log with ring := [], next := 0, mirrored := 0 } }
  | _ => c

/-- What a component's data region held and no retained block keeps. -/
def dataLost (id : Nat) (c : Chip) : Chip :=
  match id with
  | 1 => dictLost c
  | 5 => { c with sec := { c.sec with restarting := true } }
  | 6 => programLost c
  | _ => c

/-- R409, R410: a component restarts alone; a third restart within 60 s resets the complex. Causes as 2811.04; msgs counts
the messages addressed to it meanwhile. -/
def componentRestart (id cause msgs : Nat) (retained : Bool) (c : Chip) : Chip :=
  if id < 1 || 7 < id || c.fw.down then c
  else
    let ts := (cellsGet [] c.fw.restarts id).filter (fun t => decide (c.tk.now ≤ t + 60000000000)) ++ [c.tk.now]
    let c := objBump 0x2811 0x02 id 1 (objSet 0x2811 0x03 id c.tk.tick (objSet 0x2811 0x04 id cause (objSet 0x2811 0x01 id 1 c)))
    let c := objBump 0x2811 0x06 id (msgs - 64) c
    let c := { c with fw := { c.fw with restarts := cellsSet [] c.fw.restarts id ts, restarting := c.fw.restarting ++ [id] } }
    let c := dataLost id (if retained then c else firstUse id c)
    let c := breakUpd 0 (logRec 2 0 .componentRestart [id, cause] { c with log := { c.log with held := 0 } })
    if 3 ≤ ts.length then complexReset 3 c else c

/-- RESTART_COMPONENT_CMD: 2812.04. -/
def cmdRestart : Cmd := fun _ _ _ b c =>
  let id := numAt b 0 1
  if id < 1 || 7 < id then (c, resRange) else (componentRestart id 4 0 true c, resOk)

/-- A boundary of the complex: restarts and the dark time end; after a reset the components run again at the last boundary
within 250 ms (R458). -/
def complexBoundary (c : Chip) : Chip :=
  let c := c.fw.restarting.foldl (fun c id => objSet 0x2811 0x01 id 0 c) c
  let c := { c with fw := { c.fw with restarting := [], dark := false }, sec := { c.sec with restarting := false } }
  if c.fw.down && decide (c.fw.downAt + 250000000 < c.tk.now + tickNs c) then
    { c with fw := { c.fw with down := false }
             power := { c.power with halted := c.power.halted && decide (c.tk.mode = .survival) } }
  else c

/-- REGISTER_REBUILD (R458): the registers from what is active, and the identity from the fresh readout. -/
def registerRebuild (flips : Nat) (c : Chip) : Chip :=
  if !c.sec.rebuilding || c.fw.down then c
  else
    let c := deriveIdentity flips c
    let c := measureKeys (measureBirth (measureRom c))
    let c := (List.range 5).foldl measureComp c
    let c := match c.plan.loaded with
      | some p => extend 8 0x04 (BitVec.ofNat 256 (numAt p.digest 0 32)) c
      | none => c
    let c := c.serv.adapters.foldl (fun c e => match e.2.cur with
      | some b => extend 9 0x06 (cellsGet 0 e.2.marks b) c
      | none => c) c
    showUnsettled { c with sec := { c.sec with rebuilding := false } }

/-- LOG_MIRROR (R412): no sooner than 1 s after the one before. -/
def logMirror (c : Chip) : Chip :=
  let ready := match c.log.mirrorAt with | some t => decide (t + 1000000000 ≤ c.tk.now) | none => true
  if !c.log.mirrorDue || !ready || c.fw.down then c
  else
    let c := flashLog { c with log := { c.log with mirrorAt := some c.tk.now } }
    objSet 0x2A01 0x02 0 c.log.mirror.length c

/-! Harebell (R428-R431). -/

/-- H_NEED (Table 13-9). -/
def hbNeed (c : Chip) : Nat :=
  (List.range 5).foldl (fun m n =>
    if (slotUsable (fwComp c n).slot0 || slotUsable (fwComp c n).slot1) && c.fw.hb.incompat != some n then m else m + 2 ^ n) 0

/-- R428: entry to Harebell with its cause. -/
def enterHarebell (cause : Nat) (c : Chip) : Chip :=
  let c := stopWork (dictLost (eraseKeys c))
  let hb : HbSt := { cause := cause }
  let grid : Grid := { c.grid with tiles := [] }
  setMode .harebell { c with sec := { c.sec with seed := none, rebuilding := false }, grid := grid
                             hbm := { c.hbm with lines := [], returns := [] }
                             fw := { c.fw with hb := hb, down := false, updates := [], restarting := [] }
                             power := { c.power with gridOn := false } }

/-- A command of Harebell ends: BUSY falls, so INT2 is pending. -/
def hbDone (st : Nat) (c : Chip) : Chip :=
  { c with fw := { c.fw with hb := { c.fw.hb with error := st != 0, err := st, int2 := true } } }
def modHb (f : HbSt → HbSt) (c : Chip) : Chip := { c with fw := { c.fw with hb := f c.fw.hb } }

/-- BEGIN: the header checked by R419 steps 1 and 2, a slot erased. -/
def hbBegin (c : Chip) : Chip :=
  let h := (List.range 256).map (fun i => BitVec.ofNat 8 (cellsGet 0 c.fw.hb.header i))
  if c.tk.mode ≠ .harebell then c
  else if !birthOk c.sec.birth then hbDone stIntegrity c
  else match fwHeader h with
    | none => hbDone stRange c
    | some i =>
      if !fwAllowed c i then hbDone stVersion c
      else
        let k := fwComp c i.component
        let o := otherSlot k
        let n := if slotUsable (fwSlot k o) && !slotUsable (fwSlot k k.active) then k.active else o
        let c := setComp i.component (setFwSlot k n { st := .writing }) c
        hbDone stOk (modHb (fun h => { h with load := some (i.component, n, []), offset := 0, imageDone := false }) c)

/-- CHUNK at the offset the host gives it. -/
def hbChunk (off : Nat) (c : Chip) : Chip :=
  let h := c.fw.hb
  if c.tk.mode ≠ .harebell then c
  else match h.load with
    | none => hbDone stState c
    | some (comp, n, bytes) =>
      let size := (List.range 8).foldl (fun s i => s + cellsGet 0 h.header (0x28 + i) * 256 ^ i) 0
      if h.len < 1 || 65536 < h.len || off ≠ h.offset || size < off + h.len then hbDone stRange c
      else
        let d := (List.range h.len).map (fun i => BitVec.ofNat 8 (cellsGet 0 h.chunk i))
        hbDone stOk (modHb (fun h => { h with load := some (comp, n, bytes ++ d), offset := off + h.len }) c)

/-- END: read back, digest and signature; the slot becomes active unconfirmed. -/
def hbEnd (c : Chip) : Chip :=
  if c.tk.mode ≠ .harebell then c
  else match c.fw.hb.load with
    | none => hbDone stState c
    | some (comp, n, bytes) =>
      let c := modHb (fun h => { h with load := none }) c
      let k := fwComp c comp
      match fwCheck c comp bytes with
      | .error _ => hbDone stIntegrity (setComp comp (setFwSlot k n {}) c)
      | .ok i =>
        let old := fwSlot k (1 - n)
        let old := if old.st = .unconfirmed || old.st = .confirmed then { old with st := .valid } else old
        let k := setFwSlot (setFwSlot k (1 - n) old) n { st := .unconfirmed, image := some i }
        let c := setComp comp { k with active := n, interrupted := 0 } c
        hbDone stOk (modHb (fun h => { h with imageDone := true, incompat := if h.incompat = some comp then none else h.incompat }) c)

/-- CANCEL: the slot stays empty. -/
def hbCancel (c : Chip) : Chip :=
  if c.tk.mode ≠ .harebell then c
  else match c.fw.hb.load with
    | none => hbDone stOk c
    | some (comp, n, _) =>
      hbDone stOk (modHb (fun h => { h with load := none, offset := 0 }) (modComp comp (fun k => setFwSlot k n {}) c))

/-- REBOOT (R431): accepted, the complex resets and starts from PWR_GOOD (R454). -/
def hbReboot (c : Chip) : Chip :=
  if c.tk.mode ≠ .harebell then c
  else if hbNeed c ≠ 0 then hbDone stNoResource c
  else if (compatFails c).isSome then hbDone stVersion c
  else setMode .softStart (modHb (fun h => { h with rebooted := true }) (hbDone stOk c))

/-! Activation (R420-R427). -/

/-- Whether another update command is PENDING or QUEUED. -/
def updBusy (c : Chip) : Bool := (List.range 5).any (fun n => statusBusy c 0x2801 0x0A n)
/-- The staging handle of a component's image is complete again. -/
def freeHandle (n : Nat) (c : Chip) : Chip :=
  match cellsFind c.fw.handles n with
  | none => c
  | some h => useHandle h false { c with fw := { c.fw with handles := cellsDrop c.fw.handles n } }

/-- PROGRAM (R419). -/
def cmdProgram (r : Role) (n : Nat) (c : Chip) : Chip × Res :=
  let h := ctxVal c r 0x2801 0x09
  let k := fwComp c n
  let o := otherSlot k
  if (fwActive c n).st = .unconfirmed || updBusy c then (c, resState)
  else match cellsFind c.intake.handles h with
    | none => (c, resRange)
    | some hd =>
      if hd.kind ≠ 2 then (c, resRange)
      else if hd.st ≠ .complete then (c, resState)
      else match fwCheck c n (imageOf c h hd) with
        | .error st => (c, resSt st)
        | .ok i =>
          if slotBytes n < hd.size + 65536 * (cellsFind c.life.badBlocks (6 + 2 * n + o)).getD 0 then (c, resSt stNoResource)
          else
            let c := useHandle h true (freeHandle n (readImage hd c))
            let c := setComp n (setFwSlot k o { st := .writing }) { c with fw := { c.fw with handles := cellsPut c.fw.handles n h } }
            (fwShow (setUpd { component := n, phase := .programming, slot := o, image := some i } c), resPending)
/-- ERASE (R419). -/
def cmdErase (n : Nat) (c : Chip) : Chip × Res :=
  if (fwActive c n).st = .unconfirmed || updBusy c then (c, resState)
  else (fwShow (modComp n (fun k => setFwSlot k (otherSlot k) {}) (freeHandle n c)), resOk)
/-- ACTIVATE and REVERT (R420, R425). -/
def cmdSwitch (revert : Bool) (img : Chip) (n : Nat) (c : Chip) : Chip × Res :=
  let k := fwComp c n
  let s := fwSlot k (otherSlot k)
  let m := judgedMode img c
  if m = .survival || m = .stopped || m = .booting || (n = 4 && m ≠ .idle && m ≠ .loaded) || anyUnconfirmed c || updBusy c
      || s.st ≠ .valid then (c, resState)
  else match s.image with
    | none => (c, resState)
    | some i =>
      let hov := match (fwActive c n).image with
        | some a => decide (i.hovInMin ≤ a.hovOut) && decide (a.hovOut ≤ i.hovInMax) && decide (a.hovInMin ≤ i.hovOut) && decide (i.hovOut ≤ a.hovInMax)
        | none => true
      if !compatOk c n i || i.sec < k.floor || (!revert && !hov) then (c, resSt stVersion)
      else
        let l := leaseRequest .fw n true c
        if l.2 = stNoResource then (l.1, resSt stNoResource)
        else
          let u : Update := { component := n, phase := if l.2 = stOk then .granted else .queued, slot := otherSlot k
                              boundary := c.tk.tick + 1, revert := revert, image := some i }
          let c := fwShow (setUpd u l.1)
          (if 1 < wakeCode c.tk.wake then { c with power := { c.power with waking := true } } else c, if l.2 = stOk then resPending else resQueued)
/-- 2801.08. -/
def cmdUpdate : Cmd := fun img r n b c =>
  match numAt b 0 1 with
  | 1 => cmdProgram r n c
  | 2 => cmdSwitch false img n c
  | 3 => cmdSwitch true img n c
  | 4 => cmdErase n c
  | _ => (c, resRange)

/-- PROGRAM_DONE: programming ends, with the outcome of the read-back. -/
def programDone (n : Nat) (ok : Bool) (c : Chip) : Chip :=
  match updOf c n with
  | none => c
  | some u =>
    if u.phase ≠ .programming then c
    else
      let c := dropUpd n (modComp n (fun k => setFwSlot k u.slot (if ok then { st := .valid, image := u.image } else {})) c)
      fwShow (postStatus 0x2801 0x0A n (if ok then stOk else stIntegrity) (if ok then c else freeHandle n c))

/-- What a pause does to the component's unit (Table 13-7). -/
def pauseEffect (n : Nat) (c : Chip) : Chip :=
  match n with
  | 0 =>
    let c := writeLifeRecord false c
    { c with fw := { c.fw with dark := true }, win := { c.win with taken := none, busy := false } }
  | 1 =>
    let c := foldRegions (regionsWhere c isTransient) poisonRegion c
    (List.range 2048).foldl (fun c t => setTile t (poisonUnits { tileAt c t with running := false }) c) c
  | 2 => c.video.streams.foldl (fun c e => dropCoding e.1 (resetDecoder e.1 c)) c
  | _ => c

/-- R423, Table 13-8: the header of a handover record over its body. -/
def handoverHeader (h : Handover) (body : List Byte) : List Byte :=
  bytesLE 4 0x52564F48 ++ bytesLE 1 h.component ++ bytesLE 1 0 ++ bytesLE 2 h.format ++ bytesLE 4 body.length ++ bytesLE 4 h.fromVersion
    ++ bytesLE 4 h.toVersion ++ bytesLE 8 h.tick ++ sha3Bytes body ++ bytesLE 4 0
/-- The record that the image of a component in the active slot writes for the image that takes over (R421). -/
def handoverOf (u : Update) (c : Chip) : Handover :=
  { component := u.component, format := (fwActive c u.component).image.elim 0 (·.hovOut), fromVersion := imgVersion (fwActive c u.component)
    toVersion := u.image.elim 0 (·.version), tick := c.tk.tick }
/-- Whether an image takes a record of a format. -/
def takesFormat (i : Option FwImage) (format : Nat) : Bool :=
  match i with
  | some i => decide (i.hovInMin ≤ format) && decide (format ≤ i.hovInMax)
  | none => true
/-- R423: the component starts from the first-use state: every Palilo component, or the unit that the image runs. -/
def handoverLost (n : Nat) (c : Chip) : Chip :=
  let c := logRec 3 0 .handoverFailed [n] c
  match n with
  | 0 => [1, 2, 3, 4, 5, 7].foldl (fun c id => firstUse id (dataLost id c)) c
  | 3 => firstUse 4 c
  | _ => c

/-- The pause of an activation or a revert begins; the image that held the component writes its handover record. -/
def startPause (u : Update) (phase : UpdPhase) (c : Chip) : Chip :=
  let c := { c with fw := { c.fw with handover := some (handoverOf u c) } }
  let c := pauseEffect u.component (setUpd { u with phase := phase, boundary := c.tk.tick } c)
  let c := logRec 1 0 .activation [u.component, u.slot] (objSet 0x2801 0x0C u.component c.tk.tick c)
  showUnsettled (fwShow c)

/-- What a revert counts and reports (R425). -/
def noteRevert (n : Nat) (c : Chip) : Chip := logRec 3 0 .reverted [n] (alertLater 10 (objBump 0x2801 0x0D n 1 c))
/-- ACTIVATION_PAUSE_START: the handover record is taken over, or fails its digest or its format (R423); a REVERT is a revert from
here on (R425). -/
def pauseStart (n : Nat) (handover : Bool) (c : Chip) : Chip :=
  match updOf c n with
  | none => c
  | some u =>
    if u.phase ≠ .granted || c.tk.tick < u.boundary || 1 < wakeCode c.tk.wake || c.fw.down then c
    else
      let format := (handoverOf u c).format
      let c := if u.revert then startPause u .reverting (noteRevert n c) else startPause u .pause c
      if handover && takesFormat u.image format then c else handoverLost n c

/-- ACTIVATION_PAUSE_END: the slot is active unconfirmed, measured, and its confirmation starts. -/
def pauseEnd (n : Nat) (c : Chip) : Chip :=
  match updOf c n with
  | none => c
  | some u =>
    if (u.phase ≠ .pause && u.phase ≠ .reverting) || c.tk.tick ≤ u.boundary || c.fw.down then c
    else
      let k := fwComp c n
      let left := fwSlot k (1 - u.slot)
      let k := setFwSlot k (1 - u.slot) { left with st := if u.revert then .failed else .valid }
      let k := setFwSlot k u.slot { fwSlot k u.slot with st := .unconfirmed }
      let c := setComp n { k with active := u.slot, interrupted := 0 } c
      let c := extend (2 + n) (if u.revert then 0x03 else 0x02) (activeDigest c n) (resetMeas (2 + n) c)
      let c := if u.owed || !u.revert then c else leaseRelease .fw n c
      let c := setUpd { u with phase := .confirming, since := c.tk.now, counted := 0, ran := 0, broken := false } c
      let c := if n = 1 && c.tk.mode = .running && !workPaused c then startTiles true c else c
      showUnsettled (fwShow c)

/-- R424: the time part of a condition of Table 13-7. -/
def confirmTime (u : Update) (c : Chip) : Bool :=
  match u.component with
  | 0 => decide (u.since + 1000000000 ≤ c.tk.now)
  | 1 => c.tk.mode != .running || decide (100 ≤ u.ran)
  | 2 => true
  | _ => decide (u.since + 10000000000 ≤ c.tk.now)
/-- IMAGE_CONFIRMED: the rest of the condition holds, and nothing has broken it. -/
def imageConfirmed (n : Nat) (c : Chip) : Chip :=
  match updOf c n with
  | none => c
  | some u =>
    if u.phase ≠ .confirming || !confirmTime u c || u.broken || c.fw.down then c
    else
      let sec := match (fwActive c n).image with | some i => i.sec | none => 0
      let c := modComp n (fun k => setFwSlot { k with floor := max k.floor sec, interrupted := 0 } k.active
        { fwSlot k k.active with st := .confirmed }) c
      let c := if u.owed then leaseRelease .fw n (postStatus 0x2801 0x0A n stOk (freeHandle n c)) else c
      showUnsettled (fwShow (logRec 0 0 .confirmed [n] (dropUpd n c)))

/-- R426, R431: the image that a revert restored, or one without another slot to go back to, fails. -/
def lastFailure (n : Nat) (both : Bool) (c : Chip) : Chip :=
  let c := modComp n (fun k => setFwSlot k k.active { fwSlot k k.active with st := .failed }) (dropUpd n c)
  if n = 0 then enterHarebell (if both then 3 else 1) (complexReset 5 c)
  else if both then orderlyStop .orderly c
  else enterHarebell 2 (complexReset 5 c)

/-- CONFIRMATION_TIMEOUT: the condition broke, or 30 s ran out (R425). What the block's state does not show broke it (a missed loop
period, a self-test, a test stream, training) is the operand's. -/
def confirmTimeout (n : Nat) (broken : Bool) (c : Chip) : Chip :=
  match updOf c n with
  | none => c
  | some u =>
    let broken := broken || u.broken
    if u.phase ≠ .confirming || (!broken && u.counted < 30000000000) || c.fw.down then c
    else
      let c := if u.owed then postStatus 0x2801 0x0A n (if broken then stIntegrity else stTimeout) (freeHandle n c) else c
      let other := fwSlot (fwComp c n) (1 - u.slot)
      if u.revert then lastFailure n true c
      else if !slotUsable other then lastFailure n (decide (other.st = .failed)) c
      else
        let c := modComp n (fun k => setFwSlot k u.slot { fwSlot k u.slot with st := .failed }) c
        let c := noteRevert n c
        startPause { u with slot := 1 - u.slot, revert := true, owed := false, image := other.image } .reverting c

/-- CANCEL_QUEUED_ENTRY: 2902.04 (R445). Positions are those of the last boundary's latch. -/
def cmdCancelLease : Cmd := fun img _ _ b c =>
  let p := numAt b 0 1
  let post (st : Nat) (c : Chip) : Chip := objSet 0x2902 0x05 0 st c
  match (if p = 0 then none else (img.life.lease.queue[p - 1]?).filter (fun e => c.life.lease.queue.contains e)) with
  | none => (post stRange c, resRange)
  | some e =>
    if !e.commanded then (post stState c, resState)
    else
      let l := c.life.lease
      let c := leaseShow { c with life := { c.life with lease := { l with queue := l.queue.erase e } } }
      let c := match leaseStatus e with | some (i, s, n) => postStatus i s n stState c | none => c
      let c := if e.act = .fw then fwShow (dropUpd e.obj c) else c
      (post stOk c, resOk)

/-- The confirmation clocks at a boundary: Survival and Paused do not count for tile microcode and Yarrow firmware (R424). -/
def countConfirm (dt : Nat) (c : Chip) : Chip :=
  let held : Bool := c.tk.mode == .survival || c.tk.mode == .paused
  let f (u : Update) : Update :=
    if u.phase ≠ .confirming then u
    else { u with counted := u.counted + (if held && (u.component == 1 || u.component == 2) then 0 else dt)
                  ran := u.ran + (if c.tk.mode = .running && !workPaused c then 1 else 0) }
  if c.fw.updates.isEmpty then c else fwShow { c with fw := { c.fw with updates := c.fw.updates.map f } }

end Sys2Proof.Machine
end

