-- ==== Sys2Proof/Machine/Boot.lean ====
section
/-! DEFINITION. Start-up, resets and the hot-swap stage (spec/15_startup_reset.md R449-R463, spec/16_connector_mechanical.md
R468, R471). -/

namespace Sys2Proof.Machine

/-! What flash keeps (Table 15-3, R433, R457). -/

/-- Objects kept in flash whatever the kind of reset: configuration of R457, boot count, key run, retired cores, counts since
manufacture. -/
def flashObjs : List (Nat × Nat) :=
  [(0x2712, 0x01), (0x2933, 0x01), (0x2933, 0x02), (0x2700, 0x06), (0x2700, 0x0A), (0x2812, 0x01), (0x2812, 0x02), (0x2722, 0x02)]
def flashBlobs : List (Nat × Nat) :=
  (List.range 7).map (fun n => (0x2720, n + 2)) ++ [(0x2721, 0x01), (0x2721, 0x02)]

/-- The tiles at power-up: zero, with the redundant rows that serve them. -/
def bareTile (t : Tile) : Tile := { ({} : Tile) with spareWords := t.spareWords }

/-- The module as flash and the physical parts give it; the rest at its default. -/
def fromFlash (c : Chip) : Chip :=
  let rec_ : LifeRecord := c.life.record.getD { seq := 0, objs := [], engines := [], lost := [], calendar := 0, mark := true }
  let tiles := (c.grid.tiles.filter (fun e => !e.2.spareWords.isEmpty)).map (fun e => (e.1, bareTile e.2))
  let grid : Grid := { ({} : Grid) with tiles := tiles, retired := c.grid.retired, routed := c.grid.routed }
  let hbm : HbmSt := { ({} : HbmSt) with spares := c.hbm.spares, repaired := c.hbm.repaired, unrepairable := c.hbm.unrepairable }
  let life : LifeSt := { ({} : LifeSt) with record := c.life.record, sparedEngines := rec_.engines, spareLost := rec_.lost, badBlocks := c.life.badBlocks
                                            lifeBad := c.life.lifeBad, countedTo := c.tk.now }
  let n : Chip := { tk := { ({} : TickSt) with now := c.tk.now }, sec := { ({} : SecSt) with birth := c.sec.birth, helpers := c.sec.helpers }
                    grid := grid, hbm := hbm, life := life, fw := { ({} : FwSt) with comps := c.fw.comps }
                    log := { ({} : LogSt) with mirror := c.log.mirror }, free := c.free, objs := rec_.objs }
  let n := flashObjs.foldl (fun n k => objSet k.1 k.2 0 (objGet c k.1 k.2 0) n) n
  let n := flashBlobs.foldl (fun n k => blobSet k.1 k.2 0 (blobGet c k.1 k.2 0) n) n
  let n := { n with life := { n.life with recordAt := objGet n 0x2900 0x01 0 } }
  objSet 0x2A01 0x02 0 n.log.mirror.length (if rec_.mark then n else objBumpSat 0x2900 0x09 0 1 n)

/-- R98, R131: every quarter's routing follows its retired columns. -/
def mapColumns (c : Chip) : Chip :=
  (List.range 4).foldl (fun c q => if routedCols c q = retiredCols c q then c else remapQuarter q (retiredCols c q) c) c

/-! Boot checks (R427, R453, Table 15-2). -/

/-- R427: what a power loss leaves of the slots; an accepted REBOOT is none. -/
def interruptSlots (reboot : Bool) (k : FwComp) : FwComp :=
  let clear (s : FwSlot) : FwSlot := if s.st = .writing then {} else s
  let k : FwComp := { k with slot0 := clear k.slot0, slot1 := clear k.slot1 }
  let a := fwSlot k k.active
  if a.st ≠ .unconfirmed || reboot then k
  else if 1 ≤ k.interrupted then { setFwSlot k k.active { a with st := .failed } with interrupted := 0 }
  else { k with interrupted := k.interrupted + 1 }

/-- R453: the slot a component boots from; bad lists the slots whose image does not verify, as 2*component + slot. -/
def chooseSlot (bad : List Nat) (n : Nat) (k : FwComp) : Option Nat :=
  let ok (s : Nat) : Bool := slotUsable (fwSlot k s) && !bad.contains (2 * n + s)
  if ok k.active then some k.active else if ok (1 - k.active) then some (1 - k.active) else none
/-- The other slot is made active, logged as a revert. -/
def bootSlot (bad : List Nat) (c : Chip) (n : Nat) : Chip :=
  let k := fwComp c n
  match chooseSlot bad n k with
  | none => c
  | some s =>
    if s = k.active then c
    else
      let st := (fwSlot k s).st
      let k := setFwSlot k s { fwSlot k s with st := if st = .valid then .unconfirmed else st }
      logRec 3 0 .reverted [n] (alertLater 10 (objBump 0x2801 0x0D n 1 (setComp n { k with active := s } c)))
/-- Slots marked bad are no longer usable. -/
def markBad (bad : List Nat) (c : Chip) : Chip :=
  bad.foldl (fun c b => modComp (b / 2) (fun k =>
    let s := fwSlot k (b % 2)
    if s.st = .empty then k else setFwSlot k (b % 2) { s with st := .failed }) c) c
/-- Table 15-2 row 4: both management slots are marked failed. -/
def bothFailed (c : Chip) : Bool := (fwComp c 0).slot0.st = .failed && (fwComp c 0).slot1.st = .failed
/-- Table 15-2 rows 3 to 6: the cause of Harebell, given whether both management slots stood failed before this boot. -/
def bootCause (failed : Bool) (c : Chip) : Option (Nat × Option Nat) :=
  let no (n : Nat) : Bool := !slotUsable (fwComp c n).slot0 && !slotUsable (fwComp c n).slot1
  if no 0 then some (if failed then 3 else 1, none)
  else if [4, 1, 2, 3].any no then some (2, none)
  else match compatFails c with
    | some x => some (2, some x)
    | none => none

/-- Images that stand active unconfirmed begin their confirmation (R427, R431). -/
def bootConfirm (c : Chip) : Chip :=
  let us := (List.range 5).filterMap (fun n =>
    if (fwActive c n).st = .unconfirmed then
      some ({ component := n, phase := .confirming, slot := (fwComp c n).active, since := c.tk.now, owed := false } : Update)
    else none)
  fwShow { c with fw := { c.fw with updates := us } }

/-- The objects that show the identity's flash parts; 1018.02 reads 0 where the birth record does not verify (R317). -/
def showBirth (c : Chip) : Chip :=
  let b := c.sec.birth
  let ok := birthOk b
  let c := blobSet 0x2700 0x03 0 b (objSet 0x2700 0x02 0 (if ok then birthSerial b else 0) c)
  let c := if ok then objSet 0x1018 0x02 0 (numAt b 0xC 4) (objSet 0x1018 0x03 0 (numAt b 0x28 4) (objSet 0x1018 0x04 0 (numAt b 0x10 4) c)) else objSet 0x1018 0x02 0 0 c
  blobSet 0x2720 0x01 0 (bytesAt b 0x5A0 1312) c

/-- PWR_GOOD (R373, R449 to the grid row): cores that pass, flipped cells of the PUF readout, slots that do not verify, input in mV and the
hottest die sensor in 0.01 °C. -/
def pwrGood (cores flips : Nat) (bad : List Nat) (mv : Nat) (hot : Int) (c : Chip) : Chip :=
  let due := match c.power.rails with
    | .soft t => decide (t + 20000000 ≤ c.tk.now)
    | .on => true
    | .off => false
  if c.tk.mode ≠ .softStart || !due then c
  else
    let reboot := c.fw.hb.rebooted
    let trip := c.power.stopCause = .trip
    let c := fromFlash c
    let held := decide (mv < 51000) || (trip && decide (8500 < hot))
    let c := setMode .booting { c with power := { ({} : PowerSt) with rails := .on, pwrGood := true, fromTrip := trip, bootHeld := held, gridOn := !held, gridPassed := !held
                                                                      okSince := if 51000 ≤ mv then some c.tk.now else none } }
    let c := retireCores cores (showBirth (mapColumns c))
    if (coresOf (objGet c 0x2812 0x01 0)).length < 3 then orderlyStop .orderly c
    else
      let c := zeroMeas (bumpRun c)
      let c := { c with fw := { c.fw with comps := c.fw.comps.map (interruptSlots reboot) } }
      let failed := bothFailed c
      let c := markBad bad c
      let c := (List.range 5).foldl (bootSlot bad) c
      match bootCause failed c with
      | some (cause, x) => modHb (fun h => { h with incompat := x }) (enterHarebell cause c)
      | none =>
        let c := measureKeys (measureComp (measureBirth (measureRom (deriveIdentity flips c))) 0)
        showUnsettled (bootConfirm (gridShow (engineShow (linkClasses (objSet 0x2910 0x05 0 0 c)))))

/-- BOOT_RESUME (R451, R460): the temperature counts once the grid row has been passed, and after a thermal trip. -/
def bootResume (hot : Int) (c : Chip) : Chip :=
  let ok := match c.power.okSince with | some t => decide (t + 100000000 ≤ c.tk.now) | none => false
  let cool := decide (hot ≤ 8500) || (!c.power.gridPassed && !c.power.fromTrip)
  if c.tk.mode = .booting && c.power.bootHeld && ok && cool
  then { c with power := { c.power with bootHeld := false, gridOn := true, gridPassed := true } } else c

/-- R452: a column whose tile fails at boot is retired at once. -/
def bootRetire (c : Chip) (e : Nat × Nat) : Chip :=
  let cols := retiredCols c e.1
  if cols.contains e.2 then c
  else logRec 2 srcGrid .columnRetired [e.1, e.2] { c with grid := { c.grid with retired := c.grid.retired.setIfInBounds e.1 (cols ++ [e.2]) } }
/-- R440, R452: an engine that fails at boot: its spare takes its place, or it stays held. -/
def bootEngine (c : Chip) (code : Nat) : Chip :=
  match kindOf code with
  | none => c
  | some k =>
    if c.life.heldEngines.contains code || c.life.sparedEngines.contains code then c
    else if spareState c k = 0 then { c with life := { c.life with sparedEngines := c.life.sparedEngines ++ [code] } }
    else { c with life := { c.life with heldEngines := c.life.heldEngines ++ [code] } }

/-- BOOT_COMPLETE (R449, R452): tiles that fail their self-test as quarter and physical column, engines and kinds of spares
that fail, and whether HBM training passed. -/
def bootComplete (cols : List (Nat × Nat)) (engines : List Nat) (spares : List EngineKind) (hbmOk : Bool) (c : Chip) : Chip :=
  if c.tk.mode ≠ .booting || c.power.bootHeld then c
  else if !hbmOk then orderlyStop .orderly (logRec 3 srcHbm .fixedTest [] c)
  else
    let failed := cols.filter (fun e => decide (e.1 < 4) && decide (e.2 < 33))
    let spareOk : Vector Bool 4 := Vector.ofFn (fun q => !failed.contains (q.val, 32))
    let c := mapColumns (failed.foldl bootRetire { c with grid := { c.grid with spareOk := spareOk } })
    let c := { c with life := { c.life with spareLost := (c.life.spareLost ++ spares).dedup } }
    let c := engineShow ((engines.filter engineExists).foldl bootEngine c)
    let c := [1, 2, 3, 4].foldl measureComp c
    let c := (List.range 8).foldl (fun c p => linkTrain p c) c
    let c := setMode .idle { c with tk := { c.tk with timer := true, fresh := true, tick := 0, phase := .slack, busyEnded := true, boundaryAt := c.tk.now } }
    let c := { c with fw := { c.fw with updates := c.fw.updates.map (fun (u : Update) => { u with since := c.tk.now }) } }
    showUnsettled (gridShow c)

/-! The hot-swap stage and resets (R449, R455, R460, R471). -/

/-- The stage switched off: nothing behind it runs. -/
def railsOff (c : Chip) : Chip :=
  let c := { c with tk := { c.tk with timer := false }, power := { c.power with rails := .off, pwrGood := false, gridOn := false } }
  { c with tk := { c.tk with mode := .off } }
/-- SOFT_START: 44 V or above for 10 ms. -/
def softStart (c : Chip) : Chip :=
  if c.tk.mode = .off && c.power.stopCause ≠ .limit && c.power.stopCause ≠ .overvoltage
  then { c with tk := { c.tk with mode := .softStart }, power := { c.power with rails := .soft c.tk.now } } else c
/-- INPUT_OFF: below 40 V. -/
def inputOff (c : Chip) : Chip :=
  if c.tk.mode = .off && c.power.stopCause = .none then c
  else
    let c := railsOff c
    { c with power := { c.power with stopCause := if c.power.stopCause = .trip then .trip else .none, okSince := none, resetAt := none } }
/-- OVERVOLTAGE_TRIP: above 64 V for 10 µs. -/
def overvoltage (c : Chip) : Chip :=
  if c.tk.mode = .off then c
  else
    let c := orderlyStop .overvoltage (logRec 3 srcPower .overvoltage [] c)
    { c with tk := { c.tk with mode := .stopped, timer := false }
             power := { c.power with rails := .off, pwrGood := false, gridOn := false, stopCause := .overvoltage, offAt := some c.tk.now } }
/-- OVERVOLTAGE_RECOVERY: 62 V or below for 1 s. -/
def overvoltageEnd (c : Chip) : Chip :=
  match c.power.offAt with
  | some t =>
    if c.power.stopCause = .overvoltage && c.tk.mode = .stopped && decide (t + 1000000000 ≤ c.tk.now)
    then { c with tk := { c.tk with mode := .softStart }, power := { c.power with rails := .soft c.tk.now, stopCause := .none, offAt := none } } else c
  | none => c
/-- CURRENT_LIMIT_TRIP: at 11.0 A for 5 ms. -/
def currentLimit (c : Chip) : Chip :=
  if c.tk.mode = .off then c
  else
    let c := railsOff c
    { c with power := { c.power with stopCause := .limit, offAt := some c.tk.now } }
/-- CURRENT_LIMIT_RESTART: 1 s later. -/
def currentLimitEnd (c : Chip) : Chip :=
  match c.power.offAt with
  | some t =>
    if c.power.stopCause = .limit && c.tk.mode = .off && decide (t + 1000000000 ≤ c.tk.now)
    then { c with tk := { c.tk with mode := .softStart }, power := { c.power with rails := .soft c.tk.now, stopCause := .none, offAt := none } } else c
  | none => c
/-- RESET_N_QUALIFIED: low for 100 µs. A soft start in progress is not a state in which the integrator may assert it. -/
def resetQualified (c : Chip) : Chip :=
  match c.tk.mode with
  | .off | .softStart => c
  | m =>
    let trip := c.power.stopCause = .trip
    let c := if m = .harebell then stopWork c else orderlyStop .reset (logRec 1 srcPower .resetN [] c)
    { c with tk := { c.tk with mode := .stopped, timer := false }
             power := { c.power with rails := .off, gridOn := false, resetAt := some c.tk.now, stopCause := if trip then .trip else .reset } }
/-- RESET_N_GLITCH: an assertion of some ns that ends before 100 µs. -/
def resetGlitch (ns : Nat) (c : Chip) : Chip :=
  if 10000 ≤ ns && ns < 100000 && c.tk.mode ≠ .off && c.tk.mode ≠ .softStart then logRec 1 srcPower .resetGlitch [] c else c
/-- RESET_N_RELEASE: the rails have been off for 50 ms at least; the start is from the PWR_GOOD row. -/
def resetRelease (c : Chip) : Chip :=
  match c.power.resetAt with
  | some t =>
    if t + 50000000 ≤ c.tk.now then
      { c with tk := { c.tk with mode := .softStart }, power := { c.power with rails := .on, resetAt := none } } else c
  | none => c

end Sys2Proof.Machine
end

