-- ==== Sys2Proof/Machine/BootOps.lean ====
section
/-! DEFINITION. The meanings of the input power, start-up and reset rows (spec/15_startup_reset.md R449-R460,
spec/16_connector_mechanical.md R471). An event whose trigger does not hold in the state changes nothing. -/

namespace Sys2Proof.Machine

/-- OVERVOLTAGE_TRIP (R471). -/
def execOvervoltageTrip (t : Nat) (s : State) : Result := onChip (fun c => overvoltage (atTime t c)) s
/-- CURRENT_LIMIT_TRIP (R471). -/
def execCurrentLimitTrip (t : Nat) (s : State) : Result := onChip (fun c => currentLimit (atTime t c)) s
/-- INPUT_OFF (R449). -/
def execInputOff (t : Nat) (s : State) : Result := onChip (fun c => inputOff (atTime t c)) s
/-- SOFT_START (R449). -/
def execSoftStart (t : Nat) (s : State) : Result := onChip (fun c => softStart (atTime t c)) s
/-- PWR_GOOD (R373, R449). -/
def execPwrGood (cores flips : Nat) (bad : List Nat) (mv : Nat) (hot : Int) (t : Nat) (s : State) : Result :=
  onChip (fun c => pwrGood cores flips bad mv hot (atTime t c)) s
/-- BOOT_RESUME (R451): the hottest die sensor in 0.01 °C. -/
def execBootResume (hot : Int) (t : Nat) (s : State) : Result := onChip (fun c => bootResume hot (atTime t c)) s
/-- BOOT_COMPLETE (R449, R452). -/
def execBootComplete (cols : List (Nat × Nat)) (engines : List Nat) (spares : List EngineKind) (hbmOk : Bool) (t : Nat) (s : State) : Result :=
  onChip (fun c => bootComplete cols engines spares hbmOk (atTime t c)) s
/-- RESET_N_QUALIFIED (R455). -/
def execResetNQualified (t : Nat) (s : State) : Result := onChip (fun c => resetQualified (atTime t c)) s
/-- RESET_N_GLITCH (R455): the length of the assertion in ns. -/
def execResetNGlitch (ns t : Nat) (s : State) : Result := onChip (fun c => resetGlitch ns (atTime t c)) s
/-- RESET_N_RELEASE (R455). -/
def execResetNRelease (t : Nat) (s : State) : Result := onChip (fun c => resetRelease (atTime t c)) s
/-- OVERVOLTAGE_RECOVERY (R471). -/
def execOvervoltageRecovery (t : Nat) (s : State) : Result := onChip (fun c => overvoltageEnd (atTime t c)) s
/-- CURRENT_LIMIT_RESTART (R471). -/
def execCurrentLimitRestart (t : Nat) (s : State) : Result := onChip (fun c => currentLimitEnd (atTime t c)) s

end Sys2Proof.Machine
end

