-- ==== Sys2Proof/Machine/Intake.lean ====
section
/-! DEFINITION. The intake engine (spec/08_memory.md R274-R278). -/

namespace Sys2Proof.Machine

/-- Bytes of staging (2B40.08). -/
def stagingBytes : Nat := 931135488
def stagingFree (c : Chip) : Nat := stagingBytes - 1024 * (c.intake.handles.map (fun e => cdiv e.2.size 1024)).sum
def handleAt (c : Chip) (h : Nat) : Option Handle := cellsFind c.intake.handles h
def setHandle (h : Nat) (v : Handle) (c : Chip) : Chip := { c with intake := { c.intake with handles := cellsPut c.intake.handles h v } }
def dropHandle (h : Nat) (c : Chip) : Chip :=
  let area := ((handleAt c h).map (·.area)).getD []
  let c := { c with intake := { handles := cellsDrop c.intake.handles h, buffer := c.intake.buffer.filter (fun u => u.1 != h)
                                unzeroed := c.intake.unzeroed ++ area.map (fun r => (r.1, r.1 + r.2)) } }
  showZero c
/-- The runs of staging lines that no handle holds, ascending. -/
def stagingGaps (c : Chip) : List (Nat × Nat) :=
  c.intake.handles.foldl (fun g e => e.2.area.foldl (fun g r => cutRange r.1 (r.1 + r.2) g) g) [(0, stagingLines)]
/-- The first n lines of ascending runs [lo, hi), as runs of first line and lines. -/
def takeRuns : Nat → List (Nat × Nat) → List (Nat × Nat)
  | _, [] => []
  | n, r :: rest => if n = 0 then [] else (r.1, min n (r.2 - r.1)) :: takeRuns (n - (r.2 - r.1)) rest
def intakeDrop (c : Chip) : Chip := objBump 0x2B40 0x09 0 1 c

/-- The first unit not received (2B42.05). -/
def missingUnit (h : Handle) : Option Nat := (List.range (unitCount h)).find? (fun u => !h.units.contains u)
def receivedBytes (h : Handle) : Nat := (h.units.map (unitLen h)).sum

/-- INTAKE_DATAGRAM (R274, R276). -/
def intakeDatagram (c : Chip) : Chip :=
  match takeRx (fun f => f.cls = .intake) c with
  | none => c
  | some (f, c) =>
    let b := f.payload
    let len := numAt b 2 2
    let off := numAt b 8 8
    let h := numAt b 4 4
    let sum := crc32c (b.take 0x10 ++ bytesLE 4 0 ++ (b.drop 0x14).take (12 + len))
    match handleAt c h with
    | none => intakeDrop c
    | some hd =>
      if hd.st ≠ .opened || b.length ≠ 32 + len || numAt b 0x10 4 ≠ sum || numAt b 0 1 ≠ 1 || numAt b 1 1 ≠ 0
        || numAt b 0x14 12 ≠ 0 || len = 0 || 8192 < len || (len % 1024 ≠ 0 && off + len ≠ hd.size) || off % 1024 ≠ 0
        || hd.size < off + len then intakeDrop c
      else
        let us := (List.range (cdiv len 1024)).map (fun i => off / 1024 + i)
        let fresh := us.filter (fun u => !hd.units.contains u)
        let held := (c.intake.buffer.map (·.2.2.length)).sum
        if fresh.isEmpty || 16 * 2 ^ 20 < held + (fresh.map (unitLen hd)).sum then intakeDrop c
        else
          let c := setHandle h { hd with units := hd.units ++ fresh, lastRecv := max c.tk.now f.t } c
          { c with intake := { c.intake with
              buffer := c.intake.buffer ++ fresh.map (fun u => (h, u, bytesAt b (32 + 1024 * u - off) (unitLen hd u))) } }

/-- INTAKE_DRAIN through a pseudo-channel (R276): the oldest unit of the buffer whose staging lines lie in it goes there. -/
def intakeDrain (pc : Nat) (c : Chip) : Chip :=
  let free := bitOf (vpcMask c) pc || c.tk.phase ≠ .work || c.tk.mode = .idle || c.tk.mode = .loaded
  let here (x : Nat × Nat × List Byte) : Bool := (handleAt c x.1).any (fun h => areaLine h.area (16 * x.2.1) / 256 % 32 == pc)
  match c.intake.buffer.findIdx? here with
  | none => c
  | some i =>
    if !free then c
    else match c.intake.buffer[i]? with
    | none => c
    | some x =>
      let c := { c with intake := { c.intake with buffer := c.intake.buffer.eraseIdx i } }
      match handleAt c x.1 with
      | some h => stageUnit h x.2.1 x.2.2 c
      | none => c

/-- A random non-zero handle not in use (R275). -/
def newHandle (c : Chip) : Nat × Chip :=
  let r := takeFree c
  let h0 := Config.randomDraw r.1
  let pick := (List.range 17).map (fun i => (h0 + i) % (2 ^ 32 - 1) + 1)
  (((pick.find? (fun h => (handleAt c h).isNone)).getD (h0 % (2 ^ 32 - 1) + 1)), r.2)

/-- Whether a tenant may use an adapter slot (R275). -/
def ownAdapter (c : Chip) (t aslot : Nat) : Bool :=
  match c.plan.loaded.bind (fun p => planAdapter p aslot) with | some a => a.tenant == t | none => false

/-- OPEN, CLOSE, RELEASE: 2B40.02 (R275, Table 8-6). -/
def cmdIntake : Cmd := fun _ r _ b c =>
  let kind := ctxVal c r 0x2B40 0x04
  let size := ctxVal c r 0x2B40 0x03
  let aslot := ctxVal c r 0x2B40 0x05
  let h := ctxVal c r 0x2B40 0x07
  match numAt b 0 1 with
  | 1 =>
    if isTenant r && (kind ≠ 1 || !ownAdapter c (roleTenant r) aslot) then (c, resRights)
    else if size = 0 || 2 < kind then (c, resRange)
    else if stagingFree c < size || 16 ≤ c.intake.handles.length then (c, resSt stNoResource)
    else
      let n := newHandle c
      let area := takeRuns (16 * cdiv size 1024) (stagingGaps c)
      let hd : Handle := { kind := kind, aslot := aslot, size := size, tenant := roleTenant r, area := area, lastRecv := c.tk.now }
      (setCtxVal r 0x2B40 0x07 n.1 (setHandle n.1 hd (area.foldl (fun c r => zeroStaged r.1 (r.1 + r.2) c) n.2)), resOk)
  | 2 => match handleAt c h with
    | none => (c, resRange)
    | some hd =>
      if isTenant r && (hd.kind ≠ 1 || hd.tenant ≠ roleTenant r) then (c, resRights)
      else if hd.st ≠ .opened || (missingUnit hd).isSome then (c, resState)
      else if hd.kind = 1 then (setHandle h { hd with st := .placing } c, resPending)
      else (setHandle h { hd with st := .complete } c, resOk)
  | 3 => match handleAt c h with
    | none => (c, resRange)
    | some hd =>
      if isTenant r && (hd.kind ≠ 1 || hd.tenant ≠ roleTenant r) then (c, resRights)
      else if hd.st = .inUse && hd.kind ≠ 1 then (c, resState)
      else (dropHandle h c, resOk)
  | _ => (c, resRange)

/-- HANDLE_TIMEOUT (R275). -/
def handleTimeout (h t : Nat) (c : Chip) : Chip :=
  match handleAt c h with
  | none => c
  | some hd => if hd.st = .opened && decide (hd.lastRecv + 600000000000 ≤ t) then intakeDrop (dropHandle h c) else c

/-- Where the AGDs of a tile that read adapter windows place page slot v: BASE + (v << PGW) (R86, R253). -/
def adapterBase (p : Plan) (d : AdDecl) (tile v : Nat) : Nat :=
  let ptis := ((planRSlots p).filter (fun s => slotFn p s == d.fn)).map (·.adpti)
  match (planPrograms p).find? (fun q => q.tile == tile) with
  | none => v * 16
  | some q => match q.agds.find? (fun a => agdMode a = 2 && ptis.contains (fld a.toNat 67 60)) with
    | none => v * 16
    | some a => fld a.toNat 251 238 + v * 2 ^ fld a.toNat 59 56

/-- R278: the version an adapter image holds, its plaintext and the declaration, or the status it fails with. -/
def adapterImage (c : Chip) (h : Nat) (hd : Handle) : Except Nat (AdDecl × Nat × List Byte) :=
  let b := imageOf c h hd
  let n := numAt b 0 64
  match c.plan.loaded.bind (fun p => planAdapter p hd.aslot) with
  | none => .error stRange
  | some d =>
    if !adapterFits c h d hd then .error stRange
    else match liveKey c 0 d.tenant (fld n 111 104) with
      | none => .error stIntegrity
      | some k =>
        let body := b.drop 64
        match gcmOpen k.key (bytesAt b 14 12) (b.take 64) (body.take (body.length - 16)) (body.drop (body.length - 16)) with
        | none => .error stIntegrity
        | some pt => if 2 ≤ (adSlot c hd.aslot).live.length then .error stNoResource else .ok (d, fld n 55 24, pt)

/-- ADAPTER_PLACEMENT_DONE (R278). -/
def placementDone (h : Nat) (c : Chip) : Chip :=
  match handleAt c h, c.plan.loaded with
  | some hd, some p =>
    if hd.st ≠ .placing then c
    else
    let img := imageOf c h hd
    let image := adapterImage c h hd
    let c := readImage hd c
    match image with
    | .error st =>
      let gen := fld (numAt img 0 64) 111 104
      let own := fld (numAt img 0 64) 23 8
      let c := if st = stIntegrity && keyRetired c 0 own gen then integrityFail own c else c
      postStatus 0x2B40 0x06 0 st (setHandle h { hd with st := .failed } c)
    | .ok (d, ver, pt) =>
      let buf := if (adSlot c hd.aslot).live.any (fun x => x.1 == 0) then 1 else 0
      let v := if buf = 0 then d.v0 else d.v1
      let c := d.tiles.zipIdx.foldl (fun c t =>
        (List.range d.words).foldl (fun c w =>
          setTile t.1 (sramWrite (tileAt c t.1) ((adapterBase p d t.1 v + w) % 16384)
            { data := BitVec.ofNat 256 (numAt pt (32 * (t.2 * d.words + w)) 32) }) c) c) c
      postStatus 0x2B40 0x06 0 stOk (setHandle h { hd with st := .placed, placed := some (buf, ver) } c)
  | some hd, none => if hd.st = .placing then postStatus 0x2B40 0x06 0 stRange (setHandle h { hd with st := .failed } c) else c
  | _, _ => c

end Sys2Proof.Machine
end

