-- ==== Sys2Proof/Machine/TileOps.lean ====
section
/-! DEFINITION. The meanings of the tile's slot operations (spec/03_tile.md, Tables 3-5 to 3-9, 3-11, 3-14). The CTL slot
of a bundle closes its ac: the other slots' operations of the bundle stand before it in the queue (log entry 3). -/

namespace Sys2Proof.Machine

/-! CTL slot. -/

/-- R72: an all-zero slot; in the CTL slot it closes the bundle. -/
def execNop (t : Nat) (slot : Slot) (s : State) : Result :=
  onTile t (fun tl => match slot with | .ctl => closeBundle 0 tl | _ => tl) s

/-- Write a scalar register, visible to the next bundle (R73); s14 and s15 are the module's (R78). -/
def setScalar (i : Fin 16) (v : W32) (t : Tile) : Tile :=
  if i.val = 14 ∨ i.val = 15 then t else { t with sregs := t.sregs.set i v }

/-- SETL (Table 3-5). -/
def opSetl (r : Fin 16) (imm : BitVec 16) (t : Tile) : Tile := setScalar r (imm.setWidth 32) t
def execSetl (t : Nat) (r : Fin 16) (imm : BitVec 16) (s : State) : Result := onTile t (fun tl => closeBundle 0 (opSetl r imm tl)) s
/-- SETH (Table 3-5). -/
def opSeth (r : Fin 16) (imm : BitVec 16) (t : Tile) : Tile := setScalar r (imm ++ (t.sregs[r]).setWidth 16) t
def execSeth (t : Nat) (r : Fin 16) (imm : BitVec 16) (s : State) : Result := onTile t (fun tl => closeBundle 0 (opSeth r imm tl)) s
/-- ADDS (Table 3-5). -/
def opAdds (r : Fin 16) (imm : BitVec 16) (t : Tile) : Tile := setScalar r (t.sregs[r] + imm.signExtend 32) t
def execAdds (t : Nat) (r : Fin 16) (imm : BitVec 16) (s : State) : Result := onTile t (fun tl => closeBundle 0 (opAdds r imm tl)) s

/-- R76: push a loop, or skip its body at the cost of one empty ac when the count is 0; the ac it takes. -/
def loopCtl (level : Fin 4) (count : W32) (stop : BitVec 12) (t : Tile) : Tile × Nat :=
  if level.val ≠ t.loops.length then (nextPc t, 1)
  else if count = 0 then
    let r := loopEnd t.loops stop.toNat
    ({ t with loops := r.1, pc := r.2 % 4096 }, 2)
  else
    ({ t with loops := { start := (t.pc + 1) % 4096, stop := stop.toNat, remaining := count.toNat } :: t.loops
              pc := (t.pc + 1) % 4096 }, 1)
/-- LOOP (R76). -/
def execLoop (t : Nat) (level : Fin 4) (cnt : Fin 16) (stop : BitVec 12) (s : State) : Result :=
  onTile t (fun tl => let r := loopCtl level (tl.sregs[cnt]) stop tl; acSteps r.2 r.1) s
/-- JUMP (R77). -/
def execJump (t : Nat) (target : BitVec 12) (s : State) : Result := onTile t (takeBranch target.toNat) s
/-- BEQ (R77). -/
def execBeq (t : Nat) (sa sb : Fin 16) (target : BitVec 12) (s : State) : Result :=
  onTile t (fun tl => if tl.sregs[sa] = tl.sregs[sb] then takeBranch target.toNat tl else closeBundle 0 tl) s
/-- BNE (R77). -/
def execBne (t : Nat) (sa sb : Fin 16) (target : BitVec 12) (s : State) : Result :=
  onTile t (fun tl => if tl.sregs[sa] ≠ tl.sregs[sb] then takeBranch target.toNat tl else closeBundle 0 tl) s
/-- WAIT (R77): n further ac with no bundle. -/
def execWait (t : Nat) (n : BitVec 16) (s : State) : Result := onTile t (closeBundle n.toNat) s
/-- ENDT (R79): the sequencer stops; what was issued completes. -/
def opEndt (entry : BitVec 12) (t : Tile) : Tile := { t with entry := entry.toNat, running := false }
def execEndt (t : Nat) (entry : BitVec 12) (s : State) : Result :=
  onTile t (fun tl => acDrain drainBound (opEndt entry (acStep tl))) s

/-! MXU slot. -/

/-- MLOAD (R81): the block stands at consecutive words from the AGD's next address. -/
def opMload (agd aod : Fin 16) (t : Tile) : Tile :=
  let f := (aodOf (aodAt t aod)).fb.getD .int8
  let ad := take t agd
  mloadStep ad.1 0 ((blockWords f).1 + (blockWords f).2) ad.2
def execMload (t : Nat) (agd aod : Fin 16) (us : List (Nat × Upset)) (s : State) : Result :=
  onTile t (fun tl => opMload agd aod (strike us tl)) s

/-- Reads of the words of n takes. -/
def readTakes (n agd : Nat) (t : Tile) : List SWord × Tile :=
  let ad := takes n t agd
  ad.1.foldl (fun (p : List SWord × Tile) wa => let q := sramRead p.2 wa; (p.1 ++ [q.1], q.2)) ([], ad.2)

/-- MPRE (R40, R84): entries preloaded by PRE, usable 2 ac later. The 32 biases are the words of four takes, and
an entry past 63 is that of its number modulo 64 (log entry 8). -/
def mpreIssue (agd aod m0 count : Nat) (t : Tile) : Tile :=
  let d := aodOf (aodAt t aod)
  match d.pre with
  | .zero => (List.range count).foldl (fun t i => later 2 (.accSet (m0 + i) (List.replicate 32 accZero)) t) t
  | .acc128 => mpre128Step agd m0 count 0 [] t
  | _ =>
    let r := readTakes 4 agd t
    let accs := (List.range 32).map fun n =>
      let w := r.1.getD (n / 8) sWordZero
      biasAcc d (fld w.data.toNat (32 * (n % 8) + 31) (32 * (n % 8))) w.poison
    (List.range count).foldl (fun t i => later 2 (.accSet (m0 + i) accs) t) r.2
def execMpre (t : Nat) (agd aod : Fin 16) (m0 : Fin 64) (count : Fin 32) (us : List (Nat × Upset)) (s : State) : Result :=
  onTile t (fun tl => mpreIssue agd aod m0 (count.val + 1) (strike us tl)) s

/-- R81: SW makes the shadow block active at the run's first ac. -/
def swapShadow (t : Tile) : Tile := { t with active := t.shadow, shadow := t.active }
/-- MRUN (R80, R82). -/
def opMrun (src : Bool) (sel aod : Fin 16) (m0 : Fin 64) (count : Fin 32) (sw half : Bool) (d : Fin 64) (t : Tile) : Tile :=
  mrunStep src sel aod m0 (count.val + 1) d half false true [] 0 ([], false) (if sw then swapShadow t else t)
def execMrun (t : Nat) (src : Bool) (sel aod : Fin 16) (m0 : Fin 64) (count : Fin 32) (sw half : Bool) (d : Fin 64)
    (us : List (Nat × Upset)) (s : State) : Result :=
  onTile t (fun tl => opMrun src sel aod m0 count sw half d (strike us tl)) s
/-- MOUT (R43, R84). -/
def opMout (agd aod : Fin 16) (m0 : Fin 64) (count : Fin 32) (t : Tile) : Tile := moutStep agd aod m0 (count.val + 1) 0 0 [] 0 t
def execMout (t : Nat) (agd aod : Fin 16) (m0 : Fin 64) (count : Fin 32) (s : State) : Result := onTile t (opMout agd aod m0 count) s

/-! VEC slot. -/

/-- A masked lane result, visible k ac later (R73, R74, R95). -/
def vecResult (k vd mask : Nat) (w : Bool) (v : V2048) (t : Tile) : Tile :=
  later k (.vreg vd v (laneMask w (maskAt t mask)) none) t
/-- A two-operand lane operation. -/
def vec2 (op : VecOp2) (k : Nat) (vd va vb : Fin 32) (mask : Fin 8) (w : Bool) (t : Tile) : Tile :=
  vecResult k vd mask w (vecBin op w t.vregs[va] t.vregs[vb]) t
/-- A table function. -/
def vecFn (fn : SpecFn) (k : Nat) (vd va : Fin 32) (mask : Fin 8) (w : Bool) (t : Tile) : Tile :=
  vecResult k vd mask w (vecSpecial fn w t.vregs[va]) t

def execVadd (t : Nat) (vd va vb : Fin 32) (mask : Fin 8) (w : Bool) (s : State) : Result := onTile t (vec2 .add 4 vd va vb mask w) s
def execVsub (t : Nat) (vd va vb : Fin 32) (mask : Fin 8) (w : Bool) (s : State) : Result := onTile t (vec2 .sub 4 vd va vb mask w) s
def execVmul (t : Nat) (vd va vb : Fin 32) (mask : Fin 8) (w : Bool) (s : State) : Result := onTile t (vec2 .mul 4 vd va vb mask w) s
/-- VFMA: vd is a source as it stands at issue. -/
def opVfma (vd va vb : Fin 32) (mask : Fin 8) (w : Bool) (t : Tile) : Tile :=
  vecResult 5 vd mask w (vecFma w t.vregs[va] t.vregs[vb] t.vregs[vd]) t
def execVfma (t : Nat) (vd va vb : Fin 32) (mask : Fin 8) (w : Bool) (s : State) : Result := onTile t (opVfma vd va vb mask w) s
def execVmin (t : Nat) (vd va vb : Fin 32) (mask : Fin 8) (w : Bool) (s : State) : Result := onTile t (vec2 .min 4 vd va vb mask w) s
def execVmax (t : Nat) (vd va vb : Fin 32) (mask : Fin 8) (w : Bool) (s : State) : Result := onTile t (vec2 .max 4 vd va vb mask w) s
/-- VCMP (R74); m0 is read-only. -/
def opVcmp (va vb : Fin 32) (mask : Fin 8) (w : Bool) (cond target : Fin 8) (t : Tile) : Tile :=
  if target.val = 0 then t
  else later 4 (.mask target (vecCmp cond w t.vregs[va] t.vregs[vb] (maskAt t mask)) (cmpBits w)) t
def execVcmp (t : Nat) (va vb : Fin 32) (mask : Fin 8) (w : Bool) (cond target : Fin 8) (s : State) : Result :=
  onTile t (opVcmp va vb mask w cond target) s
def execVdiv (t : Nat) (vd va vb : Fin 32) (mask : Fin 8) (w : Bool) (s : State) : Result := onTile t (vec2 .div 14 vd va vb mask w) s
def opVsqrt (vd va : Fin 32) (mask : Fin 8) (w : Bool) (t : Tile) : Tile := vecResult 14 vd mask w (vecSqrt w t.vregs[va]) t
def execVsqrt (t : Nat) (vd va : Fin 32) (mask : Fin 8) (w : Bool) (s : State) : Result := onTile t (opVsqrt vd va mask w) s
def execVrsqrt (t : Nat) (vd va : Fin 32) (mask : Fin 8) (w : Bool) (s : State) : Result := onTile t (vecFn .rsqrt 10 vd va mask w) s
def execVexp2 (t : Nat) (vd va : Fin 32) (mask : Fin 8) (w : Bool) (s : State) : Result := onTile t (vecFn .exp2 10 vd va mask w) s
def execVexp (t : Nat) (vd va : Fin 32) (mask : Fin 8) (w : Bool) (s : State) : Result := onTile t (vecFn .exp 16 vd va mask w) s
def execVlog2 (t : Nat) (vd va : Fin 32) (mask : Fin 8) (w : Bool) (s : State) : Result := onTile t (vecFn .log2 10 vd va mask w) s
def execVlog (t : Nat) (vd va : Fin 32) (mask : Fin 8) (w : Bool) (s : State) : Result := onTile t (vecFn .log 16 vd va mask w) s
def execVsin (t : Nat) (vd va : Fin 32) (mask : Fin 8) (w : Bool) (s : State) : Result := onTile t (vecFn .sin 18 vd va mask w) s
def execVcos (t : Nat) (vd va : Fin 32) (mask : Fin 8) (w : Bool) (s : State) : Result := onTile t (vecFn .cos 18 vd va mask w) s
def execVtanh (t : Nat) (vd va : Fin 32) (mask : Fin 8) (w : Bool) (s : State) : Result := onTile t (vecFn .tanh 16 vd va mask w) s
def execVsigm (t : Nat) (vd va : Fin 32) (mask : Fin 8) (w : Bool) (s : State) : Result := onTile t (vecFn .sigmoid 16 vd va mask w) s
def execVerf (t : Nat) (vd va : Fin 32) (mask : Fin 8) (w : Bool) (s : State) : Result := onTile t (vecFn .erf 16 vd va mask w) s
def execVgelu (t : Nat) (vd va : Fin 32) (mask : Fin 8) (w : Bool) (s : State) : Result := onTile t (vecFn .gelu 20 vd va mask w) s
def execVsilu (t : Nat) (vd va : Fin 32) (mask : Fin 8) (w : Bool) (s : State) : Result := onTile t (vecFn .silu 20 vd va mask w) s
/-- VCVT (R96); NaN and Inf converted to an integer are counted (R48). -/
def opVcvt (vd va : Fin 32) (mask : Fin 8) (w : Bool) (fo : Fin 16) (ovf : Bool) (t : Tile) : Tile :=
  let r := vecCvt fo ovf w t.vregs[va] (maskAt t mask)
  later (if r.2.2.1.isSome then 6 else 4) (.vreg vd r.1 r.2.1 r.2.2.1) { t with ev := t.ev ++ List.replicate r.2.2.2 .nonFinite }
def execVcvt (t : Nat) (vd va : Fin 32) (mask : Fin 8) (w : Bool) (fo : Fin 16) (ovf : Bool) (s : State) : Result :=
  onTile t (opVcvt vd va mask w fo ovf) s
/-- R55: a lane reduction. -/
def opReduce (f : Num → Num → Num) (vd va : Fin 32) (mask : Fin 8) (w : Bool) (t : Tile) : Tile :=
  vecResult 9 vd mask w (vecReduce f w t.vregs[va]) t
def execVrsum (t : Nat) (vd va : Fin 32) (mask : Fin 8) (w : Bool) (s : State) : Result := onTile t (opReduce redSum vd va mask w) s
def execVrmax (t : Nat) (vd va : Fin 32) (mask : Fin 8) (w : Bool) (s : State) : Result := onTile t (opReduce numMax vd va mask w) s
def execVrmin (t : Nat) (vd va : Fin 32) (mask : Fin 8) (w : Bool) (s : State) : Result := onTile t (opReduce numMin vd va mask w) s
/-- VPOOL (R97): one tap per ac. The AGD's bits are read as the fields of Table 3-13 whatever its MODE (log entry 2). -/
def opVpool (vd : Fin 32) (agd : Fin 16) (mask : Fin 8) (w : Bool) (kind : Fin 4) (t : Tile) : Tile :=
  vpoolStep vd (agdAt t agd) (walkAt t agd) kind w (laneMask w (maskAt t mask)) 0 [] 0 t
def execVpool (t : Nat) (vd : Fin 32) (agd : Fin 16) (mask : Fin 8) (w : Bool) (kind : Fin 4) (us : List (Nat × Upset))
    (s : State) : Result :=
  onTile t (fun tl => opVpool vd agd mask w kind (strike us tl)) s
def opVbcast (vd va : Fin 32) (mask : Fin 8) (w : Bool) (k : Fin 128) (t : Tile) : Tile :=
  vecResult 4 vd mask w (vecBcast w k t.vregs[va]) t
def execVbcast (t : Nat) (vd va : Fin 32) (mask : Fin 8) (w : Bool) (k : Fin 128) (s : State) : Result :=
  onTile t (opVbcast vd va mask w k) s
def opVmov (vd va : Fin 32) (mask : Fin 8) (w : Bool) (t : Tile) : Tile := vecResult 4 vd mask w t.vregs[va] t
def execVmov (t : Nat) (vd va : Fin 32) (mask : Fin 8) (w : Bool) (s : State) : Result := onTile t (opVmov vd va mask w) s

/-! MEM slot. -/

/-- R66: the words of a load in a register; every FP32 lane of a poisoned word is the canonical NaN. -/
def loadLanes (ws : List SWord) : V2048 :=
  BitVec.ofNat 2048 (packLE 256 (ws.map (fun w => if w.poison then packLE 32 (List.replicate 8 0x7FC00000) else w.data.toNat)))
/-- VLD (R58, R85). -/
def opVld (vd : Fin 32) (agd : Fin 16) (t : Tile) : Tile :=
  let ad := take t agd
  let r := sramReadRun 8 ad.2 ad.1
  later 3 (.vreg vd (loadLanes r.1) (BitVec.allOnes 2048) none) r.2
def execVld (t : Nat) (vd : Fin 32) (agd : Fin 16) (us : List (Nat × Upset)) (s : State) : Result :=
  onTile t (fun tl => opVld vd agd (strike us tl)) s
/-- VLDC (R96). -/
def opVldc (vd : Fin 32) (agd fmt : Fin 16) (w : Bool) (t : Tile) : Tile :=
  let ad := take t agd
  let r := sramRead ad.2 ad.1
  let f := (fmtOf fmt).getD .int8
  let sc := if fmtIsMx f then takeScales r.2 agd (if f == .mxE2m1 then 2 else 1) true else (([], false), r.2)
  later 4 (.vreg vd (ofLanes w (widenWord fmt w r.1.data.toNat sc.1.1 (r.1.poison || sc.1.2))) (BitVec.allOnes 2048) none) sc.2
def execVldc (t : Nat) (vd : Fin 32) (agd fmt : Fin 16) (w : Bool) (us : List (Nat × Upset)) (s : State) : Result :=
  onTile t (fun tl => opVldc vd agd fmt w (strike us tl)) s
/-- VST (R85, R96, Table 3-11): up to 4 words per ac, each written 1 ac later; with SC the scale bytes of the MX blocks the
register holds go to the AGD's next scale indices in the ac after the last data word. -/
def vstIssue (vs agd : Nat) (sc : Bool) (n : Nat) (t : Tile) : Tile :=
  let v := vregAt t vs
  let ad := takes n t agd
  let t := (ad.1.zipIdx).foldl (fun t (wa, i) => later (1 + i / 4) (.sram wa { data := v.extractLsb' (256 * i) 256 }) t) ad.2
  if !sc then t
  else
    let k := walkAt t agd
    let at_ := 1 + cdiv n 4
    let b := t.vblocks.toList.getD vs 4
    let codes := (List.range b).map (fun i => (v.extractLsb' (2016 + 8 * i) 8).toNat)
    let here := min b (32 - k.sidx % 32)
    let t := later at_ (.sramScale (scaleWord (agdAt t agd) k.sidx) (k.sidx % 32) (codes.take here)) t
    let t := if here < b then later at_ (.sramScale (scaleWord (agdAt t agd) (k.sidx + here)) 0 (codes.drop here)) t else t
    setWalk t agd { walkAt t agd with sidx := k.sidx + b }
def execVst (t : Nat) (vs : Fin 32) (agd : Fin 16) (sc : Bool) (n : Fin 8) (s : State) : Result :=
  onTile t (vstIssue vs agd sc (n.val + 1)) s
/-- R91: the entries a WLD loads, with their sources. -/
def wldEntries (agd ky kx0 : Nat) (t : Tile) : List (Nat × WinSrc) :=
  let v := winOf (agdAt t agd)
  (List.range (wldCount v kx0)).map (fun j => (j, wldSource v (walkAt t agd) ky kx0 j))
/-- R92: its groups. -/
def wldPlan (agd ky kx0 : Nat) (t : Tile) : List (List (Nat × WinSrc)) :=
  let es := wldEntries agd ky kx0 t
  wldGroups es [] ((winFills (es.map (·.2))).map bankOf)
/-- WLD (R91, R92). A slot 15 does not exist (R90): its entries are read and go nowhere (log entry 10). -/
def opWld (slot agd ky kx0 : Fin 16) (t : Tile) : Tile :=
  wldStep slot (agdAt t agd) (wldPlan agd ky kx0 t) (readHeld (agdAt t agd) ((wldEntries agd ky kx0 t).map (·.2)) t)
def execWld (t : Nat) (slot agd ky kx0 : Fin 16) (us : List (Nat × Upset)) (s : State) : Result :=
  onTile t (fun tl => opWld slot agd ky kx0 (strike us tl)) s
/-- AGSTEP (R89), usable in the next ac. -/
def execAgstep (t : Nat) (agd : Fin 16) (kind : Fin 4) (s : State) : Result := onTile t (later 1 (.walkStep agd kind)) s
/-- AGRST (R86, R89). -/
def execAgrst (t : Nat) (agd : Fin 16) (s : State) : Result := onTile t (later 1 (.walkReset agd)) s
/-- AGLD (R86). -/
def opAgld (agd r : Fin 16) (t : Tile) : Tile :=
  let w := sramRead t (t.sregs[r].toNat % 16384)
  later 3 (.agd agd w.1.data) w.2
def execAgld (t : Nat) (agd r : Fin 16) (us : List (Nat × Upset)) (s : State) : Result :=
  onTile t (fun tl => opAgld agd r (strike us tl)) s
/-- ADLD (R37). -/
def opAdld (q : Fin 4) (r : Fin 16) (t : Tile) : Tile :=
  let w := sramRead t (t.sregs[r].toNat % 16384)
  later 3 (.aods q w.1.data) w.2
def execAdld (t : Nat) (q : Fin 4) (r : Fin 16) (us : List (Nat × Upset)) (s : State) : Result :=
  onTile t (fun tl => opAdld q r (strike us tl)) s
/-- MKLD (R74); m0 is read-only. -/
def opMkld (mask : Fin 8) (agd : Fin 16) (t : Tile) : Tile :=
  let ad := take t agd
  let w := sramRead ad.2 ad.1
  if mask.val = 0 then w.2 else later 3 (.mask mask (w.1.data.extractLsb' 0 128) (BitVec.allOnes 128)) w.2
def execMkld (t : Nat) (mask : Fin 8) (agd : Fin 16) (us : List (Nat × Upset)) (s : State) : Result :=
  onTile t (fun tl => opMkld mask agd (strike us tl)) s

/-! FAB slot. -/

/-- SEND (R109, R113): n words read through the AGD enter the fabric at the slot its channel fixes. -/
def opSend (handle : Fin 1024) (agd : Fin 16) (n : Fin 4) (t : Tile) : Tile :=
  let r := readTakes (n.val + 1) agd t
  tileEv (.send handle (n.val + 1) r.1) r.2
def execSend (t : Nat) (handle : Fin 1024) (agd : Fin 16) (n : Fin 4) (us : List (Nat × Upset)) (s : State) : Result :=
  onTile t (fun tl => opSend handle agd n (strike us tl)) s

/-- R114, R115: take a word from each latch position and write it through the AGD. -/
def recvWords (agd : Nat) (positions : List Nat) (t : Tile) : Tile :=
  positions.foldl (fun t p =>
    let l := t.latch.toList.getD (p % 8) {}
    let ad := take t agd
    if l.valid then
      sramWrite (portUse true ad.1 { ad.2 with latch := ad.2.latch.setIfInBounds (p % 8) { l with valid := false } }) ad.1
        { data := l.data, poison := l.poison }
    else tileEv .missingWord (sramWrite (portUse true ad.1 ad.2) ad.1 { data := 0, poison := true })) t
/-- R114: a RECV on a channel takes its words from the positions of their ejection fc. -/
def opRecv (ch : Channel) (agd n : Nat) (t : Tile) : Tile :=
  recvWords agd ((List.range n).map (fun i => ejectFc ch (t.ac - ch.dly) i)) t
/-- RECV (R114): the positions are those of the words' ejection fc, from the channel's slot arithmetic. -/
def execRecv (t : Nat) (handle : Fin 1024) (agd : Fin 16) (n : Fin 4) (s : State) : Result :=
  onTile t (fun tl =>
    match recvChannel s.chip t handle with
    | none => tl
    | some ch => opRecv ch agd (n.val + 1) tl) s

/-- R68: an uncorrectable line stops the sequencer as ENDT does; the entry address is kept. -/
def loseLine (line : Nat) (t : Tile) : Tile :=
  tileEv (.lineLost line) (acDrain drainBound
    { t with lineLost := true, linesLost := satAdd allOnes32 t.linesLost 1
             lostLines := if t.lostLines.contains line then t.lostLines else t.lostLines ++ [line] })
/-- R63, R68: the fetch of a bundle from the line at the pc, the line having met errors: a corrected one is counted. -/
def fetchLine (t : Tile) : Tile :=
  let line := t.pc / 2 % 2048
  match (lineLook t line).1 with
  | .clean => t
  | .corrected => tileEv (.corrected line) { t with corrected := satAdd allOnes32 t.corrected 1 }
  | .uncorrectable => loseLine line t
/-- INSTRUCTION_LINE_LOST: the line the next bundle is fetched from meets the error pattern e (R68). -/
def execInstructionLineLost (t : Nat) (e : Upset) (s : State) : Result :=
  onTile t (fun tl => fetchLine (strikeLines [(tl.pc / 2, e)] tl)) s

end Sys2Proof.Machine
end

