-- ==== Sys2Proof/Machine/Sched.lean ====
section
/-! DEFINITION. A tile in the check run (spec/05_ticks_and_plans.md R155): its program run ac by ac with the operations of the
tile itself, and the monitors that hold every ac to the rules chapters 3 and 4 give plan validation. -/

namespace Sys2Proof.Machine

/-! The operations of a bundle. -/

/-- What a MXU, VEC, MEM or FAB operation does to its tile; rx is the channel a RECV handle names. -/
def slotOp (rx : Nat → Option Channel) : Instr → Tile → Tile
  | .mload _ agd aod _ => opMload agd aod
  | .mpre _ agd aod m0 n _ => mpreIssue agd aod m0 (n.val + 1)
  | .mrun _ src sel aod m0 n sw half d _ => opMrun src sel aod m0 n sw half d
  | .mout _ agd aod m0 n => opMout agd aod m0 n
  | .vadd _ vd va vb m w => vec2 .add 4 vd va vb m w
  | .vsub _ vd va vb m w => vec2 .sub 4 vd va vb m w
  | .vmul _ vd va vb m w => vec2 .mul 4 vd va vb m w
  | .vfma _ vd va vb m w => opVfma vd va vb m w
  | .vmin _ vd va vb m w => vec2 .min 4 vd va vb m w
  | .vmax _ vd va vb m w => vec2 .max 4 vd va vb m w
  | .vcmp _ va vb m w cond target => opVcmp va vb m w cond target
  | .vdiv _ vd va vb m w => vec2 .div 14 vd va vb m w
  | .vsqrt _ vd va m w => opVsqrt vd va m w
  | .vrsqrt _ vd va m w => vecFn .rsqrt 10 vd va m w
  | .vexp2 _ vd va m w => vecFn .exp2 10 vd va m w
  | .vexp _ vd va m w => vecFn .exp 16 vd va m w
  | .vlog2 _ vd va m w => vecFn .log2 10 vd va m w
  | .vlog _ vd va m w => vecFn .log 16 vd va m w
  | .vsin _ vd va m w => vecFn .sin 18 vd va m w
  | .vcos _ vd va m w => vecFn .cos 18 vd va m w
  | .vtanh _ vd va m w => vecFn .tanh 16 vd va m w
  | .vsigm _ vd va m w => vecFn .sigmoid 16 vd va m w
  | .verf _ vd va m w => vecFn .erf 16 vd va m w
  | .vgelu _ vd va m w => vecFn .gelu 20 vd va m w
  | .vsilu _ vd va m w => vecFn .silu 20 vd va m w
  | .vcvt _ vd va m w fo ovf => opVcvt vd va m w fo ovf
  | .vrsum _ vd va m w => opReduce redSum vd va m w
  | .vrmax _ vd va m w => opReduce numMax vd va m w
  | .vrmin _ vd va m w => opReduce numMin vd va m w
  | .vpool _ vd agd m w kind _ => opVpool vd agd m w kind
  | .vbcast _ vd va m w k => opVbcast vd va m w k
  | .vmov _ vd va m w => opVmov vd va m w
  | .vld _ vd agd _ => opVld vd agd
  | .vldc _ vd agd fmt w _ => opVldc vd agd fmt w
  | .vst _ vs agd sc n => vstIssue vs agd sc (n.val + 1)
  | .wld _ slot agd ky kx0 _ => opWld slot agd ky kx0
  | .agstep _ agd kind => later 1 (.walkStep agd kind)
  | .agrst _ agd => later 1 (.walkReset agd)
  | .agld _ agd r _ => opAgld agd r
  | .adld _ q r _ => opAdld q r
  | .mkld _ m agd _ => opMkld m agd
  | .send _ h agd n _ => opSend h agd n
  | .recv _ h agd n => fun t => match rx h with | some ch => opRecv ch agd (n.val + 1) t | none => t
  | _ => id

/-- The CTL operation of a bundle: the tile after it, and the ac in which no bundle issues before the next one (R76, R77). -/
def ctlOp (i : Instr) (t : Tile) : Tile × Nat :=
  match i with
  | .setl _ r imm => (nextPc (opSetl r imm t), 0)
  | .seth _ r imm => (nextPc (opSeth r imm t), 0)
  | .adds _ r imm => (nextPc (opAdds r imm t), 0)
  | .loop _ level cnt stop => let r := loopCtl level (t.sregs[cnt]) stop t; (r.1, r.2 - 1)
  | .jump _ target => (branchTo target.toNat t, 1)
  | .beq _ sa sb target => if t.sregs[sa] = t.sregs[sb] then (branchTo target.toNat t, 1) else (nextPc t, 0)
  | .bne _ sa sb target => if t.sregs[sa] ≠ t.sregs[sb] then (branchTo target.toNat t, 1) else (nextPc t, 0)
  | .wait _ n => (nextPc t, n.toNat)
  | .endt _ entry => (opEndt entry t, 0)
  | _ => (nextPc t, 0)

/-- The AGDs an operation uses (R116). -/
def agdsUsed : Instr → List Nat
  | .mload _ agd _ _ | .mpre _ agd _ _ _ _ | .mout _ agd _ _ _ | .vpool _ _ agd _ _ _ _ | .vld _ _ agd _ | .vldc _ _ agd _ _ _
  | .vst _ _ agd _ _ | .wld _ _ agd _ _ _ | .agstep _ agd _ | .agrst _ agd | .agld _ agd _ _ | .mkld _ _ agd _ | .send _ _ agd _ _
  | .recv _ _ agd _ => [agd.val]
  | .mrun _ src sel _ _ _ _ _ _ _ => if src then [] else [sel.val]
  | _ => []

/-! What is watched of a tile from ac to ac; times are ac of the work window. -/

/-- An accumulator entry (R39, R83): the AOD of the run under way, its products so far, and the first ac in which an MRUN may add
into it, an MOUT read it, an MPRE of it issue. -/
structure EntryWatch where
  run : Option Nat := none
  products : Nat := 0
  mrunFrom : Nat := 0
  moutFrom : Nat := 0
  mpreFrom : Nat := 0
  deriving DecidableEq, Repr

structure Watch where
  ok : Bool := true
  /-- ac in which a unit is free again: the MXU operations by opcode, 5 VST, 6 WLD, 16 + class for the vector classes -/
  free : Cells Nat := []
  /-- ac in which the block that was loaded last and is not yet active is ready (R81) -/
  shadow : Option Nat := none
  entries : Cells EntryWatch := []
  /-- entries that the last WLD of each row slot loads (R91) -/
  slotJ : Cells (Option Nat) := []
  /-- last WLD and last MRUN from the window register: slot and last ac (R91) -/
  wld : Nat × Nat := (0, 0)
  win : Nat × Nat := (0, 0)
  /-- SRAM words that hold an ACC128 export, with its L (R45) -/
  marks : Cells (Option Int) := []
  /-- ACC128 words on their way to SRAM: ac, address, L -/
  exports : List (Nat × Nat × Int) := []
  /-- L of the import under way (R45) -/
  importL : Int := 0
  deriving DecidableEq, Repr

/-- Hold a rule. -/
def hold (b : Bool) (w : Watch) : Watch := if b then w else { w with ok := false }
/-- R72, R83, R95: an operation takes a unit in this ac and keeps it for n. -/
def takeUnit (ac u n : Nat) (w : Watch) : Watch :=
  { hold (decide (cellsGet 0 w.free u ≤ ac)) w with free := cellsSet 0 w.free u (ac + n) }
/-- Entries m0 to m0 + n - 1, each with its position. -/
def onEntries (m0 n : Nat) (f : Nat → EntryWatch → Bool × EntryWatch) (w : Watch) : Watch :=
  (List.range n).foldl (fun w i =>
    let r := f i (cellsGet {} w.entries (m0 + i))
    { hold r.1 w with entries := cellsSet {} w.entries (m0 + i) r.2 }) w

/-- Table 3-14: vector class of an operation and its issue interval. -/
def vecClass (t : Tile) : Instr → Option (Nat × Nat)
  | .vadd .. | .vsub .. | .vmul .. | .vmin .. | .vmax .. | .vcmp .. | .vmov .. | .vbcast .. => some (0, 1)
  | .vfma .. => some (1, 1)
  | .vcvt .. => some (2, 1)
  | .vdiv .. | .vsqrt .. => some (3, 8)
  | .vrsqrt .. | .vexp2 .. | .vlog2 .. => some (4, 2)
  | .vexp .. | .vlog .. | .vtanh .. | .vsigm .. | .verf .. => some (5, 4)
  | .vsin .. | .vcos .. => some (6, 4)
  | .vgelu .. | .vsilu .. => some (7, 4)
  | .vrsum .. | .vrmax .. | .vrmin .. => some (8, 1)
  | .vpool _ _ agd _ _ _ _ => let v := winOf (agdAt t agd); some (9, v.kh * v.kw)
  | _ => none

/-- Products per column that an MRUN ac under an AOD adds (R35). -/
def runProducts (aw : W64) : Nat :=
  match (aodOf aw).fa, (aodOf aw).fb with | some a, some b => pairK a b | _, _ => 0
/-- MXFP6 is not accepted from the window register (R82). -/
def winOperandOk (aw : W64) : Bool := match (aodOf aw).fa with | some .mxE3m2 | some .mxE2m3 => false | _ => true

/-- R39, R45, R72, R81-R83, R91, R95: what the monitors hold of an operation that issues in the present ac of its tile; marks are
those of the words it reads. -/
def watchOp (t : Tile) (w : Watch) : Instr → Watch
  | .mload _ _ aod _ =>
    let f := (aodOf (aodAt t aod)).fb.getD .int8
    let n := cdiv ((blockWords f).1 + (blockWords f).2) 4
    { takeUnit t.ac 1 n (hold w.shadow.isNone w) with shadow := some (t.ac + n + 1) }
  | .mpre _ _ aod m0 n _ =>
    let n := n.val + 1
    let dur := if (aodOf (aodAt t aod)).pre = .acc128 then 3 * n else 1
    takeUnit t.ac 2 dur (onEntries m0 n (fun _ e =>
      (decide (e.mpreFrom ≤ t.ac), { run := some aod.val, mrunFrom := t.ac + dur + 1 })) w)
  | .mrun _ src sel aod m0 n sw _ d _ =>
    let n := n.val + 1
    let w := takeUnit t.ac 3 n w
    let w := if sw then { hold (match w.shadow with | some r => decide (r ≤ t.ac) | none => true) w with shadow := none } else w
    let w := if src then
        let w := hold (winOperandOk (aodAt t aod)) w
        let w := hold (match cellsGet none w.slotJ sel with | some j => decide (d.val + n ≤ j) | none => true) w
        { hold (!(w.wld.1 == sel.val + 1 && decide (t.ac ≤ w.wld.2))) w with win := (sel.val + 1, t.ac + n - 1) }
      else w
    onEntries m0 n (fun i e =>
      let k := e.products + runProducts (aodAt t aod)
      (decide (e.mrunFrom ≤ t.ac + i) && (match e.run with | some a => a == aod.val | none => true) && decide (k ≤ 2 ^ 24),
        { e with products := k, moutFrom := t.ac + i + 6 })) w
  | .mout _ _ aod m0 n =>
    let n := n.val + 1
    let per := if (aodOf (aodAt t aod)).fo = some .acc128 then 5 else 1
    takeUnit t.ac 4 (per * n) (onEntries m0 n (fun i e =>
      (decide (e.moutFrom ≤ t.ac + per * i) && (match e.run with | some a => a == aod.val | none => true),
        { mpreFrom := t.ac + per * i })) w)
  | .adld _ q _ _ =>
    hold ((List.range 64).all (fun m => match (cellsGet {} w.entries m).run with | some a => a / 4 != q.val | none => true)) w
  | .vst _ _ _ sc n => takeUnit t.ac 5 (cdiv (n.val + 1) 4 + (if sc then 1 else 0)) w
  | .wld _ slot agd ky kx0 _ =>
    let n := (wldPlan agd ky kx0 t).length
    let w := takeUnit t.ac 6 n w
    let w := hold (!(w.win.1 == slot.val + 1 && decide (t.ac ≤ w.win.2))) w
    { w with wld := (slot.val + 1, t.ac + n - 1), slotJ := cellsSet none w.slotJ slot (some (wldCount (winOf (agdAt t agd)) kx0)) }
  | i => match vecClass t i with | some (k, n) => takeUnit t.ac (16 + k) n w | none => w

/-! Loop and branch structure (R76). -/

/-- The bodies of the loops that the instruction store holds. -/
def loopBodies (t : Tile) : List (Nat × Nat) :=
  t.istore.filterMap fun e =>
    let w := bitsOf e.2.toNat 127 104
    if bitsOf w 23 20 = 4 then some (e.1 + 1, bitsOf w 11 0) else none
def inBody (pc : Nat) (b : Nat × Nat) : Bool := decide (b.1 ≤ pc) && decide (pc ≤ b.2)
/-- R76: a branch stays in the bodies it stands in, enters none, and closes none. -/
def branchOk (t : Tile) (target : Nat) : Bool := (loopBodies t).all (fun b => inBody t.pc b == inBody target b && t.pc != b.2)
/-- R76: the structure rules at a CTL operation. -/
def ctlRule (t : Tile) : Instr → Bool
  | .loop _ level _ stop =>
    level.val == t.loops.length && decide (t.pc < stop.toNat) && (match t.loops with | l :: _ => decide (stop.toNat ≤ l.stop) | [] => true)
  | .jump _ target | .beq _ _ _ target | .bne _ _ _ target => branchOk t target.toNat
  | .endt _ _ => t.loops.isEmpty && (loopBodies t).all (fun b => !inBody t.pc b)
  | _ => true

/-! SRAM ports (R60) and ACC128 words (R45). -/

def portReads (t : Tile) : List Nat := t.ev.filterMap fun e => match e with | .port false wa => some wa | _ => none
def portWrites (t : Tile) : List Nat := t.ev.filterMap fun e => match e with | .port true wa => some wa | _ => none
/-- R60: at most 8 reads and 4 writes in an ac, and one access per bank. -/
def portsOk (t : Tile) : Bool :=
  decide ((portReads t).length ≤ 8) && decide ((portWrites t).length ≤ 4)
    && decide (((portReads t ++ portWrites t).map bankOf).Nodup)

/-- R44, R45: the ACC128 words that a further ac of an MOUT sets on their way. -/
def noteExports (before after : Tile) (m : Micro) (w : Watch) : Watch :=
  match m with
  | .mout _ aod .. =>
    let d := aodOf (aodAt before aod)
    if d.fo = some .acc128 then
      { w with exports := w.exports ++ (after.pend.drop before.pend.length).filterMap fun e =>
          match e.2 with | .sram wa _ => some (e.1, wa % 16384, d.l) | _ => none }
    else w
  | _ => w
/-- R45: an import reads only words whose L is its own. -/
def importOk (w : Watch) (evs : List TileEv) : Bool :=
  evs.all fun e => match e with
    | .port false wa => (match cellsGet none w.marks wa with | some l => l == w.importL | none => true)
    | _ => true

/-! One ac of a tile. -/

/-- What an ac of the check run knows of the tick: the active channels that end in the tile, and words that are under way to it, by
channel and send, with the L of ACC128 words. -/
structure RunEnv where
  t : Nat
  chans : List Channel
  wires : List (Channel × Nat × List (SWord × Option Int))

/-- A tile in the check run. -/
structure TileRun where
  tile : Tile
  watch : Watch := {}
  /-- ac in which no bundle issues -/
  wait : Nat := 0

/-- R109: the send of a channel that falls in an ac, a RECV of it DLY later. -/
def sendAt (ch : Channel) (ac : Nat) : Option Nat :=
  if ac < ch.o then none
  else if ch.p = 0 then (if ac = ch.o && decide (0 < ch.k) then some 0 else none)
  else if (ac - ch.o) % ch.p = 0 && decide ((ac - ch.o) / ch.p < ch.k) then some ((ac - ch.o) / ch.p) else none
def recvAt (ch : Channel) (ac : Nat) : Option Nat := if ac < ch.dly then none else sendAt ch (ac - ch.dly)
def fromTile (env : RunEnv) (ch : Channel) : Bool := ch.kind != 1 && ch.src == env.t
def toTile (env : RunEnv) (ch : Channel) : Bool := ch.kind != 2 && ch.dst == env.t

/-- R109: the sends and receives due in an ac: handle and words. -/
def sendsDue (env : RunEnv) (ac : Nat) : List (Nat × Nat) :=
  (env.chans.filter (fun ch => fromTile env ch && (sendAt ch ac).isSome)).map (fun ch => (ch.sh, ch.w))
def recvsDue (env : RunEnv) (ac : Nat) : List (Nat × Nat) :=
  (env.chans.filter (fun ch => toTile env ch && !ch.inj && (recvAt ch ac).isSome)).map (fun ch => (ch.dh, ch.w))
def sendsOf (is : List Instr) : List (Nat × Nat) := is.filterMap fun i => match i with | .send _ h _ n _ => some (h.val, n.val + 1) | _ => none
def recvsOf (is : List Instr) : List (Nat × Nat) := is.filterMap fun i => match i with | .recv _ h _ n => some (h.val, n.val + 1) | _ => none

/-- The words of a send on their way, zeros from an edge engine. -/
def wireWords (env : RunEnv) (ch : Channel) (j : Nat) : List (SWord × Option Int) :=
  match env.wires.find? (fun e => e.1 == ch && e.2.1 == j) with
  | some e => e.2.2
  | none => List.replicate ch.w ({}, none)
/-- R114: the words of a due RECV stand in the ejection latch. -/
def fillLatch (env : RunEnv) (ac : Nat) (t : Tile) : Tile :=
  (env.chans.filter (fun ch => toTile env ch && !ch.inj)).foldl (fun t ch =>
    match recvAt ch ac with
    | none => t
    | some j => ((wireWords env ch j).zipIdx).foldl (fun t (w, i) =>
        let e := ejectFc ch (sendAc ch j) i
        { t with latch := t.latch.setIfInBounds (e % 8) { valid := true, data := w.1.data, poison := w.1.poison, fc := e } }) t) t
/-- The L of the words that the RECVs of an ac write. -/
def recvMarks (env : RunEnv) (ac : Nat) : List (Option Int) :=
  (env.chans.filter (fun ch => toTile env ch && !ch.inj)).flatMap fun ch =>
    match recvAt ch ac with | some j => (wireWords env ch j).map (·.2) | none => []
/-- R116: the writes of injection channels in an ac. -/
def injectAt (env : RunEnv) (ac : Nat) (t : Tile) : Tile :=
  (env.chans.filter (fun ch => toTile env ch && ch.inj)).foldl (fun t ch =>
    (List.range ch.w).foldl (fun t i =>
      let lag := 4 + ch.ph + i + chanHops ch + 2 * chanStages ch
      if decide (lag / 4 + 1 ≤ ac) && (sendAt ch (ac - (lag / 4 + 1))).isSome then
        let ad := take t ch.iagd
        sramWrite (portUse true ad.1 ad.2) ad.1 {}
      else t) t) t

/-- The further ac of the long operations due in an ac, with what the monitors see of them. -/
def moreAc : List Micro → Tile → Watch → Tile × Watch
  | [], t, w => (t, w)
  | m :: rest, t, w =>
    let t' := microStep t m
    let w := noteExports t t' m w
    let w := match m with | .mpre128 .. => hold (importOk w (t'.ev.drop t.ev.length)) w | _ => w
    moreAc rest t' w

/-- One operation of a bundle. -/
def runSlot (env : RunEnv) (p : Tile × Watch) (i : Instr) : Tile × Watch :=
  let w := hold ((env.chans.filter (fun ch => toTile env ch && ch.inj)).all (fun ch => !(agdsUsed i).contains ch.iagd)) p.2
  let w := watchOp p.1 w i
  let rx (h : Nat) : Option Channel := env.chans.find? (fun ch => toTile env ch && !ch.inj && ch.dh == h && (recvAt ch p.1.ac).isSome)
  let t' := slotOp rx i p.1
  let w := match i with
    | .mpre _ _ aod _ _ _ =>
      let d := aodOf (aodAt p.1 aod)
      if d.pre = .acc128 then
        let w := { w with importL := d.l }
        hold (importOk w (t'.ev.drop p.1.ev.length)) w
      else w
    | .mout _ agd aod m0 n => noteExports p.1 t' (.mout agd aod m0 (n.val + 1) 0 0 [] 0) w
    | _ => w
  (t', w)

/-- The bundle of an ac. -/
def runBundle (env : RunEnv) (r : TileRun) : TileRun × List Instr :=
  let t := r.tile
  if !t.running then (r, [])
  else if 0 < r.wait then ({ r with wait := r.wait - 1 }, [])
  else match decodeBundle env.t (cellsGet 0 t.istore t.pc) with
    | none => ({ r with tile := { t with running := false }, watch := hold false r.watch }, [])
    | some (is, k) =>
      let p := is.foldl (runSlot env) (t, r.watch)
      let q := ctlOp k p.1
      ({ tile := q.1, watch := hold (ctlRule t k) p.2, wait := q.2 }, is)

/-- R45: after an ac the words it wrote hold what was written: ACC128 words their L, others none. -/
def settleMarks (env : RunEnv) (t : Tile) (is : List Instr) (recvAddrs : List Nat) (w : Watch) : Watch :=
  let clear := (portWrites t).foldl (fun m wa => cellsSet none m wa none) w.marks
  let landed := w.exports.filter (fun e => decide (e.1 ≤ t.ac))
  let m := landed.foldl (fun m e => cellsSet none m e.2.1 (some e.2.2)) clear
  let m := if (recvsOf is).isEmpty then m
    else (recvAddrs.zip (recvMarks env t.ac)).foldl (fun m e => cellsSet none m e.1 e.2) m
  { w with marks := m, exports := w.exports.filter (fun e => decide (t.ac < e.1)) }

/-- One ac: what is due lands and goes on, injected words are written, a bundle issues, and the ports, sends and receives of the
ac are held to R60 and R109. The words sent are answered with their channel and send. -/
def runAc (env : RunEnv) (ac : Nat) (r : TileRun) : TileRun × List (Channel × Nat × List (SWord × Option Int)) :=
  let t := if ac = 0 then r.tile else acLand r.tile
  let q := moreAc (if ac = 0 then [] else acMore r.tile) t r.watch
  let t := fillLatch env ac (injectAt env ac q.1)
  let before := (portWrites t).length
  let b := runBundle env { r with tile := t, watch := q.2 }
  let t := b.1.tile
  let w := hold (portsOk t) b.1.watch
  let w := hold (sendsOf b.2 == sendsDue env ac && recvsOf b.2 == recvsDue env ac) w
  let reads := if (sendsOf b.2).isEmpty then [] else ((portReads t).drop ((portReads t).length - ((sendsOf b.2).map (·.2)).sum))
  let sent := (env.chans.filter (fromTile env)).filterMap fun ch =>
    match sendAt ch ac with
    | none => none
    | some j => some (ch, j, reads.map (fun wa => (sramPeek t wa, cellsGet none w.marks wa)))
  let w := settleMarks env { t with ac := ac } b.2 ((portWrites t).drop before) w
  ({ b.1 with tile := { t with ev := [], ac := ac }, watch := w }, sent)

/-! A tick of the check run. -/

/-- Ac of the next work window count from 0 again. -/
def watchTick (w : Watch) : Watch :=
  { w with free := [], wld := (0, 0), win := (0, 0), shadow := w.shadow.map (fun _ => 0)
           entries := w.entries.map (fun e => (e.1, { e.2 with mrunFrom := 0, moutFrom := 0, mpreFrom := 0 })) }
/-- R75, R116: a tile at the first ac of a work window. -/
def runStart (mask pos : Nat) (chans : List Channel) (t : Nat) (r : TileRun) : TileRun :=
  let tile := (chans.filter (fun ch => ch.inj && ch.dst == t)).foldl (fun tl ch => setWalk tl ch.iagd (walkResetOf (agdAt tl ch.iagd))) r.tile
  { tile := workStart mask pos tile, watch := watchTick r.watch }

/-- The ac of a work window from a first one on, every tile in step. -/
def runWindow (chans : List Channel) : Nat → Nat → List (Channel × Nat × List (SWord × Option Int)) → List (Nat × TileRun) → List (Nat × TileRun)
  | 0, _, _, rs => rs
  | n + 1, ac, wires, rs =>
    let out := rs.map fun e => (e.1, runAc { t := e.1, chans := chans, wires := wires } ac e.2)
    runWindow chans n (ac + 1) (wires ++ out.flatMap (fun e => e.2.2)) (out.map (fun e => (e.1, e.2.1)))

/-- R79, R155: every tile of a tick kept the rules and reached its ENDT in the work window. -/
def tilesOk (rs : List (Nat × TileRun)) : Bool := rs.all (fun e => e.2.watch.ok && !e.2.tile.running)
/-- A tick of the check run at a plan position under an overlay set. -/
def runTick (lw mask pos : Nat) (chans : List Channel) (rs : List (Nat × TileRun)) : List (Nat × TileRun) :=
  let rs := runWindow chans lw 0 [] (rs.map (fun e => (e.1, runStart mask pos chans e.1 e.2)))
  rs.map (fun e => (e.1, { e.2 with tile := { acDrain drainBound e.2.tile with ev := [] } }))

/-- R58, R141: a tile as a RUN leaves it. -/
def runTile (p : Plan) (g : TileProgram) : TileRun :=
  let fill (m : Cells SWord) (r : Region) : Cells SWord :=
    if isTransient r then cellsSetRun sWordZero m r.base (List.replicate (min r.length 16384) poisonWord) else cellsSetRun sWordZero m r.base (initWords p r)
  { tile := { resetProgram (some g) {} with sram := ((planRegions p).filter (fun r => !r.hbm && r.tile == g.tile)).foldl fill [] } }

end Sys2Proof.Machine
end

