-- ==== Sys2Proof/Machine/CheckRun.lean ====
section
/-! DEFINITION. The check run (spec/05_ticks_and_plans.md R155, R173; spec/04_grid_fabric.md R111; spec/08_memory.md R261): every
plan position under every overlay set of SETS, with the monitors of tiles, channels and HBM command streams. -/

namespace Sys2Proof.Machine

/-! Channel slots (R111, R118). -/

/-- A slot: a link direction (kind 0: from x, from y, direction), a tile's ejection (1), an injection (2: tile, 3: edge port); fc. -/
abbrev Slotted := Nat × Int × Int × Nat × Nat

/-- The links of a flit's path from where it stands on (R113). -/
def linksOf : Nat → Flit → List Slotted
  | 0, _ => []
  | n + 1, f =>
    match flitNext f with
    | none => []
    | some (x', y', dir) =>
      (0, f.x, f.y, dir, f.fc) :: linksOf n { f with x := x', y := y', fc := f.fc + 1 + (if crosses f.x f.y x' y' then 2 else 0) }
/-- The slots of one word of a send. -/
def wordSlots (ch : Channel) (ac i : Nat) (f : Flit) : List Slotted :=
  let port := (if ch.kind = 1 then 3 else 2, (ch.src : Int), 0, 0, slotFc ch ac i)
  let ejected : List Slotted := if ch.kind = 2 then [] else [(1, (ch.dst : Int), 0, 0, ejectFc ch ac i)]
  port :: ejected ++ linksOf 128 f
/-- The slots of a channel in a tick in which it is active. -/
def chanSlots (ch : Channel) : List Slotted :=
  (List.range ch.k).flatMap fun j =>
    let ac := sendAc ch j
    ((sendFlits ch ac (List.replicate ch.w ({}, false))).zipIdx).flatMap (fun e => wordSlots ch ac e.2 e.1)
/-- R111, R118: no slot is taken twice, and no link slot is the management plane's. -/
def slotsOk (chans : List Channel) : Bool :=
  let ss := chans.flatMap chanSlots
  decide ss.Nodup && ss.all (fun e => e.1 != 0 || e.2.2.2.2 % 32 != 3)

/-! HBM command streams (R173, Table 8-3). Times in ps. -/

/-- A command for the purpose of spacings: what it does to its bank. -/
inductive HbmKind where
  | act | rd | wr | pre | refresh | scrub
  deriving DecidableEq, Repr
def hbmKind (cmd : Nat) : HbmKind :=
  match cmd with
  | 1 => .act
  | 2 | 3 => .rd
  | 4 | 5 => .wr
  | 6 | 7 => .pre
  | 8 => .refresh
  | _ => .scrub
/-- Whether a command concerns a bank: precharge all concerns every one. -/
def hbmTouches (e : HbmCmd) (bank : Nat) : Bool := e.cmd == 7 || e.bank == bank
/-- Bank group of a bank (R257: 4 groups of 4 in a SID). -/
def bankGroup (b : Nat) : Nat := b / 4

/-- Table 8-3: the least spacing of two commands of a pseudo-channel, the earlier first (log entry 103). -/
def hbmSpacing (a b : HbmCmd) : Nat :=
  let same := hbmTouches a b.bank || hbmTouches b a.bank
  let group := bankGroup a.bank == bankGroup b.bank
  let ap := a.cmd == 3 || a.cmd == 5
  match hbmKind a.cmd, hbmKind b.cmd with
  | .act, .act => if same then 43000 else if group then 3750 else 2500
  | .act, .rd | .act, .wr => if same then 14000 else 0
  | .act, .pre => if same then 29000 else 0
  | .act, _ => if same then 29000 + 14000 else 0
  | .rd, .rd | .wr, .wr => if group then 2500 else 1250
  | .rd, .wr => 5000
  | .wr, .rd => if group then 7500 else 2500
  | .rd, .pre => if same then 5000 else 0
  | .wr, .pre => if same then 16000 else 0
  | .rd, _ => if same && ap then 5000 + 14000 else 0
  | .wr, _ => if same && ap then 16000 + 14000 else 0
  | .pre, .pre => 0
  | .pre, _ => if same then 14000 else 0
  | .refresh, .refresh => if same then 160000 else 5000
  | .refresh, _ => if same then 160000 else 0
  | .scrub, _ => if same then 60000 else 0

/-- R173: a spacing of t ps at a step, in fc. -/
def spacingFc (step t : Nat) : Nat := cdiv (t * 4 * stepMhz step) 1000000 + 1
/-- R173: every pair of entries keeps its spacing at step SX. -/
def spacingsOk (sx : Nat) : List HbmCmd → Bool
  | [] => true
  | a :: rest => rest.all (fun b => hbmSpacing a b = 0 || decide (a.fc + spacingFc sx (hbmSpacing a b) ≤ b.fc)) && spacingsOk sx rest
/-- tFAW: a fifth ACT of a SID stands 15 ns after the first. -/
def fawOk (sx : Nat) : List HbmCmd → Bool
  | a :: b :: c :: d :: e :: rest => decide (a.fc + spacingFc sx 15000 ≤ e.fc) && fawOk sx (b :: c :: d :: e :: rest)
  | _ => true
/-- R170: a refresh or scrub slot finds its bank precharged: the last ACT of the bank was followed by a precharge. -/
def bankClosed : List HbmCmd → Nat → Bool → Bool
  | [], _, _ => true
  | e :: rest, bank, isOpen =>
    if !hbmTouches e bank then bankClosed rest bank isOpen
    else match hbmKind e.cmd with
      | .act => bankClosed rest bank true
      | .pre => bankClosed rest bank false
      | .refresh | .scrub => !isOpen && bankClosed rest bank false
      | _ => bankClosed rest bank (isOpen && !(e.cmd == 3 || e.cmd == 5))
/-- R173: the gaps between a bank's refresh slots, from the start to the end of the work window, are at most n fc. -/
def gapsOk (n last stop : Nat) : List Nat → Bool
  | [] => decide (stop ≤ last + n)
  | f :: rest => decide (f ≤ last + n) && gapsOk n f stop rest
/-- R173 for the commands of a pseudo-channel in a tick. -/
def streamCertOk (k : Cert) (es : List HbmCmd) : Bool :=
  spacingsOk k.sx es
    && (List.range 3).all (fun sid => fawOk k.sx (es.filter (fun e => e.cmd == 1 && e.bank / 16 == sid)))
    && (List.range 48).all (fun b => bankClosed es b false
      && gapsOk (975 * 4 * stepMhz k.sc / 1000) 0 (4 * k.lw) ((es.filter (fun e => e.cmd == 8 && e.bank == b)).map (·.fc)))
/-- The entries of a pseudo-channel that an overlay set makes active, in order of FC (R168). -/
def activeStream (p : Plan) (mask pc : Nat) : List HbmCmd :=
  let on (x : Nat × HbmCmd) : Bool := bitOf mask x.1 && (match planFn p x.2.fn with | some f => bitOf mask f.overlay | none => true)
  (((hbmEntries p pc).filter on).map (·.2)).insertionSort (fun a b => a.fc ≤ b.fc)
/-- R173 for every pseudo-channel that the plan uses. -/
def hbmCertOk (p : Plan) (mask : Nat) : Bool :=
  (List.range 32).all (fun pc => !(secsOf p 0x0008).any (fun s => s.item == pc) || streamCertOk p.cert (activeStream p mask pc))

/-! The run. -/

/-- The active channels of a position under a set (R109). -/
def runChannels (p : Plan) (mask pos : Nat) : List Channel := (planChannels p).filter (channelActive mask pos)
/-- One tick: whether it kept every rule, and the tiles after it. -/
def checkTick (p : Plan) (mask pos : Nat) (rs : List (Nat × TileRun)) : Bool × List (Nat × TileRun) :=
  let chans := runChannels p mask pos
  let out := runTick p.cert.lw mask pos chans rs
  (slotsOk chans && hbmCertOk p mask && tilesOk out, out)
/-- The positions of a set from one on: the first that breaks a rule. -/
def checkSet (p : Plan) (mask : Nat) : Nat → Nat → List (Nat × TileRun) → Option Nat
  | 0, _, _ => none
  | n + 1, pos, rs =>
    let r := checkTick p mask pos rs
    if r.1 then checkSet p mask n (pos + 1) r.2 else some pos
/-- R155: every position of every set of SETS, back to back: the set index and position of the first failure. -/
def checkRun (p : Plan) : Option (Nat × Nat) :=
  (p.cert.sets.zipIdx).findSome? fun e =>
    (checkSet p e.1 p.cert.hp 0 ((planPrograms p).map (fun g => (g.tile, runTile p g)))).map (fun pos => (e.2, pos))
/-- Ticks that a check run does, the failing one not counted. -/
def checkTicks (p : Plan) : Nat :=
  match checkRun p with | some (s, pos) => s * p.cert.hp + pos | none => p.cert.sets.length * p.cert.hp

end Sys2Proof.Machine
end

