-- ==== Sys2Proof/Machine/PlanCheck.lean ====
section
/-! DEFINITION. The field rules of plan validation for tile programs and channels: bundles (Tables 3-4 to 3-9), AODs, AGDs
(Tables 3-12, 3-13), channel descriptors (Table 4-3). -/

namespace Sys2Proof.Machine

/-- Reserved bytes [off, off + n) of an entry are zero (R18). -/
def zeroBytes (d : List Byte) (off n : Nat) : Bool := (bytesAt d off n).all (· == 0)

/-! Bundles (R72). -/

/-- Table 3-5; s14 and s15 are not written (R78). -/
def ctlOk (n : Nat) : Bool :=
  match fld n 23 20 with
  | 0 => fld n 19 0 == 0
  | 1 | 2 | 3 => decide (fld n 19 16 < 14)
  | 4 => fld n 13 12 == 0
  | 5 | 9 => fld n 19 12 == 0
  | 6 | 7 => true
  | 8 => fld n 19 16 == 0
  | _ => false

/-- Table 3-6; an MRUN's entries stay below 64 (R83) and its window slot below 15 (R90). -/
def mxuOk (n : Nat) : Bool :=
  match fld n 31 28 with
  | 0 => fld n 27 0 == 0
  | 1 => fld n 19 0 == 0
  | 2 => fld n 8 0 == 0
  | 3 => decide (fld n 18 13 + fld n 12 8 + 1 ≤ 64) && !(bitOf n 27 && fld n 26 23 == 15)
  | 4 => !bitOf n 27 && fld n 7 0 == 0
  | _ => false

/-- Table 3-7; a compare's target mask is 1-7 (R74). -/
def vecOk (n : Nat) : Bool :=
  let op := fld n 31 26
  if op = 7 then !bitOf n 3 && fld n 2 0 != 0
  else if op = 0x16 then fld n 1 0 == 0 && decide (fld n 6 3 ≤ 0xD)
  else if op = 0x1A then !bitOf n 0
  else if op = 0x1B then true
  else decide (op ≤ 0x1C) && fld n 6 0 == 0

/-- Table 3-8; formats VLDC accepts (R96), row slots 0-14 (R90), masks 1-7 (R74). -/
def memOk (n : Nat) : Bool :=
  match fld n 19 16 with
  | 0 => fld n 15 0 == 0
  | 1 => fld n 6 0 == 0
  | 2 => fld n 1 0 == 0 && decide (fld n 6 3 ≤ 0xB) && fld n 6 3 != 6 && fld n 6 3 != 7
  | 3 => fld n 5 3 == 0
  | 4 => fld n 15 12 != 15
  | 5 => fld n 15 11 == 0 && fld n 4 0 == 0
  | 6 => fld n 15 11 == 0 && fld n 6 0 == 0
  | 7 => fld n 15 11 == 0 && fld n 2 0 == 0
  | 8 => fld n 15 9 == 0 && fld n 2 0 == 0
  | 9 => fld n 15 13 != 0 && fld n 12 11 == 0 && fld n 6 0 == 0
  | _ => false

/-- Table 3-9. -/
def fabOk (n : Nat) : Bool := if fld n 19 16 = 0 then fld n 15 0 == 0 else decide (fld n 19 16 ≤ 2)

/-- Registers a bundle's slots write: scalar s, vector 0x100 + v, mask 0x200 + m, AGD 0x300 + i, AOD 0x400 + i. -/
def bundleWrites (b : Nat) : List Nat :=
  let ctl := fld b 127 104
  let vec := fld b 71 40
  let mem := fld b 39 20
  let c := if fld ctl 23 20 = 1 || fld ctl 23 20 = 2 || fld ctl 23 20 = 3 then [fld ctl 19 16] else []
  let v := if fld vec 31 26 = 0 then [] else if fld vec 31 26 = 7 then [0x200 + fld vec 2 0] else [0x100 + fld vec 25 21]
  let m := match fld mem 19 16 with
    | 1 | 2 => [0x100 + fld mem 15 11]
    | 7 => [0x300 + fld mem 10 7]
    | 8 => (List.range 4).map (fun i => 0x400 + 4 * fld mem 8 7 + i)
    | 9 => [0x200 + fld mem 15 13]
    | _ => []
  c ++ v ++ m

/-- R72: no reserved opcode or field, no register written by two slots. -/
def bundleOk (b : Nat) : Bool :=
  ctlOk (fld b 127 104) && mxuOk (fld b 103 72) && vecOk (fld b 71 40) && memOk (fld b 39 20) && fabOk (fld b 19 0)
    && decide (bundleWrites b).Nodup

/-! Page-slot windows of a tile (R226, R253). -/

/-- A window of a tile's page-slot table: first entry, entries, the ranges (lowest, highest) of the page-slot values that the
serving unit writes there (R86), and PGW where a pool fixes it (R226). -/
structure PageWindow where
  first : Nat
  n : Nat
  values : List (Nat × Nat)
  pgw : Option Nat

/-- Adapters that a slot's adapter window in a tile serves (R253). -/
def slotAdapters (p : Plan) (t : Nat) (s : RSlot) : List AdDecl := (planAdapters p).filter (fun d => d.fn == slotFn p s && d.tiles.contains t)
/-- A position window in a tile of the groups that hold the slot's segments (R239). -/
def posWindow (p : Plan) (t : Nat) (s : RSlot) : Option PageWindow :=
  match planPool p s.pool with
  | none => none
  | some q =>
    if ((q.groups.drop s.g0).take s.nseg).any (·.contains t) then some ⟨s.pti, slotSeg s, [(0, q.nks - 1)], some q.pgw⟩ else none
/-- A pool's lane windows in each of its tiles. -/
def laneWindow (t : Nat) (q : Pool) : Option PageWindow :=
  if q.groups.any (·.contains t) && decide (0 < q.inLanes + q.outLanes)
  then some ⟨q.lanePti, 32 * (q.inLanes + q.outLanes), [(0, q.nks - 1)], some q.pgw⟩
  else none
/-- A slot's adapter window in an adapter tile: the version buffers' ranges and that of NULL_SLOT. -/
def adWindow (p : Plan) (t : Nat) (s : RSlot) : Option PageWindow :=
  let ds := slotAdapters p t s
  if ds.isEmpty then none
  else some ⟨s.adpti, ds.foldl (fun m d => max m d.awin) 0,
    ds.flatMap (fun d => [d.v0, d.v1, planNullSlot p].map (fun v => (v, v + d.awin - 1))), none⟩
def tileWindows (p : Plan) (t : Nat) : List PageWindow :=
  (planRSlots p).filterMap (posWindow p t) ++ (planPools p).filterMap (laneWindow t) ++ (planRSlots p).filterMap (adWindow p t)
/-- R226: no window overlaps another or runs past entry 255. -/
def windowsOk (p : Plan) (t : Nat) : Bool :=
  let ws := tileWindows p t
  ws.all (fun w => decide (w.first + w.n ≤ 256))
    && decide (ws.Pairwise (fun a b => a.first + a.n ≤ b.first ∨ b.first + b.n ≤ a.first))

/-! AGDs (R86-R88). A set of word addresses is a bit mask: bit a stands for address a. -/

/-- S moved up by k, modulo m. -/
def rotSet (m S k : Nat) : Nat := let x := S <<< (k % m); x % 2 ^ m ||| x >>> m
/-- The union of n copies of S, each st further on modulo m; fuel 17 serves every extent. -/
def spreadSet (m S st : Nat) : Nat → Nat → Nat
  | 0, _ => S
  | f + 1, n =>
    if n ≤ 1 then S
    else
      let h := spreadSet m S st f (n / 2)
      let d := h ||| rotSet m h (n / 2 * st)
      if n % 2 = 1 then d ||| rotSet m S ((n - 1) * st) else d
/-- R86: every address a of a walk, after CL and modulo 16,384 (all extents at least 1). -/
def walkSet (d : W256) : Nat :=
  let n := d.toNat
  let cl := fld n 81 68
  let cb := if cl = 0 then 0 else fld n 95 82
  let m := if cl = 0 then 16384 else cl
  let st (hi lo : Nat) : Nat := (sx 16 (fld n hi lo) % (m : Int)).toNat
  let base := (((fld n 251 238 : Nat) : Int) - cb) % (m : Int)
  let dims := [(fld n 223 208, st 159 144), (fld n 207 192, st 143 128), (fld n 191 176, st 127 112), (fld n 175 160, st 111 96)]
  rotSet 16384 (dims.foldl (fun S x => spreadSet m S x.2 17 x.1) (1 <<< base.toNat)) cb

/-- The addresses of the SRAM regions of a function in a tile. -/
def fnSet (p : Plan) (t f : Nat) : Nat :=
  (planRegions p).foldl (fun S r => if !r.hbm && r.tile == t && r.fn == f then S ||| ((2 ^ min r.length 16384 - 1) <<< r.base) else S) 0
/-- The addresses lie in the SRAM regions of one function in the tile (R86). -/
def inRegions (p : Plan) (t S : Nat) : Bool :=
  (((planRegions p).map (·.fn)).dedup).any (fun f => S &&& fnSet p t f == S)

/-- The offsets in its page that a walk S reads through page-slot entry e. -/
def entryOffsets (d : W256) (S e : Nat) : Nat :=
  let n := d.toNat
  let size : Nat := 2 ^ fld n 59 56
  let s : Int := ((fld n 251 238 : Nat) : Int) + ((e : Int) - (fld n 67 60 : Nat)) * (size : Int)
  (if 0 ≤ s then S >>> s.toNat else if -s < size then S <<< (-s).toNat else 0) % 2 ^ size
/-- The values that the serving unit can write into entry e (R86); an entry outside every window keeps 0. -/
def entryValues (ws : List PageWindow) (e : Nat) : List (Nat × Nat) :=
  let vs := ws.flatMap (fun w => if w.first ≤ e ∧ e < w.first + w.n then w.values else [])
  if vs.isEmpty then [(0, 0)] else vs
/-- R86: pa over offsets L of a page and slot values lo to hi; none past the last word of the SRAM. -/
def pageSet (d : W256) (L : Nat) (v : Nat × Nat) : Option Nat :=
  let n := d.toNat
  let pgw := fld n 59 56
  let at0 := fld n 251 238 + v.1 * 2 ^ pgw
  if fld n 251 238 + v.2 * 2 ^ pgw + L.log2 < 16384
  then some (spreadSet 16384 (rotSet 16384 L at0) (2 ^ pgw) 17 (v.2 - v.1 + 1))
  else none
/-- R86: a PAGED walk over the addresses S, all in one half (the upper one where `up`). -/
def pagedHalf (p : Plan) (t : Nat) (d : W256) (S : Nat) (up : Bool) : Option Nat :=
  let ws := tileWindows p t
  (List.range 256).foldl (fun acc e =>
    let L := entryOffsets d S e
    if L = 0 then acc
    else if ws.any (fun w => decide (w.first ≤ e) && decide (e < w.first + w.n) && w.pgw.isSome && w.pgw != some (fld d.toNat 59 56)) then none
    else (entryValues ws e).foldl (fun acc v =>
      match acc, pageSet d L v with
      | some U, some P => if (if up then P % 2 ^ 8192 else P >>> 8192) = 0 then some (U ||| P) else none
      | _, _ => none) acc) (some 0)
/-- R86, R226: a PAGED walk: every entry it reads exists, PGW is the pool's, every address it can reach lies in the function's
regions and in the half of a. -/
def pagedOk (p : Plan) (t : Nat) (d : W256) : Bool :=
  let n := d.toNat
  let pgw := fld n 59 56
  let S := walkSet d
  let base : Int := (fld n 251 238 : Nat)
  let pti : Int := (fld n 67 60 : Nat)
  let entries : Bool := (List.range 16384).all (fun a => !S.testBit a ||
    (decide (0 ≤ pti + ((a : Int) - base) / ((2 ^ pgw : Nat) : Int)) && decide (pti + ((a : Int) - base) / ((2 ^ pgw : Nat) : Int) < 256)))
  decide (4 ≤ pgw) && decide (pgw ≤ 13) && entries
    && (match pagedHalf p t d (S % 2 ^ 8192) false, pagedHalf p t d (S >>> 8192 <<< 8192) true with
      | some a, some b => inRegions p t (a ||| b)
      | _, _ => false)

/-- R86: a LINEAR or PAGED descriptor. -/
def linearOk (p : Plan) (t : Nat) (d : W256) : Bool :=
  let n := d.toNat
  fld n 223 208 != 0 && fld n 207 192 != 0 && fld n 191 176 != 0 && fld n 175 160 != 0 && fld n 55 0 == 0
    && (if agdMode d = 0 then inRegions p t (walkSet d) else pagedOk p t d)

/-- R87, R88: a WINDOW descriptor. -/
def windowOk (d : W256) : Bool :=
  let n := d.toNat
  let v := winOf d
  fld n 53 0 == 0 && fld n 191 188 != 15 && fld n 187 184 != 15 && decide (0 < v.h) && decide (0 < v.w)
    && decide (v.w * (fld n 221 216 + 1) ≤ fld n 235 222) && decide (1 ≤ winHo v) && decide (1 ≤ winWo v) && decide (fld n 73 70 ≤ 0xD)

/-- An AGD image of a tile; one left at its reset value is not in use. -/
def agdImageOk (p : Plan) (t : Nat) (d : W256) : Bool :=
  d == 0 || (match agdMode d with
    | 0 | 2 => linearOk p t d
    | 1 => windowOk d
    | _ => false)

/-- R151, R72, R37: a tile program section. -/
def programOk (p : Plan) (s : Section) : Bool :=
  let n := numAt s.data 4 2
  let g := tileProgramOf s
  decide (s.item < 2048) && decide (1 ≤ n) && decide (n ≤ 4096) && s.data.length == 656 + 16 * n
    && decide (numAt s.data 0 2 < 4096) && decide (numAt s.data 2 2 < 4096) && zeroBytes s.data 6 10
    && g.aods.all aodOk && g.agds.all (agdImageOk p s.item) && g.bundles.all (fun b => bundleOk b.toNat)

/-! Channels (R108-R116). -/

/-- Edge ports that plan channels may use: S0-S53, S61, S62 and N0-N63 (Table 4-1, R292). -/
def planPort (n : Nat) : Bool := decide (n < 64 + 54) || n == 64 + 61 || n == 64 + 62

/-- A channel descriptor of an overlay's section (R108-R116). -/
def channelOk (p : Plan) (ovl : Nat) (ch : Channel) : Bool :=
  let edgeSrc := ch.kind == 1
  let edgeDst := ch.kind == 2
  decide (ch.kind ≤ 2) && ch.reserved == 0 && ch.ovl == ovl
    && (if edgeSrc then planPort ch.src && ch.rt && ch.sh == 0 else decide (ch.src < 2048))
    && (if edgeDst then planPort ch.dst && !ch.rt && ch.dh == 0 else decide (ch.dst < 2048))
    && decide (ch.ph + ch.w ≤ 4) && decide (ch.tpl ≤ 12) && p.cert.hp % 2 ^ ch.tpl == 0 && decide (ch.tOff < 2 ^ ch.tpl)
    && decide (0 < ch.k) && (ch.p != 0 || ch.k == 1)
    && (!ch.inj || (edgeSrc && ch.dh == 0))
    && (if edgeDst || ch.inj then ch.dly == 0 else decide (dlyMin ch ≤ ch.dly) && decide (ch.dly ≤ dlyMax ch))
    && (!ch.inj || (match tileProgram p ch.dst with | some g => agdMode (g.agds.getD ch.iagd 0) != 1 | none => true))

/-- The channels of an overlay's section. -/
def ovlChannels (p : Plan) (ovl : Nat) : List Channel :=
  match (secsOf p 0x0005).find? (fun s => s.overlay == ovl) with
  | none => []
  | some s => (secEntries 32 s).map channelOf

/-- A word of a channel leaves or reaches an edge port in a given fc. -/
def channelAt (ch : Channel) (fc : Nat) : Bool :=
  let lag := if ch.kind = 2 then chanHops ch + 2 * chanStages ch else 0
  decide (lag ≤ fc) && (List.range ch.w).any (fun i => (slotSend ch (fc - lag) i).isSome)

end Sys2Proof.Machine
end

