-- ==== Sys2Proof/Machine/Validate.lean ====
section
/-! DEFINITION. Validation of a staged plan image up to the check run (spec/05_ticks_and_plans.md R145-R154, R161, with the
field rules of chapters 6 to 9). The rules that R155 gives the check run's hardware monitors are its outcome. -/

namespace Sys2Proof.Machine

/-- Class and detail of a failure (Table 5-11). -/
abbrev Fail := Nat × Nat

/-- Status a class posts in 2100.02 (Table 5-11). -/
def classStatus (k : Nat) : Nat :=
  match k with
  | 1 | 6 => stIntegrity
  | 3 => stVersion
  | 4 => stState
  | 7 | 9 => stNoResource
  | _ => stRange

/-- The first condition of a list that fails, with its detail. -/
def failOf (k : Nat) (l : List (Bool × Nat)) : Option Fail := (l.find? (fun e => !e.1)).map (fun e => (k, e.2))

/-! Header, section table and trailer (Tables 5-3, 5-4, R153). -/

def imgSize (b : List Byte) : Nat := numAt b 0x10 8
/-- Start of the trailer. -/
def trailerAt (b : List Byte) : Nat := imgSize b - 2460

/-- MAGIC and IMG_SIZE; the trailer starts at a multiple of 64 (R145, R154). -/
def magicFail (size : Nat) (b : List Byte) : Option Fail :=
  failOf 2 [(numAt b 0 8 == 0x5453414D45, 0x000), (imgSize b == size && decide (0x120 + 2460 ≤ size) && (size - 2460) % 64 == 0, 0x010)]

/-- R153: digest, and signature under the plan-signing key of KEY_SLOT. -/
def signatureFail (c : Chip) (b : List Byte) : Option Fail :=
  let t := b.drop (trailerAt b)
  let digest := t.take 32
  let slot := numAt t 32 1
  if sha3Bytes (b.take (trailerAt b)) == digest && decide (slot ≤ 7)
      && Config.dsaOk (blobGet c 0x2720 (slot + 1) 0) digest (bytesAt t 40 2420) then none
  else some (1, 0)

/-- REDUCED_COLS of a quarter (R131). -/
def colsOk (b : List Byte) (q : Nat) : Bool :=
  let f1 := numAt b (0x64 + 2 * q) 1
  let f2 := numAt b (0x65 + 2 * q) 1
  if numAt b (0x60 + q) 1 = 0 then f1 == 0xFF && f2 == 0xFF else decide (f1 < f2) && decide (f2 ≤ 32) && targetClass [f1, f2] == 1

/-- Table 5-3. -/
def headerFail (b : List Byte) : Option Fail :=
  if numAt b 8 2 ≠ 1 then some (3, 0x008)
  else
    let secs := numAt b 0x18 4
    let size := numAt b 0x58 1
    failOf 2 [(numAt b 0xC 4 == 0x100, 0x00C), (decide (1 ≤ secs) && decide (secs ≤ 4096) && decide (0x100 + 32 * secs ≤ trailerAt b), 0x018)
             , (numAt b 0x1C 4 == 0x100, 0x01C), (decide (1 ≤ size) && decide (size ≤ 8), 0x058), (decide (numAt b 0x59 1 < size), 0x059)
             , (bitOf (numAt b 0x5A 2) 0, 0x05A), (decide (1 ≤ numAt b 0x5C 2) && decide (numAt b 0x5C 2 ≤ 1024), 0x05C)
             , (decide (1 ≤ numAt b 0x5E 2) && decide (numAt b 0x5E 2 ≤ 4096), 0x05E)
             , ((List.range 4).all (fun q => decide (numAt b (0x60 + q) 1 ≤ 1)), 0x060), ((List.range 4).all (colsOk b), 0x064)
             , (zeroBytes b 0x80 128, 0x080), (zeroBytes (b.drop (trailerAt b)) 33 7, trailerAt b + 33)]

/-- A section table entry as it stands in the image: its fields, offset and length. -/
structure SecEntry where
  at_ : Nat
  type : Nat
  overlay : Nat
  flags : Nat
  item : Nat
  off : Nat
  len : Nat
  keyTenant : Nat
  keyGen : Nat

def secEntry (b : List Byte) (i : Nat) : SecEntry :=
  let a := 0x100 + 32 * i
  { at_ := a, type := numAt b a 2, overlay := numAt b (a + 2) 1, flags := numAt b (a + 3) 1, item := numAt b (a + 4) 4
    off := numAt b (a + 8) 8, len := numAt b (a + 0x10) 8, keyTenant := numAt b (a + 0x18) 2, keyGen := numAt b (a + 0x1A) 1 }
def secTable (b : List Byte) : List SecEntry := (List.range (numAt b 0x18 4)).map (secEntry b)

/-- ITEM of a type (Table 5-5). -/
def itemOk (e : SecEntry) : Bool :=
  match e.type with
  | 0x0004 => decide (e.item < 2048)
  | 0x0007 => decide (e.item < 65536)
  | 0x0008 => decide (e.item < 32)
  | 0x000C => decide (e.item < 4)
  | 0x000D => decide (e.item < 2)
  | 0x000E => decide (e.item < 8)
  | _ => e.item == 0
/-- Types whose sections every overlay may have. -/
def perOverlay (type : Nat) : Bool := [0x0002, 0x0004, 0x0005, 0x0007, 0x0008, 0x000A, 0x000B, 0x000C, 0x000D, 0x000E, 0x0013].contains type
/-- Two entries that Table 5-5 allows only once. -/
def sameSection (a b : SecEntry) : Bool :=
  a.type == b.type && (match a.type with
    | 0x0004 | 0x0007 | 0x0008 => a.item == b.item
    | 0x0002 | 0x0005 | 0x000A | 0x000B | 0x0013 => a.overlay == b.overlay
    | 0x000C | 0x000D | 0x000E => a.item == b.item && a.overlay == b.overlay
    | _ => true)

/-- The checks of one entry; prev is the end of the section before it. -/
def entryFail (b : List Byte) (earlier : List SecEntry) (prev : Nat) (e : SecEntry) : Option Fail :=
  failOf 2 [(decide (1 ≤ e.type) && decide (e.type ≤ 0x13), e.at_)
           , (if perOverlay e.type then decide (e.overlay ≤ 15) && bitOf (numAt b 0x5A 2) e.overlay else e.overlay == 0, e.at_ + 2)
           , (decide (e.flags ≤ 1), e.at_ + 3), (itemOk e, e.at_ + 4), (e.off % 64 == 0 && decide (prev ≤ e.off), e.at_ + 8)
           , (decide (e.off + e.len ≤ trailerAt b), e.at_ + 0x10), (decide (e.keyTenant ≤ 4095), e.at_ + 0x18)
           , (decide (e.keyGen ≤ 1), e.at_ + 0x1A), (zeroBytes b (e.at_ + 0x1B) 5, e.at_ + 0x1B)
           , (!earlier.any (fun x => sameSection x e), e.at_), (zeroBytes b prev (e.off - prev), prev)]

def entriesFail (b : List Byte) : List SecEntry → List SecEntry → Nat → Option Fail
  | [], _, prev => failOf 2 [(zeroBytes b prev (trailerAt b - prev), prev)]
  | e :: t, earlier, prev =>
    match entryFail b earlier prev e with
    | some f => some f
    | none => entriesFail b t (e :: earlier) (e.off + e.len)

/-- Tables 5-4 and 5-5. -/
def tableFail (b : List Byte) : Option Fail :=
  let es := secTable b
  let mask := numAt b 0x5A 2
  let has (t ovl : Nat) : Bool := es.any (fun e => e.type == t && e.overlay == ovl)
  let ovls := (List.range 16).filter (bitOf mask)
  match entriesFail b es [] (0x100 + 32 * es.length) with
  | some f => some f
  | none => failOf 2 [(has 1 0 && has 6 0 && has 9 0 && (mask == 1 || has 3 0) && ovls.all (has 2) && ovls.all (has 5), 0x018)]

/-! The plan of an image. -/

def certOf (d : List Byte) : Cert :=
  { sc := numAt d 0 1, sx := numAt d 1 1, tickQ := numAt d 2 2, hp := numAt d 4 2, sa := numAt d 6 2, lw := numAt d 8 4, ls := numAt d 0xC 4
    margin := numAt d 0x10 4, hbmSet := numAt d 0x14 4, rret := numAt d 0x18 2, wpre := numAt d 0x1A 2
    sets := (List.range (numAt d 0x1C 2)).map (fun i => numAt d (0x20 + 2 * i) 2) }

/-- The image's header fields and its sections. -/
def planOf (b : List Byte) (secs : List Section) : Plan :=
  let t := b.drop (trailerAt b)
  { planId := bytesAt b 0x20 16, version := numAt b 0x30 4, wiringHash := bytesAt b 0x38 32, domainSize := numAt b 0x58 1
    domainPos := numAt b 0x59 1, overlayMask := numAt b 0x5A 2, fnCount := numAt b 0x5C 2, tenantCount := numAt b 0x5E 2
    targetClass := (List.range 4).map (fun q => numAt b (0x60 + q) 1), reducedCols := (List.range 8).map (fun i => numAt b (0x64 + i) 1)
    ucodeMin := numAt b 0x6C 4, yarrowMin := numAt b 0x70 4, linkMin := numAt b 0x74 4, hbmBytes := numAt b 0x78 8
    keySlot := numAt t 32 1, digest := t.take 32
    cert := certOf (match secs.find? (fun s => s.type == 1) with | some s => s.data | none => []), sections := secs }

/-- A section as stored. -/
def rawSection (b : List Byte) (e : SecEntry) : Section :=
  { type := e.type, overlay := e.overlay, enc := bitOf e.flags 0, item := e.item, keyTenant := e.keyTenant, keyGen := e.keyGen
    data := bytesAt b e.off e.len }

/-- R277, R331: the plaintext of a section of the image, or the class it fails with. -/
def openSection (c : Chip) (b : List Byte) (e : SecEntry) : Except Nat Section :=
  let s := rawSection b e
  if !s.enc then .ok s
  else match keyAt c 0 s.keyTenant s.keyGen with
    | none => .error 7
    | some k =>
      let d := s.data
      if k.st = .retired || d.length < 28 then .error 6
      else match gcmOpen k.key (d.take 12) (bytesAt b e.at_ 32) ((d.drop 12).take (d.length - 28)) (d.drop (d.length - 16)) with
        | none => .error 6
        | some pt => .ok { s with data := pt }

/-- Every section opened, or the first failure with its section index. -/
def openSections (c : Chip) (b : List Byte) : List (SecEntry × Nat) → List Section → Except Fail (List Section)
  | [], done => .ok done.reverse
  | (e, i) :: t, done =>
    match openSection c b e with
    | .error k => .error (k, i)
    | .ok s => openSections c b t (s :: done)

/-! Ranges of Tables 5-6 to 5-9 and of R149 to R151. -/

/-- The first section of a type that fails a test: class 5 with its index. -/
def secFail (p : Plan) (type : Nat) (ok : Section → Bool) : Option Fail :=
  (p.sections.zipIdx.find? (fun e => e.1.type == type && !ok e.1)).map (fun e => (5, e.2))

/-- ac per tick at a step (R136). -/
def acPerTick (p : Plan) (s : Nat) : Nat := p.cert.tickQ * 250 * stepMhz s

/-- Table 5-6, R144. -/
def certOk (p : Plan) (s : Section) : Bool :=
  let k := p.cert
  s.data.length == 256 && decide (k.sc ≤ k.sx) && decide (k.sx ≤ 6) && (p.domainSize == 1 || decide (k.sx ≤ 5))
    && decide (2 ≤ k.tickQ) && decide (k.tickQ ≤ 40) && decide (1 ≤ k.hp) && decide (k.hp ≤ 4096) && k.sa != 0 && k.hp % k.sa == 0
    && decide (32 ≤ k.ls) && k.margin == 40 && decide (1 ≤ k.sets.length) && decide (k.sets.length ≤ 64)
    && decide ((4000 + k.lw + k.ls) * 104 ≤ acPerTick p k.sc * 100)
    && (!(secsOf p 3).isEmpty || k.sets.contains 1) && k.sets.all (fun m => bitOf m 0 && m &&& p.overlayMask == m)
    && zeroBytes s.data 0x1E 2 && zeroBytes s.data (0x20 + 2 * k.sets.length) (128 - 2 * k.sets.length) && zeroBytes s.data 0xC0 64

/-- R149. -/
def phaseOk (p : Plan) (s : Section) : Bool :=
  let n := 8 * cdiv p.cert.hp 8
  s.data.length == n + 512 && (List.range p.cert.hp).all (fun i => decide (numAt s.data i 1 < 64))
    && zeroBytes s.data p.cert.hp (n - p.cert.hp) && (List.range 64).all (fun i => zeroBytes s.data (n + 8 * i + 6) 2)

/-- R150: a set is reachable from a requestable mask. -/
def reachable (p : Plan) (r s : Nat) : Bool :=
  bitOf s 0 && s &&& r == s && (List.range 16).all (fun n => !bitOf s n || (ovlEntry p n).1 &&& s == (ovlEntry p n).1)

/-- R150: the overlay table, with every requestable mask and every set reachable from one in SETS. -/
def overlaysOk (p : Plan) (s : Section) : Bool :=
  let cnt := numAt s.data 120 2
  s.data.length == 124 + 2 * cnt && decide (1 ≤ cnt) && decide (cnt ≤ 64) && zeroBytes s.data 122 2
    && (List.range 15).all (fun i =>
      let e := numAt s.data (8 * i) 8
      fld e 63 33 == 0 && bitOf e 32 == bitOf p.overlayMask (i + 1)
        && (!bitOf e 32 || (fld e 31 16 != 0 && p.cert.hp % fld e 31 16 == 0 && fld e 15 0 &&& p.overlayMask == fld e 15 0)))
    && (requestable p).all (fun r => bitOf r 0 && r &&& p.overlayMask == r && p.cert.sets.contains r
      && (List.range 65536).all (fun x => !reachable p r x || p.cert.sets.contains x))

/-- Table 5-8. -/
def fnOk (p : Plan) (e : List Byte) : Bool :=
  let f := fnOf e
  decide (f.fn ≤ 1023) && decide (f.kind ≤ 3) && (decide (f.kind = 3) == decide (f.fn = 0)) && decide (f.overlay ≤ 15)
    && bitOf p.overlayMask f.overlay && decide (f.tenant ≤ 4095) && decide (numAt e 6 1 ≤ 1) && zeroBytes e 7 1 && zeroBytes e 0xA 6
    && decide (f.donePos < p.cert.hp)
def fnTableOk (p : Plan) (s : Section) : Bool :=
  s.data.length == 16 * p.fnCount && (secEntries 16 s).all (fnOk p) && decide ((planFns p).map (·.fn)).Nodup

/-- Table 5-7, with its initial data. -/
def regionOk (p : Plan) (i : Nat) (e : List Byte) : Bool :=
  let r := regionOf e
  let bytes := if r.hbm then r.length else 32 * r.length
  decide (numAt e 0 1 ≤ 1) && decide (r.cls ≤ 2) && (planFn p r.fn).isSome && decide (r.tenant ≤ 4095) && zeroBytes e 0x1A 6
    && (if r.hbm then r.tile == 0xFFFF && r.base % 64 == 0 && r.length % 64 == 0
        else decide (r.tile < 2048) && decide (r.base < 16384) && decide (r.base + r.length ≤ 16384))
    && (r.init == 0xFFFF || (match p.sections[r.init]? with
        | some s => s.type == 7 && s.item == i && decide (s.data.length ≤ bytes)
        | none => false))
/-- Two regions share a word or a line. -/
def regionsMeet (a b : Region) : Bool :=
  a.hbm == b.hbm && a.tile == b.tile && decide (a.base < b.base + b.length) && decide (b.base < a.base + a.length)
/-- R152: the region table; regions of different tenants do not meet. -/
def regionTableOk (p : Plan) (s : Section) : Bool :=
  let rs := planRegions p
  s.data.length % 32 == 0 && ((secEntries 32 s).zipIdx).all (fun e => regionOk p e.2 e.1)
    && rs.all (fun a => rs.all (fun b => a.tenant == b.tenant || !regionsMeet a b))

/-- R168, Table 5-9, R260 for one entry; the rows open so far in the stream, by bank. -/
def hbmEntryOk (p : Plan) (pc : Nat) (open_ : Cells Nat) (e : HbmCmd) : Bool :=
  let act := e.cmd == 1
  let col := decide (2 ≤ e.cmd) && decide (e.cmd ≤ 5)
  let rows := if e.bank / 16 = 2 then 12288 else 16368
  decide (1 ≤ e.cmd) && decide (e.cmd ≤ 9) && decide (e.bank < 48) && (planFn p e.fn).isSome
    && (if act then decide (e.addr < rows) else if col then decide (e.addr < 16) else e.addr == 0)
    && (!col || (match cellsFind open_ e.bank with
        | none => false
        | some row =>
          match keyPlanAddr (planVpcMask p) (lineKey pc (e.bank / 16) (e.bank % 16) row e.addr) with
          | none => false
          | some a => (planRegions p).any (fun r => r.hbm && (r.fn == e.fn || r.fn == 0) && decide (r.base ≤ a) && decide (a + 64 ≤ r.base + r.length))))
def hbmEntriesOk (p : Plan) (pc : Nat) : Nat → Cells Nat → List HbmCmd → Bool
  | _, _, [] => true
  | fc, open_, e :: t =>
    decide (fc ≤ e.fc) && hbmEntryOk p pc open_ e && hbmEntriesOk p pc e.fc (if e.cmd = 1 then cellsPut open_ e.bank e.addr else open_) t
/-- R168: a command stream section. -/
def hbmSectionOk (p : Plan) (s : Section) : Bool :=
  let n := numAt s.data 0 4
  s.data.length == 16 + 8 * n && numAt s.data 4 4 == s.item && zeroBytes s.data 8 8 && !bitOf (planVpcMask p) s.item
    && ((entriesOf 8 n (s.data.drop 16)).all (fun e => !bitOf (natLE e) 0))
    && hbmEntriesOk p s.item 0 [] ((entriesOf 8 n (s.data.drop 16)).map hbmCmdOf)

def firstOf (l : List (Option Fail)) : Option Fail := l.findSome? id

/-- A check that reads sections of given types, as far as it can be made: before decryption (R154 stage 1) only where they are all
stored in plaintext. -/
def judged (opened : Bool) (p : Plan) (types : List Nat) (f : Option Fail) : Option Fail :=
  if opened || p.sections.all (fun s => !s.enc || !types.contains s.type) then f else none
/-- Every section type. -/
def allTypes : List Nat := (List.range 20).drop 1

/-- The ranges of Tables 5-6 to 5-9. -/
def rangeFail (opened : Bool) (p : Plan) : Option Fail :=
  firstOf [judged opened p [1] (secFail p 1 (certOk p)), judged opened p [1, 9] (secFail p 9 (fnTableOk p))
          , judged opened p [6, 7, 9] (secFail p 6 (regionTableOk p)), judged opened p [6, 8, 9, 0xA] (secFail p 8 (hbmSectionOk p))]

/-! Versions, target class, resources. -/

/-- Versions against UCODE_MIN, YARROW_MIN, LINK_MIN and HBM_SET (R154, R261). -/
def versionFail (c : Chip) (opened : Bool) (p : Plan) : Option Fail :=
  let v (n : Nat) : Nat := match (fwActive c n).image with | some i => i.version | none => 0
  firstOf [failOf 3 [(decide (p.ucodeMin ≤ v 1), 0x06C), (decide (p.yarrowMin ≤ v 2), 0x070), (decide (p.linkMin ≤ v 3), 0x074)]
          , judged opened p [1] (failOf 3 [(p.cert.hbmSet == 0x00010001, 0x14)])]

/-- R131. -/
def targetFail (c : Chip) (p : Plan) : Option Fail := (targetMismatch c p).map (fun q => (4, q))

/-- SRAM words of a function in a tile. -/
def fnWords (p : Plan) (f t : Nat) : Nat := (((planRegions p).filter (fun r => !r.hbm && r.fn == f && r.tile == t)).map (·.length)).sum
/-- R161: a region of a function that shares its tile. -/
def sharedOk (p : Plan) (r : Region) : Bool :=
  r.hbm || !(planRegions p).any (fun x => !x.hbm && x.tile == r.tile && x.fn != r.fn) || decide (fnWords p r.fn r.tile ≤ 15744)
/-- R182, R259: a region within plan space and on one side of the boundary between the two sets; beyond it lie only the frame buffers of
streams. -/
def placeOk (p : Plan) (i : Nat) (r : Region) : Bool :=
  let edge := (pcSet (planVpcMask p) false).length * perPc
  !r.hbm || (decide (r.base + r.length ≤ 32 * perPc) && (decide (r.base + r.length ≤ edge)
    || (decide (edge ≤ r.base) && (planVideo p).any (fun v => v.fbPics != 0 && v.fbRegion == i))))
/-- R268: transient HBM bytes of the regions up to and including i. -/
def transientUpTo (p : Plan) (i : Nat) : Nat := ((((planRegions p).take (i + 1)).filter (fun r => r.hbm && isTransient r)).map (·.length)).sum
def resourceFail (p : Plan) : Option Fail :=
  ((planRegions p).zipIdx.find? (fun e => !(sharedOk p e.1 && placeOk p e.2 e.1 && decide (transientUpTo p e.2 ≤ 2 ^ 31)))).map (fun e => (9, e.2))

/-! Streams (R181-R184). -/

/-- Largest decoded picture buffer of a level at W x H (R183), by the level tables of H.264 and H.265. -/
def levelDpb (codec level w h : Nat) : Nat :=
  if codec = 2 then 0 else
  let pick (t : List (Nat × Nat)) : Nat := t.foldl (fun m e => if e.1 ≤ level then e.2 else m) 0
  if codec = 0 then
    let mbs := pick [(10, 396), (11, 900), (12, 2376), (21, 4752), (22, 8100), (31, 18000), (32, 20480), (40, 32768), (42, 34816), (50, 110400), (51, 184320)]
    min 16 (mbs / (cdiv w 16 * cdiv h 16))
  else
    let ps := pick [(10, 36864), (20, 122880), (21, 245760), (30, 552960), (31, 983040), (40, 2228224), (50, 8912896)]
    let n := w * h
    if 4 * n ≤ ps then 16 else if 2 * n ≤ ps then 12 else if 4 * n ≤ 3 * ps then 8 else 6

/-- Table 6-4, Table 0-4 and R183 for a stream entry. -/
def streamOk (p : Plan) (e : List Byte) : Bool :=
  let v := vstreamOf e
  let fb := vFrameBuffer v
  let d := levelDpb v.codec v.level v.w v.h
  decide (v.stream ≤ if 3840 ≤ v.w && 2160 ≤ v.h then 63 else 255) && decide (v.tenant ≤ 4095) && (match planFn p v.fn with | some f => f.kind == 0 | none => false)
    && decide (v.codec ≤ 2) && (if v.codec = 2 then v.level == 0 else decide (10 ≤ v.level) && decide (v.level ≤ 51))
    && v.w % 2 == 0 && decide (16 ≤ v.w) && decide (v.w ≤ 4096) && v.h % 2 == 0 && decide (16 ≤ v.h) && decide (v.h ≤ 2304)
    && decide (1 ≤ v.fpsNum) && decide (1 ≤ v.fpsDen) && decide (v.fpsNum ≤ 120 * v.fpsDen) && decide (v.dcore ≤ 7)
    && decide (v.mode < 32) && vSubst v != 3 && decide (1 ≤ v.bh) && decide (v.bh ≤ 8)
    && (if fb then v.quota == 0 else decide (2 ≤ v.quota) && decide (v.quota ≤ 32)) && decide (v.fbPics ≤ 32) && decide (v.pad ≤ 15)
    && decide (v.campion ≤ 3) && decide (v.program ≤ 63) && (planProgram p v.campion v.program).isSome && decide (v.ecore ≤ 3)
    && zeroBytes e 0x1B 37
    && (if fb then decide (d + 4 ≤ v.fbPics) else if v.codec = 2 then v.fbPics == 0 && v.fbRegion == 0xFFFF else decide (d + 1 ≤ v.fbPics))
    && (v.fbPics == 0 || (match (planRegions p)[v.fbRegion]? with
        | some r => r.hbm && decide (v.fbPics * picBytes v ≤ r.length) && decide ((pcSet (planVpcMask p) false).length * perPc ≤ r.base)
        | none => false))
    && !(!fb && vEncoder v)

/-- Declared rate of a stream in pixels per second. -/
def pixRate (v : VStream) : Rat := (v.w * v.h * v.fpsNum : Nat) / (max 1 v.fpsDen : Nat)
/-- The rate of a stream at the size it is encoded at: 2303.03 scales by 1, 2 or 4 in each direction (R184, R213). -/
def encodedRate (scale : Nat → Nat) (v : VStream) : Rat :=
  (v.w / 2 ^ scale v.stream * (v.h / 2 ^ scale v.stream) * v.fpsNum : Nat) / (max 1 v.fpsDen : Nat)
/-- f_fc in Hz at step SX. -/
def fcHz (p : Plan) : Rat := (4000000 * stepMhz p.cert.sx : Nat)
def isFrameJob (jb : TJob) : Bool := jb.src == 0
/-- R183: video memory demand in bytes per second. -/
def videoDemand (p : Plan) : Rat :=
  let vs := planVideo p
  let dec := (vs.map (fun v => pixRate v * (if v10bit v then 12 else 6))).sum
  let cam := ((List.range 4).map (fun e =>
    let mine := vs.filter (fun v => v.campion == e && vFrameBuffer v)
    if mine.isEmpty then (0 : Rat) else (if mine.any v10bit then 24 else 12) * fcHz p)).sum
  let tea := ((List.range 2).map (fun e => if (planTJobs p e).any isFrameJob then 128 * fcHz p else 0)).sum
  let enc := (vs.map (fun v => if vEncoder v then pixRate v * 4 else 0)).sum
  dec + cam + tea + enc

/-- R205: least fc between slices of a stream. -/
def sfcMin (p : Plan) (v : VStream) : Nat :=
  let mem := cdiv (v.w * 16 * v.bh) 8 + 64
  match planProgram p v.campion v.program with
  | none => mem
  | some g =>
    let rows (b : Nat) : Nat := ((List.range (firstHeight g v)).filter (fun o => firstRow g v o / (16 * max 1 v.bh) == b)).length
    let most := (List.range (vSlices v)).foldl (fun m b => max m (rows b)) 0
    max mem (cdiv (most * firstWidth g v * g.kh * g.kw * cscChannels g * g.cout) 4096 + 64)

/-- Overlay and entry of every slot of the plan. -/
def allSlots (p : Plan) : List (Nat × VSlot) := (List.range 16).flatMap (fun o => (planSlots p o).map (fun s => (o, s)))
/-- Two entries are active together in some set of SETS. -/
def together (p : Plan) (o1 d1 o2 d2 : Nat) : Bool := p.cert.sets.any (fun m => entryActive m o1 d1 && entryActive m o2 d2)
/-- R184: the slices of two slots on one engine overlap. -/
def slotsClash (p : Plan) (a b : Nat × VSlot) : Bool :=
  match planStream p a.2.stream, planStream p b.2.stream with
  | some v, some w =>
    a.2.pos == b.2.pos && v.campion == w.campion && together p a.1 a.2.disp b.1 b.2.disp
      && decide (a.2.fc0 < b.2.fc0 + vSlices w * b.2.sfc) && decide (b.2.fc0 < a.2.fc0 + vSlices v * a.2.sfc)
  | _, _ => false
/-- A slot entry precedes or equals another in the order of R181. -/
def slotBefore (a b : VSlot) : Bool := decide (a.pos < b.pos) || (a.pos == b.pos && decide (a.fc0 ≤ b.fc0))
def sortedBy {α : Type} (le : α → α → Bool) : List α → Bool
  | [] => true
  | [_] => true
  | a :: b :: t => le a b && sortedBy le (b :: t)

/-- R184: with SUBST previous, the Campion output goes through injection channels into persistent regions. -/
def substOk (p : Plan) (v : VStream) : Bool :=
  vSubst v != 0 || (match planProgram p v.campion v.program with
    | none => false
    | some g =>
      let ports := (List.range g.ports).map (fun i => 64 + 8 * v.campion + g.port0 + i)
      ((planChannels p).filter (fun ch => ch.kind == 1 && ports.contains ch.src)).all (fun ch =>
        ch.inj && (match tileProgram p ch.dst with
          | none => false
          | some t =>
            let a := fld (t.agds.getD ch.iagd 0).toNat 251 238
            (planRegions p).any (fun r => !r.hbm && isPersistent r && r.tile == ch.dst && decide (r.base ≤ a) && decide (a < r.base + r.length)))))

/-- R181, R183, R184: a video slot table section; scale gives the encoders' scales as they stand in 2303.03. -/
def videoOk (scale : Nat → Nat) (p : Plan) (s : Section) : Bool :=
  let ns := numAt s.data 0 4
  let nl := numAt s.data 4 4
  let raw := entriesOf 16 nl (s.data.drop (64 + 64 * ns))
  let vs := planVideo p
  let coreRate (k : Nat) : Rat := ((vs.filter (fun v => v.dcore == k)).map pixRate).sum
  let encRate (k : Nat) : Rat := ((vs.filter (fun v => vEncoder v && v.ecore == k)).map (encodedRate scale)).sum
  let base := s.overlay == 0
  decide (ns ≤ 256) && decide (nl ≤ 1048576) && s.data.length == 64 + 64 * ns + 16 * nl && zeroBytes s.data 0xC 52
    && (base || (ns == 0 && numAt s.data 8 4 == 0))
    && raw.all (fun e => let l := vslotOf e
                         (match planStream p l.stream with | some v => decide (sfcMin p v ≤ l.sfc) | none => false) && decide (l.pos < p.cert.hp)
                           && decide (l.disp ≤ 15) && zeroBytes e 0xD 3)
    && sortedBy slotBefore (raw.map vslotOf)
    && (!base || ((entriesOf 64 ns (s.data.drop 64)).all (streamOk p) && decide ((vs.map (·.stream)).Nodup)
      && decide (videoDemand p ≤ (pcSet (planVpcMask p) true).length * 21760000000)
      && (List.range 8).all (fun k => decide (coreRate k ≤ 2000000000)) && (List.range 4).all (fun k => decide (encRate k ≤ 500000000))
      && vs.all (substOk p)
      && decide (((vs.filter (fun v => !vFrameBuffer v)).map (fun v => v.quota * (if v10bit v then v.w * 16 * v.bh * 3 else v.w * 16 * v.bh * 3 / 2))).sum ≤ 2 ^ 24)))
    && (let all := (allSlots p).zipIdx
        all.all (fun a => all.all (fun b => a.2 == b.2 || !slotsClash p a.1 b.1)))

/-! Campion, Teasel, output channels, egress (R203, R206, R209, R219, R477). -/

/-- Table 6-9. -/
def cprogramOk (params : Nat) (e : List Byte) : Bool :=
  let g := cprogramOf e
  numAt e 0 1 == 0 && decide (g.csc ≤ 5) && decide (g.order ≤ 1) && decide (g.kh ≤ 7) && decide (g.kw ≤ 7) && decide (g.sy ≤ 4) && decide (g.sx ≤ 4)
    && !bitOf (numAt e 5 1) 0 && decide (1 ≤ g.cout) && decide (g.cout ≤ 64) && [1, 2, 4].contains g.wfmt
    && aodOk (BitVec.ofNat 64 g.aod) && fld g.aod 63 60 == 1 && fld g.aod 59 56 == g.wfmt && decide (fld g.aod 55 52 ≤ 0xB)
    && decide (g.sh ≤ 31) && decide (1 ≤ g.ports) && decide (g.port0 + g.ports ≤ 8) && decide (g.woff ≤ params) && zeroBytes e 0x1E 2 && zeroBytes e 0x24 28
/-- Table 6-11; the feature map lies in the 1 MiB input buffer (R202). -/
def cjobOk (p : Plan) (ovl params : Nat) (e : List Byte) : Bool :=
  let j := cjobOf ovl e
  let fmts := [1, 2, 3, 4, 5, 9]
  numAt e 0 1 == 1 && decide (j.disp ≤ 15) && decide (j.pos < p.cert.hp) && j.inBase % 32 == 0 && decide (j.inBase + 32 * mapWords j.hi j.wi j.cin j.ifmt ≤ 2 ^ 20)
    && decide (1 ≤ j.hi) && decide (j.hi ≤ 256) && decide (1 ≤ j.wi) && decide (j.wi ≤ 256) && decide (1 ≤ j.cin) && decide (j.cin ≤ 1024)
    && decide (j.khead ≤ 1) && fmts.contains j.ifmt && fmts.contains j.wfmt && decide (1 ≤ j.cout) && decide (j.cout ≤ 16) && decide (j.dec ≤ 2)
    && (j.dec == 0 || (decide (1 ≤ j.ncls) && decide (j.ncls ≤ 12) && j.cout == 4 + j.ncls && fld j.aod 55 52 == 0xC))
    && aodOk (BitVec.ofNat 64 j.aod) && decide (j.woff ≤ params) && decide (1 ≤ j.topk) && decide (j.topk ≤ 4096) && decide (1 ≤ j.kmax)
    && decide (j.kmax ≤ 1024) && decide (1 ≤ j.stride) && decide (j.stride ≤ 64) && (j.och == 0xFFFF || (planOch p j.och).isSome)
    && decide (j.port0 + j.ports ≤ 8) && (j.dec != 0 || decide (1 ≤ j.ports)) && zeroBytes e 0x35 1 && zeroBytes e 0x3E 2
def campionOk (p : Plan) (s : Section) : Bool :=
  let np := numAt s.data 0 4
  let nj := numAt s.data 4 4
  let nb := numAt s.data 8 4
  decide (np ≤ 64) && decide (nj ≤ 1024) && decide (nb ≤ 262144) && zeroBytes s.data 12 4 && s.data.length == 16 + 64 * np + 64 * nj + nb
    && (s.overlay == 0 || (np == 0 && nb == 0)) && (entriesOf 64 np (s.data.drop 16)).all (cprogramOk nb)
    && (entriesOf 64 nj (s.data.drop (16 + 64 * np))).all (cjobOk p s.overlay (campionParams p s.item).length)
/-- Table 6-12; a frame source has frame-buffer handover (R184); box list and feature map lie in the 2 MiB input buffer (R209). -/
def tjobOk (p : Plan) (ovl : Nat) (e : List Byte) : Bool :=
  let j := tjobOf ovl e
  let frame := j.src == 0
  decide (j.src ≤ 1) && decide (j.disp ≤ 15) && decide (j.pos < p.cert.hp)
    && (if frame then (match planStream p j.stream with | some v => vFrameBuffer v | none => false) else j.stream == 0xFFFF)
    && fld j.boxsrc 6 2 == 0 && decide (j.sample < 8) && decide (1 ≤ j.nbox) && decide (j.nbox ≤ 1024) && decide (1 ≤ j.ow) && decide (j.ow ≤ 64)
    && decide (1 ≤ j.oh) && decide (j.oh ≤ 64) && [1, 2, 0xA, 0xB].contains j.ofmt && decide (1 ≤ j.ports) && decide (j.port0 + j.ports ≤ 4)
    && (!frame || (decide (1 ≤ j.wmax) && decide (j.wmax ≤ 4096) && decide (1 ≤ j.hmax) && decide (j.hmax ≤ 2304)))
    && (frame || (decide (1 ≤ j.fmC) && decide (j.fmC ≤ 256) && [1, 2, 3, 0xA, 0xB].contains j.fmFmt)) && zeroBytes e 0x2B 21
    && (jobAreas j).all (fun a => decide (a.1 + a.2 ≤ 65536))
def teaselOk (p : Plan) (s : Section) : Bool :=
  let n := numAt s.data 0 4
  decide (n ≤ 1024) && s.data.length == 16 + 64 * n && zeroBytes s.data 4 12 && (entriesOf 64 n (s.data.drop 16)).all (tjobOk p s.overlay)
/-- Table 6-13. -/
def ochOk (p : Plan) (e : List Byte) : Bool :=
  let o := ochOf e
  decide (o.och ≤ 1023) && decide (o.tenant ≤ 4095) && (planFn p o.fn).isSome && decide (o.port ≤ 1) && decide (o.flags < 4)
    && (o.tenant == 0 || bitOf o.flags 0) && (o.source == 0xFFFF || decide (o.source < 2048))
    && (o.stream == 0xFFFF || (planStream p o.stream).isSome) && decide (1 ≤ o.maxlen) && decide (o.maxlen ≤ 8896) && zeroBytes e 0xD 1 && zeroBytes e 0x10 16
def ochTableOk (p : Plan) (s : Section) : Bool :=
  let n := numAt s.data 0 4
  decide (n ≤ 1024) && s.data.length == 16 + 32 * n && zeroBytes s.data 4 12 && (entriesOf 32 n (s.data.drop 16)).all (ochOk p)
    && decide ((planOchs p).map (·.och)).Nodup
/-- R477: an egress schedule entry. -/
def egressOk (p : Plan) (ovl : Nat) (raw : List Byte) (e : EgressEntry) : Bool :=
  zeroBytes raw 6 2 && zeroBytes raw 0xC 4 && decide (e.pos < p.cert.hp)
    && (match (ovlChannels p ovl)[e.chan]?, planOch p e.och with
      | some ch, some o => ch.kind == 2 && (ch.dst == 64 + 61 || ch.dst == 64 + 62) && o.source == ch.src && e.pos % 2 ^ ch.tpl == ch.tOff && decide (e.send < ch.k)
      | _, _ => false)
def egressBefore (a b : EgressEntry) : Bool := decide (a.pos < b.pos) || (a.pos == b.pos && decide (a.send ≤ b.send))
def egressTableOk (p : Plan) (s : Section) : Bool :=
  let n := numAt s.data 0 4
  let raw := entriesOf 16 n (s.data.drop 16)
  let es := (planEgress p).filter (fun e => e.ovl == s.overlay)
  s.data.length == 16 + 16 * n && zeroBytes s.data 4 12 && (raw.zip es).all (fun e => egressOk p s.overlay e.1 e.2) && sortedBy egressBefore es
    && decide (es.Pairwise (fun (a b : EgressEntry) => ¬(a.pos = b.pos ∧ (a.och = b.och ∨ (a.chan = b.chan ∧ a.send = b.send)))))

/-! Serving (R225, R226, R252, R273). -/

/-- A channel a slot names in its overlay's section is active in every tick of the overlay. -/
def slotChanOk (p : Plan) (ovl n kind : Nat) (needed : Bool) : Bool :=
  if n = 0xFFFF then !needed
  else match (ovlChannels p ovl)[n]? with
    | none => false
    | some ch => ch.tpl == 0 && (if kind = 1 then ch.kind == 1 && ch.inj && (ch.src == 64 + 61 || ch.src == 64 + 62)
        else ch.kind == 2 && (ch.dst == 64 + 61 || ch.dst == 64 + 62))

/-- A pool's or slot's output channel has the pool's function and its tenant (R226). -/
def servOchOk (p : Plan) (fn och : Nat) : Bool :=
  match planOch p och, planFn p fn with
  | some o, some f => o.fn == fn && o.tenant == f.tenant
  | _, _ => false

/-- R273: HBM sides of a pool. -/
def warmOk (p : Plan) (q : Pool) : Bool :=
  if q.region = 0xFFFF then q.inLanes == 0 && q.outLanes == 0 && q.warmPages == 0
  else match (planRegions p)[q.region]? with
    | none => false
    | some r =>
      let n := (pcSet (planVpcMask p) false).length
      let pb := pageBytes q
      let per := n * 16384
      let g := Nat.gcd pb per
      let sid (a : Nat) : Nat := a / 16384 / max 1 n / 16368
      let lanes := q.groups.length * (q.inLanes + q.outLanes) * pb
      r.hbm && decide (q.warmPages * pb ≤ r.length) && q.window % g == r.base % g && sid q.window == sid (q.window + lanes - 1)
        && sid r.base == sid (r.base + q.warmPages * pb - 1) && sid r.base == sid q.window && (q.inLanes == 0 || decide (per / g ≤ q.inLanes))

/-- Table 7-2, R226, R273. -/
def poolOk (p : Plan) (s : Section) (e : List Byte) : Bool :=
  let q := poolOf s.data e
  let top := q.kvBase + q.nks * 2 ^ q.pgw - 1
  decide (q.pool ≤ 63) && decide (4 ≤ q.pgw) && decide (q.pgw ≤ 13) && (match planFn p q.fn with | some f => f.kind == 1 | none => false)
    && decide (1 ≤ numAt e 4 2) && decide (numAt e 4 2 ≤ 64) && decide (1 ≤ numAt e 6 2) && decide (numAt e 6 2 ≤ 256)
    && q.groups.all (fun g => g.all (fun t => decide (t < 2048))) && decide (64 ≤ q.nks) && decide (q.nks ≤ 1024) && q.nks % 32 == 0
    && decide (q.inLanes ≤ 4) && decide (q.outLanes ≤ 4) && zeroBytes e 0x15 1 && zeroBytes e 0x22 30 && servOchOk p q.fn q.statusOch
    && q.groups.all (fun g => g.all (fun t => (planRegions p).any (fun r =>
        !r.hbm && isPersistent r && r.fn == q.fn && r.tile == t && decide (r.base ≤ q.kvBase) && decide (top < r.base + r.length))))
    && warmOk p q

/-- Table 7-3, R226; hdrSums is SUM_ENTRIES in the header of the entry's own section. -/
def rslotOk (p : Plan) (ovl hdrSums : Nat) (e : List Byte) : Bool :=
  let s := rslotOf ovl e
  match planPool p s.pool with
  | none => false
  | some q =>
    decide (s.entryPos ≤ 7) && decide (s.disp ≤ 15) && decide (1 ≤ s.period) && p.cert.hp % s.period == 0 && decide (s.offset < s.period)
      && decide (1 ≤ s.prefill) && decide (s.prefill ≤ 4095) && decide (1 ≤ s.pMax) && decide (1 ≤ s.gMax) && decide (1 ≤ s.tpt) && decide (s.tpt ≤ 64)
      && s.treeN != 1 && decide (s.treeN ≤ 64) && (if s.treeN = 0 then s.treeD == 0 else decide (1 ≤ s.treeD) && decide (s.treeD ≤ 16))
      && decide (1 ≤ s.segPages) && decide (s.segPages ≤ 8) && decide (1 ≤ s.nseg) && decide (s.nseg + s.g0 ≤ q.groups.length)
      && decide (s.pMax + s.gMax + slotX s ≤ slotCap s) && servOchOk p q.fn s.och && decide (s.sumKib ≤ 256) && decide (1 ≤ s.maxWait) && zeroBytes e 0x2A 22
      && slotChanOk p ovl s.ctl 1 true && slotChanOk p ovl s.prompt 1 true && slotChanOk p ovl s.mask 1 (s.treeN != 0)
      && slotChanOk p ovl s.sumIn 1 (s.sumKib != 0) && slotChanOk p ovl s.tree 2 (s.treeN != 0) && slotChanOk p ovl s.accept 2 (s.treeN != 0)
      && slotChanOk p ovl s.sumOut 2 (s.sumKib != 0) && (s.sumKib == 0 || decide (0 < hdrSums))
      && (match slotChannel p ovl s.tree, slotChannel p ovl s.mask with
        | some t, some m => decide (slotFc t (sendAc t (t.k - 1)) (t.w - 1) + 256 ≤ slotFc m (sendAc m 0) 0)
        | _, _ => true)

/-- R225: a request slot table section. -/
def servingOk (p : Plan) (s : Section) : Bool :=
  let ns := numAt s.data 0 4
  let np := numAt s.data 4 4
  let base := s.overlay == 0
  decide (ns ≤ 256) && decide (np ≤ 64) && decide (numAt s.data 8 4 ≤ 4096) && zeroBytes s.data 0xE 50
    && (base || (np == 0 && numAt s.data 8 4 == 0)) && decide (64 + 64 * np + 64 * ns ≤ s.data.length)
    && (numAt s.data 8 4 == 0 || (match (planRegions p)[numAt s.data 0xC 2]? with
        | some r => r.hbm && decide (numAt s.data 8 4 * 262144 ≤ r.length)
        | none => false))
    && (!base || ((entriesOf 64 np (s.data.drop 64)).all (poolOk p s) && decide ((planPools p).map (·.pool)).Nodup))
    && (entriesOf 64 ns (s.data.drop (64 + 64 * np))).all (rslotOk p s.overlay (numAt s.data 8 4))
    && (planPools p).all (fun q => q.groups.all (fun g => g.all (windowsOk p)))

/-- R252, R253: adapter declarations. -/
def adaptersOk (p : Plan) (s : Section) : Bool :=
  let n := numAt s.data 0 4
  let ds := planAdapters p
  decide (n ≤ 256) && zeroBytes s.data 6 10 && decide (16 + 32 * n ≤ s.data.length)
    && (entriesOf 32 n (s.data.drop 16)).all (fun e =>
      let d := adDeclOf s.data e
      decide (1 ≤ d.awin) && decide (d.awin ≤ 64) && decide (d.tenant ≤ 4095) && (planFn p d.fn).isSome && decide (1 ≤ numAt e 0xA 2)
        && decide (numAt e 0xA 2 ≤ 2048) && d.tiles.all (fun t => decide (t < 2048)) && zeroBytes e 0x14 12)
    && decide ((ds.map (·.aslot)).Nodup) && ds.all (fun d => d.tiles.all (windowsOk p))

/-! Stomar schedules, wiring, mirror sets (R291-R293, R306). -/

/-- A schedule entry (Table 9-4). -/
structure StomarEntry where
  fc : Nat
  count : Nat
  rx : Bool
  w2 : Bool
  ep : Nat
  fn : Nat

def stomarOf (e : List Byte) : StomarEntry :=
  let n := natLE e
  { fc := fld n 63 40, count := fld n 39 24, rx := bitOf n 23, w2 := bitOf n 22, ep := fld n 21 21, fn := fld n 20 11 }
def stomarEntries (s : Section) : List StomarEntry := (entriesOf 8 (numAt s.data 0 4) (s.data.drop 16)).map stomarOf
/-- Fc and edge port of word j of an entry of port p (R292). -/
def stomarWord (port j : Nat) (e : StomarEntry) : Nat × Nat :=
  if e.w2 then (e.fc + j / 2, 64 + 40 + 2 * port + j % 2) else (e.fc + j, 64 + 40 + 2 * port + e.ep)
/-- Fc of every word of one direction of a port under a mask. -/
def stomarFcs (p : Plan) (port mask : Nat) (rx : Bool) : List Nat :=
  ((p.sections.filter (fun s => s.type == 0x000E && s.item == port && bitOf mask s.overlay)).flatMap stomarEntries).flatMap (fun e =>
    if e.rx = rx then (List.range e.count).map (fun j => (stomarWord port j e).1) else [])
/-- Words within n fc from any word on. -/
def densest (n : Nat) (fcs : List Nat) : Nat := fcs.foldl (fun m f => max m ((fcs.filter (fun x => decide (f ≤ x) && decide (x < f + n))).length)) 0

/-- R292, R293: a Stomar schedule section. -/
def stomarOk (p : Plan) (s : Section) : Bool :=
  let es := stomarEntries s
  let h := numAt s.data 0 8
  let rlat := fld h 43 32
  let mhz := 4 * stepMhz p.cert.sx
  decide (s.item ≤ 6) && s.data.length == 16 + 8 * numAt s.data 0 4 && h / 2 ^ 45 == 0 && zeroBytes s.data 8 8 && decide (1 ≤ rlat)
    && (p.sections.filter (fun x => x.type == 0x000E && x.item == s.item)).all (fun x => fld (numAt x.data 0 8) 44 32 == fld h 44 32)
    && (entriesOf 8 (numAt s.data 0 4) (s.data.drop 16)).all (fun e => fld (natLE e) 10 0 == 0) && sortedBy (fun a b => decide (a.fc ≤ b.fc)) es
    && es.all (fun e => decide (1 ≤ e.count) && (planFn p e.fn).isSome && (List.range e.count).all (fun j =>
        let w := stomarWord s.item j e
        decide (w.1 < 4 * p.cert.lw) && (planChannels p).any (fun ch =>
          (if e.rx then ch.kind == 1 && ch.src == w.2 else ch.kind == 2 && ch.dst == w.2) && channelAt ch w.1)))
    && decide ((230 + (if bitOf h 44 then 400 else 0)) * mhz ≤ 1000 * rlat)
    && p.cert.sets.all (fun m => decide (densest 64 (stomarFcs p s.item m false) ≤ min 128 (96000 / mhz))
      && decide (densest 64 (stomarFcs p s.item m true) ≤ min 128 (96000 / mhz)) && decide (densest rlat (stomarFcs p s.item m true) ≤ 2048))

/-- Table 9-3. -/
def wiringOk (p : Plan) (s : Section) : Bool :=
  s.data.length == 144 && zeroBytes s.data 4 12 && (List.range 8).all (fun i =>
    let e := s.data.drop (16 + 16 * i)
    decide (numAt e 0 1 ≤ 3) && zeroBytes e 3 5
      && (numAt e 0 1 != 1 || (decide (i < 7) && numAt e 1 1 == (p.domainPos + i + 1) % 8 && numAt e 2 1 == 6 - i)))

/-- A mirror set entry (Table 9-6). -/
structure MirrorEntry where
  kind : Nat
  region : Nat
  period : Nat
  offset : Nat
  deriving DecidableEq, Repr
def mirrorOf (e : List Byte) : MirrorEntry := { kind := numAt e 0 1, region := numAt e 2 2, period := numAt e 4 2, offset := numAt e 6 2 }
def planMirrors (p : Plan) : List MirrorEntry :=
  (secsOf p 0x0010).flatMap (fun s => (entriesOf 16 (numAt s.data 0 4) (s.data.drop 16)).map mirrorOf)
/-- Bytes of an entry's capture. -/
def mirrorBytes (p : Plan) (m : MirrorEntry) : Nat :=
  match m.kind with
  | 0 => (match (planRegions p)[m.region]? with | some r => 32 * r.length | none => 0)
  | 1 => 8 * (planTenants p).length
  | 2 => (planSums p).1 * 262144
  | _ => 8 * (planOchs p).length
/-- R306. -/
def mirrorsOk (p : Plan) (s : Section) : Bool :=
  let n := numAt s.data 0 4
  let ms := planMirrors p
  let due (b : Nat) : Nat := ((ms.filter (fun m => m.kind == 0 && b % max 1 m.period == m.offset)).map (fun m => mirrorBytes p m / 32)).sum
  decide (n ≤ 256) && s.data.length == 16 + 16 * n && zeroBytes s.data 4 12
    && (entriesOf 16 n (s.data.drop 16)).all (fun e =>
      let m := mirrorOf e
      decide (m.kind ≤ 3) && zeroBytes e 1 1 && zeroBytes e 8 8 && decide (1 ≤ m.period) && decide (m.period ≤ 4096) && decide (m.offset < m.period)
        && (if m.kind = 0 then (match (planRegions p)[m.region]? with | some r => !r.hbm && isPersistent r | none => false) else m.region == 0xFFFF)
        && (m.kind != 3 || m.period == 1))
    && decide ((ms.map (mirrorBytes p)).sum ≤ 2 ^ 23)
    && (List.range (ms.foldl (fun l m => Nat.lcm l (max 1 m.period)) 1)).all (fun b => decide (due b ≤ 8192))

/-! The whole. -/

/-- The field rules that other chapters give plan validation. -/
def ruleFail (c : Chip) (opened : Bool) (p : Plan) : Option Fail :=
  let all (type : Nat) (ok : Section → Bool) : Option Fail := judged opened p allTypes (secFail p type ok)
  firstOf [judged opened p [1, 2] (secFail p 2 (phaseOk p)), judged opened p [1, 3] (secFail p 3 (overlaysOk p))
          , judged opened p [4, 6, 9, 0xB, 0x11] (secFail p 4 (programOk p))
          , judged opened p [1, 4, 5] (secFail p 5 (fun s => s.data.length % 32 == 0 && (secEntries 32 s).all (fun e => channelOk p s.overlay (channelOf e))))
          , judged opened p [6, 7] (secFail p 7 (fun s => (planRegions p)[s.item]?.isSome))
          , all 0xA (videoOk (fun s => objGet c 0x2303 0x03 s) p), all 0xB (servingOk p), all 0xC (campionOk p), all 0xD (teaselOk p)
          , all 0xE (stomarOk p), all 0xF (ochTableOk p), all 0x10 (mirrorsOk p), all 0x11 (adaptersOk p)
          , all 0x12 (wiringOk p), all 0x13 (egressTableOk p)]

/-- Ranges, versions, target class, region limits and field rules, in the order of R154. -/
def contentFail (c : Chip) (opened : Bool) (p : Plan) : Option Fail :=
  firstOf [rangeFail opened p, versionFail c opened p, targetFail c p, judged opened p [6, 0xA] (resourceFail p), ruleFail c opened p]

/-- Stages 1 and 2 of R154: the plan with its sections in plaintext, or the first failure. What stage 1 cannot judge because it reads
an encrypted section is judged once that is decrypted. -/
def validatePlan (c : Chip) (n : Nat) (h : Handle) : Except Fail Plan :=
  let b := imageOf c n h
  match firstOf [magicFail h.size b, signatureFail c b, headerFail b, tableFail b] with
  | some f => .error f
  | none =>
    let es := secTable b
    match contentFail c false (planOf b (es.map (rawSection b))) with
    | some f => .error f
    | none =>
      match openSections c b es.zipIdx [] with
      | .error f => .error f
      | .ok secs =>
        match contentFail c true (planOf b secs) with
        | some f => .error f
        | none => .ok (planOf b secs)

end Sys2Proof.Machine
end

