-- ==== Sys2Proof/Machine/Mirror.lean ====
section
/-! DEFINITION. What a mirror capture of a redundant pair holds and how it is applied (spec/09_domains_redundancy.md
R306-R308, R310). The spec gives no layout of capture data. -/

namespace Sys2Proof.Machine

/-- A stored word as a capture reads it, without a read's side effects. -/
def captureWord (t : Tile) (wa : Nat) : SWord := (sramLook t wa).2
def wordBytes (w : SWord) : List Byte := bytesLE 32 w.data.toNat ++ [if w.poison then 1 else 0]
def wordOfBytes (b : List Byte) : SWord := { data := BitVec.ofNat 256 (numAt b 0 32), poison := numAt b 32 1 == 1 }

def sumBytes (v : Summary) : List Byte :=
  bytesLE 2 v.tenant ++ bytesLE 4 v.conv ++ bytesLE 8 v.since ++ bytesLE 4 v.entry ++ bytesLE 4 v.sealed.length ++ v.sealed
/-- The summaries of a capture. -/
def sumsOfBytes : Nat → List Byte → List Summary
  | 0, _ => []
  | fuel + 1, b =>
    if b.length < 22 then []
    else
      let n := numAt b 18 4
      { tenant := numAt b 0 2, conv := numAt b 2 4, sealed := bytesAt b 22 n, since := numAt b 6 8, entry := numAt b 14 4 }
        :: sumsOfBytes fuel (b.drop (22 + n))

/-- The SRAM region of a KIND 0 entry. -/
def mirrorRegion (p : Plan) (m : MirrorEntry) : Option Region := if m.kind = 0 then (planRegions p)[m.region]? else none

/-- R306: the capture of an entry. -/
def captureOf (p : Plan) (m : MirrorEntry) (c : Chip) : List Byte :=
  match m.kind with
  | 0 => match mirrorRegion p m with
    | none => []
    | some r => (List.range (min r.length 16384)).flatMap (fun i => wordBytes (captureWord (tileAt c r.tile) (r.base + i)))
  | 1 => (planTenants p).flatMap (fun t => bytesLE 8 (objGet c 0x2421 0x03 t))
  | 2 => c.serv.sums.flatMap sumBytes
  | _ => (if c.net.space then 1 else 0) :: (planOchs p).flatMap (fun o => bytesLE 8 (cellsGet 0 c.net.nums o.och))

/-- R308: a capture applied into regions, serving state and sequence numbers. -/
def applyCapture (p : Plan) (m : MirrorEntry) (b : List Byte) (c : Chip) : Chip :=
  match m.kind with
  | 0 => match mirrorRegion p m with
    | none => c
    | some r => sramFill r.tile (r.base % 16384) ((entriesOf 33 (min r.length 16384) b).map wordOfBytes) c
  | 1 => (planTenants p).zipIdx.foldl (fun c e => objSet 0x2421 0x03 e.1 (numAt b (8 * e.2) 8) c) c
  | 2 => { c with serv := { c.serv with sums := sumsOfBytes b.length b } }
  | _ =>
    let nums := (planOchs p).zipIdx.foldl (fun n e => cellsSet 0 n e.1.och (numAt b (1 + 8 * e.2) 8)) c.net.nums
    { c with net := { c.net with nums := nums, space := b.headD 0 == 1 } }

def mirrorEntry (p : Plan) (e : Nat) : Option MirrorEntry := (planMirrors p)[e]?
/-- Region words of an entry's capture (R306, R308: at most 8,192 a boundary). -/
def captureWords (p : Plan) (e : Nat) : Nat :=
  match (mirrorEntry p e).bind (mirrorRegion p) with | some r => r.length | none => 0

def setPair (v : PairSt) (c : Chip) : Chip := { c with link := { c.link with pair := v } }
def setDom (v : DomainSt) (c : Chip) : Chip := { c with link := { c.link with dom := v } }
/-- The newest complete capture of every entry applied. -/
def applyStore (c : Chip) : Chip :=
  match c.plan.loaded with
  | none => c
  | some p => c.link.pair.store.foldl (fun c e => match mirrorEntry p e.1 with
    | some m => applyCapture p m e.2.data c
    | none => c) c

/-! Roles of a pair (R305). -/

def pairRole (c : Chip) : Nat := objGet c 0x2620 0x01 0
def pairPath (c : Chip) : Nat := objGet c 0x2620 0x03 0
/-- A pair in the same domain: its path is a domain port. -/
def lockstep (c : Chip) : Bool := decide (pairPath c < 7)
def pairActive (c : Chip) : Bool := objGet c 0x2620 0x07 0 == 1
/-- 2620.06. -/
def setPairState (v : Nat) (c : Chip) : Chip := objSet 0x2620 0x06 0 v c
/-- The module becomes active, or stops being so. -/
def setActive (on : Bool) (c : Chip) : Chip := objSet 0x2620 0x07 0 (if on then 1 else 0) c

end Sys2Proof.Machine
end

