-- ==== Sys2Proof/Machine/Domain.lean ====
section
/-! DEFINITION. A module's place in a domain and the forwarding of domain-wide commands (spec/09_domains_redundancy.md
R297-R304). -/

namespace Sys2Proof.Machine

/-- 2610.02: 0 single, 1 forming, 2 formed, 3 degraded, 4 not formed. -/
def domState (c : Chip) : Nat := objGet c 0x2610 0x02 0
def inDomain (c : Chip) : Bool := domState c == 2 || domState c == 3
def myPos (c : Chip) : Nat := match c.plan.loaded with | some p => p.domainPos | none => 0xFF
def domSize (c : Chip) : Nat := match c.plan.loaded with | some p => p.domainSize | none => 1
def leaderPos (c : Chip) : Nat := objGet c 0x2610 0x03 0
def isLeader (c : Chip) : Bool := inDomain c && leaderPos c == myPos c
/-- R281: the port that faces a position. -/
def portToward (c : Chip) (pos : Nat) : Nat := (pos + 15 - myPos c) % 8
/-- Domain ports that lead to members. -/
def domPorts (c : Chip) : List Nat := ((List.range (domSize c)).filter (fun q => q != myPos c)).map (portToward c)
def serialAt (c : Chip) (port : Nat) : Nat := objGet c 0x2601 0x04 port
/-- R298, R303: a port in service whose wiring check has passed toward a module of the same wiring hash. -/
def wiredTo (c : Chip) (port : Nat) : Bool := objGet c 0x2601 0x01 port == 3 && objGet c 0x2601 0x08 port == 1 && hashAt c port
/-- A message to the member at a position. -/
def sendTo (pos kind : Nat) (body : List Byte) (c : Chip) : Chip :=
  let p := portToward c pos
  sendMsg p kind (serialAt c p) body c
def sendAll (kind : Nat) (body : List Byte) (c : Chip) : Chip := (domPorts c).foldl (fun c p => sendMsg p kind (serialAt c p) body c) c

/-- R299: a domain-wide command written to a member that is not the leader is forwarded. -/
def forwards (c : Chip) : Bool := inDomain c && !isLeader c
def forwardCmd (idx sub inst value : Nat) (c : Chip) : Chip × Res :=
  let d : DomCmd := { idx := idx, sub := sub, inst := inst, value := value, src := myPos c, tick := acceptTick c }
  let c := setDom { c.link.dom with asked := c.link.dom.asked ++ [d] } c
  (sendTo (leaderPos c) 0x12 (Config.msgBody 0x12 [idx, sub, inst, value, d.src, d.tick]) c, resPending)

end Sys2Proof.Machine
end

