-- ==== Sys2Proof/Machine/Plan.lean ====
section
/-! DEFINITION. Plan commands, overlays, aborts and restarts: acceptance and effect (spec/05_ticks_and_plans.md
R141, R154-R163, spec/10_security.md R338). -/

namespace Sys2Proof.Machine

/-! LOAD (R154, R155). -/

/-- The tenant whose retired generation an encrypted section names (R331). -/
def failTenant (c : Chip) (n : Nat) (h : Handle) (f : Fail) : Option Nat :=
  let e := secEntry (imageOf c n h) f.2
  if f.1 = 6 && keyRetired c 0 e.keyTenant e.keyGen then some e.keyTenant else none

/-- A wake is under way for a command (R372). -/
def needWake (c : Chip) : Chip := if c.tk.wake = .run then c else { c with power := { c.power with waking := true } }

def cmdLoad (img : Chip) (r : Role) (c : Chip) : Chip × Res :=
  let h := ctxVal c r 0x2100 0x04
  if (judgedMode img c ≠ .idle && judgedMode img c ≠ .loaded) || anyUnconfirmed c || leaseHeld c .ppr || beyondReduced c then (c, resState)
  else match cellsFind c.intake.handles h with
    | none => (objSet 0x2100 0x03 0 0 c, resRange)
    | some hd =>
      let c := objSet 0x2100 0x03 0 0 c
      if hd.kind ≠ 0 then (c, resRange)
      else if hd.st ≠ .complete && hd.st ≠ .inUse then (c, resState)
      else
        let v := validatePlan c h hd
        let ld : Loading := match v with
          | .ok p => { plan := some p, handle := h }
          | .error f => { plan := none, fail := (f.1, classStatus f.1, f.2), handle := h }
        let c := match v with
          | .ok _ => c
          | .error f => match failTenant c h hd f with | some t => integrityFail t c | none => c
        let c := useHandle h true (objSet 0x2100 0x0A 0 0 (readImage hd c))
        (showUnsettled (needWake { c with plan := { c.plan with loading := some ld } }), resPending)

/-- A LOAD fails: 2100.03 names the first failure, the staged image is free again unless the loaded plan stands in it. -/
def loadFails (cls st detail : Nat) (ld : Loading) (c : Chip) : Chip :=
  let c := objSet 0x2100 0x03 0 (cls * 2 ^ 24 + detail) { c with plan := { c.plan with loading := none } }
  let keep := c.plan.loaded.isSome && c.plan.handle == ld.handle
  showUnsettled (postStatus 0x2100 0x02 0 st (if keep then c else useHandle ld.handle false c))

/-- Every entry of 2412 and 2413 at its default. -/
def clearFns (c : Chip) : Chip :=
  let p (k : Nat) : Bool := k / 2 ^ 56 == 0x2412 || k / 2 ^ 56 == 0x2413
  { c with objs := cellsClear p c.objs }

/-- A pending overlay request is withdrawn. -/
def dropOverlay (c : Chip) : Chip :=
  let c := if c.plan.ovlWaiting then postStatus 0x2102 0x02 0 stState c else c
  objSet 0x2102 0x01 0 1 (objSet 0x2102 0x03 0 1 { c with plan := { c.plan with ovlWaiting := false, want := 1, request := 1, active := 1 } })

/-- 2100.05-2100.0B. -/
def showPlan (p : Option Plan) (c : Chip) : Chip :=
  match p with
  | none => [5, 6, 7, 8, 9, 0xB].foldl (fun c s => objSet 0x2100 s 0 0 c) c
  | some p =>
    let c := objSet 0x2100 0x05 0 (natLE p.planId) (objSet 0x2100 0x06 0 p.version c)
    let c := objSet 0x2100 0x07 0 p.cert.sc (objSet 0x2100 0x08 0 p.cert.sx (objSet 0x2100 0x09 0 p.cert.hp c))
    objSet 0x2100 0x0B 0 (natLE p.wiringHash) c

/-- R337: a tenant that a plan names is assigned. -/
def assignNamed (p : Plan) (c : Chip) : Chip :=
  (planTenants p).foldl (fun c t => if tenantAssigned c t then c else objSet 0x2201 0x01 t 1 c) c

/-- What running work leaves in the fabric, the engines and the memory controller. -/
def clearWork (c : Chip) : Chip :=
  let ss := c.video.streams.map (·.1)
  let g : Grid := { c.grid with flits := c.grid.flits.filter (·.mg), edge := [], ejected := [], used := [], skips := [] }
  let c := { c with grid := g, video := {}, hbm := { c.hbm with returns := [], issued := [], binds := [], idleOut := [] } }
  ss.foldl (fun c s => showStream s c) c

/-- R154, R132, R277, R318, R337: a validated plan becomes the loaded one. -/
def installPlan (p : Plan) (h : Nat) (c : Chip) : Chip :=
  let old := c.plan.handle
  let c := if c.plan.loaded.isSome && old != h then useHandle old false c else c
  let c := clearLearner (clearShed (serveUnload (clearWork (dropOverlay (clearFns c)))))
  let done := c.plan.abortsDone
  let c := { c with plan := { ({} : PlanSt) with loaded := some p, handle := h, abortsDone := done }, net := { c.net with nums := [] } }
  let c := objSet 0x2B00 0x03 0 (planVpcMask p) (applyMap c)
  let c := (List.range 2048).foldl (fun c t => setTile t { resetProgram (tileProgram p t) (tileAt c t) with idle := true } c) c
  let c := initFn p (fun r => !isTransient r) c
  let c := (planPrograms p).foldl (fun c g => writeResident p g c) c
  let c := assignNamed p (showPlan (some p) (bumpRun c))
  let c := extend 8 0x04 (BitVec.ofNat 256 (numAt p.digest 0 32)) (resetMeas 9 (resetMeas 8 c))
  let c := setPair { c.link.pair with matched := false, store := [], arriving := [], pass := [] } c
  let c := if pairRole c = 0 then c else setPairState 1 c
  let c := objSet 0x2610 0x02 0 (if p.domainSize = 1 then 0 else 4) (objSet 0x2610 0x04 0 (2 ^ p.domainPos) c)
  showUnsettled (postStatus 0x2100 0x02 0 stOk (setMode .loaded c))

/-- 2100.0A at a boundary while the check run is under way: it counts on. How long the stages before it take, and so how many of its
ticks fall between two boundaries, the spec does not say (log entry 104). -/
def checkProgress (c : Chip) : Chip :=
  match c.plan.loading.bind (·.plan) with
  | none => c
  | some p => if c.tk.wake ≠ .run then c
    else objSet 0x2100 0x0A 0 (max (objGet c 0x2100 0x0A 0) (min (checkTicks p) (objGet c 0x2100 0x0A 0 + Config.checkPace c.tk.tick))) c

/-- CHECK_RUN_COMPLETE: the check run ends, at its first failure or after its last tick (R155). -/
def checkRunDone (c : Chip) : Chip :=
  match c.plan.loading with
  | none => c
  | some ld =>
    if c.tk.wake ≠ .run || ld.scrubbing then c
    else match ld.plan with
      | none => loadFails ld.fail.1 ld.fail.2.1 ld.fail.2.2 ld c
      | some p =>
        let c := objSet 0x2100 0x0A 0 (checkTicks p) c
        match checkRun p with
        | some (set, pos) => loadFails 8 stRange (set % 4096 * 4096 + pos % 4096) ld c
        | none =>
          if runExhausted c then loadFails 9 stNoResource 0xFFFFFF ld c
          else match c.plan.loaded, c.plan.scrub with
            | none, none => installPlan p ld.handle c
            | some _, _ | none, some _ => showZero { c with plan := { c.plan with loading := some { ld with scrubbing := true } } }

/-- PARTITION_SCRUB_DONE (R338, Table 10-8): regions, resident copies, poison map, mirror store and tile state of the old
plan are zero. -/
def scrubPlan (c : Chip) : Chip :=
  let c := match c.plan.scrub.orElse (fun _ => c.plan.loaded) with
    | none => c
    | some o => foldRegions (planRegions o) zeroRegion c
  let c := zeroResident c
  let c := hbmMaps { c with hbm := { c.hbm with poison := [], revoked := [] } }
  let c := setPair { c.link.pair with store := [], arriving := [], pass := [] } c
  let c := { c with grid := { c.grid with tiles := cellsMap {} scrubUnits c.grid.tiles } }
  showZero { c with plan := { c.plan with scrub := none, loading := c.plan.loading.map (fun l => { l with scrubbing := false }) } }
def scrubDonePlan (c : Chip) : Chip :=
  let c := zeroFreed c
  match c.plan.loading with
  | some ld =>
    if ld.scrubbing then (match ld.plan with | some p => installPlan p ld.handle (scrubPlan c) | none => scrubPlan c)
    else if c.plan.scrub.isSome then scrubPlan c else c
  | none => if c.plan.scrub.isSome then scrubPlan c else c

/-! The other plan commands (R156, R157). -/

/-- R298: a member in Loaded whose domain already runs may join when its links have passed the wiring check toward the members
present, with the same wiring hash. -/
def canJoin (c : Chip) : Bool :=
  match c.link.dom.token with
  | some t => decide (2 ≤ domSize c) && !inDomain c && t.members.any (fun m => m == modCode .running || m == modCode .paused)
      && (List.range (domSize c)).all (fun q => q == myPos c || t.members.getD q 0xFF == 0xFF || wiredTo c (portToward c q))
  | none => false

/-- State test of a plan command against a mode and the command pending (Table 5-10). -/
def planAllowed (img c : Chip) (code : Nat) : Bool :=
  let m := judgedMode img c
  match code with
  | 2 => m = .loaded && !leaseHeld c .ppr && c.hbm.revoked.isEmpty && (domSize c = 1 || inDomain c || canJoin c)
  | 3 => m = .running
  | 4 => m = .paused
  | 5 => m = .running || m = .paused || (m = .loaded && (match c.plan.cmd with | some w => w.code == 2 | none => false))
  | 6 => m = .loaded
  | _ => false

/-- A plan command is accepted for its boundary. -/
def acceptPlan (code tick : Nat) (c : Chip) : Chip :=
  let undo := match c.plan.cmd with | some w => w.code == 2 | none => false
  showUnsettled (needWake { c with plan := { c.plan with cmd := some { code := code, tick := tick, withdraws := code == 5 && undo } } })

/-- 2100.01. -/
def cmdPlan : Cmd := fun img r _ b c =>
  let code := numAt b 0 1
  if code < 1 || 6 < code then (c, resRange)
  else if code = 1 then cmdLoad img r c
  else if forwards c && decide (code ≤ 5) then forwardCmd 0x2100 0x01 0 code c
  else if !planAllowed img c code then (c, resState)
  else if code = 2 && !inDomain c && decide (2 ≤ domSize c) then
    let c := setDom { c.link.dom with join := true } c
    (sendTo (leaderPos c) 0x12 (Config.msgBody 0x12 [0x2100, 0x01, 0, 2, myPos c, acceptTick c]) c, resPending)
  else (acceptPlan code (acceptTick c) c, resPending)

/-! Effects at a boundary. -/

/-- The command is done. -/
def planDone (c : Chip) : Chip :=
  let c := { c with plan := { c.plan with cmd := none } }
  showUnsettled (if objGet c 0x2100 0x02 0 = stPending then postStatus 0x2100 0x02 0 stOk c else c)

/-- T and LW of the running plan, or of none (2000.03, 2000.04). -/
def showTimes (p : Option Plan) (c : Chip) : Chip :=
  match p with
  | some p => objSet 0x2000 0x03 0 (p.cert.tickQ * 250) (objSet 0x2000 0x04 0 p.cert.lw c)
  | none => objSet 0x2000 0x03 0 2000 (objSet 0x2000 0x04 0 0 c)

/-- R141: what starting a plan does to regions, functions, streams and buckets. -/
def startPlan (p : Plan) (c : Chip) : Chip :=
  let c := initFn p (fun _ => true) c
  let c := { c with plan := { c.plan with aborted := [], completed := [], completions := [], abortsDone := [], active := 1 } }
  let c := (planTenants p).foldl (fun c t => objSet 0x2421 0x03 t 0 c) (showTimes (some p) c)
  c.video.streams.foldl (fun c e => restartStream e.1 false c) c

/-- R309: a primary is the active module unless it sees an active standby. -/
def startPair (c : Chip) : Chip :=
  match pairRole c with
  | 1 => if c.link.pair.peerActive then setActive false c
         else setActive true (if c.link.pair.matched then setPairState 4 c else c)
  | 2 => setActive false (if c.link.pair.matched then setPairState 3 c else c)
  | _ => c

/-- RUN_EFFECT (R141); a warm standby enters Paused instead (R308). -/
def runPlan (c : Chip) : Chip :=
  match c.plan.loaded with
  | none => c
  | some p =>
    let c := startPair (startPlan p c)
    let c := if pairRole c = 2 && !lockstep c then setMode .paused (idleAll c) else startTiles false (setMode .running c)
    planDone c

/-- R157: no plan work from this boundary. -/
def haltWork (c : Chip) : Chip :=
  let v : VideoSt := { c.video with campion := c.video.campion.map (fun e => (e.1, { e.2 with job := none })) }
  let v : VideoSt := { v with teasel := v.teasel.map (fun e => (e.1, { e.2 with job := none })) }
  idleAll { c with video := v, plan := { c.plan with armed := none } }

/-- PAUSE_EFFECT. -/
def pausePlan (c : Chip) : Chip := planDone (setMode .paused (haltWork c))

/-- R141: persistent regions kept, transient ones poisoned, the tiles at their resume entries. -/
def resumePlan (c : Chip) : Chip :=
  let c := foldRegions (regionsWhere c isTransient) poisonRegion c
  startTiles true (setMode .running c)

/-- Restarts that wait are withdrawn. -/
def dropRestarts (c : Chip) : Chip :=
  let rs := c.plan.restarts
  rs.foldl (fun c w => postStatus 0x2413 0x00 w.fn stState c) { c with plan := { c.plan with restarts := [] } }

/-- STOP_EFFECT (R157): one abort of every function but function 0, then Loaded. A STOP that withdraws a pending RUN leaves
the module as it is (R156). -/
def stopPlan (m : PlanCmd) (c : Chip) : Chip :=
  if m.withdraws then planDone c
  else match c.plan.loaded with
    | none => c
    | some p =>
      let fns := ((planFns p).map (·.fn)).filter (fun f => f != 0 && !c.plan.aborted.contains f && !c.plan.aborts.any (fun w => w.fn == f))
      let ws : List FnWait := fns.map (fun f => { fn := f, tick := m.tick, prev := 1, stop := true })
      let c := dropRestarts { c with plan := { c.plan with aborts := c.plan.aborts ++ ws, cmd := none, stopAt := some c.tk.tick } }
      let c := fns.foldl (fun c f => objSet 0x2412 0x03 f m.tick c) c
      showUnsettled (showTimes none (clearShed (setMode .loaded (haltWork c))))

/-- UNLOAD_EFFECT (R157, R338): the image and its regions are released; zeroing follows. -/
def unloadPlan (c : Chip) : Chip :=
  match c.plan.loaded with
  | none => c
  | some p =>
    let c := clearShed (serveUnload (clearWork (dropOverlay (clearFns (useHandle c.plan.handle false c)))))
    let done := c.plan.abortsDone
    let c := { c with plan := { ({} : PlanSt) with scrub := some p, cmd := c.plan.cmd, abortsDone := done } }
    let c := showPlan none (showZero (idleAll c))
    let c := resetMeas 9 (resetMeasAs 0x05 8 c)
    let c := setPair { c.link.pair with matched := false } (setDom {} c)
    let c := objSet 0x2610 0x02 0 0 (objSet 0x2610 0x04 0 1 c)
    planDone (setMode .idle c)

/-- The transient regions of the functions of overlays that become active are poisoned (R158, Table 5-8). -/
def poisonOverlays (p : Plan) (mask : Nat) (c : Chip) : Chip :=
  let fns := ((planFns p).filter (fun e => e.overlay != 0 && bitOf mask e.overlay)).map (·.fn)
  foldRegions ((planRegions p).filter (fun r => isTransient r && fns.contains r.fn)) poisonRegion c

/-- 2102.01 (R158). -/
def cmdOverlay : Cmd := fun _ _ _ b c =>
  let v := numAt b 0 2
  match c.plan.loaded with
  | none => (c, if v = 1 then resOk else resRange)
  | some p =>
    if !bitOf v 0 || !(requestable p).contains v then (c, resRange)
    else if forwards c then forwardCmd 0x2102 0x01 0 v c
    else if v = c.plan.want then (c, resOk)
    else ({ c with plan := { c.plan with want := v, ovlWaiting := true } }, resPending)

/-- OVERLAY_MASK_FORMED (R158): in Running and Paused, and not during a repair pause (R125). At the boundary of a STOP the overlays of
the functions it aborts leave the mask (R157, R159); a request then waits for the next RUN. -/
def maskBoundary (c : Chip) : Chip :=
  match c.plan.loaded with
  | none => c
  | some p =>
    if c.tk.mode = .loaded && c.plan.stopAt == some c.tk.tick then
      let m := formMask c c.tk.tick c.plan.active (shedMask c) true
      objSet 0x2102 0x03 0 m { c with plan := { c.plan with active := m } }
    else if (c.tk.mode ≠ .running && c.tk.mode ≠ .paused) || workPaused c then c
    else
      let m := formMask c c.tk.tick c.plan.request (shedMask c) true
      let old := c.plan.active
      let met := formMask c c.tk.tick c.plan.request (shedMask c) false == m
      let c := if m = old then c
        else objSet 0x2102 0x06 0 c.tk.tick (objBump 0x2102 0x05 0 1 (poisonOverlays p (m - (m &&& old)) c))
      let c := objSet 0x2102 0x03 0 m { c with plan := { c.plan with active := m } }
      if c.plan.ovlWaiting && c.plan.want = c.plan.request && met
      then postStatus 0x2102 0x02 0 stOk { c with plan := { c.plan with ovlWaiting := false } } else c

/-! Aborts and restarts (R159-R163). -/

/-- A role that may act on a function: the operator and the service role on any, a tenant on its own. -/
def ownsFn (c : Chip) (r : Role) (f : Nat) : Bool :=
  match r with
  | .tenant t => (match c.plan.loaded.bind (fun p => planFn p f) with | some e => e.tenant == t | none => false)
  | _ => true
def fnInPlan (c : Chip) (f : Nat) : Bool := (c.plan.loaded.bind (fun p => planFn p f)).isSome
/-- 2412.01 (Table 5-13). -/
def fnState (c : Chip) (f : Nat) : Nat :=
  match c.plan.loaded.bind (fun p => planFn p f) with
  | none => 0
  | some e =>
    if c.plan.aborts.any (fun w => w.fn == f) then 3
    else if c.plan.aborted.contains f then 4
    else if c.plan.completed.contains f then 5
    else
      let m := if c.tk.mode = .survival then c.tk.before else c.tk.mode
      let on := e.overlay == 0 || bitOf c.plan.active e.overlay
      if (m = .running || m = .paused) && !c.plan.shed.contains e.tenant && on then 2 else 1

/-- An abort is accepted. -/
def acceptAbort (f tick : Nat) (c : Chip) : Chip :=
  let w : FnWait := { fn := f, tick := tick, prev := fnState c f }
  let c := objSet 0x2412 0x03 f tick (objSet 0x2412 0x02 f stPending c)
  { c with plan := { c.plan with aborts := c.plan.aborts ++ [w] } }
/-- The leader's state test of an abort (R160). -/
def abortState (m : ModState) (f : Nat) (c : Chip) : Option Res :=
  if m ≠ .running && m ≠ .paused then some resState
  else if c.plan.aborted.contains f then some resState
  else if c.plan.aborts.any (fun w => w.fn == f) then some resPending
  else none
/-- 2410.01. -/
def cmdAbort : Cmd := fun img r _ b c =>
  let f := numAt b 0 2
  let m := judgedMode img c
  if m ≠ .running && m ≠ .paused && !forwards c then (c, resState)
  else if f = 0 || !fnInPlan c f then (c, resRange)
  else if !ownsFn c r f then (c, resOther)
  else if forwards c then forwardCmd 0x2410 0x01 0 f (objSet 0x2412 0x02 f stPending c)
  else match abortState m f c with
    | some res => (c, res)
    | none => (acceptAbort f (acceptTick c) c, resPending)

/-- R160: aborts of completed functions are resolved at ac 0. -/
def resolveAborts (k : Nat) (c : Chip) : Chip :=
  let won := c.plan.aborts.filter (fun (w : FnWait) => abortDue k w && c.plan.completed.contains w.fn && !w.stop)
  let c := { c with plan := { c.plan with aborts := c.plan.aborts.filter (fun w => !won.contains w) } }
  won.foldl (fun c w => postStatus 0x2412 0x02 w.fn stCompleted (objSet 0x2412 0x05 w.fn k c)) c

/-- R159: what the abort of a function does at its effect boundary. -/
def abortFn (p : Plan) (f : Nat) (c : Chip) : Chip :=
  let rs := (planRegions p).filter (fun r => r.fn == f)
  let c := foldRegions (rs.filter (fun r => !r.hbm)) zeroRegion (objSet 0x2412 0x04 f c.tk.tick c)
  let c := foldRegions (rs.filter (fun r => r.hbm)) revokeRegion c
  let c := ((planVideo p).filter (fun v => v.fn == f)).foldl (fun c v => restartStream v.stream true (resetDecoder v.stream c)) c
  serveAbort f c

/-- ABORT_EFFECT at ac 64. -/
def abortBoundary (c : Chip) : Chip :=
  match c.plan.loaded with
  | none => c
  | some p =>
    let due := (c.plan.aborts.filter (abortDue c.tk.tick)).map (·.fn)
    if due.isEmpty then c
    else
      let a := c.plan
      let c := { c with plan := { a with aborts := a.aborts.filter (fun w => !abortDue c.tk.tick w), aborted := a.aborted ++ due
                                         completed := a.completed.filter (fun f => !due.contains f), abortsDone := a.abortsDone ++ due } }
      stopIdle (due.foldl (fun c f => abortFn p f c) c)

/-- ABORT_STATUS_POSTED at ac 0 of boundary b + 1, with the status of a STOP (R157). -/
def abortPosted (c : Chip) : Chip :=
  let k := c.tk.tick
  let done := c.plan.abortsDone.filter (fun f => decide (objGet c 0x2412 0x04 f < k))
  let c := { c with plan := { c.plan with abortsDone := c.plan.abortsDone.filter (fun f => !done.contains f) } }
  let c := done.foldl (fun c f => logRec 0 0 .abortDone [f] (objSet 0x2412 0x05 f k (postStatus 0x2412 0x02 f stOk c))) c
  match c.plan.stopAt with
  | some b => if b < k then
      let c := { c with plan := { c.plan with stopAt := none } }
      if objGet c 0x2100 0x02 0 = stPending then postStatus 0x2100 0x02 0 stOk c else c
    else c
  | none => c

/-- A restart is accepted. -/
def acceptRestart (f tick : Nat) (c : Chip) : Chip :=
  let w : FnWait := { fn := f, tick := tick, prev := fnState c f }
  { c with plan := { c.plan with restarts := c.plan.restarts ++ [w] } }
/-- R162, R160, R268: whether the state allows a restart. -/
def restartAllowed (m : ModState) (f : Nat) (c : Chip) : Bool :=
  (m = .running || m = .paused) && c.plan.aborted.contains f && !c.plan.restarts.any (fun w => w.fn == f)
    && c.hbm.revoked.isEmpty
/-- 2413.00. -/
def cmdRestartFn : Cmd := fun img r f b c =>
  if numAt b 0 1 ≠ 1 then (c, resRange)
  else if !ownsFn c r f then (c, resOther)
  else if forwards c then forwardCmd 0x2413 0x00 f 1 c
  else if !restartAllowed (judgedMode img c) f c then (c, resState)
  else (acceptRestart f (acceptTick c) c, resPending)

/-- RESTART_EFFECT at an aligned boundary. -/
def restartBoundary (c : Chip) : Chip :=
  match c.plan.loaded with
  | none => c
  | some p =>
    let due := (c.plan.restarts.filter (fun w => alignedDue c c.tk.tick w.tick)).map (·.fn)
    if due.isEmpty then c
    else
      let a := c.plan
      let c := { c with plan := { a with restarts := a.restarts.filter (fun w => !alignedDue c c.tk.tick w.tick)
                                         aborted := a.aborted.filter (fun f => !due.contains f) } }
      let c := initFn p (fun r => due.contains r.fn) c
      let c := ((planVideo p).filter (fun v => due.contains v.fn)).foldl (fun c v => restartStream v.stream false c) c
      let c := if c.tk.mode = .running then (planPrograms p).foldl (fun c (g : TileProgram) =>
        if (tileFns p g.tile).any due.contains && (tileAt c g.tile).idle then startTile p false g.tile c else c) c else c
      due.foldl (fun c f => if objGet c 0x2413 0x00 f = stPending then postStatus 0x2413 0x00 f stOk c else c) c

/-- FUNCTION_COMPLETION (R152, R160): in the work window of a finite function's DONE_POS tick. -/
def completeFn (f : Nat) (c : Chip) : Chip :=
  match c.plan.loaded.bind (fun p => (planFn p f).map (fun e => (p, e))) with
  | none => c
  | some (p, e) =>
    let live := !c.plan.aborted.contains f && !c.plan.shed.contains e.tenant && (e.overlay == 0 || bitOf c.plan.active e.overlay)
    if c.tk.phase = .work && c.tk.mode = .running && e.finite && live && e.donePos = c.tk.tick % max 1 p.cert.hp
        && !c.plan.completions.contains f
    then { c with plan := { c.plan with completions := c.plan.completions ++ [f] } } else c

end Sys2Proof.Machine
end

