-- ==== Sys2Proof/Machine/Pair.lean ====
section
/-! DEFINITION. Redundant pairs: heartbeats, captures, takeover and return (spec/09_domains_redundancy.md R305-R312). Control
message bodies have no layout in the spec, so what a message says stands beside it in the row's operands. -/

namespace Sys2Proof.Machine

/-- A plan is mirrored: the pair is configured and its images match (R305). -/
def paired (c : Chip) : Bool := pairRole c != 0 && c.plan.loaded.isSome && c.link.pair.matched
def pairMirrors (c : Chip) : List MirrorEntry := match c.plan.loaded with | some p => planMirrors p | none => []
/-- A message to the peer on the pair path. -/
def sendPeer (kind : Nat) (body : List Nat) (c : Chip) : Chip :=
  sendMsg (pairPath c) kind (objGet c 0x2620 0x02 0) (Config.msgBody kind body) c
/-- Take the oldest message of a kind from the pair path. -/
def takePeer (kind : Nat) (c : Chip) : Option Chip := if pairRole c = 0 then none else (takeMsg (pairPath c) kind c).map (·.2)

/-- R309: the relinquish flag, which only a primary sets. -/
def relinquish (c : Chip) : Bool :=
  pairRole c == 1 && (c.tk.mode = .survival || c.tk.mode = .stopped || c.tk.mode = .booting || c.tk.mode = .harebell
    || c.plan.loaded.isNone || objGet c 0x2930 0x05 0 == 3 || objGet c 0x2930 0x05 0 == 4)
/-- R309: the heartbeat at ac 0. -/
def heartbeatSend (c : Chip) : Chip :=
  if pairRole c = 0 then c
  else sendPeer 0x20 [c.tk.tick, modCode c.tk.mode, objGet c 0x2620 0x07 0, if relinquish c then 1 else 0] c

/-- 2620.06 of a module with a role, from what holds (Table 9-7). -/
def pairShow (c : Chip) : Chip :=
  let p := c.link.pair
  if pairRole c = 0 then setPairState 0 c
  else if !p.matched then setPairState 1 c
  else if p.peerLost then setPairState 6 c
  else if p.returnAt.isSome then setPairState 5 c
  else if pairActive c then setPairState 4 c
  else setPairState (if 0 < p.converge then 2 else 3) c

/-- A switch-over: counted in 2620.08, recorded in 2620.09 (R309), reported by alert cause [7]. -/
def switched (c : Chip) : Chip :=
  logRec 2 srcLinks .pairSwitch [] (alertLater 7 (objBump 0x2620 0x08 0 1 (objSet 0x2620 0x09 0 c.tk.tick c)))

/-- R309: a takeover is decided; in the domain of a warm pair every member follows it through the leader (R299, R309). -/
def takeoverDue (c : Chip) : Chip :=
  if !paired c || pairActive c || c.link.pair.takeover.isSome || (c.tk.mode ≠ .running && c.tk.mode ≠ .paused) then c
  else
    let k := acceptTick c
    let c := setPair { c.link.pair with takeover := some k } c
    if lockstep c || !forwards c then c
    else sendTo (leaderPos c) 0x12 (Config.msgBody 0x12 [0x2620, 0x0B, 0, 1, myPos c, k]) c

/-- R311: whether a primary is healthy. -/
def pairHealthy (c : Chip) : Bool :=
  let p := c.link.pair
  pairRole c == 1 && paired c && !relinquish c && inService c (pairPath c) && p.beat.isSome && !p.peerLost
    && (if lockstep c then p.converge == 0 else p.synced)
/-- The hold-off runs while the primary is healthy without interruption; 2620.0A. -/
def holdOff (c : Chip) : Chip :=
  let p := c.link.pair
  if pairHealthy c && !pairActive c then
    let since := p.healthySince.getD c.tk.now
    let full := objGet c 0x2620 0x04 0
    objSet 0x2620 0x0A 0 (full - (c.tk.now - since) / 1000000000) (setPair { p with healthySince := some since } c)
  else objSet 0x2620 0x0A 0 0 (setPair { p with healthySince := none } c)

/-- PAIR_HEARTBEAT: what it says beside its time. -/
def heartbeatIn (active relinq : Bool) (c : Chip) : Chip :=
  match takePeer 0x20 c with
  | none => c
  | some c =>
    let c := setPair { c.link.pair with beat := some c.tk.now, peerActive := active, peerRelinquish := relinq, peerLost := false } c
    let c := if pairRole c = 2 && relinq then takeoverDue c else c
    -- R309: a primary that sees an active standby stops emitting
    let c := if pairRole c = 1 && active && pairActive c && paired c then
      setActive false (setPair { c.link.pair with synced := false, healthySince := none } c) else c
    holdOff (pairShow c)

/-- HEARTBEAT_TIMEOUT (R309, R312): 1.5 T without a heartbeat. A lockstep primary that was inactive becomes active too. -/
def heartbeatTimeout (c : Chip) : Chip :=
  match c.link.pair.beat with
  | none => c
  | some b =>
    if !paired c || c.link.pair.peerLost || decide (2 * c.tk.now < 2 * b + 3 * tickNs c) then c
    else
      let was := c.link.pair.peerActive
      let c := setPair { c.link.pair with peerLost := true, peerActive := false, peerRelinquish := false } c
      let c := if was && (pairRole c = 2 || lockstep c) then takeoverDue c else c
      holdOff (pairShow c)

/-- R310: a warm takeover moves every channel 65,536 numbers on and into the other number space. -/
def warmNumbers (p : Plan) (c : Chip) : Chip :=
  let nums := (planOchs p).foldl (fun n o => cellsSet 0 n o.och ((cellsGet 0 n o.och + 65536) % 2 ^ 47)) c.net.nums
  { c with net := { c.net with nums := nums, space := !c.net.space } }

/-- STANDBY_TAKEOVER at ac 0 (R309, R310). A lockstep module becomes active at its next boundary, a warm standby at the
first aligned one. -/
def takeoverNow (c : Chip) : Chip :=
  match c.link.pair.takeover, c.plan.loaded with
  | some w, some p =>
    let due := if lockstep c then decide (w < c.tk.tick) else alignedDue c c.tk.tick w
    if !due || !paired c || c.tk.phase ≠ .ac0 || (c.tk.mode ≠ .running && c.tk.mode ≠ .paused) then c
    else
      let c := setPair { c.link.pair with takeover := none, cmd := none, returnAt := none, finalAt := none } c
      let c := if lockstep c || c.tk.mode ≠ .paused then c else resumePlan (warmNumbers p c)
      let c := pairShow (switched (setActive true c))
      postStatus 0x2620 0x0C 0 (if objGet c 0x2620 0x0C 0 = stPending then stOk else objGet c 0x2620 0x0C 0) c
  | _, _ => c

/-! Captures (R306-R308). -/

/-- An entry is captured at this boundary: due by its period, or the final capture of a return (R311). -/
def captureDue (c : Chip) (m : MirrorEntry) : Bool :=
  c.link.pair.finalAt == some c.tk.tick || c.tk.tick % max 1 m.period == m.offset
/-- A complete capture of an entry adds to the pass; one of every entry is a full pass, shown in 2621.04. -/
def passAdd (e tick : Nat) (c : Chip) : Chip :=
  let p := c.link.pair
  let pass := if p.pass.contains e then p.pass else p.pass ++ [e]
  if (pairMirrors c).length ≤ pass.length then
    objSet 0x2621 0x04 0 tick (setPair { p with pass := [], synced := p.synced || !pairActive c } c)
  else setPair { p with pass := pass } c

/-- MIRROR_CAPTURE of an entry: KIND 0 from ac 64 on, the others at ac 0. The active module sends it with its digest; an
inactive one of a lockstep pair keeps the digest of its own copy (R307). -/
def mirrorCapture (e : Nat) (c : Chip) : Chip :=
  match c.plan.loaded with
  | none => c
  | some p => match mirrorEntry p e with
    | none => c
    | some m =>
      let inTime := if m.kind = 0 then decide (1 ≤ phaseRank c.tk.phase) && decide (phaseRank c.tk.phase < 5) else c.tk.phase == .ac0
      if !paired c || c.fw.down || !inTime || !captureDue c m || c.link.pair.sending.contains e then c
      else
        let d := captureOf p m c
        let c := setPair { c.link.pair with sending := c.link.pair.sending ++ [e] } c
        let dig := sha3Bytes d
        if pairActive c || c.link.pair.finalAt == some c.tk.tick then
          let body : List Byte := Config.msgBody 0x21 [e, c.tk.tick] ++ d
          let c := sendMsg (pairPath c) 0x21 (objGet c 0x2620 0x02 0) body c
          let c := sendMsg (pairPath c) 0x22 (objGet c 0x2620 0x02 0) (Config.msgBody 0x22 [e, c.tk.tick] ++ dig) c
          passAdd e c.tk.tick (objBump 0x2621 0x01 0 1 c)
        else if lockstep c && m.kind = 0 then
          let ds := (c.link.pair.digests.filter (fun x => x.1 != e)) ++ [(e, c.tk.tick, dig)]
          setPair { c.link.pair with digests := ds } c
        else c

/-- CAPTURE_ABANDONED: due at this boundary and not complete by ac 3,583. -/
def captureAbandoned (e : Nat) (c : Chip) : Chip :=
  match c.plan.loaded.bind (fun p => mirrorEntry p e) with
  | none => c
  | some m =>
    if paired c && pairActive c && captureDue c m && c.tk.phase = .ac3584 && !c.link.pair.sending.contains e then
      objBump 0x2621 0x03 0 1 (setPair { c.link.pair with sending := c.link.pair.sending ++ [e] } c)
    else c

/-- MIRROR_CAPTURE_DATA: more data of an entry's capture at a tick. -/
def captureData (e tick : Nat) (d : List Byte) (c : Chip) : Chip :=
  match takePeer 0x21 c with
  | none => c
  | some c =>
    let p := c.link.pair
    let old := match cellsFind p.arriving e with | some x => if x.tick = tick then x.data else [] | none => []
    setPair { p with arriving := cellsPut p.arriving e { entry := e, tick := tick, data := old ++ d } } c

/-- CAPTURE_END: the capture is complete when its digest holds. A lockstep module compares it with the digest of its own
copy. -/
def captureEnd (e tick : Nat) (dig : List Byte) (c : Chip) : Chip :=
  match takePeer 0x22 c with
  | none => c
  | some c =>
    let p := c.link.pair
    match cellsFind p.arriving e with
    | none => c
    | some x =>
      let c := setPair { p with arriving := cellsDrop p.arriving e } c
      if x.tick ≠ tick || sha3Bytes x.data ≠ dig || !paired c then c
      else
        let p := c.link.pair
        let fresh := if lockstep c then p.fresh else p.fresh.filter (· != e) ++ [e]
        let c := setPair { p with store := cellsPut p.store e x, fresh := fresh } c
        let c := if lockstep c then passAdd e tick c else c
        let diff := p.digests.any (fun y => y.1 == e && y.2.1 == tick && y.2.2 != dig)
        if lockstep c && diff then logRec 2 srcLinks .digestDifference [e] (alertLater 7 (objBump 0x2621 0x05 0 1 c)) else c

/-- R308: complete captures applied in the boundary window, at most 8,192 region words. -/
def applyFresh (c : Chip) : Chip :=
  match c.plan.loaded with
  | none => c
  | some p =>
    let l := c.link.pair.fresh
    let r := l.foldl (fun (a : Chip × List Nat × Nat) e =>
      let n := captureWords p e
      if pairActive a.1 || 8192 < a.2.2 + n then (a.1, a.2.1 ++ [e], a.2.2)
      else match mirrorEntry p e, cellsFind a.1.link.pair.store e with
        | some m, some x => (passAdd e x.tick (objBump 0x2621 0x02 0 1 (applyCapture p m x.data a.1)), a.2.1, a.2.2 + n)
        | _, _ => (a.1, a.2.1, a.2.2)) (c, [], 0)
    setPair { r.1.link.pair with fresh := r.2.1 } r.1

/-! Return (R311). -/

/-- The peer's final capture stands in the store and is applied. -/
def finalApplied (c : Chip) (b : Nat) : Bool :=
  c.link.pair.fresh.isEmpty && (List.range (pairMirrors c).length).all (fun e => match cellsFind c.link.pair.store e with
    | some x => decide (b ≤ x.tick)
    | none => false)

/-- The return's boundary: the standby gives up, and the primary becomes active; a warm primary at its first aligned
boundary after the final capture. -/
def returnBoundary (c : Chip) : Chip :=
  match c.link.pair.returnAt with
  | none => c
  | some b =>
    if pairRole c = 2 then
      if c.tk.tick < b then c
      else
        let c := setActive false (setPair { c.link.pair with returnAt := none } c)
        let c := if lockstep c then c
          else setMode .paused (haltWork (setPair { c.link.pair with finalAt := some c.tk.tick, synced := false } c))
        switched c
    else
      let due := if lockstep c then decide (b ≤ c.tk.tick) else finalApplied c b && c.tk.tick % startAlign c == 0
      if !due then c
      else switched (setActive true (setPair { c.link.pair with returnAt := none, healthySince := none } c))

/-- RETURN_HOLDOFF_EXPIRY. -/
def holdoffExpiry (c : Chip) : Chip :=
  let c := holdOff c
  match c.link.pair.healthySince with
  | none => c
  | some t =>
    if pairActive c || c.link.pair.inhibit || c.link.pair.returnAt.isSome
        || decide (c.tk.now < t + objGet c 0x2620 0x04 0 * 1000000000) then c
    else setPairState 5 (sendPeer 0x23 [c.tk.tick] c)

/-- RETURN_REQUEST: the active standby answers with its boundary, unless return is inhibited. -/
def returnRequest (c : Chip) : Chip :=
  if pairRole c ≠ 2 then c
  else match takePeer 0x23 c with
    | none => c
    | some c =>
      if !paired c || !pairActive c || c.link.pair.inhibit then c
      else
        let b := c.tk.tick + (if lockstep c then 2 else 1)
        pairShow (setPair { c.link.pair with returnAt := some b } (sendPeer 0x23 [b] c))

/-- RETURN_REPLY: the primary learns the boundary. -/
def returnReply (b : Nat) (c : Chip) : Chip :=
  if pairRole c ≠ 1 then c
  else match takePeer 0x23 c with
    | none => c
    | some c => if !paired c || pairActive c then c else pairShow (setPair { c.link.pair with returnAt := some b } c)

/-! Following (R307). -/

/-- The primary tells the standby what a stream's slot bound at the readiness point of slice 0. -/
def sendBinding (s : Nat) (c : Chip) : Chip :=
  if paired c && lockstep c && pairActive c then
    let st := streamAt c s
    let ts := match (st.slots.filter (fun u => u.tick == c.tk.tick)).getLast? with
      | some u => u.pic.bind (fun i => (st.pictures.find? (fun x => x.id == i)).map (·.ts))
      | none => none
    sendPeer 0x15 (match ts with | some t => [s, c.tk.tick, 1, t] | none => [s, c.tk.tick, 0]) c
  else c

/-- Whether the readiness point of slot entry j binds now, and for which stream; c stands before it, n after it. -/
def bindingOut (c : Chip) (ovl j b : Nat) (n : Chip) : Chip :=
  match slotDecl c ovl j with
  | some (sl, v) => if b = 0 && c.plan.armed == some sl.pos && slotTaken c ovl sl v then sendBinding sl.stream n else n
  | none => n

/-- The page-slot table entries that this module's serving unit wrote at the boundary: group or tile, entry, value of the position
windows of its active slots, and of the adapter windows of the requests just admitted (R240, R253). -/
def pstWrites (c : Chip) (adms : List LmReq) : List Nat :=
  match c.plan.loaded with
  | none => []
  | some p =>
    let value (t e : Nat) : Nat := cellsGet 0 (tileAt c t).pst (e % 256)
    let pos := (activeSlots c).flatMap (fun s => match planPool p s.pool with
      | none => []
      | some q => (List.range s.nseg).flatMap (fun g => match q.groups.getD (s.g0 + g) [] with
        | [] => []
        | t :: _ => (List.range (slotSeg s)).flatMap (fun i => [s.g0 + g, s.pti + i, value t (s.pti + i)])))
    let ads := adms.flatMap (fun q => match activeSlot c q.slot with
      | none => []
      | some s => ((planAdapters p).filter (fun a => a.fn == q.fn)).flatMap (fun a => a.tiles.flatMap (fun t =>
          (List.range a.awin).flatMap (fun i => [t, s.adpti + i, value t (s.adpti + i)]))))
    pos ++ ads
/-- The lane bindings of the boundary (R241). -/
def laneWords (c : Chip) : List Nat :=
  c.serv.moves.flatMap (fun m => [m.pool, m.group, m.lane, m.tenant, m.conv, m.page, m.warm] ++ m.kv)
/-- R255, R307: the admissions of this boundary, which every other member applies; the pages and lanes go with them. -/
def sendDecisions (c : Chip) : Chip :=
  let adms := c.serv.reqs.filter (fun q => q.st = .prefill && q.adm == c.tk.tick)
  let body : List Nat := c.tk.tick :: adms.flatMap (fun q => [q.slot, q.tenant, q.id]) ++ pstWrites c adms ++ laneWords c
  if inDomain c && c.tk.mode = .running && !follows c then sendAll 0x14 (Config.msgBody 0x14 body) c else c

/-- SERVING_DECISIONS: admissions by slot, tenant and request, page-slot writes by tile, entry and value, and lane
bindings, applied by ac 2,559. The follower of a pair admits from its own request store; a request it does not hold
leaves the slot free and is a miss. -/
def applyDecisions (port : Nat) (adms pst : List (Nat × Nat × Nat)) (moves : List LaneMove) (c : Chip) : Chip :=
  match takeMsg port 0x14 c, c.plan.loaded with
  | some (_, c), some p =>
    if c.tk.phase ≠ .ac1536 then c
    else if follows c && port = pairPath c then
      writeTables (adms.foldl (fun c a =>
        match activeSlot c a.1, findReq c a.2.1 a.2.2 with
        | some s, some q => if q.st = .waiting then admitReq p s q c else objBump 0x2621 0x06 0 1 c
        | _, _ => objBump 0x2621 0x06 0 1 c) c)
    else
      let c := pst.foldl (fun c e => if e.1 < 2048 then setPst e.1 e.2.1 e.2.2 c else c) c
      writeBinds p (setServ { c.serv with moves := c.serv.moves ++ moves } c)
  | _, _ => c

/-! Pair commands (R312). -/

/-- A pair command on this module; 0x01 needs a standby that is not active. -/
def pairAllowed (c : Chip) (code : Nat) : Bool :=
  paired c && !c.link.pair.cmd.isSome && (code != 1 || (pairRole c == 2 && !pairActive c))
def acceptPair (code tick : Nat) (c : Chip) : Chip :=
  let c := setPair { c.link.pair with cmd := some (code, tick) } c
  if code = 1 then setPair { c.link.pair with inhibit := true, takeover := some (c.link.pair.takeover.getD tick) } c else c
/-- 2620.0B. -/
def cmdPair : Cmd := fun _ _ _ b c =>
  let code := numAt b 0 1
  if code < 1 || 3 < code then (c, resRange)
  else if forwards c && !lockstep c then forwardCmd 0x2620 0x0B 0 code c
  else if !pairAllowed c code then (c, resState)
  else (acceptPair code (acceptTick c) c, resPending)
/-- The pair command of a boundary; a switch-over's own row ends it. -/
def pairCmdBoundary (c : Chip) : Chip :=
  match c.link.pair.cmd with
  | none => c
  | some (code, t) =>
    if code = 1 || decide (c.tk.tick ≤ t) then c
    else
      let c := setPair { c.link.pair with cmd := none, inhibit := code == 2 } c
      if objGet c 0x2620 0x0C 0 = stPending then postStatus 0x2620 0x0C 0 stOk c else c

/-- What a boundary does for a pair before its heartbeat. -/
def pairBoundary (c : Chip) : Chip :=
  if pairRole c = 0 then c
  else
    let p := c.link.pair
    let c := setPair { p with sending := [], converge := if 1 < p.converge then p.converge - 1 else p.converge
                              finalAt := if p.finalAt.isSome then none else p.finalAt } c
    let c := returnBoundary (pairCmdBoundary (applyFresh c))
    heartbeatSend (holdOff (pairShow c))

/-- CONVERGENCE_END (R307). -/
def convergenceEnd (c : Chip) : Chip :=
  if c.link.pair.converge = 1 && c.tk.phase = .ac0 then pairShow (setPair { c.link.pair with converge := 0 } c) else c

/-- R307, R462: a joining standby's regions from the mirror store, and its suppression. -/
def joinPair (c : Chip) : Chip :=
  if pairRole c = 0 || !lockstep c then c
  else
    let n := c.link.pair.store.length
    let c := objBump 0x2621 0x02 0 n (applyStore c)
    pairShow (setPair { c.link.pair with converge := objGet c 0x2620 0x05 0 + 1 } c)

/-- STREAM_BINDING (R307): the RTP timestamp of the picture a stream's slot bound, or none. -/
def streamBinding (s tick : Nat) (ts : Option Nat) (c : Chip) : Chip :=
  match takePeer 0x15 c with
  | none => c
  | some c =>
    let rest := c.link.pair.binds.filter (fun e => e.1 != s)
    setPair { c.link.pair with binds := rest ++ [(s, tick, ts)] } c

end Sys2Proof.Machine
end

