-- ==== Sys2Proof/Machine/DomainRun.lean ====
section
/-! DEFINITION. Running a domain: busy-dones, tokens, forwarded commands, loss and join (spec/09_domains_redundancy.md
R297-R304). -/

namespace Sys2Proof.Machine

/-- 2610.02. -/
def setDomState (v : Nat) (c : Chip) : Chip := objSet 0x2610 0x02 0 v c
/-- 2610.04, the members present. -/
def presentMask (c : Chip) : Nat := objGet c 0x2610 0x04 0
def setPresent (m : Nat) (c : Chip) : Chip := objSet 0x2610 0x04 0 m c
def isPresent (c : Chip) (pos : Nat) : Bool := bitOf (presentMask c) pos
/-- Positions present but this one. -/
def otherMembers (c : Chip) : List Nat := (List.range 8).filter (fun q => isPresent c q && q != myPos c)
/-- R302: a member that reaches no other is a domain of one. -/
def alone (c : Chip) : Bool := inDomain c && (otherMembers c).isEmpty

/-! Busy-done (R300, R301). -/

/-- What this member would choose for the next tick by itself: its shed requests. -/
def shedWish (c : Chip) : Chip :=
  let c1 := objSet 0x2610 0x02 0 0 { c with tk := { c.tk with tick := c.tk.tick + 1 } }
  passTwo c1
def ownBusy (c : Chip) : BusyDone :=
  let w := shedWish c
  { tick := c.tk.tick, step := min 5 c.power.sUp, shedOvl := shedMask w, shedTenants := w.plan.shed, state := modCode c.tk.mode
    run := decide (c.tk.wake = .run) }
def busyWords (b : BusyDone) : List Nat := [b.tick, b.step, b.shedOvl, b.state, if b.run then 1 else 0] ++ b.shedTenants
/-- The busy part of the tick has ended: a member of a domain reports it. -/
def busySend (c : Chip) : Chip :=
  if !inDomain c then c
  else
    let b := ownBusy c
    let w := shedWish c
    let c := { c with power := { c.power with fit := w.power.fit } }
    let c := setDom { c.link.dom with busy := cellsPut c.link.dom.busy (myPos c) b } c
    if isLeader c then c else sendTo (leaderPos c) 0x11 (Config.msgBody 0x11 (busyWords b)) c

/-- BUSY_DONE from the member at a position; a message with no sender's port there is not taken. -/
def busyIn (pos : Nat) (b : BusyDone) (c : Chip) : Chip :=
  if pos = myPos c || 8 ≤ pos then c
  else match takeMsg (portToward c pos) 0x11 c with
    | none => c
    | some (_, c) => if b.tick = c.tk.tick then setDom { c.link.dom with busy := cellsPut c.link.dom.busy pos b } c else c

/-- Every member present has reported for this tick. -/
def allBusy (c : Chip) : Bool :=
  (List.range 8).all (fun q => !isPresent c q || (match cellsFind c.link.dom.busy q with | some b => b.tick == c.tk.tick | none => false))

/-! Tokens (R300, R301, R304). -/

/-- 2610.03-2610.05 and 2612 from a token. -/
def showToken (t : Token) (c : Chip) : Chip :=
  let present := ((List.range 8).filter (fun q => t.members.getD q 0xFF != 0xFF)).foldl (fun m q => m + 2 ^ q) 0
  let c := objSet 0x2610 0x03 0 t.leader (setPresent present (objSet 0x2610 0x05 0 t.step c))
  (List.range 8).foldl (fun c q => objSet 0x2612 (q + 1) 0 (t.members.getD q 0xFF) c) c

/-- The token of the next boundary at a fire time. -/
def makeToken (fire : Nat) (c : Chip) : Token :=
  let k := c.tk.tick + 1
  let bs := (c.link.dom.busy.filter (fun e => isPresent c e.1 && e.2.tick == c.tk.tick)).map (·.2)
  let lim : Nat × Nat := match c.plan.loaded with | some p => (p.cert.sc, p.cert.sx) | none => (0, 5)
  let low := bs.foldl (fun m b => min m b.step) 5
  let code := ([2, 3, 4, 5].find? (planCmdDue c k)).getD 0
  { tick := k, fire := fire, step := max lim.1 (min low (min lim.2 5)), mask := c.plan.want
    shedOvl := bs.foldl (fun m b => m ||| b.shedOvl) 0, shedTenants := (bs.flatMap (·.shedTenants)).dedup
    aborts := (c.plan.aborts.filter (abortDue k)).map (·.fn)
    restarts := (c.plan.restarts.filter (fun w => alignedDue c k w.tick)).map (·.fn), cmd := code
    wake := match c.plan.cmd with | some m => m.code == 2 || m.code == 4 | none => false
    members := (List.range 8).map (fun q => if q = myPos c then modCode c.tk.mode
      else if !isPresent c q then 0xFF
      else match cellsFind c.link.dom.busy q with | some b => b.state | none => 0xFF)
    leader := myPos c }
def tokenWords (t : Token) : List Nat := [t.tick, t.fire, t.step, t.mask, t.shedOvl, t.cmd, if t.wake then 1 else 0, t.leader] ++ t.aborts ++ t.restarts ++ t.members
/-- The leader sends the token and takes it itself. -/
def sendToken (fire : Nat) (c : Chip) : Chip :=
  let t := makeToken fire c
  sendAll 0x10 (Config.msgBody 0x10 (tokenWords t)) (showToken t (setDom { c.link.dom with token := some t, fire := fire } c))
/-- The token of the next boundary stands. -/
def tokenReady (c : Chip) : Bool := match c.link.dom.token with | some t => t.tick == c.tk.tick + 1 | none => false

/-- F: the token's, or until it comes the last boundary plus T. -/
def fireTime (c : Chip) : Nat := if tokenReady c then c.link.dom.fire else c.tk.boundaryAt + tickNs c

/-- TOKEN_SEND: at F - 1,000 ns, or as soon as the last busy-done has come. -/
def tokenSend (c : Chip) : Chip :=
  let f := fireTime c
  let now := c.tk.now
  if !isLeader c || alone c || tokenReady c || !c.tk.busyEnded || !allBusy c || decide (now + 1000 < f) then c
  else sendToken (if now + 1000 = f then f else now + 1000) c

/-- R297: steering of the domain clock on a token sent at `sent` (leader's clock) that came over a port; at most 1 ns per µs
of the time since the last. -/
def steer (port sent : Nat) (c : Chip) : Chip :=
  let d := c.link.dom
  let found : Int := (sent + (portAt c port).delay : Nat) - ((c.tk.now : Int) + d.offset)
  let slew : Int := (c.tk.now - c.tk.boundaryAt) / 1000
  let c := objSet 0x2610 0x06 0 (toTwos 32 found) (objSet 0x2610 0x07 0 (max (objGet c 0x2610 0x07 0) found.natAbs) c)
  setDom { d with offset := d.offset + max (-slew) (min slew found) } c
/-- The local time of a fire time. -/
def localFire (c : Chip) (fire : Nat) : Nat := ((fire : Int) - c.link.dom.offset).toNat

/-- TICK_TOKEN: relayed once on the other domain ports; a token already seen is ignored. A member whose domain forms, or
that joins, adopts the leader's tick counter and timer (R298, R303). lead is what F stands after the token's sending. -/
def tokenIn (port : Nat) (t : Token) (lead : Nat) (c : Chip) : Chip :=
  match takeMsg port 0x10 c with
  | none => c
  | some (m, c) =>
    let seen := match c.link.dom.token with | some o => decide (t.tick ≤ o.tick) && o.leader == t.leader | none => false
    if seen || domSize c < 2 || port = 7 then c
    else
      let c := ((domPorts c).filter (· != port)).foldl (fun c p => sendMsg p 0x10 (serialAt c p) m.body c) c
      let adopt := domState c == 1 || (c.link.dom.join && !inDomain c)
      let c := if adopt then
          let c := setDom { c.link.dom with offset := (t.fire - lead + (portAt c port).delay : Nat) - (c.tk.now : Int) } c
          { c with tk := { c.tk with tick := t.tick - 1, fresh := false } }
        else steer port (t.fire - lead) c
      let c := setDom { c.link.dom with token := some t, fire := localFire c t.fire } c
      let c := if domState c == 1 then setDomState 2 c else c
      let c := if t.wake then needWake c else c
      if inDomain c then showToken t c else c

/-- What a token adds at its boundary: aborts, restarts and the plan command that completed on any member (R299, R300). -/
def takeToken (c : Chip) : Chip :=
  match c.link.dom.token with
  | none => c
  | some t =>
    if !inDomain c || t.tick ≠ c.tk.tick then c
    else
      let k := t.tick - 1
      let c := t.aborts.foldl (fun c f => if c.plan.aborts.any (fun w => w.fn == f) then c else acceptAbort f k c) c
      let c := t.restarts.foldl (fun c f => if c.plan.restarts.any (fun w => w.fn == f) then c else acceptRestart f k c) c
      let have_ := match c.plan.cmd with | some m => m.code == t.cmd | none => false
      let cmd : PlanCmd := { code := t.cmd, tick := k, withdraws := t.cmd == 5 && decide (c.tk.mode = .loaded) }
      let c := if t.cmd = 0 || have_ then c else { c with plan := { c.plan with cmd := some cmd } }
      { c with plan := { c.plan with want := t.mask } }

/-! Forwarded commands (R299). -/

/-- The leader's state test and acceptance of a command. -/
def leaderAccept (d : DomCmd) (c : Chip) : Chip × Nat :=
  if d.idx = 0x2100 then
    if d.value = 2 && !isPresent c d.src then
      if !wiredTo c (portToward c d.src) then (c, stState) else
      (setDom { c.link.dom with joining := (c.link.dom.joining.filter (· != d.src)) ++ [d.src] } c, stPending)
    else if planAllowed c c d.value then (acceptPlan d.value d.tick c, stPending) else (c, stState)
  else if d.idx = 0x2102 then
    if d.value = c.plan.want then (c, stOk) else ({ c with plan := { c.plan with want := d.value } }, stPending)
  else if d.idx = 0x2410 then
    match abortState c.tk.mode d.value c with
    | some r => (c, r.st)
    | none => (acceptAbort d.value d.tick c, stPending)
  else if d.idx = 0x2413 then
    if restartAllowed c.tk.mode d.inst c then (acceptRestart d.inst d.tick c, stPending) else (c, stState)
  else if pairAllowed c d.value then (acceptPair d.value d.tick c, stPending) else (c, stState)

/-- FORWARDED_COMMAND: what the message says beside it. -/
def forwardedIn (port : Nat) (d : DomCmd) (c : Chip) : Chip :=
  match takeMsg port 0x12 c with
  | none => c
  | some (_, c) =>
    if !isLeader c then c
    else
      let r := leaderAccept d c
      let c := showUnsettled r.1
      sendMsg port 0x13 (serialAt c port) (Config.msgBody 0x13 [d.idx, d.sub, d.inst, d.value, r.2]) c

/-- The status object of a domain-wide command. -/
def domStatus (d : DomCmd) : Nat × Nat × Nat :=
  match d.idx with
  | 0x2100 => (0x2100, 0x02, 0)
  | 0x2102 => (0x2102, 0x02, 0)
  | 0x2410 => (0x2412, 0x02, d.value)
  | 0x2413 => (0x2413, 0x00, d.inst)
  | _ => (0x2620, 0x0C, 0)
/-- FORWARDED_COMMAND_STATUS: the oldest command asked that the leader's answer names. -/
def forwardedStatus (port : Nat) (d : DomCmd) (st : Nat) (c : Chip) : Chip :=
  match takeMsg port 0x13 c with
  | none => c
  | some (_, c) =>
    let same (x : DomCmd) : Bool := x.idx == d.idx && x.sub == d.sub && x.inst == d.inst && x.value == d.value
    match c.link.dom.asked.find? same with
    | none => c
    | some x =>
      let c := setDom { c.link.dom with asked := c.link.dom.asked.erase x } c
      let o := domStatus d
      if st ≠ stPending then postStatus o.1 o.2.1 o.2.2 st c
      else if d.idx = 0x2102 then { c with plan := { c.plan with want := d.value, ovlWaiting := true } }
      else c

/-! Forming, loss and join (R298, R302, R303). -/

/-- R298: every position is present in Loaded, with an image of the same WIRING_HASH, behind a domain port that has passed
the wiring check. -/
def domReady (c : Chip) : Bool :=
  c.tk.mode = .loaded && decide (2 ≤ domSize c) && decide (myPos c < domSize c) && (domPorts c).all (fun p =>
    wiredTo c p && (portAt c p).peerState == modCode .loaded)
/-- DOMAIN_FORMED. The member at position 0 leads; the others form until they have its first token. Until then they report no busy part:
the leader's first token rests on the Loaded state of their beacons (log entry 111). -/
def domainFormed (c : Chip) : Chip :=
  if !domReady c || inDomain c || domState c = 1 then c
  else if myPos c = 0 then
    let told : Cells BusyDone := (List.range (domSize c)).filterMap (fun q => if q = myPos c then none
      else some (q, { tick := c.tk.tick, step := 5, shedOvl := 0, shedTenants := [], state := modCode .loaded, run := false }))
    let told := if c.tk.busyEnded then cellsPut told (myPos c) (ownBusy c) else told
    let c := setDom { c.link.dom with fire := c.tk.boundaryAt + tickNs c, token := none, busy := told, lost := [], offset := 0 } c
    setDomState 2 (objSet 0x2610 0x03 0 0 (setPresent (2 ^ domSize c - 1) c))
  else setDomState 1 (objSet 0x2610 0x03 0 0 (setPresent (2 ^ domSize c - 1) c))

/-- R302: F + T/4 has passed. -/
def lossDue (c : Chip) : Bool := decide (fireTime c + tickNs c / 4 ≤ c.tk.now)
/-- MEMBER_LOST. -/
def memberLost (pos : Nat) (c : Chip) : Chip :=
  let silent := match cellsFind c.link.dom.busy pos with | some b => b.tick != c.tk.tick | none => true
  if !isLeader c || pos = myPos c || !isPresent c pos || !silent || tokenReady c || !lossDue c then c
  else
    let c := setDom { c.link.dom with lost := c.link.dom.lost ++ [pos] } (setPresent (presentMask c - 2 ^ pos) c)
    logRec 2 srcLinks .memberLost [pos] (alertLater 6 (objBump 0x2610 0x0A 0 1 (setDomState 3 c)))

/-- LEADER_LOST: no token by F + T/4. The lowest position still reached becomes leader; it sends the token of the missed
boundary with F 10 µs later. A member that reaches no other runs as a domain of one. -/
def leaderLost (reach : List Nat) (c : Chip) : Chip :=
  if !inDomain c || isLeader c || tokenReady c || !lossDue c then c
  else
    let all := (reach.filter (fun q => q < domSize c && q != leaderPos c)) ++ [myPos c]
    let new := all.foldl min (myPos c)
    let present := all.dedup.foldl (fun m q => m ||| 2 ^ q) 0
    let c := setPresent present (setDomState 3 (objSet 0x2610 0x03 0 new c))
    let c := logRec 2 srcLinks .leaderLost [new] (alertLater 6 (objBump 0x2610 0x09 0 1 c))
    if new = myPos c && present ≠ 2 ^ new && c.tk.busyEnded then sendToken (c.tk.now + 10000) c else c

/-- MEMBER_JOIN at an aligned boundary: the leader admits a member whose request it holds; the member itself initialises
as at RUN. -/
def memberJoin (pos : Nat) (c : Chip) : Chip :=
  if c.tk.phase ≠ .ac0 || c.tk.tick % startAlign c ≠ 0 then c
  else if pos = myPos c then
    match c.plan.loaded with
    | none => c
    | some p =>
      if !c.link.dom.join || inDomain c || c.tk.mode ≠ .loaded || !canJoin c then c
      else
        let c := setDom { c.link.dom with join := false } (setDomState 2 c)
        let c := joinPair (startPair (startPlan p c))
        let c := if pairRole c = 2 && !lockstep c then setMode .paused (idleAll c) else startTiles false (setMode .running c)
        planDone (logRec 0 srcLinks .memberJoined [pos] c)
  else if isLeader c && c.link.dom.joining.contains pos && wiredTo c (portToward c pos) then
    let d := { c.link.dom with joining := c.link.dom.joining.filter (· != pos), lost := c.link.dom.lost.filter (· != pos) }
    let c := setPresent (presentMask c ||| 2 ^ pos) (setDom d c)
    logRec 0 srcLinks .memberJoined [pos] (setDomState (if presentMask c = 2 ^ domSize c - 1 then 2 else 3) c)
  else c

/-- DOMAIN_COMMAND_LATCH: 2,000 ns before F. -/
def commandLatch (c : Chip) : Chip :=
  if inDomain c && decide (fireTime c ≤ c.tk.now + 2000) then setDom { c.link.dom with latched := true } c else c

/-- What a boundary does for the domain: the latch opens, busy-dones are those of the new tick, F moves on; a boundary
fired without a token is counted. -/
def domainBoundary (c : Chip) : Chip :=
  if !inDomain c then c
  else
    let c := if alone c then objBump 0x2610 0x08 0 1 c else c
    let fired := match c.link.dom.token with | some t => if t.tick = c.tk.tick then t.fire else 0 | none => 0
    setDom { c.link.dom with latched := false, prev := fired } c
/-- The delay of the boundary that the token fires, against the last one plus T (R166, R300). -/
def tokenDelay (c : Chip) : Nat :=
  match c.link.dom.token with
  | some t => if c.link.dom.prev = 0 then 0 else t.fire - (c.link.dom.prev + tickNs c)
  | none => 0
/-- Whether the next boundary of a domain member may begin: its token has come and F with it (R300). -/
def domainFires (c : Chip) : Bool :=
  !inDomain c || alone c || (tokenReady c && decide (c.link.dom.fire ≤ c.tk.now))

end Sys2Proof.Machine
end

