-- ==== Sys2Proof/Machine/Tick.lean ====
section
/-! DEFINITION. The tick (spec/05_ticks_and_plans.md R136-R139, R166): what the boundary, the work window and the slack
window do, and the writes that take effect at a boundary (R391). -/

namespace Sys2Proof.Machine

/-! Writes of the boundary (R391). -/

/-- Objects whose write is measured into M10 (Table 10-2). -/
def measuredWrite (idx sub : Nat) : Bool :=
  (idx == 0x2611 && sub == 1) || (idx == 0x2620 && (sub == 1 || sub == 2 || sub == 3)) || (idx == 0x2712 && sub == 1)
    || (idx == 0x2721 && (sub == 1 || sub == 2))

/-- What a write does beside holding its value (R185, R213, R236, R305, R338). -/
def writeEffect (idx sub inst old new : Nat) (c : Chip) : Chip :=
  match idx with
  | 0x2301 =>
    if old = new then c
    else if 1 ≤ sub && sub ≤ 7 then showStream inst (resetStream inst c) else c
  | 0x2303 =>
    if sub = 1 then
      let c := modStream inst (fun st => { st with enc := { st.enc with stopped := false, started := false, clip := none } }) c
      objSet 0x2304 0x01 inst (if new = 1 then 1 else 0) c
    else c
  | 0x2421 => objSet 0x2421 0x03 inst (min (objGet c 0x2421 0x03 inst) (objGet c 0x2421 0x02 inst)) c
  | 0x2620 =>
    if sub = 1 then
      let c := setPair (if new = 0 then {} else { c.link.pair with matched := false }) c
      if new = 0 then setActive false (setPairState 0 c) else setPairState 1 c
    else if sub = 2 || sub = 3 then
      let c := setPair { c.link.pair with matched := false } c
      if pairRole c = 0 then c else setPairState 1 c
    else c
  | _ => c

/-- A write takes effect. -/
def applyWrite (w : PendingWrite) (c : Chip) : Chip :=
  let idx := keyIdx w.key
  let sub := keySub w.key
  let inst := keyInst w.key
  let isBlob := match objRow idx sub with | some r => r.blob | none => false
  let old := objGet c idx sub inst
  let c := if isBlob then blobSet idx sub inst w.value c else objSet idx sub inst (natLE w.value) c
  let c := writeEffect idx sub inst old (natLE w.value) c
  if measuredWrite idx sub then extendConfig w.value c else c
/-- The accepted writes of the latch, the last one of each object (R391). -/
def applyWrites (c : Chip) : Chip :=
  let ws := c.dict.pendingW
  let wait := (ws.filter (·.late)).map (fun w => { w with late := false })
  (ws.filter (!·.late)).foldl (fun c w => applyWrite w c) { c with dict := { c.dict with pendingW := wait } }

/-- R337: tenant writes at their boundary. -/
def tenantWrite (e : Nat × Bool) (c : Chip) : Chip :=
  let (t, on) := e
  if on then postStatus 0x2201 0x0C t stOk (objSet 0x2201 0x01 t 1 c)
  else
    let c := { c with serv := { c.serv with sums := c.serv.sums.filter (fun v => v.tenant != t) } }
    logRec 0 5 .tenantScrub [t] (postStatus 0x2201 0x0C t stOk <| objSet 0x2201 0x01 t 0 (eraseTenant t (discardReqs (fun q => q.tenant == t) c)))
def applyTenants (c : Chip) : Chip :=
  let l := c.sec.tenantOps
  l.foldl (fun c e => tenantWrite e c) { c with sec := { c.sec with tenantOps := [] } }

/-! The boundary. -/

/-- R166, R167: a boundary delayed past its timer edge. -/
def countOverrun (tick delay : Nat) (c : Chip) : Chip :=
  let c := objSet 0x2000 0x06 0 tick (objBump 0x2000 0x05 0 1 c)
  let c := objSet 0x2000 0x08 0 (min allOnes32 delay) (objBump 0x2000 0x07 0 delay c)
  let c := logRec 1 0 .overrun [tick, delay] (tracePoint 34 0 delay c)
  if tickNs c / 4 < delay then logRec 2 srcPower .powerFault [delay] (holdClass 0x01 60000000000 c) else c

/-- Completions posted in the last work window are recorded (R152, R160). -/
def recordCompletions (c : Chip) : Chip :=
  let l := c.plan.completions
  { c with plan := { c.plan with completed := c.plan.completed ++ l.filter (fun f => !c.plan.completed.contains f), completions := [] } }

/-- Whether boundary k + 1 may begin: the busy part has ended and the timer has produced it (R139), in a domain the token's
fire time has come (R300). -/
def boundaryReady (t : Nat) (c : Chip) : Bool :=
  c.tk.timer && c.tk.busyEnded && (c.tk.fresh || (if inDomain c && !alone c then domainFires c
    else decide (c.tk.boundaryAt + tickNs c ≤ t)))

/-- Boundary k + 1, or 0 after the timer's start, begins: the tick, its delay past its timer edge, 2000.02. -/
def beginTick (t : Nat) (c : Chip) : Chip :=
  let first := c.tk.fresh
  let k := if first then 0 else c.tk.tick + 1
  let ran := c.tk.tick
  let delay := match c.tk.edgeAt with
    | some e => t - e
    | none => if inDomain c && !alone c then tokenDelay c else 0
  let start := if first || c.tk.edgeAt.isSome || inDomain c then t else c.tk.boundaryAt + tickNs c
  let c := { c with tk := { c.tk with tick := k, fresh := false, phase := .ac0, busyEnded := false, boundaryAt := start, edgeAt := none } }
  objSet 0x2000 0x02 0 k (if !first && 0 < delay then countOverrun ran delay c else c)

/-- What ac 0 of boundary k does. -/
def boundaryWork (c : Chip) : Chip :=
  let k := c.tk.tick
  let start := c.tk.boundaryAt
  let c := droopTick (capTick c)
  let c := countConfirm (tickNs c) (calendarUpdate (countTime (complexBoundary c)))
  let c := applyPortCmds (applyPlanKeys (applyTenants (applyWrites c)))
  let c := survivalEnd (recordCompletions c)
  let c := takeToken c
  let c := { c with plan := { c.plan with request := c.plan.want } }
  let c := passTwo (checkProgress c)
  let c := objSet 0x2500 0x04 0 (min 65535 (natOf (floorPower c))) c
  let c := resolveAborts k (pauseTick c)
  let c := pairBoundary (domainBoundary c)
  let c := if objGet c 0x1F10 0x05 0 = 0 then c else objSet 0x1F10 0x06 0 (ptpTime c start) c
  let c := tracePoint 0 0 (k % 2 ^ 32) c
  thermalShow (showUnsettled c)

/-- TICK_BOUNDARY at time t. -/
def tickBoundary (t : Nat) (c : Chip) : Chip := if boundaryReady t c then boundaryWork (beginTick t c) else c

/-- TICK_OVERRUN: the timer fires before the busy part ends (R166). -/
def tickOverrun (c : Chip) : Chip :=
  let waits := !c.tk.busyEnded || (inDomain c && !alone c && !tokenReady c)
  if c.tk.timer && waits && c.tk.edgeAt.isNone && decide (c.tk.boundaryAt + tickNs c ≤ c.tk.now)
  then { c with tk := { c.tk with edgeAt := some (c.tk.boundaryAt + tickNs c) } } else c

/-- R75, R79: no tile has bundles left to issue: each reached ENDT, is held or stopped. -/
def tilesDone (c : Chip) : Bool := c.grid.tiles.all (fun e => !tileIssues e.2)

/-- BUSY_PART_END (R79, R139, R355, R300). -/
def busyPartEnd (c : Chip) : Chip :=
  if c.tk.timer && c.tk.phase = .slack && !c.tk.busyEnded && tilesDone c then busySend (learn { c with tk := { c.tk with busyEnded := true } }) else c

/-! Arming and the work window. -/

/-- SCHEDULE_ARMING (Table 5-1): what the tick before left in the fabric and the edge ports is gone, the schedules of the
plan position stand. -/
def armSchedules (c : Chip) : Chip :=
  let on := c.tk.mode = .running && !c.power.halted
  let pos := match c.plan.loaded with | some p => if on then some (c.tk.tick % max 1 p.cert.hp) else none | none => none
  let g : Grid := { c.grid with flits := c.grid.flits.filter (·.mg), edge := [], ejected := [], used := [], skips := [] }
  let c := keepInputs c
  let c := { c with net := { c.net with emitted := [], egress := [] } }
  let c := { c with grid := g, hbm := { c.hbm with returns := [], issued := [] }, plan := { c.plan with armed := pos } }
  resetEngines (resetInjection c)

/-- WORK_WINDOW_START (R75): s14 holds the active mask, s15 the plan position. In a repair pause no tile runs (R124). -/
def startWork (c : Chip) : Chip :=
  match c.plan.armed with
  | none => c
  | some pos =>
    if c.tk.mode ≠ .running || workPaused c then c
    else
      let m := c.plan.active
      let c := mgRestart c
      { c with grid := { c.grid with tiles := cellsMap {} (fun (t : Tile) => if t.idle then t else workStart m pos t) c.grid.tiles } }

/-! The dictionary latch (R396, R398-R400). -/

/-- Alert causes of events first visible at this latch. -/
def latchAlerts (c : Chip) : Chip :=
  let v := (objGet c 0x2001 0x01 0) ||| c.dict.alerts
  alertEval (objSet 0x2001 0x01 0 v { c with dict := { c.dict with alerts := 0 } })

/-! Upkeep in the slack window (R65, R67, R68, R127). -/

/-- A word as the burst code delivers it is written back in its place. -/
def rewrite (wa : Nat) (w : SWord) (t : Tile) : Tile := sramWrite t wa w

/-- R64, R65: every queued address is read again and the corrected word written back. -/
def writeBack (t : Tile) : Tile :=
  let q := t.wbQueue
  q.foldl (fun (t : Tile) wa =>
    let r := sramLook t wa
    match r.1 with
    | .corrected => rewrite wa r.2 t
    | .uncorrectable => (sramRead t wa).2
    | .clean => t) { t with wbQueue := [] }

/-- One word of the patrol scrub; a word that patrol corrects in two consecutive passes is suspect (R439). Patrol counts the errors
it finds; a word that stands poisoned already is delivered to nobody and not counted again (log entry 26). -/
def patrolWord (wa : Nat) (t : Tile) : Tile :=
  let r := sramLook t wa
  match r.1 with
  | .corrected =>
    let twice := t.patrolHits.contains wa
    let t := tileEv (.corrected wa) (rewrite wa r.2 { t with corrected := satAdd allOnes32 t.corrected 1 })
    if twice then { t with suspects := if t.suspects.contains wa || t.spareWords.contains wa then t.suspects else t.suspects ++ [wa] }
    else { t with patrolHits := t.patrolHits ++ [wa] }
  | .uncorrectable => (sramRead t wa).2
  | .clean => { t with patrolHits := t.patrolHits.filter (· != wa) }
/-- R65: 64 words from where the last patrol stopped. -/
def patrolTile (start : Nat) (t : Tile) : Tile :=
  let here (wa : Nat) : Bool := decide (start ≤ wa) && decide (wa < start + 64)
  (((t.upsets.map (·.1)) ++ t.patrolHits).dedup.filter here).foldl (fun t wa => patrolWord wa t) t

/-- Constant SRAM regions of a tile, by their index in the region table (R67). -/
def constantRegions (p : Plan) (t : Nat) : List (Nat × Region) :=
  ((planRegions p).zipIdx.filter (fun e => !e.1.hbm && e.1.tile == t && isConstant e.1)).map (fun e => (e.2, e.1))
/-- R67: whether a word of a constant region stands uncorrectable. -/
def regionBad (r : Region) (t : Tile) : Bool :=
  t.sram.any (fun w => w.2.poison && decide (r.base ≤ w.1) && decide (w.1 < r.base + min r.length 16384))
/-- R67: constant regions with a word found uncorrectable before this slack window, and those under way, are reloaded, 512 words a
tick; their words are written when all have been fetched. -/
def reloadRegions (bad : List (Nat × Region)) (t : Nat) (c : Chip) : Chip :=
  bad.foldl (fun c e =>
    let tl := tileAt c t
    let r := e.2
    let n := min r.length 16384
    let upto := (cellsFind tl.reload e.1).getD 0 + 512
    if upto < n then setTile t { tl with reload := cellsPut tl.reload e.1 upto } c
    else reloadWords t r.base n 0 (setTile t { tl with reload := cellsDrop tl.reload e.1 } c)) c
/-- The regions a slack window reloads: those that stood bad at its start; a word that its own patrol finds waits for the next. -/
def reloadsDue (t : Nat) (c : Chip) : List (Nat × Region) :=
  match c.plan.loaded with
  | none => []
  | some p => (constantRegions p t).filter (fun e => regionBad e.2 (tileAt c t) || (cellsFind (tileAt c t).reload e.1).isSome)

/-- The upkeep of a tile (R65, R67, R68). A held tile's SRAM and instruction store are no longer read (R122). -/
def tileUpkeep (t : Nat) (c : Chip) : Chip :=
  if (tileAt c t).held then c
  else
    let start := c.grid.patrol
    let due := reloadsDue t c
    let c := flushTile t (setTile t (patrolTile start (writeBack (tileAt c t))) c)
    let c := reloadRegions due t c
    (tileAt c t).lostLines.foldl (fun c n => reloadLine t n c) c

/-- SLACK_WINDOW_START: tile upkeep, a refresh of every bank, pass 1 (R65, R171, R354). -/
def slackStart (c : Chip) : Chip :=
  let c := mgRestart c
  let ts := c.grid.tiles.map (·.1)
  let c := ts.foldl (fun c t => tileUpkeep t c) c
  let c := { c with grid := { c.grid with patrol := (c.grid.patrol + 64) % 16384 }
                    life := { c.life with scrubWindows := if c.life.scrubbing then c.life.scrubWindows + 1 else 0 } }
  let c := if c.grid.pauseFrom.isSome || c.grid.stale = 0 then c else showZero { c with grid := { c.grid with stale := 0 } }
  passOne (refreshAll c)

end Sys2Proof.Machine
end

