-- ==== Sys2Proof/Machine/Dictionary.lean ====
section
/-! DEFINITION. The dictionary server (spec/12_dictionary_host.md R388-R404, R476, spec/10_security.md R340-R343): values of
objects, rights, reads and writes, command dispatch, snapshots. -/

namespace Sys2Proof.Machine

/-- Whether the dictionary server answers: not before it runs, not in Harebell, not while it restarts (R375, R376, R390). -/
def dictServes (c : Chip) : Bool :=
  !(c.tk.mode = .off || c.tk.mode = .softStart || c.tk.mode = .harebell) && !guarded c && !c.fw.restarting.contains 1

/-! Window entries (R395). -/

/-- The window instance that selector values name. -/
def instOf (idx : Nat) (sel : Nat → Nat → Nat) : Nat :=
  match winSelectors idx with
  | [] => 0
  | [a] => sel a.1 a.2
  | a :: b :: _ => sel a.1 a.2 * 2 ^ 32 + sel b.1 b.2

/-- The tenant that an entry belongs to; none where an index has no tenants' entries. Entities that the loaded plan does not
name are the operator's (R224). -/
def entryTenant (img : Chip) (idx inst : Nat) : Option Nat :=
  let p := img.plan.loaded
  match idx with
  | 0x2201 | 0x2202 | 0x2421 => some inst
  | 0x2301 | 0x2302 | 0x2303 | 0x2304 | 0x2305 | 0x2306 => some ((streamTenant img inst).getD 0)
  | 0x2331 | 0x2332 => some (((p.bind (fun p => planOch p inst)).map (·.tenant)).getD 0)
  | 0x2402 | 0x2433 | 0x2436 => some (inst / 2 ^ 32)
  | 0x2412 | 0x2413 => some (((p.bind (fun p => planFn p inst)).map (·.tenant)).getD 0)
  | 0x2426 => some ((p.bind (fun p => ((planRSlots p).find? (fun s => s.slot == inst)).bind (fun s =>
      (planFn p (slotFn p s)).map (·.tenant)))).getD 0)
  | 0x2431 => some ((p.bind (fun p => (planPool p inst).bind (fun q => (planFn p q.fn).map (·.tenant)))).getD 0)
  | 0x2441 => some (((p.bind (fun p => planAdapter p inst)).map (·.tenant)).getD 0)
  | 0x2B42 => some (((cellsFind img.intake.handles inst).map (·.tenant)).getD 0)
  | _ => none

/-- A snapshot group. -/
def groupAt (c : Chip) (n : Nat) : SnapGroup := c.dict.groups.toList.getD n {}
def setGroup (n : Nat) (g : SnapGroup) (c : Chip) : Chip := { c with dict := { c.dict with groups := c.dict.groups.setIfInBounds n g } }

/-- "(own)" (R394): a tenant reaches the entries of its own tenant, its own quote slots and groups, and, in a write, free
ones. -/
def ownsEntry (img c : Chip) (t idx inst : Nat) (write : Bool) : Bool :=
  match idx with
  | 0x2011 => (match (groupAt c inst).owner with | some o => o == t | none => write)
  | 0x2704 => (match (quoteSlot c inst).owner with | some o => o == t | none => write)
  | _ => (match entryTenant img idx inst with | some o => o == t | none => true)
def mayReach (img c : Chip) (r : Role) (row : ObjRow) (idx inst : Nat) (write : Bool) : Bool :=
  match r with
  | .tenant t => !row.own || ownsEntry img c t idx inst write
  | _ => true

/-! Values. -/

/-- Log record (Table 13-3). -/
def logBytes (r : LogRec) : List Byte :=
  bytesLE 4 r.seq ++ bytesLE 1 r.sev ++ bytesLE 1 0 ++ bytesLE 2 (r.src * 256 + Config.logCode r.ev.ctorIdx % 256)
    ++ bytesLE 8 r.tick ++ bytesLE 8 r.time ++ bytesLE 4 r.boot ++ bytesLE 4 0
    ++ (List.range 32).map (fun i => (Config.logData r.ev.ctorIdx r.ids).getD i 0)
/-- Trace record (R414). -/
def traceBytes (r : TraceRec) : List Byte :=
  bytesLE 1 r.point ++ bytesLE 1 (if r.hw then 1 else 0) ++ bytesLE 2 0 ++ bytesLE 4 r.tick ++ bytesLE 4 r.ac ++ bytesLE 4 r.value

/-- R344, 2201.0B: whether a tenant's streams share a decode or encode core with another tenant's. -/
def sharesCore (c : Chip) (t : Nat) : Bool :=
  match c.plan.loaded with
  | none => false
  | some p =>
    let vs := planVideo p
    vs.any (fun a => a.tenant == t && vs.any (fun b => b.tenant != t
      && (a.dcore == b.dcore || (vEncoder a && vEncoder b && a.ecore == b.ecore))))
/-- 2201.06: seconds to the earliest deadline of a retiring generation. -/
def retireLeft (c : Chip) (t : Nat) : Nat :=
  let ds := [0, 1, 2].filterMap (fun k => (retiringKey c k t).map (fun e =>
    cdiv (retireDeadline c e.2.since - c.tk.boundaryAt) 1000000000))
  match ds with
  | [] => 0
  | d :: t => t.foldl min d

/-- The request that 2402 shows. -/
def reqView (c : Chip) (inst : Nat) : Option LmReq :=
  (findReq c (inst / 2 ^ 32) (inst % 2 ^ 32)).orElse (fun _ => findAsm c (inst / 2 ^ 32) (inst % 2 ^ 32))
/-- 2402.01-2402.06. -/
def reqValue (c : Chip) (sub inst : Nat) : Option (List Byte) :=
  match reqView c inst with
  | none => none
  | some q => match sub with
    | 1 => some (bytesLE 1 (reqCode q.st))
    | 2 => some (bytesLE 1 (if reqInSlot q then q.slot else 0))
    | 3 => some (bytesLE 8 q.adm)
    | 4 => some (bytesLE 4 q.charge)
    | 5 => some (bytesLE 4 q.emitted)
    | 6 => some (bytesLE 4 (match q.pin with | some x => x.2 | none => 0))
    | _ => none
/-- 2426.01, 2426.02. -/
def slotValue (c : Chip) (sub inst : Nat) : Option (List Byte) :=
  match sub with
  | 1 => some (bytesLE 1 (if (activeSlot c inst).isNone then 0 else match slotReq c inst with
      | some q => if q.st = .prefill then 2 else if q.st = .generating then 3 else 4
      | none => 1))
  | 2 => some (bytesLE 4 (match slotReq c inst with | some q => reqLen q | none => 0))
  | _ => none
/-- Hot pages of a conversation. -/
def hotPages (v : Conv) : Nat := (v.kv.map (fun e => e.1 / 32)).dedup.length
/-- 2431.01, 2431.02. -/
def poolValue (c : Chip) (sub inst : Nat) : Option (List Byte) :=
  let vs := c.serv.convs.filter (fun v => match v.home with | some h => h.1 == inst | none => false)
  match sub with
  | 1 => some (bytesLE 4 (vs.map hotPages).sum)
  | 2 => some (bytesLE 4 (vs.map (fun v => v.warm.length)).sum)
  | _ => none
/-- 2433.01-2433.05. -/
def convValue (c : Chip) (sub inst : Nat) : Option (List Byte) :=
  let t := inst / 2 ^ 32
  let i := inst % 2 ^ 32
  match findConv c t i with
  | none => none
  | some v =>
    let q := c.serv.reqs.find? (fun q => q.tenant == t && q.conv == i && reqLive q)
    match sub with
    | 1 => some (bytesLE 1 (match q with
        | some q => if q.st = .restoring then 4 else 1
        | none => if (v.warm.any (fun e => !pageHot v e.1)) then 3 else 2))
    | 2 => some (bytesLE 4 (match q with | some q => if reqInSlot q then reqLen q else v.len | none => v.len))
    | 3 => some (bytesLE 2 (hotPages v))
    | 4 => some (bytesLE 2 v.warm.length)
    | 5 => some (bytesLE 4 (match v.idle, v.home with
        | some k, some h => k + ttlTicks c (objGet c 0x2431 0x03 h.1) - c.tk.tick
        | _, _ => 0))
    | _ => none
/-- 2441.04-2441.07. -/
def adapterValue (c : Chip) (sub inst : Nat) : Option (List Byte) :=
  let a := adSlot c inst
  let cur := a.cur.bind (fun b => a.live.find? (fun x => x.1 == b))
  let other := a.live.find? (fun x => a.cur != some x.1)
  let ver (v : Option (Nat × Nat)) : Nat := match v with | some x => x.2 | none => 0
  let pins (v : Option (Nat × Nat)) : Nat := match v with | some x => pinCount c inst x.1 | none => 0
  match sub with
  | 4 => some (bytesLE 4 (ver cur))
  | 5 => some (bytesLE 4 (ver other))
  | 6 => some (bytesLE 2 (pins cur))
  | 7 => some (bytesLE 2 (pins other))
  | _ => none
/-- 2B42.01-2B42.05. -/
def handleValue (c : Chip) (sub inst : Nat) : Option (List Byte) :=
  match cellsFind c.intake.handles inst with
  | none => none
  | some h => match sub with
    | 1 => some (bytesLE 1 (handleCode h.st))
    | 2 => some (bytesLE 1 h.kind)
    | 3 => some (bytesLE 8 h.size)
    | 4 => some (bytesLE 8 (receivedBytes h))
    | 5 => some (bytesLE 8 (match missingUnit h with | some u => 1024 * u | none => allOnes64))
    | _ => none
/-- 2921.04, 2921.05 of a physical tile (R98, R123, R130). -/
def physTile (c : Chip) (sub inst : Nat) : Option (List Byte) :=
  let q := inst / 528
  let px := inst % 33
  let lx := (List.range 32).find? (fun lx => physCol (routedCols c q) lx == px)
  match sub with
  | 4 => some (bytesLE 1 (if (retiredCols c q).contains px then 2 else if lx.isSome then 0 else 1))
  | 5 => some (bytesLE 2 (match lx with
      | some lx => (lx + 32 * (q % 2)) + 64 * (inst % 528 / 33 + 16 * (q / 2))
      | none => 0xFFFF))
  | _ => none
/-- 2332 of an output channel: no counts for a channel no plan names (R224); an inactive warm module reads the numbers of the
last capture it applied (R397). -/
def channelValue (c : Chip) (sub inst : Nat) : Option (List Byte) :=
  let named := (c.plan.loaded.bind (fun p => planOch p inst)).isSome
  let n := cellsGet 0 c.net.nums inst
  if decide (sub ≤ 4) && !named then some (bytesLE 8 0)
  else if pairRole c != 0 && !pairActive c && !lockstep c && c.plan.loaded.isSome && decide (0 < n) then
    match sub with
    | 5 => some (bytesLE 4 ((n - 1) % 2 ^ 32))
    | 6 => some (bytesLE 2 (epochField c (n - 1)))
    | _ => none
  else none

/-- Values that follow from the state elsewhere than in the object store. -/
def derivedValue (c : Chip) (idx sub inst : Nat) : Option (List Byte) :=
  match idx with
  | 0x1008 => some [0x54, 0x58, 0x38]
  | 0x1009 => some ((Config.hardwareText (numAt c.sec.birth 0x28 4)).take 16)
  | 0x100A => some ((Config.versionText (match (fwActive c 0).image with | some i => i.version | none => 0)).take 16)
  | 0x2011 =>
    let g := groupAt c inst
    (match sub with
    | 1 => some g.members
    | 5 => some g.data
    | 6 => some (bytesLE 2 (g.owner.getD 0xFFFF))
    | _ => none)
  | 0x2201 =>
    (match sub with
    | 1 => if inst = 0 then some [1] else none
    | 6 => some (bytesLE 4 (retireLeft c inst))
    | 0xB => some (bytesLE 1 (if sharesCore c inst then 1 else 0))
    | _ => none)
  | 0x2332 => if 1 ≤ sub then channelValue c sub inst else none
  | 0x2402 => reqValue c sub inst
  | 0x2412 =>
    (match sub with
    | 1 => some (bytesLE 1 (fnState c inst))
    | 6 => some (bytesLE 1 (if c.hbm.revoked.any (fun v => v.fn == inst) then 1 else 0))
    | _ => none)
  | 0x2426 => slotValue c sub inst
  | 0x2431 => poolValue c sub inst
  | 0x2433 => convValue c sub inst
  | 0x2435 => if sub = 2 then some (bytesLE 2 c.serv.sums.length) else none
  | 0x2436 => some (match findSummary c (inst / 2 ^ 32) (inst % 2 ^ 32) with | some v => v.sealed | none => [])
  | 0x2441 => adapterValue c sub inst
  | 0x2700 =>
    let blank (n : Nat) : Option (List Byte) := if (blobGet c 0x2700 sub 0).isEmpty then some ((List.range n).map Config.blankByte) else none
    (match sub with
    | 3 => blank 6516
    | 4 => blank 1312
    | 5 => blank 1184
    | _ => none)
  | 0x2702 => if sub = 1 then some (measLogBytes c) else none
  | 0x2902 => if sub = 3 then some (queueBytes c) else none
  | 0x2921 => physTile c sub inst
  | 0x2A00 => if sub = 1 then some (c.log.ring.flatMap logBytes) else none
  | 0x2A01 => if sub = 1 then some (c.log.mirror.flatMap logBytes) else none
  | 0x2A10 => if sub = 3 then some (c.trace.buf.flatMap traceBytes) else none
  | 0x2B40 => if sub = 8 then some (bytesLE 8 (stagingFree c)) else none
  | 0x2B42 => handleValue c sub inst
  | _ => none

/-- Counts that a tenant reads coarsened (Table 10-10). -/
def isCoarse (idx sub : Nat) : Bool :=
  match idx with
  | 0x2201 => sub == 9
  | 0x2302 => decide (2 ≤ sub) && decide (sub ≤ 0x13) && sub != 0xF
  | 0x2304 => decide (2 ≤ sub) && decide (sub ≤ 4)
  | 0x2332 => decide (1 ≤ sub) && decide (sub ≤ 4)
  | 0x2421 => sub == 4 || sub == 5
  | 0x2426 => decide (3 ≤ sub) && decide (sub ≤ 5)
  | 0x2431 => sub == 4 || sub == 5 || sub == 7
  | _ => false

/-- The value of an object as a role reads it. -/
def objValue (c : Chip) (r : Role) (row : ObjRow) (idx inst : Nat) : List Byte :=
  let key := okey idx row.sub inst
  if isTenant r && isCoarse idx row.sub then
    bytesLE row.size (cellsGet (objDefault key) c.dict.coarse key / 1024 * 1024)
  else if isTenant r && idx = 0x2510 && row.sub = 1 then bytesLE row.size c.power.tenthMean
  else match derivedValue c idx row.sub inst with
    | some b => b
    | none => if row.blob then blobGet c idx row.sub inst else bytesLE row.size (objGet c idx row.sub inst)

/-! Access checks (R340, R341, R394, R396, R404). -/

def roleRefusal (img c : Chip) (r : Role) : Option Res :=
  match r with
  | .operator => none
  | .tenant t =>
    if t = 0 || 4095 < t then some resReserved
    else if tenantAssigned img t then none else some { st := stRights, detail := 0x0B }
  | .service => if objGet c 0x2722 0x01 0 = 1 then none else some { st := stRights, detail := 0x0A }
/-- R396: objects that hold values in Booting. -/
def bootServed (idx sub : Nat) : Bool :=
  (decide (0x1000 ≤ idx) && decide (idx ≤ 0x1018)) || (idx == 0x2000 && sub == 1) || (idx == 0x2700 && decide (1 ≤ sub) && decide (sub ≤ 8))
def rightOf (row : ObjRow) (r : Role) : Nat :=
  match r with
  | .operator => row.op
  | .tenant _ => row.ten
  | .service => row.svc

/-- The entry an access names, or its refusal before any value is looked at. -/
def findRow (img c : Chip) (r : Role) (idx sub : Nat) (write : Bool) : Except Res ObjRow :=
  match roleRefusal img c r with
  | some e => .error e
  | none =>
    if !objIndexExists idx then .error { st := stRange, detail := 0x01 }
    else match objRow idx sub with
      | none => .error { st := stRange, detail := 0x02 }
      | some row =>
        if c.tk.mode = .booting && (write || !bootServed idx sub) then .error resState
        else match rightOf row r with
          | 0 => .error resRights
          | 1 => if write then .error { st := stRights, detail := 0x05 } else .ok row
          | 2 => if write then .ok row else .error { st := stRights, detail := 0x04 }
          | _ => .ok row

/-- R402, Table 12-11: the SDO abort code that a tray controller answers for a status and its detail; a status without one
completes the transfer. -/
def sdoAbort (r : Res) : Option Nat :=
  if r.st = stState then some 0x08000022
  else if r.st = stRights then some (if r.detail = 4 then 0x06010001 else if r.detail = 5 then 0x06010002 else 0x06010000)
  else if r.st = stRange then
    some (if r.detail = 1 then 0x06020000 else if r.detail = 2 then 0x06090011 else if r.detail = 3 then 0x06070010 else 0x06090030)
  else if r.st = stIntegrity then some 0x08000020
  else if r.st = stNoResource then some 0x05040005
  else if r.st = stTimeout then some 0x05040000
  else if r.st = stVersion then some 0x08000000
  else none

/-! Reads. -/

/-- A read, its selectors given: the entry, its window instance and its value. -/
def dictReadAs (img c : Chip) (r : Role) (idx sub : Nat) (sel : Nat → Nat → Nat) : Except Res (ObjRow × Nat × List Byte) :=
  match findRow img c r idx sub false with
  | .error e => .error e
  | .ok row =>
    let inst := instOf idx sel
    if !mayReach img c r row idx inst false then .error resOther
    else if row.kind = .selector || row.kind = .param then .ok (row, inst, bytesLE row.size (ctxVal c r idx sub))
    else .ok (row, inst, objValue (if idx = 0x2001 then c else img) r row idx inst)
/-- A read by a role with its own selectors. -/
def dictRead (img c : Chip) (r : Role) (idx sub : Nat) : Except Res (ObjRow × Nat × List Byte) := dictReadAs img c r idx sub (ctxVal c r)

/-! Snapshots (R398, R399). -/

def roleOfKey (k : Nat) : Role := if k = 0 then .operator else if k = 0x1000 then .service else .tenant k
def padTo4 (n : Nat) : Nat := (n + 3) / 4 * 4
/-- Largest value of an object in bytes. -/
def maxSize (idx sub : Nat) : Nat :=
  match objRow idx sub with
  | none => 0
  | some r => if r.blob then max r.size r.hi else r.size
def memberSel (m : List Byte) (c : Chip) (r : Role) (idx : Nat) (a b : Nat) : Nat :=
  if bitOf (numAt m 3 1) 0 then
    match winSelectors idx with
    | [] => ctxVal c r a b
    | [_] => numAt m 4 4
    | x :: _ => if x = (a, b) then numAt m 4 4 else numAt m 8 4
  else ctxVal c r a b
/-- R15: the selector values a member names are in range; those its index does not have are 0. -/
def memberSelOk (m : List Byte) : Bool :=
  let fits (x : Nat × Nat) (v : Nat) : Bool := match objRow x.1 x.2 with | some row => decide (row.lo ≤ v) && decide (v ≤ row.hi) | none => true
  match winSelectors (numAt m 0 2) with
  | [] => numAt m 4 8 == 0
  | [x] => fits x (numAt m 4 4) && numAt m 8 4 == 0
  | x :: y :: _ => fits x (numAt m 4 4) && fits y (numAt m 8 4)
/-- A member's header and value. -/
def memberBytes (c : Chip) (r : Role) (m : List Byte) : List Byte :=
  let idx := numAt m 0 2
  match dictReadAs c c r idx (numAt m 2 1) (memberSel m c r idx) with
  | .error e => bytesLE 1 e.st ++ [0, 0, 0]
  | .ok (_, _, v) => [0, 0] ++ bytesLE 2 v.length ++ v ++ List.replicate (padTo4 v.length - v.length) 0
/-- Every member's latched value. -/
def latchGroup (c : Chip) (n : Nat) : Chip :=
  let g := groupAt c n
  match g.owner with
  | none => c
  | some o =>
    if !g.once && !g.every then c
    else
      let ms := entriesOf 16 (g.members.length / 16) g.members
      let data := bytesLE 8 c.tk.tick ++ bytesLE 1 ms.length ++ List.replicate 7 0 ++ ms.flatMap (memberBytes c (roleOfKey o))
      let c' := objSet 0x2011 0x04 n c.tk.tick (setGroup n { g with once := false, data := data } c)
      if g.once then postStatus 0x2011 0x03 n stOk c' else c'

/-- SNAPSHOT_MEMBERS: 2011.01. -/
def cmdMembers : Cmd := fun _ r n b c =>
  let g := groupAt c n
  let ms := entriesOf 16 (b.length / 16) b
  let reserved := ms.any (fun m => decide (1 < numAt m 3 1) || numAt m 12 4 != 0)
  let size := 16 + (ms.map (fun m => 4 + padTo4 (maxSize (numAt m 0 2) (numAt m 2 1)))).sum
  if g.owner.isSome && g.owner ≠ some (roleKey r) then (c, resOther)
  else if reserved then (c, resReserved)
  else if 65536 < size || ms.any (fun m => bitOf (numAt m 3 1) 0 && !memberSelOk m) then (c, resRange)
  else (setGroup n { g with owner := some (roleKey r), members := b } c, resOk)
/-- LATCH_ONCE, LATCH_EVERY, LATCH_STOP, GROUP_FREE: 2011.02. -/
def cmdLatch : Cmd := fun _ r n b c =>
  let g := groupAt c n
  if g.owner.isSome && g.owner ≠ some (roleKey r) then (c, resOther)
  else if g.owner.isNone then (c, resState)
  else match numAt b 0 1 with
    | 1 => (setGroup n { g with once := true } c, resPending)
    | 2 => (setGroup n { g with every := true } c, resOk)
    | 3 => (setGroup n { g with every := false } c, resOk)
    | 4 => (objSet 0x2011 0x04 n allOnes64 (setGroup n {} c), resOk)
    | _ => (c, resRange)

/-- R18: reserved bits of a value: the transport of PTP, and the alert causes Table 12-10 does not name. -/
def reservedSet (idx sub v : Nat) : Bool :=
  (idx == 0x1F10 && sub == 2 && fld v 14 7 != 0) || (idx == 0x2001 && (sub == 2 || sub == 3) && fld v 31 13 != 0)

/-! Alerts, trace, repair. -/

/-- ALERT_ACKNOWLEDGE: 2001.02. -/
def cmdAck : Cmd := fun _ _ _ b c =>
  if reservedSet 0x2001 2 (numAt b 0 4) then (c, resReserved) else
  let a := objGet c 0x2001 0x01 0
  (alertEval (objSet 0x2001 0x01 0 (a - (a &&& numAt b 0 4)) c), resOk)
/-- ALERT_ENABLE: 2001.03. -/
def cmdEnable : Cmd := fun _ _ _ b c =>
  if reservedSet 0x2001 3 (numAt b 0 4) then (c, resReserved) else (alertEval (objSet 0x2001 0x03 0 (numAt b 0 4) c), resOk)
/-- TRACE_CLEAR, TRACE_FREEZE, TRACE_UNFREEZE: 2A10.04. -/
def cmdTrace : Cmd := fun _ _ _ b c =>
  match numAt b 0 1 with
  | 1 => ({ c with trace := { c.trace with buf := [] } }, resOk)
  | 2 => ({ c with trace := { c.trace with frozen := true } }, resOk)
  | 3 => ({ c with trace := { c.trace with frozen := false } }, resOk)
  | _ => (c, resRange)
/-- POST_PACKAGE_REPAIR: 2B31.00 (R271). -/
def cmdPpr : Cmd := fun img _ _ b c =>
  if numAt b 0 1 ≠ 1 then (c, resRange)
  else if judgedMode img c ≠ .idle && judgedMode img c ≠ .loaded then (c, resState)
  else
    let r := leaseRequest .ppr 0 true c
    (r.1, if r.2 = stOk then resPending else resSt r.2)

/-! Command dispatch. -/

/-- The commands of the dictionary by their object. -/
def commandOf (idx sub : Nat) : Option Cmd :=
  match idx, sub with
  | 0x2001, 0x02 => some cmdAck
  | 0x2001, 0x03 => some cmdEnable
  | 0x2011, 0x01 => some cmdMembers
  | 0x2011, 0x02 => some cmdLatch
  | 0x2100, 0x01 => some cmdPlan
  | 0x2102, 0x01 => some cmdOverlay
  | 0x2201, 0x01 => some cmdTenant
  | 0x2201, 0x07 => some cmdSweep
  | 0x2305, 0x01 => some cmdEncoder
  | 0x2306, 0x03 => some cmdSweep
  | 0x2403, 0x01 => some cmdCancel
  | 0x2410, 0x01 => some cmdAbort
  | 0x2413, 0x00 => some cmdRestartFn
  | 0x2433, 0x06 => some cmdConv
  | 0x2436, 0x00 => some cmdSummary
  | 0x2441, 0x01 => some cmdAdapter
  | 0x2502, 0x01 => some cmdSurvival
  | 0x2520, 0x01 => some cmdCoolant
  | 0x2601, 0x11 => some cmdPort
  | 0x2620, 0x0B => some cmdPair
  | 0x2702, 0x02 => some cmdExtend
  | 0x2704, 0x01 => some cmdNonce
  | 0x2704, 0x02 => some cmdQuote
  | 0x2710, 0x01 => some cmdKeyRelease
  | 0x2720, n => if 2 ≤ n && n ≤ 8 then some (cmdPlanKey (n - 1)) else none
  | 0x2801, 0x08 => some cmdUpdate
  | 0x2812, 0x04 => some cmdRestart
  | 0x2901, 0x03 => some cmdTray
  | 0x2902, 0x04 => some cmdCancelLease
  | 0x2903, 0x01 => some cmdScrub
  | 0x2911, 0x01 => some cmdDeclareEngine
  | 0x2931, 0x00 => some cmdDeclareTile
  | 0x2A10, 0x04 => some cmdTrace
  | 0x2B31, 0x00 => some cmdPpr
  | 0x2B40, 0x02 => some cmdIntake
  | _, _ => none

/-- The status object of a command object (R392). -/
def statusOf (idx sub : Nat) : Option (Nat × Nat) :=
  match idx, sub with
  | 0x2011, 0x02 => some (0x2011, 0x03)
  | 0x2100, 0x01 => some (0x2100, 0x02)
  | 0x2102, 0x01 => some (0x2102, 0x02)
  | 0x2201, 0x01 | 0x2201, 0x07 => some (0x2201, 0x0C)
  | 0x2305, 0x01 => some (0x2305, 0x02)
  | 0x2403, 0x01 => some (0x2403, 0x03)
  | 0x2410, 0x01 => some (0x2410, 0x02)
  | 0x2413, 0x00 => some (0x2413, 0x00)
  | 0x2433, 0x06 => some (0x2433, 0x06)
  | 0x2441, 0x01 => some (0x2441, 0x03)
  | 0x2502, 0x01 => some (0x2502, 0x01)
  | 0x2601, 0x11 => some (0x2601, 0x12)
  | 0x2620, 0x0B => some (0x2620, 0x0C)
  | 0x2702, 0x02 => some (0x2702, 0x03)
  | 0x2704, 0x02 => some (0x2704, 0x03)
  | 0x2710, 0x01 => some (0x2710, 0x02)
  | 0x2720, _ => some (0x2720, 0x09)
  | 0x2801, 0x08 => some (0x2801, 0x0A)
  | 0x2902, 0x04 => some (0x2902, 0x05)
  | 0x2903, 0x01 => some (0x2903, 0x02)
  | 0x2911, 0x01 => some (0x2911, 0x02)
  | 0x2931, 0x00 => some (0x2932, 0x00)
  | 0x2A10, 0x04 => some (0x2A10, 0x06)
  | 0x2B31, 0x00 => some (0x2B31, 0x00)
  | 0x2B40, 0x02 => some (0x2B40, 0x06)
  | _, _ => none
/-- The window instance of a status object. -/
def statusInst (o : Nat × Nat) (inst : Nat) : Nat := if (winSelectors o.1).isEmpty then 0 else inst

/-- R392, R156, R158, R160, R442: whether an earlier command on the object still waits and this one must not follow it. -/
def commandWaits (c : Chip) (idx sub inst v : Nat) : Bool :=
  match statusOf idx sub with
  | none => false
  | some o =>
    statusBusy c o.1 o.2 (statusInst o inst) && (match idx with
      | 0x2100 => !(v == 5 && (match c.plan.cmd with | some m => m.code == 2 || m.code == 4 | none => false))
      | 0x2102 | 0x2410 => false
      | 0x2903 => v != 2
      | _ => true)

/-- Objects whose reading shows the state and not the last value written. -/
def keepsValue (idx sub : Nat) : Bool :=
  !((idx == 0x2001) || (idx == 0x2201 && sub == 1) || (idx == 0x2704 && sub == 1) || (idx == 0x2812))
/-- R391, R392: the command object holds the value written, its status object the outcome. -/
def noteCommand (row : ObjRow) (idx inst v : Nat) (res : Res) (c : Chip) : Chip :=
  let o := statusOf idx row.sub
  let c := if row.blob || !keepsValue idx row.sub || o = some (idx, row.sub) then c else objSet idx row.sub inst v c
  match o with
  | some o => postStatus o.1 o.2 (statusInst o inst) res.st c
  | none => c

/-- R372: a command that needs the module awake. -/
def needsRun (idx sub v : Nat) : Bool := (idx == 0x2931 && sub == 0) || (idx == 0x2B31 && sub == 0) || (idx == 0x2B40 && sub == 2 && v == 1)
/-- Run a command; in a wake state its effect waits for the wake. -/
def runCommand (f : Cmd) (img : Chip) (r : Role) (idx sub inst : Nat) (b : List Byte) (c : Chip) : Chip × Res :=
  let out := f img r inst b c
  let accepted := out.2.st = stOk || out.2.st = stPending || out.2.st = stQueued
  if c.tk.wake ≠ .run && needsRun idx sub (natLE b) && accepted then
    let d : Deferred := { role := r, idx := idx, sub := sub, inst := inst, data := b, vals := (ctxOf c r).vals }
    (needWake { c with tk := { c.tk with deferred := c.tk.deferred ++ [d] } }, resPending)
  else out

/-- The waiting command's effect, with its requester's parameters as they stood (R372, R476). -/
def runDeferred (d : Deferred) (c : Chip) : Chip :=
  match commandOf d.idx d.sub with
  | none => c
  | some f =>
    let now := (ctxOf c d.role).vals
    let out := f c d.role d.inst d.data (setCtx d.role { ctxOf c d.role with vals := d.vals } c)
    let h := ctxVal out.1 d.role 0x2B40 0x07
    let c := setCtx d.role { ctxOf out.1 d.role with vals := now } out.1
    let c := if d.idx = 0x2B40 && out.2.st = stOk then setCtxVal d.role 0x2B40 0x07 h c else c
    match statusOf d.idx d.sub with
    | some o => postStatus o.1 o.2 (statusInst o d.inst) out.2.st c
    | none => c
/-- WAKE_COMPLETE: the wake, then the commands that waited for it. -/
def wakeAll (c : Chip) : Chip :=
  let l := c.tk.deferred
  l.foldl (fun c d => runDeferred d c) (wakeDone { c with tk := { c.tk with deferred := [] } })

/-! Writes (R391, R393). -/

/-- R393: whether a length suits an object's type. -/
def lengthOk (row : ObjRow) (idx n : Nat) : Bool :=
  if !row.blob then n == row.size
  else decide (row.lo ≤ n) && decide (n ≤ row.hi) && (match idx, row.sub with
    | 0x2011, _ => n % 16 == 0
    | 0x2721, 0x01 => n % 8 == 0
    | 0x2721, 0x02 | 0x2720, _ => n == 0 || n == 1312
    | _, _ => true)
/-- R15: a value in the range of its entry. -/
def rangeOk (row : ObjRow) (idx v : Nat) : Bool :=
  row.blob || (decide (row.lo ≤ v) && decide (v ≤ row.hi) && (match idx, row.sub with
    | 0x2501, 0x03 => decide (v ≤ 6) || v == 0xFF
    | _, _ => true))

/-- R177: a service port's unicast address that a stream listens on. -/
def streamUnicast (c : Chip) (s : Nat) : Bool :=
  let p := objGet c 0x2301 0x02 s
  let a := objGet c 0x2301 0x03 s
  !addrMulticast a && [0, 1].any (fun port => (p == 2 || p == port) && portOwns c port a)
def streamPortBad (c : Chip) (s : Nat) : Bool :=
  let d := objGet c 0x2301 0x04 s
  let u := streamUnicast c s
  ((d == 319 || d == 320) && (u || addrMulticast (objGet c 0x2301 0x03 s)))
    || (u && d != 0 && (d == objGet c 0x2400 0x01 0 || d == objGet c 0x2B40 0x01 0))
/-- Two enabled streams that one packet could belong to. -/
def streamsClash (c : Chip) (a b : Nat) : Bool :=
  let g (s sub : Nat) := objGet c 0x2301 sub s
  (g a 2 == 2 || g b 2 == 2 || g a 2 == g b 2) && g a 3 == g b 3 && g a 4 == g b 4 && (g a 6 == 0 || g b 6 == 0 || g a 5 == g b 5)
/-- R177: the classes of R176 stay apart. -/
def portsApart (c : Chip) : Bool :=
  let r := objGet c 0x2400 0x01 0
  let i := objGet c 0x2B40 0x01 0
  let on := (List.range 256).filter (fun s => objGet c 0x2301 0x01 s == 1)
  !(r == i && r != 0) && !([r, i].any (fun p => p == 319 || p == 320)) && !on.any (streamPortBad c)
    && on.all (fun a => on.all (fun b => decide (b ≤ a) || !streamsClash c a b))

/-- The registers with every accepted write applied: R177 holds over the writes that wait for their boundary too. -/
def withPending (c : Chip) : Chip :=
  c.dict.pendingW.foldl (fun c w => objSet (keyIdx w.key) (keySub w.key) (keyInst w.key) (natLE w.value) c) c
/-- Registers that accept writes only in some states: R177, R313. -/
def stateRefuses (img c : Chip) (idx sub inst v : Nat) : Bool :=
  match idx with
  | 0x1F00 | 0x1F01 | 0x2301 | 0x2400 | 0x2B40 => !portsApart (objSet idx sub inst v (withPending c))
  | 0x2610 | 0x2611 | 0x2620 => judgedMode img c ≠ .idle && judgedMode img c ≠ .loaded
  | _ => false

/-- A write accepted for its boundary; the last write of an object before a latch stands. In a domain the latch closes before
the boundary (R299), and a cap written after the busy-done waits one boundary more (R351). -/
def deferWrite (idx sub inst : Nat) (b : List Byte) (c : Chip) : Chip :=
  let cap := idx == 0x2500 && inDomain c && !alone c && c.tk.busyEnded
  let w : PendingWrite := { key := okey idx sub inst, value := b, late := cap || c.link.dom.latched }
  let rest := c.dict.pendingW.filter (fun x => !(x.key == w.key && x.late == w.late))
  { c with dict := { c.dict with pendingW := rest ++ [w] } }

/-- A write to a register without an effect of its own. -/
def writePlain (row : ObjRow) (img : Chip) (idx inst : Nat) (b : List Byte) (c : Chip) : Chip × Res :=
  let v := natLE b
  if !row.blob && reservedSet idx row.sub v then (c, resReserved)
  else if !rangeOk row idx v then (c, resRange)
  else if stateRefuses img c idx row.sub inst v then (c, resState)
  else if row.kind = .atOnce then (objSet idx row.sub inst v c, resOk)
  else (deferWrite idx row.sub inst b c, resOk)
/-- A write to a command object. -/
def writeCommand (f : Cmd) (row : ObjRow) (img : Chip) (r : Role) (idx inst : Nat) (b : List Byte) (c : Chip) : Chip × Res :=
  let v := natLE b
  if commandWaits c idx row.sub inst v then (c, resState)
  else
    let out := if rangeOk row idx v then runCommand f img r idx row.sub inst b c else (c, resRange)
    (if out.2.st = stRights && idx != 0x2710 then out.1 else noteCommand row idx inst v out.2 out.1, out.2)

/-- A write to the dictionary. -/
def dictWrite (img : Chip) (r : Role) (idx sub : Nat) (b : List Byte) (c : Chip) : Chip × Res :=
  match findRow img c r idx sub true with
  | .error e => (c, e)
  | .ok row =>
    let inst := instOf idx (ctxVal c r)
    if !mayReach img c r row idx inst true then (c, resOther)
    else if !lengthOk row idx b.length then (if idx = 0x2710 then objSet 0x2710 0x03 0 1 c else c, resLength)
    else if row.kind = .selector || row.kind = .param then
      (if rangeOk row idx (natLE b) then (setCtxVal r idx sub (natLE b) c, resOk) else (c, resRange))
    else match commandOf idx sub with
      | some f => writeCommand f row img r idx inst b c
      | none => writePlain row img idx inst b c

/-! The dictionary latch (R396, R398-R400). -/

/-- R343: the counts of the last boundary whose number is a multiple of 64. -/
def latchCoarse (c : Chip) : Chip :=
  if c.tk.tick % 64 = 0 then
    { c with dict := { c.dict with coarse := c.objs.filter (fun e => isCoarse (keyIdx e.1) (keySub e.1)) } }
  else c
/-- What the latch does before the image is taken. -/
def latchChip (c : Chip) : Chip :=
  let c := latchCoarse (latchAlerts c)
  let c := { c with win := { c.win with tickLow := c.tk.tick % 2 ^ 32, stateByte := modCode c.tk.mode } }
  let c := { c with dict := { c.dict with latched := true } }
  tracePoint 7 3584 (c.tk.tick % 2 ^ 32) ((List.range 8).foldl latchGroup c)

end Sys2Proof.Machine
end

