-- ==== Sys2Proof/Machine/Sdio.lean ====
section
/-! DEFINITION. The SDIO card and the function 1 window (spec/12_dictionary_host.md R375-R390, R429). -/

namespace Sys2Proof.Machine

/-! Card registers (R378, R379). -/

/-- The card answers commands from the time the dictionary server, or the recovery ROM, runs (R376, R450). -/
def cardAlive (c : Chip) : Bool := !(c.tk.mode = .off || c.tk.mode = .softStart) && !c.card.inactive
/-- A written register byte. -/
def cardReg (c : Chip) (a : Nat) : Nat := cellsGet 0 c.card.regs a
def setCardReg (a v : Nat) (c : Chip) : Chip := { c with card := { c.card with regs := cellsSet 0 c.card.regs a v } }
def inHarebell (c : Chip) : Bool := c.tk.mode = .harebell
/-- IOR1 and IOR2. -/
def ior1 (c : Chip) : Bool := bitOf (cardReg c 2) 1 && dictServes c
def ior2 (c : Chip) : Bool := bitOf (cardReg c 2) 2 && inHarebell c
/-- A function's window can be reached: the function is ready. -/
def functionReady (c : Chip) (fn : Nat) : Bool := fn = 0 || (fn = 1 && dictServes c) || (fn = 2 && inHarebell c)

/-! The low-speed outputs: alert condition, power, ticks, seconds and the card's interrupt (R381, R382, R468). -/

/-- ALERT_N, an active-low line: low while the alert condition holds, whatever the card's enables (R382). -/
def alertN (c : Chip) : Bool := !alertCondition c
/-- PWR_GOOD: the soft start is complete (R468). -/
def powerGood (c : Chip) : Bool := c.power.pwrGood
/-- TICK_OUT: high for 1 µs from ac 0 of each boundary, low in Booting, Harebell and Stopped (R468). -/
def tickOut (c : Chip) : Bool :=
  c.tk.timer && !c.tk.fresh && decide (c.tk.now < c.tk.boundaryAt + 1000)
    && !(c.tk.mode = .booting || c.tk.mode = .harebell || c.tk.mode = .stopped)
/-- PPS_OUT: high for 100 ms from each PTP second, held low when unlocked (R468). -/
def ppsOut (c : Chip) : Bool :=
  objGet c 0x1F10 0x05 0 != 0 && (match c.net.ppsUntil with | some u => decide (c.tk.now < u) | none => false)
/-- INT1 and INT2 of CCCR 0x05. -/
def int1 (c : Chip) : Bool := alertCondition c
def int2 (c : Chip) : Bool := c.fw.hb.int2
/-- The interrupt on DAT[1]: a function's interrupt is pending, enabled, and the master enable is set (R381). -/
def cardInterrupt (c : Chip) : Bool := bitOf (cardReg c 4) 0 && ((int1 c && bitOf (cardReg c 4) 1) || (int2 c && bitOf (cardReg c 4) 2))

/-- Bytes of the CIS (Table 12-3). -/
def cisCommon : List Byte :=
  [0x20, 0x04, 0x7E, 0x0F] ++ bytesLE 2 cardModel
    ++ [0x21, 0x02, 0x0C, 0x00, 0x22, 0x04, 0x00, 0x00, 0x02, 0x32, 0xFF]
def cisFunction : List Byte :=
  [0x21, 0x02, 0x0C, 0x00, 0x22, 0x2A] ++ (List.range 42).map (fun i =>
    if i = 0 then 1 else if i = 1 then Config.cisByte 1 &&& 0xFE else if 7 ≤ i && i ≤ 10 then 0 else if i = 12 then 0 else if i = 13 then 2
    else Config.cisByte i) ++ [0xFF]

/-- A byte of function 0: CCCR, FBR or CIS. Addresses not listed read as zero. -/
def fn0Byte (c : Chip) (a : Nat) : Nat :=
  if 0x1000 ≤ a && a < 0x1100 then (cisCommon.getD (a - 0x1000) 0).toNat
  else if 0x1100 ≤ a && a < 0x1300 then (cisFunction.getD (a % 0x100) 0).toNat
  else match a with
    | 0x00 => 0x43
    | 0x01 => 0x03
    | 0x03 => (if ior1 c then 2 else 0) + (if ior2 c then 4 else 0)
    | 0x05 => (if int1 c then 2 else 0) + (if int2 c then 4 else 0)
    | 0x06 => 0
    | 0x08 => 0x17 + cardReg c 8
    | 0x0A => 0x10
    | 0x13 => 1 + cardReg c 0x13
    | 0x14 => 0x03
    | 0x15 => 0x03 + cardReg c 0x15
    | 0x16 => 0x01 + cardReg c 0x16
    | 0x10A => 0x11
    | 0x20A => 0x12
    | a => cardReg c a

/-! The window (R384-R387). -/

def winByte (c : Chip) (a : Nat) : Nat :=
  let w := c.win
  if a = 0 then (if w.busy then 1 else 0) + (if w.respReady then 2 else 0) + (if alertCondition c then 4 else 0) + (if w.overrun then 8 else 0)
  else if 2 ≤ a && a < 4 then w.tag / 256 ^ (a - 2) % 256
  else if 4 ≤ a && a < 8 then w.tickLow / 256 ^ (a - 4) % 256
  else if a = 8 then w.stateByte
  else if 0x3000 ≤ a && a < 0x6000 && w.respReady then (w.resp.getD (a - 0x3000) 0).toNat
  else 0

/-- GO: WIN_CTL 0x01 (R387). -/
def winGo (c : Chip) : Chip :=
  if c.win.busy then { c with win := { c.win with overrun := true } } else { c with win := { c.win with go := true } }
/-- DISCARD: WIN_CTL 0x02. -/
def winDiscard (c : Chip) : Chip := { c with win := { c.win with respReady := false } }

/-- A byte written to function 1. -/
def winWrite (a : Nat) (v : Byte) (c : Chip) : Chip :=
  if a = 1 then (if v = 1 then winGo c else if v = 2 then winDiscard c else c)
  else if 0x1000 ≤ a && a < 0x3000 then { c with win := { c.win with req := cellsSet 0 c.win.req (a - 0x1000) v } }
  else c

/-! Function 2 (R429). -/

def hbByte (c : Chip) (a : Nat) : Nat :=
  let h := c.fw.hb
  if a = 0 then (if h.ready then 2 else 0) + (if h.imageDone then 4 else 0) + (if h.error then 8 else 0)
  else if a = 2 then h.err
  else if a = 3 then hbNeed c
  else if 4 ≤ a && a < 8 then h.offset / 256 ^ (a - 4) % 256
  else if a = 0xC then h.cause
  else if 0x10 ≤ a && a < 0x18 then objGet c 0x2700 0x02 0 / 256 ^ (a - 0x10) % 256
  else if 0x18 ≤ a && a < 0x1C then objGet c 0x1018 0x03 0 / 256 ^ (a - 0x18) % 256
  else 0
/-- A byte written to function 2; H_CTL starts a command. -/
def hbWrite (a : Nat) (v : Byte) (c : Chip) : Chip :=
  let n := v.toNat
  if a = 1 then
    (match n with
    | 1 => hbBegin c
    | 2 => hbChunk c.fw.hb.offset c
    | 3 => hbEnd c
    | 4 => hbReboot c
    | 5 => hbCancel c
    | _ => c)
  else if 8 ≤ a && a < 0xC then
    let k := 256 ^ (a - 8)
    modHb (fun h => { h with len := h.len - h.len / k % 256 * k + n * k }) c
  else if 0x1000 ≤ a && a < 0x1100 then modHb (fun h => { h with header := cellsSet 0 h.header (a - 0x1000) n }) c
  else if 0x10000 ≤ a && a < 0x20000 then modHb (fun h => { h with chunk := cellsSet 0 h.chunk (a - 0x10000) n }) c
  else c

/-! I/O abort and reset (R383). -/

/-- IO_ABORT: the transfer's data is discarded. -/
def ioAbort (c : Chip) : Chip := { c with card := { c.card with transfer := false } }
/-- SDIO_RESET. -/
def sdioReset (c : Chip) : Chip :=
  { c with card := { c.card with regs := [], transfer := false }, win := { c.win with respReady := false, resp := [] } }

/-- A byte written to function 0. -/
def fn0Write (a : Nat) (v : Byte) (c : Chip) : Chip :=
  let n := v.toNat
  match a with
  | 0x02 => setCardReg 2 (n &&& 6) c
  | 0x04 => setCardReg 4 (n &&& 7) c
  | 0x06 => if bitOf n 3 then sdioReset c else if n % 8 = 1 then ioAbort c else c
  | 0x07 => setCardReg 7 ((n &&& 0x80) + (if n % 4 = 0 || n % 4 = 2 then n % 4 else cardReg c 7 % 4)) c
  | 0x08 => setCardReg 8 (n &&& 0x20) c
  | 0x13 => if n / 2 % 8 ≤ 3 then setCardReg 0x13 (n &&& 0xE) c else c
  | 0x15 => setCardReg 0x15 (n &&& 0x30) c
  | 0x16 => setCardReg 0x16 (n &&& 2) c
  | 0x10 | 0x11 | 0x110 | 0x111 | 0x210 | 0x211 => setCardReg a n c
  | _ => c

/-- A byte of a function, read and written. -/
def fnByte (c : Chip) (fn a : Nat) : Byte :=
  BitVec.ofNat 8 (match fn with | 0 => fn0Byte c a | 1 => winByte c a | _ => hbByte c a)
def fnWrite (fn a : Nat) (v : Byte) (c : Chip) : Chip :=
  match fn with | 0 => fn0Write a v c | 1 => winWrite a v c | _ => hbWrite a v c
def fnWriteRun (fn : Nat) : Nat → List Byte → Chip → Chip
  | _, [], c => c
  | a, v :: t, c => fnWriteRun fn (a + 1) t (fnWrite fn (a % 0x20000) v c)

/-! Commands (R376, R377, R380). -/

def answer (a : CardAns) (c : Chip) : Chip := { c with card := { c.card with answer := a } }
/-- A command to the card; one that does not answer says nothing. -/
def onCard (f : Chip → Chip) (c : Chip) : Chip := if cardAlive c then f c else answer .silent c
/-- A command that only a selected card answers. -/
def onSelected (f : Chip → Chip) (c : Chip) : Chip := onCard (fun c => if c.card.selected then f c else answer .silent c) c

/-- CMD3: the card publishes an address. -/
def cmd3 (c : Chip) : Chip :=
  onCard (fun c =>
    let r := takeFree c
    let a := Config.cardAddress r.1 % 65536
    answer (.r6 a) { r.2 with card := { r.2.card with rca := a } }) c
/-- CMD5 (R376). -/
def cmd5 (c : Chip) : Chip := onCard (answer (.r4 2 0 1 0x300000)) c
/-- CMD7: the card with the address is selected, any other is not. -/
def cmd7 (rca : Nat) (c : Chip) : Chip :=
  onCard (fun c =>
    if rca = c.card.rca then answer .accepted { c with card := { c.card with selected := true } }
    else answer .silent { c with card := { c.card with selected := false } }) c
/-- CMD15: the card with the address becomes inactive. -/
def cmd15 (rca : Nat) (c : Chip) : Chip :=
  onCard (fun c => if rca = c.card.rca then answer .silent { c with card := { c.card with inactive := true } } else answer .silent c) c
/-- CMD52: one byte, written or read, or written and read back. -/
def cmd52 (write raw : Bool) (fn addr : Nat) (v : Byte) (c : Chip) : Chip :=
  onSelected (fun c =>
    if !functionReady c fn then answer (.r5 .function []) c
    else
      let a := addr % 0x20000
      let n := if write then fnWrite fn a v c else c
      answer (.r5 .ok [if write && !raw then v else fnByte n fn a]) n) c

/-- Bytes that a CMD53 moves; none where it is answered with ILLEGAL_COMMAND. -/
def cmd53Length (c : Chip) (fn : Nat) (block incr : Bool) (count : Nat) : Option Nat :=
  let n := count % 512
  let base := 0x100 * fn + 0x10
  let bs := cardReg c base + 256 * cardReg c (base + 1)
  if !incr then none
  else if !block then some (if n = 0 then 512 else n)
  else if n = 0 || bs = 0 || 512 < bs then none
  else some (n * bs)
/-- CMD53. Data that has not all come leaves the transfer in progress: none of it is moved. -/
def cmd53 (write block incr : Bool) (fn addr count : Nat) (data : List Byte) (c : Chip) : Chip :=
  onSelected (fun c =>
    if !functionReady c fn then answer (.r5 .function []) c
    else match cmd53Length c fn block incr count with
      | none => answer (.r5 .illegal []) c
      | some n =>
        if !write then answer (.r5 .ok ((List.range n).map (fun i => fnByte c fn ((addr + i) % 0x20000)))) { c with card := { c.card with transfer := false } }
        else if data.length < n then answer (.r5 .ok []) { c with card := { c.card with transfer := fn == 1 } }
        else answer (.r5 .ok []) (fnWriteRun fn addr (data.take n) { c with card := { c.card with transfer := false } })) c

/-! Requests (R385, R387-R389). -/

/-- The request frame in the buffer (Table 12-5). -/
def frameOf (c : Chip) : Request :=
  let b : List Byte := cellsGetRun 0 c.win.req 16 0
  let len := numAt b 12 2
  { op := numAt b 0 1, role := numAt b 1 1, tenant := numAt b 2 2, idx := numAt b 4 2, sub := numAt b 6 1, flags := numAt b 7 1
    offset := numAt b 8 4, length := len, tag := numAt b 14 2, tick := c.tk.tick
    data := if 8176 < len then [] else cellsGetRun 0 c.win.req len 16 }
/-- R388. -/
def frameBad (r : Request) : Bool :=
  r.op < 1 || 4 < r.op || 2 < r.role || (if r.role = 1 then r.tenant < 1 || 4095 < r.tenant else r.tenant ≠ 0)
    || 1 < r.flags || ((r.op = 1 || r.op = 2) && r.offset ≠ 0) || 8176 < r.length
def roleOf (r : Request) : Role := match r.role with | 0 => .operator | 1 => .tenant r.tenant | _ => .service

/-- A response stands in the buffer (Table 12-6). -/
def respond (q : Request) (res : Res) (type : Nat) (last pend : Bool) (data : List Byte) (c : Chip) : Chip :=
  let flags := (if last then 1 else 0) + (if alertCondition c then 2 else 0) + (if pend then 4 else 0)
  let b := bytesLE 1 res.st ++ bytesLE 1 res.detail ++ bytesLE 2 q.tag ++ bytesLE 2 type ++ bytesLE 1 flags ++ bytesLE 1 0
    ++ bytesLE 8 q.tick ++ bytesLE 2 data.length ++ List.replicate 14 0 ++ data
  { c with win := { c.win with busy := false, respReady := true, resp := b, tag := q.tag, taken := none }
           dict := { c.dict with lastRes := res, lastData := data } }

/-- REQUEST_TAKE (R387); a frame that R388 refuses is answered with no other effect. -/
def requestTake (c : Chip) : Chip :=
  if !c.win.go || c.win.busy || !dictServes c then c
  else
    let q := frameOf c
    let c := { c with win := { c.win with go := false, busy := true, overrun := false, respReady := false, taken := some q } }
    if frameBad q then respond q resReserved 0 true false [] c else c

/-- The type code of an object, 0 when unknown. -/
def typeOf (idx sub : Nat) : Nat := match objRow idx sub with | some r => r.type | none => 0
/-- A write to the object has been accepted and has not yet taken effect (FLAGS[2]): it waits for its boundary, or the command
it gave still waits (R391, R392). -/
def writePends (c : Chip) (key : Nat) : Bool :=
  c.dict.pendingW.any (fun w => w.key == key) || (match statusOf (keyIdx key) (keySub key) with
    | some o => statusBusy c o.1 o.2 (statusInst o (keyInst key))
    | none => false)
/-- The request taken, if its operation is op. -/
def takenOp (c : Chip) (op : Nat) : Option Request := c.win.taken.filter (fun q => q.op == op && dictServes c)

/-- READ. -/
def winRead (img c : Chip) : Chip :=
  match takenOp c 1 with
  | none => c
  | some q =>
    let type := typeOf q.idx q.sub
    match dictRead img c (roleOf q) q.idx q.sub with
    | .error e => respond q e type true false [] c
    | .ok (_, inst, v) =>
      if 8176 < v.length then respond q resLength type true false [] c
      else respond q resOk type true (writePends c (okey q.idx q.sub inst)) v c
/-- The answer to a completed write. -/
def answerWrite (q : Request) (img : Chip) (b : List Byte) (c : Chip) : Chip :=
  let r := roleOf q
  let out := dictWrite img r q.idx q.sub b c
  respond q out.2 (typeOf q.idx q.sub) true (writePends out.1 (okey q.idx q.sub (instOf q.idx (ctxVal c r)))) [] out.1
/-- WRITE. -/
def winWriteOp (img c : Chip) : Chip :=
  match takenOp c 2 with
  | none => c
  | some q => answerWrite q img q.data c

/-- R389: a copy lives 1 s past its last segment. -/
def liveCopy (c : Chip) (a : AccessCtx) (key : Nat) : Option SegCopy :=
  a.copy.filter (fun s => s.key == key && decide (c.tk.now ≤ s.t + 1000000000))
def setCopy (r : Role) (s : Option SegCopy) (c : Chip) : Chip := setCtx r { ctxOf c r with copy := s } c
/-- A segment of a copy, which is kept until the segment that reaches its end. -/
def sendSegment (q : Request) (r : Role) (key : Nat) (v : List Byte) (c : Chip) : Chip :=
  let part := (v.drop q.offset).take q.length
  let last := decide (v.length ≤ q.offset + part.length)
  let c := setCopy r (if last then none else some { key := key, data := v, t := c.tk.now }) c
  respond q resOk (typeOf q.idx q.sub) last (writePends c key) part c
/-- READ_SEG. -/
def winReadSeg (img c : Chip) : Chip :=
  match takenOp c 3 with
  | none => c
  | some q =>
    let r := roleOf q
    let type := typeOf q.idx q.sub
    match dictRead img c r q.idx q.sub with
    | .error e => respond q e type true false [] c
    | .ok (_, inst, v) =>
      let key := okey q.idx q.sub inst
      if q.offset = 0 then sendSegment q r key v c
      else match liveCopy c (ctxOf c r) key with
        | none => respond q { st := stRange, detail := 0x07 } type true false [] c
        | some s => if s.data.length ≤ q.offset then respond q resRange type true false [] c else sendSegment q r key s.data c
/-- WRITE_SEG. -/
def winWriteSeg (img c : Chip) : Chip :=
  match takenOp c 4 with
  | none => c
  | some q =>
    let r := roleOf q
    let type := typeOf q.idx q.sub
    let key := okey q.idx q.sub (instOf q.idx (ctxVal c r))
    match findRow img c r q.idx q.sub true with
    | .error e => respond q e type true false [] c
    | .ok row =>
      if !mayReach img c r row q.idx (instOf q.idx (ctxVal c r)) true then respond q resOther type true false [] c
      else
        let a := ctxOf c r
        let old := if q.offset = 0 then some [] else (a.wseg.filter (fun s => s.key == key && s.data.length == q.offset)).map (·.data)
        match old with
        | none => respond q { st := stRange, detail := 0x07 } type true false [] (setCtx r { a with wseg := none } c)
        | some d =>
          let d := d ++ q.data
          if bitOf q.flags 0 then answerWrite q img d (setCtx r { a with wseg := none } c)
          else respond q resOk type false (writePends c key) [] (setCtx r { a with wseg := some { key := key, data := d, t := c.tk.now } } c)
/-- SEGMENT_COPY_EXPIRY. -/
def copyExpiry (r : Role) (c : Chip) : Chip :=
  match (ctxOf c r).copy with
  | some s => if s.t + 1000000000 < c.tk.now then setCopy r none c else c
  | none => c

end Sys2Proof.Machine
end

