-- ==== Sys2Proof/Machine/Commands.lean ====
section
/-! DEFINITION. The meanings of the dictionary commands: each row is a write (or, for SUMMARY_EXPORT, a read) of its object by
a role, checked and carried out as any access to the dictionary is (spec/12_dictionary_host.md R391-R396, R476). The entry of a
window is the one the role's selectors name. While the dictionary server does not run, a write is not taken (R376, R390). -/

namespace Sys2Proof.Machine

/-- A write to the dictionary by a role. -/
def onWrite (r : Role) (idx sub : Nat) (b : List Byte) (s : State) : Result :=
  onChip (fun c => if dictServes c then noteRes (dictWrite (dictImage s) r idx sub b c) else c) s
/-- A read. -/
def onRead (r : Role) (idx sub : Nat) (s : State) : Result :=
  onChip (fun c =>
    if !dictServes c then c
    else match dictRead (dictImage s) c r idx sub with
      | .error e => noteRes (c, e)
      | .ok (_, _, v) => noteRes ({ c with dict := { c.dict with lastData := v } }, resOk)) s

/-- Objects whose writes have rows of their own. -/
def ownRow (idx sub : Nat) : Bool :=
  ((commandOf idx sub).isSome && !(idx == 0x2704 && sub == 1)) || (idx == 0x2500 && sub == 1)
    || (match objRow idx sub with | some r => r.kind == .selector || r.kind == .param | none => false)
def isKind (k : ObjKind) (idx sub : Nat) : Bool := match objRow idx sub with | some r => r.kind == k | none => false

/-- REGISTER_WRITE (R391). -/
def execRegisterWrite (r : Role) (idx : BitVec 16) (sub : BitVec 8) (data : List Byte) (s : State) : Result :=
  if ownRow idx.toNat sub.toNat then onChip id s else onWrite r idx.toNat sub.toNat data s
/-- SELECTOR_WRITE (R395). -/
def execSelectorWrite (r : Role) (idx : BitVec 16) (sub : BitVec 8) (data : List Byte) (s : State) : Result :=
  if isKind .selector idx.toNat sub.toNat then onWrite r idx.toNat sub.toNat data s else onChip id s
/-- PARAMETER_WRITE (R476). -/
def execParameterWrite (r : Role) (idx : BitVec 16) (sub : BitVec 8) (data : List Byte) (s : State) : Result :=
  if isKind .param idx.toNat sub.toNat then onWrite r idx.toNat sub.toNat data s else onChip id s
/-- COOLANT_READING (R362): 2520.01, written at time t. -/
def execCoolantReading (r : Role) (v : BitVec 64) (t : Nat) (s : State) : Result :=
  onWrite r 0x2520 0x01 (bytesLE 8 v.toNat) { s with chip := atTime t s.chip }
/-- PLAN_KEY_WRITE (R336): slot 1-7. -/
def execPlanKeyWrite (r : Role) (slot : Fin 8) (data : List Byte) (s : State) : Result := onWrite r 0x2720 (slot.val + 1) data s
/-- SUMMARY_EXPORT (R245): a read of 2436.00. -/
def execSummaryExport (r : Role) (s : State) : Result := onRead r 0x2436 0x00 s
/-- LOAD (R154). -/
def execLoad (r : Role) (s : State) : Result := onWrite r 0x2100 0x01 [1] s
/-- RUN (R141). -/
def execRun (r : Role) (s : State) : Result := onWrite r 0x2100 0x01 [2] s
/-- PAUSE (R157). -/
def execPause (r : Role) (s : State) : Result := onWrite r 0x2100 0x01 [3] s
/-- RESUME (R141). -/
def execResume (r : Role) (s : State) : Result := onWrite r 0x2100 0x01 [4] s
/-- STOP (R157). -/
def execStop (r : Role) (s : State) : Result := onWrite r 0x2100 0x01 [5] s
/-- UNLOAD (R157). -/
def execUnload (r : Role) (s : State) : Result := onWrite r 0x2100 0x01 [6] s
/-- OVERLAY_REQUEST (R158). -/
def execOverlayRequest (r : Role) (mask : BitVec 16) (s : State) : Result := onWrite r 0x2102 0x01 (bytesLE 2 mask.toNat) s
/-- ABORT_FUNCTION (R159). -/
def execAbortFunction (r : Role) (fn : BitVec 16) (s : State) : Result := onWrite r 0x2410 0x01 (bytesLE 2 fn.toNat) s
/-- RESTART_FUNCTION (R162). -/
def execRestartFunction (r : Role) (s : State) : Result := onWrite r 0x2413 0x00 [1] s
/-- DECLARE_TILE_FAILED (R133). -/
def execDeclareTileFailed (r : Role) (tile : BitVec 16) (s : State) : Result := onWrite r 0x2931 0x00 (bytesLE 2 tile.toNat) s
/-- POST_PACKAGE_REPAIR (R271). -/
def execPostPackageRepair (r : Role) (s : State) : Result := onWrite r 0x2B31 0x00 [1] s
/-- START_CLIP (R213). -/
def execStartClip (r : Role) (s : State) : Result := onWrite r 0x2305 0x01 [1] s
/-- STOP_ENCODER (R213). -/
def execStopEncoder (r : Role) (s : State) : Result := onWrite r 0x2305 0x01 [2] s
/-- REQUEST_IDR (R214). -/
def execRequestIdr (r : Role) (s : State) : Result := onWrite r 0x2305 0x01 [3] s
/-- CANCEL_REQUEST (R250). -/
def execCancelRequest (r : Role) (request : BitVec 32) (s : State) : Result := onWrite r 0x2403 0x01 (bytesLE 4 request.toNat) s
/-- CONVERSATION_RELEASE (R242). -/
def execConversationRelease (r : Role) (s : State) : Result := onWrite r 0x2433 0x06 [1] s
/-- DELETE_SUMMARY (R245). -/
def execDeleteSummary (r : Role) (s : State) : Result := onWrite r 0x2433 0x06 [2] s
/-- SUMMARY_IMPORT (R245). -/
def execSummaryImport (r : Role) (data : List Byte) (s : State) : Result := onWrite r 0x2436 0x00 data s
/-- ADAPTER_INSTALL (R254). -/
def execAdapterInstall (r : Role) (s : State) : Result := onWrite r 0x2441 0x01 [1] s
/-- ADAPTER_RETIRE (R254). -/
def execAdapterRetire (r : Role) (s : State) : Result := onWrite r 0x2441 0x01 [2] s
/-- OPEN (R275). -/
def execOpenHandle (r : Role) (s : State) : Result := onWrite r 0x2B40 0x02 [1] s
/-- CLOSE (R275). -/
def execClose (r : Role) (s : State) : Result := onWrite r 0x2B40 0x02 [2] s
/-- RELEASE (R275). -/
def execRelease (r : Role) (s : State) : Result := onWrite r 0x2B40 0x02 [3] s
/-- SWITCH_OVER (R312). -/
def execSwitchOver (r : Role) (s : State) : Result := onWrite r 0x2620 0x0B [1] s
/-- INHIBIT_RETURN (R312). -/
def execInhibitReturn (r : Role) (s : State) : Result := onWrite r 0x2620 0x0B [2] s
/-- ALLOW_RETURN (R312). -/
def execAllowReturn (r : Role) (s : State) : Result := onWrite r 0x2620 0x0B [3] s
/-- RETRAIN (R442). -/
def execRetrain (r : Role) (s : State) : Result := onWrite r 0x2601 0x11 [1] s
/-- EXCLUDE (R291). -/
def execExcludePort (r : Role) (s : State) : Result := onWrite r 0x2601 0x11 [2] s
/-- INCLUDE (R291). -/
def execIncludePort (r : Role) (s : State) : Result := onWrite r 0x2601 0x11 [3] s
/-- QUOTE_REQUEST (R321). -/
def execQuoteRequest (r : Role) (s : State) : Result := onWrite r 0x2704 0x02 [1] s
/-- QUOTE_FREE (R321). -/
def execQuoteFree (r : Role) (s : State) : Result := onWrite r 0x2704 0x02 [2] s
/-- KEY_RELEASE (R328). -/
def execKeyRelease (r : Role) (data : List Byte) (s : State) : Result := onWrite r 0x2710 0x01 data s
/-- STORE_SWEEP_DONE (R330). -/
def execStoreSweepDone (r : Role) (kind : BitVec 8) (s : State) : Result := onWrite r 0x2201 0x07 [kind] s
/-- STREAM_SWEEP_DONE (R330). -/
def execStreamSweepDone (r : Role) (kind : BitVec 8) (s : State) : Result := onWrite r 0x2306 0x03 [kind] s
/-- TENANT_ASSIGN (R337). -/
def execTenantAssign (r : Role) (s : State) : Result := onWrite r 0x2201 0x01 [1] s
/-- TENANT_UNASSIGN (R337). -/
def execTenantUnassign (r : Role) (s : State) : Result := onWrite r 0x2201 0x01 [0] s
/-- EXTEND (R318). -/
def execExtend (r : Role) (data : List Byte) (s : State) : Result := onWrite r 0x2702 0x02 data s
/-- POWER_CAP_WRITE (R351). -/
def execPowerCapWrite (r : Role) (watts : BitVec 16) (s : State) : Result := onWrite r 0x2500 0x01 (bytesLE 2 watts.toNat) s
/-- SURVIVAL_EXIT (R369). -/
def execSurvivalExit (r : Role) (s : State) : Result := onWrite r 0x2502 0x01 [1] s
/-- ALERT_ACKNOWLEDGE (R400). -/
def execAlertAcknowledge (r : Role) (mask : BitVec 32) (s : State) : Result := onWrite r 0x2001 0x02 (bytesLE 4 mask.toNat) s
/-- ALERT_ENABLE (R400). -/
def execAlertEnable (r : Role) (mask : BitVec 32) (s : State) : Result := onWrite r 0x2001 0x03 (bytesLE 4 mask.toNat) s
/-- SNAPSHOT_MEMBERS (R398). -/
def execSnapshotMembers (r : Role) (data : List Byte) (s : State) : Result := onWrite r 0x2011 0x01 data s
/-- LATCH_ONCE (R399). -/
def execLatchOnce (r : Role) (s : State) : Result := onWrite r 0x2011 0x02 [1] s
/-- LATCH_EVERY (R399). -/
def execLatchEvery (r : Role) (s : State) : Result := onWrite r 0x2011 0x02 [2] s
/-- LATCH_STOP (R399). -/
def execLatchStop (r : Role) (s : State) : Result := onWrite r 0x2011 0x02 [3] s
/-- GROUP_FREE (R398). -/
def execGroupFree (r : Role) (s : State) : Result := onWrite r 0x2011 0x02 [4] s
/-- RESTART_COMPONENT_CMD (R409). -/
def execRestartComponentCmd (r : Role) (id : BitVec 8) (s : State) : Result := onWrite r 0x2812 0x04 [id] s
/-- TRACE_CLEAR (R414). -/
def execTraceClear (r : Role) (s : State) : Result := onWrite r 0x2A10 0x04 [1] s
/-- TRACE_FREEZE (R414). -/
def execTraceFreeze (r : Role) (s : State) : Result := onWrite r 0x2A10 0x04 [2] s
/-- TRACE_UNFREEZE (R414). -/
def execTraceUnfreeze (r : Role) (s : State) : Result := onWrite r 0x2A10 0x04 [3] s
/-- PROGRAM (R419). -/
def execProgram (r : Role) (s : State) : Result := onWrite r 0x2801 0x08 [1] s
/-- ACTIVATE (R420). -/
def execActivate (r : Role) (s : State) : Result := onWrite r 0x2801 0x08 [2] s
/-- REVERT (R425). -/
def execRevert (r : Role) (s : State) : Result := onWrite r 0x2801 0x08 [3] s
/-- ERASE (R419). -/
def execErase (r : Role) (s : State) : Result := onWrite r 0x2801 0x08 [4] s
/-- TRAY_TIME_WRITE (R435). -/
def execTrayTimeWrite (r : Role) (ns : BitVec 64) (s : State) : Result := onWrite r 0x2901 0x03 (bytesLE 8 ns.toNat) s
/-- DECLARE_ENGINE_FAILED (R440). -/
def execDeclareEngineFailed (r : Role) (engine : BitVec 8) (s : State) : Result := onWrite r 0x2911 0x01 [engine] s
/-- CANCEL_QUEUED_ENTRY (R445). -/
def execCancelQueuedEntry (r : Role) (pos : BitVec 8) (s : State) : Result := onWrite r 0x2902 0x04 [pos] s
/-- DEMAND_SCRUB_START (R442). -/
def execDemandScrubStart (r : Role) (s : State) : Result := onWrite r 0x2903 0x01 [1] s
/-- DEMAND_SCRUB_STOP (R442). -/
def execDemandScrubStop (r : Role) (s : State) : Result := onWrite r 0x2903 0x01 [2] s

end Sys2Proof.Machine
end

