-- ==== Sys2Proof/Machine/DomainOps.lean ====
section
/-! DEFINITION. The meanings of the domain and pair rows (spec/09_domains_redundancy.md R297-R313). What a control message says
stands in the row's operands, since the spec gives its body no layout; a row takes the message that has come. -/

namespace Sys2Proof.Machine

/-- TICK_TOKEN (R300): the token, and what F stands after its sending. -/
def execTickToken (port : Nat) (tok : Token) (lead t : Nat) (s : State) : Result :=
  onUnit 8 port (fun c => tokenIn port tok lead (atTime t c)) s
/-- TOKEN_SEND (R300). -/
def execTokenSend (t : Nat) (s : State) : Result := onChip (fun c => tokenSend (atTime t c)) s
/-- BUSY_DONE (R300) from the member at a position. -/
def execBusyDone (pos : Nat) (b : BusyDone) (s : State) : Result := onChip (busyIn pos b) s
/-- FORWARDED_COMMAND (R299). -/
def execForwardedCommand (port : Nat) (d : DomCmd) (s : State) : Result := onUnit 8 port (forwardedIn port d) s
/-- FORWARDED_COMMAND_STATUS (R299). -/
def execForwardedCommandStatus (port : Nat) (d : DomCmd) (st : Nat) (s : State) : Result :=
  onUnit 8 port (forwardedStatus port d st) s
/-- SERVING_DECISIONS (R255, R307). -/
def execServingDecisions (port : Nat) (adms pst : List (Nat × Nat × Nat)) (moves : List LaneMove) (s : State) : Result :=
  onUnit 8 port (applyDecisions port adms pst moves) s
/-- DOMAIN_FORMED (R298). -/
def execDomainFormed (t : Nat) (s : State) : Result := onChip (fun c => domainFormed (atTime t c)) s
/-- MEMBER_LOST (R302). -/
def execMemberLost (pos t : Nat) (s : State) : Result := onChip (fun c => memberLost pos (atTime t c)) s
/-- LEADER_LOST (R302): the positions still reached. -/
def execLeaderLost (reach : List Nat) (t : Nat) (s : State) : Result := onChip (fun c => leaderLost reach (atTime t c)) s
/-- MEMBER_JOIN (R303). -/
def execMemberJoin (pos t : Nat) (s : State) : Result := onChip (fun c => memberJoin pos (atTime t c)) s
/-- DOMAIN_COMMAND_LATCH (R299). -/
def execDomainCommandLatch (t : Nat) (s : State) : Result := onChip (fun c => commandLatch (atTime t c)) s

/-- STREAM_BINDING (R307). -/
def execStreamBinding (stream tick : Nat) (ts : Option Nat) (s : State) : Result := onChip (streamBinding stream tick ts) s
/-- PAIR_HEARTBEAT (R309). -/
def execPairHeartbeat (active relinq : Bool) (t : Nat) (s : State) : Result := onChip (fun c => heartbeatIn active relinq (atTime t c)) s
/-- HEARTBEAT_TIMEOUT (R309). -/
def execHeartbeatTimeout (t : Nat) (s : State) : Result := onChip (fun c => heartbeatTimeout (atTime t c)) s
/-- STANDBY_TAKEOVER (R309, R310). -/
def execStandbyTakeover (s : State) : Result := onChip takeoverNow s
/-- MIRROR_CAPTURE (R306). -/
def execMirrorCapture (entry : Nat) (s : State) : Result := onChip (mirrorCapture entry) s
/-- CAPTURE_ABANDONED (R306). -/
def execCaptureAbandoned (entry : Nat) (s : State) : Result := onChip (captureAbandoned entry) s
/-- MIRROR_CAPTURE_DATA (R306). -/
def execMirrorCaptureData (entry tick : Nat) (data : List Byte) (s : State) : Result := onChip (captureData entry tick data) s
/-- CAPTURE_END (R306, R307). -/
def execCaptureEnd (entry tick : Nat) (digest : List Byte) (s : State) : Result := onChip (captureEnd entry tick digest) s
/-- CONVERGENCE_END (R307). -/
def execConvergenceEnd (s : State) : Result := onChip convergenceEnd s
/-- RETURN_HOLDOFF_EXPIRY (R311). -/
def execReturnHoldoffExpiry (t : Nat) (s : State) : Result := onChip (fun c => holdoffExpiry (atTime t c)) s
/-- RETURN_REQUEST (R311). -/
def execReturnRequest (s : State) : Result := onChip returnRequest s
/-- RETURN_REPLY (R311): the boundary it names. -/
def execReturnReply (b : Nat) (s : State) : Result := onChip (returnReply b) s

end Sys2Proof.Machine
end

