-- ==== Sys2Proof/Machine/FabricOps.lean ====
section
/-! DEFINITION. The meanings of the fabric and management-plane rows (spec/04_grid_fabric.md R105-R120). -/

namespace Sys2Proof.Machine

/-- FLIT_HOP (R105, R106, R110, R113, R118, R119), with the errors the flit's sideband and data meet on the way. -/
def execFlitHop (i : Nat) (side : BitVec 24) (data : Upset) (s : State) : Result := onChip (hopFlit i side data) s
/-- FLIT_EJECT (R107, R114). -/
def execFlitEject (i : Nat) (data : Upset) (s : State) : Result := onChip (ejectFlit i data) s
/-- INJECTION_WRITE (R116). -/
def execInjectionWrite (i : Nat) (data : Upset) (s : State) : Result := onChip (injectFlit i data) s

/-- R112, R117, R159, R357: whether a channel's source owes an invalid send: its tile is held or stopped before ENDT, or
given an ENDT entry because its functions are aborted or shed, or the source is an edge engine: its slots that are not served. -/
def owesInvalid (c : Chip) (ch : Channel) : Bool :=
  ch.kind = 1 || (tileAt c ch.src).held || (tileAt c ch.src).lineLost
    || (match c.plan.loaded with | some p => (planPrograms p).any (fun g => g.tile == ch.src) && !tileWorks c p ch.src | none => false)
/-- INVALID_SLOT_SEND: send j of channel number chan of the plan. -/
def execInvalidSlotSend (chan j : Nat) (s : State) : Result :=
  onChip (fun c =>
    match (channels c)[chan]?, c.plan.armed with
    | some ch, some pos =>
      if c.tk.phase = .work && !workPaused c && channelActive c.plan.active pos ch && decide (j < ch.k) && owesInvalid c ch
      then (if ch.kind = 1 then edgeInvalid ch (sendAc ch j) c else edgeSend ch (sendAc ch j) [] c) else c
    | _, _ => c) s

/-! Management messages (R119, R120, Table 4-4). -/

def mgType (h : W256) : Nat := fld h.toNat 255 252
def mgLen (h : W256) : Nat := fld h.toNat 251 248 + 1
def mgAddr (h : W256) : Nat := fld h.toNat 236 223
def mgCnt (h : W256) : Nat := fld h.toNat 198 195 + 1

/-- R119: the response header of a request: TYPE 8, the tile as ORIG, the request's ADDR and TAG. -/
def mgResponse (t : Nat) (h : W256) (stat words : Nat) : W256 :=
  BitVec.ofNat 256 (8 * 2 ^ 252 + words * 2 ^ 248 + t * 2 ^ 237 + mgAddr h * 2 ^ 223 + fld h.toNat 222 207 * 2 ^ 207
    + stat * 2 ^ 199 + (words - 1) * 2 ^ 195)

/-- The number of port S60 (R101). -/
def portS60 : Nat := 124

/-- Whether a request is well formed: a defined TYPE, no reserved bit, its declared length, port S60 as its originator (R119, R120). -/
def mgOk (m : MgmtMsg) : Bool :=
  match m.flits with
  | [] => false
  | h :: t => decide (1 ≤ mgType h && mgType h ≤ 6) && decide (fld h.toNat 194 0 = 0) && decide (mgLen h = t.length + 1)
      && decide (fld h.toNat 247 237 = portS60)

/-- R120: messages are executed only in the boundary and slack windows. The upkeep of R65 is the slack window's first event. -/
def mgWindow (c : Chip) : Bool := c.tk.phase != .work

/-- R119: a tile's response sets out for S60 as flits with MG = 1 and RT = 0, its request taken from the inbox. A word read as
poisoned goes in a flit with P = 1. -/
def mgAnswer (t : Nat) (h : W256) (words : List SWord) (c : Chip) : Chip :=
  let tl := tileAt c t
  let c := setTile t { tl with inbox := tl.inbox.drop 1 } c
  let flit (w : SWord) : Flit :=
    { mg := true, ek := true, dest := portS60, p := w.poison, data := w.data, msg := c.grid.mgSent
      x := (tilePos t).1, y := (tilePos t).2 }
  addFlits (({ data := h } :: words).map flit) { c with grid := { c.grid with mgSent := c.grid.mgSent + 1 } }

/-- R120: execute the oldest message of tile t if it is of the given type; a malformed one is answered REFUSED_RANGE. A
held tile's SRAM and instruction store are not read (R122): a read of them is answered REFUSED_STATE without words (log entry 15). -/
def mgExecute (t type : Nat) (f : W256 → List W256 → Chip → List SWord × Chip) (stat : Nat) (c : Chip) : Chip :=
  match (tileAt c t).inbox with
  | [] => c
  | m :: _ =>
    if !mgWindow c then c
    else match m.flits with
    | [] => c
    | h :: data =>
      if !mgOk m then mgAnswer t (mgResponse t h stRange 0) [] c
      else if mgType h ≠ type then c
      else if (tileAt c t).held && (type = 1 || type = 3) then mgAnswer t (mgResponse t h stState 0) [] c
      else
        let r := f h data c
        mgAnswer t (mgResponse t h stat r.1.length) r.1 r.2

/-- MGMT_MESSAGE_ARRIVAL: queued in the inbox of 16 flits; a message that does not fit waits in the fabric (R119, R120). -/
def execMgmtMessageArrival (t : Nat) (flits : List (BitVec 256)) (s : State) : Result :=
  onAnyTile t (fun c =>
    let tl := tileAt c t
    let used := (tl.inbox.map (fun m => m.flits.length)).sum
    if flits.isEmpty || decide (16 < used + flits.length) then c
    else setTile t { tl with inbox := tl.inbox ++ [{ flits := flits }] } c) s

/-- MGMT_READ_SRAM. -/
def execMgmtReadSram (t : Nat) (us : List (Nat × Upset)) (s : State) : Result :=
  onAnyTile t (mgExecute t 1 (fun h _ c =>
    let r := sramReadRun (min 15 (mgCnt h)) (strike us (tileAt c t)) (mgAddr h)
    (r.1, flushTile t (setTile t r.2 c))) stOk) s
/-- MGMT_WRITE_SRAM. -/
def execMgmtWriteSram (t : Nat) (s : State) : Result :=
  onAnyTile t (mgExecute t 2 (fun h data c =>
    let tl := (data.zipIdx).foldl (fun tl (w, i) => sramWrite tl (mgAddr h + i) { data := w }) (tileAt c t)
    ([], setTile t tl c)) stOk) s

/-- One read of an instruction-store line by the management plane (R63). -/
def readLineOf (t : Nat) (c : Chip) (n : Nat) : SWord × Chip :=
  let tl := tileAt c t
  let r := lineLook tl n
  match r.1 with
  | .clean => (r.2, c)
  | .corrected => (r.2, flushTile t (setTile t (tileEv (.corrected n) { tl with corrected := satAdd allOnes32 tl.corrected 1 }) c))
  | .uncorrectable => (r.2, objSet 0x2A30 0x06 0 c.tk.tick (objSet 0x2A30 0x05 0 (placeWord true t n) c))
/-- Consecutive lines. -/
def readLinesOf (t : Nat) : Nat → Nat → Chip → List SWord × Chip
  | 0, _, c => ([], c)
  | k + 1, n, c =>
    let r := readLineOf t c (n % 2048)
    let rest := readLinesOf t k (n + 1) r.2
    (r.1 :: rest.1, rest.2)
/-- MGMT_READ_INSTR, with the upsets the lines meet. -/
def execMgmtReadInstr (t : Nat) (us : List (Nat × Upset)) (s : State) : Result :=
  onAnyTile t (mgExecute t 3 (fun h _ c =>
    readLinesOf t (min 15 (mgCnt h)) (mgAddr h) (setTile t (strikeLines us (tileAt c t)) c)) stOk) s
/-- MGMT_WRITE_INSTR. -/
def execMgmtWriteInstr (t : Nat) (s : State) : Result :=
  onAnyTile t (mgExecute t 4 (fun h data c =>
    let tl := (data.zipIdx).foldl (fun tl (w, i) => setIstoreLine ((mgAddr h + i) % 2048) w tl) (tileAt c t)
    ([], setTile t tl c)) stOk) s
/-- MGMT_SELF_TEST: the tile reports the outcome its self-test had. -/
def execMgmtSelfTest (t stat : Nat) (s : State) : Result :=
  onAnyTile t (mgExecute t 5 (fun _ _ c => ([], c)) (stat % 256)) s
/-- MGMT_READ_COUNTERS. -/
def execMgmtReadCounters (t : Nat) (s : State) : Result :=
  onAnyTile t (mgExecute t 6 (fun _ _ c =>
    let tl := tileAt c t
    ([{ data := Config.counterWord tl.corrected tl.poisoned tl.linesLost }], c)) stOk) s

/-- The flits of message n that have reached port S60. -/
def responseFlits (c : Chip) (n : Nat) : List Flit := c.grid.flits.filter (fun f => f.mg && f.msg == n && flitArrived f)
/-- R105, R119: response n is received at port S60 once its header and all the flits that it declares are there, their data
checked. -/
def receiveResponse (n : Nat) (c : Chip) : Chip :=
  let fs := responseFlits c n
  match fs with
  | [] => c
  | h :: _ =>
    if mgLen h.data ≠ fs.length then c
    else
      let r := fs.foldl (fun (p : List Flit × Chip) f => let q := checkData f p.2; (p.1 ++ [q.2.1], q.2.2)) ([], c)
      let keep := r.2.grid.flits.filter (fun f => !(f.mg && f.msg == n))
      { r.2 with grid := { r.2.grid with
        flits := keep
        responses := r.2.grid.responses ++ [{ flits := r.1.map (·.data), poison := r.1.map (·.p) }] } }
/-- MGMT_RESPONSE: the response with number n arrives at port S60. -/
def execMgmtResponse (n : Nat) (s : State) : Result := onChip (receiveResponse n) s

end Sys2Proof.Machine
end

