-- ==== Sys2Proof/Machine/FwOps.lean ====
section
/-! DEFINITION. The meanings of the firmware, component and Harebell rows (spec/13_firmware_update.md R409-R431). An event
whose trigger does not hold in the state changes nothing. -/

namespace Sys2Proof.Machine

/-- COMPONENT_RESTART (R409): component, cause of 2811.04, messages addressed to it meanwhile, and whether its retained
block checks. -/
def execComponentRestart (id : Nat) (cause : Fin 4) (msgs : Nat) (retained : Bool) (t : Nat) (s : State) : Result :=
  onUnit 8 id (fun c => componentRestart id cause.val msgs retained (atTime t c)) s

/-- The complex runs. -/
def complexRuns (c : Chip) : Bool :=
  !c.fw.down && match c.tk.mode with
    | .booting | .idle | .loaded | .running | .paused | .survival => true
    | _ => false
/-- COMPLEX_RESET (R408, R410, R458): cause of 2812.03 and the cores that pass their self-test. -/
def execComplexReset (cause : Nat) (cores t : Nat) (s : State) : Result :=
  onChip (fun c =>
    let c := atTime t c
    if !complexRuns c || cause < 1 || 4 < cause then c
    else
      let c := logRec 3 0 .complexReset [cause] (complexReset cause c)
      let c := retireCores cores c
      if (coresOf (objGet c 0x2812 0x01 0)).length < 3 then orderlyStop .orderly c else c) s
/-- REGISTER_REBUILD (R458): the flipped cells of the fresh PUF readout. -/
def execRegisterRebuild (flips : Nat) (s : State) : Result := onChip (registerRebuild flips) s
/-- LOG_MIRROR (R412). -/
def execLogMirror (t : Nat) (s : State) : Result := onChip (fun c => logMirror (atTime t c)) s
/-- PROGRAM_DONE (R419): the outcome of the read-back. -/
def execProgramDone (n : Fin 5) (ok : Bool) (s : State) : Result := onChip (programDone n.val ok) s
/-- ACTIVATION_PAUSE_START (R421-R423): whether the handover record checks. -/
def execActivationPauseStart (n : Fin 5) (handover : Bool) (s : State) : Result :=
  onChip (fun c => if c.tk.phase = .ac0 then pauseStart n.val handover c else c) s
/-- ACTIVATION_PAUSE_END (R421). -/
def execActivationPauseEnd (n : Fin 5) (s : State) : Result := onChip (fun c => if c.tk.phase = .ac0 then pauseEnd n.val c else c) s
/-- IMAGE_CONFIRMED (R424). -/
def execImageConfirmed (n : Fin 5) (s : State) : Result := onChip (fun c => if c.tk.phase = .ac0 then imageConfirmed n.val c else c) s
/-- CONFIRMATION_TIMEOUT (R425, R426): broken, or 30 s without confirmation. -/
def execConfirmationTimeout (n : Fin 5) (broken : Bool) (s : State) : Result :=
  onChip (fun c => if c.tk.phase = .ac0 then confirmTimeout n.val broken c else c) s
/-- BEGIN (R430). -/
def execBeginHb (s : State) : Result := onChip hbBegin s
/-- CHUNK (R430) at the offset it is for. -/
def execChunk (off : Nat) (s : State) : Result := onChip (hbChunk off) s
/-- END (R430). -/
def execEndHb (s : State) : Result := onChip hbEnd s
/-- REBOOT (R431). -/
def execReboot (s : State) : Result := onChip hbReboot s
/-- CANCEL (R430). -/
def execCancel (s : State) : Result := onChip hbCancel s

end Sys2Proof.Machine
end

