-- ==== Sys2Proof/Machine/GridOps.lean ====
section
/-! DEFINITION. The meanings of the tile failure and column repair rows (spec/04_grid_fabric.md R121-R134). An event
whose trigger does not hold in the state changes nothing. -/

namespace Sys2Proof.Machine

/-- TILE_DECLARED_FAILED on a cause of Table 4-5 (R121, R122). -/
def execTileDeclaredFailed (t : Nat) (s : State) : Result :=
  onAnyTile t (fun c => if failureDue c t then declareFailed t c else c) s
/-- REPAIR_LATCH at ac 0 (R124). -/
def execRepairLatch (s : State) : Result :=
  onChip (fun c => match latchDue c with
    | none => c
    | some k => if c.tk.phase = .ac0 then latchRepair k c else c) s
/-- REPAIR_PAUSE_END (R124, R127). -/
def execRepairPauseEnd (s : State) : Result := onChip (fun c => if c.tk.phase = .ac0 && pauseOver c then endPause c else c) s
/-- COLUMN_RETIRED_NO_SHIFT at the boundary after the declaration (R132). -/
def execColumnRetiredNoShift (t : Nat) (s : State) : Result :=
  onAnyTile t (fun c => match c.grid.noShift.find? (fun e => e.1 == physIndex c t) with
    | none => c
    | some e => if c.tk.phase = .ac0 && decide (e.2 < c.tk.tick) then retireNoShift t c else c) s
/-- SPARE_COLUMN_SELF_TEST (R130). -/
def execSpareColumnSelfTest (q : Fin 4) (pass : Bool) (s : State) : Result := onChip (spareTest q pass) s

end Sys2Proof.Machine
end

