-- ==== Sys2Proof/Machine/HbmOps.lean ====
section
/-! DEFINITION. The meanings of the HBM rows (spec/08_memory.md R257-R273, spec/05_ticks_and_plans.md R168-R171). A plan
command names its pseudo-channel and its entry in that stream; symbol errors that strike a line are operands. -/

namespace Sys2Proof.Machine

/-- A plan HBM command: entry j of pseudo-channel pc's stream, if it is of that kind and the one that issues now. -/
def planHbm (pc j cmd : Nat) (f : HbmCmd → Chip → Chip) (s : State) : Result :=
  onUnit 32 pc (fun c => match hbmEntry pc j cmd c with | some e => f e (markEntry pc j e c) | none => c) s

/-- HBM_ACT. -/
def execHbmAct (pc j : Nat) (s : State) : Result := planHbm pc j 1 (hbmAct pc) s
/-- HBM_RD. -/
def execHbmRd (pc j : Nat) (errs : List (Nat × BitVec 8)) (s : State) : Result := planHbm pc j 2 (fun e => hbmRd pc e errs) s
/-- HBM_RD_AP: the bank is precharged after the read. -/
def execHbmRdAp (pc j : Nat) (errs : List (Nat × BitVec 8)) (s : State) : Result :=
  planHbm pc j 3 (fun e c => closeBank pc e.bank (hbmRd pc e errs c)) s
/-- HBM_WR. -/
def execHbmWr (pc j : Nat) (s : State) : Result := planHbm pc j 4 (hbmWr pc) s
/-- HBM_WR_AP. -/
def execHbmWrAp (pc j : Nat) (s : State) : Result := planHbm pc j 5 (fun e c => closeBank pc e.bank (hbmWr pc e c)) s
/-- HBM_PRE. -/
def execHbmPre (pc j : Nat) (s : State) : Result := planHbm pc j 6 (fun e => closeBank pc e.bank) s
/-- HBM_PRE_ALL. -/
def execHbmPreAll (pc j : Nat) (s : State) : Result := planHbm pc j 7 (fun _ => closeAll pc) s
/-- HBM_REFRESH_SLOT (R170). -/
def execHbmRefreshSlot (pc j : Nat) (s : State) : Result := planHbm pc j 8 (fun e => refreshBank pc e.bank) s
/-- HBM_SCRUB_SLOT (R170, R269). -/
def execHbmScrubSlot (pc j : Nat) (errs : List (Nat × BitVec 8)) (s : State) : Result :=
  planHbm pc j 9 (fun e => scrubSlot pc e.bank errs) s
/-- HBM_READ_RETURN: return i of the return buffers (R169, R267). -/
def execHbmReadReturn (i : Nat) (s : State) : Result := onChip (hbmReturn i) s

/-- R171, R182: autonomous work is allowed outside work windows, in a video pseudo-channel at all times, and in a work
window in which no command stream is armed, where only the controller itself can keep the refresh intervals. -/
def autonomous (c : Chip) (pc : Nat) : Bool := c.tk.phase != .work || bitOf (vpcMask c) pc || c.plan.armed.isNone

/-- AUTONOMOUS_REFRESH of one bank (R171, R182, R263). -/
def execAutonomousRefresh (pc bank : Nat) (s : State) : Result :=
  onUnit 32 pc (fun c => if autonomous c pc && decide (bank < 48) then refreshBank pc bank c else c) s
/-- PATROL_STEP (R269). -/
def execPatrolStep (pc : Nat) (errs : List (Nat × BitVec 8)) (s : State) : Result :=
  onUnit 32 pc (fun c => if autonomous c pc then patrolStep pc errs c else c) s
/-- HBM_WRITEBACK: the oldest queued line is read, corrected and rewritten (R267). -/
def execHbmWriteback (pc : Nat) (errs : List (Nat × BitVec 8)) (s : State) : Result :=
  onUnit 32 pc (fun c =>
    match cellsGet [] c.hbm.wbQueue pc with
    | [] => c
    | k :: t =>
      if autonomous c pc then
        let r := readLine k errs { c with hbm := { c.hbm with wbQueue := cellsSet [] c.hbm.wbQueue pc t } }
        if r.1 = .corrected then hbmPut k r.2.1 r.2.2 else r.2.2
      else c) s
/-- ROW_SPARE_COPY in a slack window (R270). -/
def execRowSpareCopy (row : Nat) (s : State) : Result :=
  onUnit (32 * 3 * 16 * 16384) row (fun c => if c.tk.phase = .slack then copyRow row c else c) s
/-- ROW_SPARE_SWITCH at ac 3,584 (R270, R272). -/
def execRowSpareSwitch (row : Nat) (s : State) : Result :=
  onUnit (32 * 3 * 16 * 16384) row (fun c => if c.tk.phase = .ac3584 then switchRow row c else c) s

/-- PPR_COMPLETE: the rows the stack repaired and the repair resources it reports left; a row with no spare and no
resource stays in service (R271). -/
def execPprComplete (done : List Nat) (left : Nat) (s : State) : Result :=
  onChip (fun c =>
    if !leaseHeld c .ppr then c
    else
      let all := repairRows c
      let c := (all.filter done.contains).foldl repairRow c
      let lost := c.hbm.suspects.filter (fun r => (freeSpare c r).isNone && !c.hbm.unrepairable.contains r)
      let c := { c with hbm := { c.hbm with unrepairable := c.hbm.unrepairable ++ lost
                                            suspects := c.hbm.suspects.filter (fun r => !lost.contains r) } }
      let c := hbmRowsShow (objSet 0x2B30 0x04 0 (left % 65536) c)
      leaseRelease .ppr 0 (postStatus 0x2B31 0x00 0 stOk c)) s
/-- REVOCATION_COMPLETE of revoked range i (R268). -/
def execRevocationComplete (i : Nat) (s : State) : Result := onChip (revocationDone i) s

/-- HBM_TEMPERATURE_READ: the eight channel-pair readings in °C (R262, R263). -/
def execHbmTemperatureRead (temps : List Int) (s : State) : Result :=
  onChip (fun c =>
    let ts := (temps ++ List.replicate (8 - temps.length) 0).take 8
    let c := ts.zipIdx.foldl (fun c p => objSet 0x2B01 (p.2 + 1) 0 (toTwos 8 p.1) c) c
    objSet 0x2B00 0x04 0 (refreshInterval (ts.foldl max (-128))) c) s
/-- CA_PARITY_RETRY: counted as a power fault (R262, R447 class 0x01). -/
def execCaParityRetry (pc : Nat) (s : State) : Result := onUnit 32 pc (holdClass 0x01 60000000000) s

end Sys2Proof.Machine
end

