-- ==== Sys2Proof/Machine/LinkOps.lean ====
section
/-! DEFINITION. The meanings of the Stomar port rows (spec/09_domains_redundancy.md R282-R297). A row names its port; an
event whose trigger does not hold changes nothing. -/

namespace Sys2Proof.Machine

/-- STOMAR_FRAME_SEND (R283-R287). -/
def execStomarFrameSend (port : Nat) (s : State) : Result := onUnit 8 port (frameSend port) s
/-- STOMAR_FRAME (R282, R284-R287, R294, R295). -/
def execStomarFrame (port corrected bad : Nat) (frame : List Byte) (marks : List (Nat × Bool × Bool)) (s : State) : Result :=
  onUnit 8 port (frameArrive port corrected bad frame marks) s
/-- REKEY_START (R287). -/
def execRekeyStart (port : Nat) (s : State) : Result := onUnit 8 port (rekeyStart port) s
/-- LINK_KEY_EXHAUSTED (R287). -/
def execLinkKeyExhausted (port : Nat) (s : State) : Result := onUnit 8 port (keyExhausted port) s
/-- KEY_EXCHANGE (R287, R334, R335). -/
def execKeyExchange (port fcnt t : Nat) (s : State) : Result := onUnit 8 port (fun c => keyExchange port fcnt (atTime t c)) s
/-- LANE_SUBSTITUTION (R288): the worst lane, its symbol error ratio over the last 1 s in units of 10^-9, and whether it lost
lock; 2601.0F shows the ratio, and a lane above 10^-5 is replaced. -/
def execLaneSubstitution (port lane ratio : Nat) (lockLost : Bool) (s : State) : Result :=
  onUnit 8 port (fun c =>
    let c := objSet 0x2601 0x0F port (real32 ((ratio : Rat) / 1000000000)) c
    if lockLost || decide (10000 < ratio) then laneFault port lane lockLost c else c) s
/-- LANE_CONTROL (R288): the lane and count of the message, whose layout the spec does not give. -/
def execLaneControl (port lane count : Nat) (s : State) : Result :=
  onUnit 8 port (fun c => match takeMsg port 2 c with
    | none => c
    | some (_, c) => laneDue port (setPort port { portAt c port with txLane := some (lane, count) } c)) s
/-- LINK_UP_START (R289). -/
def execLinkUpStart (port : Nat) (ok : Bool) (t : Nat) (s : State) : Result := onUnit 8 port (fun c => linkUpStart port ok (atTime t c)) s
/-- LINK_RETRY_TIMER (R289). -/
def execLinkRetryTimer (port t : Nat) (s : State) : Result := onUnit 8 port (fun c => linkRetry port (atTime t c)) s
/-- LINK_DOWN (R289). -/
def execLinkDown (port t : Nat) (s : State) : Result :=
  onUnit 8 port (fun c => if (portAt c port).stage = .down then atTime t c else linkDown port (atTime t c)) s
/-- BEACON_SEND (R290). -/
def execBeaconSend (port : Nat) (s : State) : Result := onUnit 8 port (beaconSend port) s
/-- IDENTITY_BEACON (R290, R291, R305). -/
def execIdentityBeacon (port t : Nat) (same : Bool) (s : State) : Result := onUnit 8 port (fun c => beaconIn port same (atTime t c)) s
/-- BEACON_TIMEOUT (R291). -/
def execBeaconTimeout (port t : Nat) (s : State) : Result := onUnit 8 port (fun c => beaconTimeout port (atTime t c)) s
/-- TIMED_WORD_TRANSMIT (R292-R294). -/
def execTimedWordTransmit (port entry word : Nat) (s : State) : Result := onUnit 7 port (timedTransmit port entry word) s
/-- TIMED_WORD_RELEASE (R293, R294). -/
def execTimedWordRelease (port entry word : Nat) (s : State) : Result := onUnit 7 port (timedRelease port entry word) s
/-- TIMING_PROBE (R297): the round trip the probes' stamps give, in ns. -/
def execTimingProbe (port rtt : Nat) (s : State) : Result :=
  onUnit 7 port (fun c => match takeMsg port 4 c with
    | none => c
    | some (_, c) => sendMsg port 4 0 (Config.msgBody 4 [c.tk.now]) (setPort port { portAt c port with delay := rtt / 2 } c)) s
/-- LINK_RETRAIN_DONE (R442). -/
def execLinkRetrainDone (port t : Nat) (s : State) : Result := onUnit 8 port (fun c => retrainDone port (atTime t c)) s

end Sys2Proof.Machine
end

