-- ==== Sys2Proof/Machine/MaintOps.lean ====
section
/-! DEFINITION. The meanings of the life and maintenance rows (spec/14_life_maintenance.md R433-R447). An event whose
trigger does not hold in the state changes nothing. -/

namespace Sys2Proof.Machine

/-- CALENDAR_KNOWN (R435, R436). -/
def execCalendarKnown (t : Nat) (s : State) : Result := onChip (fun c => calendarKnown (atTime t c)) s
/-- LIFE_RECORD_WRITE (R437). -/
def execLifeRecordWrite (t : Nat) (s : State) : Result := onChip (fun c => lifeRecordDue (atTime t c)) s
/-- REDUNDANT_ROW_COPY (R439). -/
def execRedundantRowCopy (t wa : Nat) (s : State) : Result := onAnyTile t (rowCopy t wa) s
/-- REDUNDANT_ROW_SWITCH (R439). -/
def execRedundantRowSwitch (t wa : Nat) (s : State) : Result := onAnyTile t (rowSwitch t wa) s
/-- ENGINE_DECLARED_FAILED (R440), by its code of 2911.01. -/
def execEngineDeclaredFailed (code : Nat) (s : State) : Result :=
  if engineExists code then onChip (engineFail code) s else .fault .noSuchUnit
/-- ENGINE_SPARE_INSERTION (R440). -/
def execEngineSpareInsertion (s : State) : Result := onChip (fun c => if c.tk.phase = .ac0 then engineInsert c else c) s
/-- ENGINE_SPARE_INSERTION_END (R440). -/
def execEngineSpareInsertionEnd (s : State) : Result := onChip (fun c => if c.tk.phase = .ac0 then engineInsertEnd c else c) s
/-- ENGINE_SPARE_SELF_TEST (R440), by kind: 0 decode, 1 encode, 2 Campion, 3 Teasel. -/
def execEngineSpareSelfTest (kind : Fin 4) (pass : Bool) (s : State) : Result :=
  onChip (fun c => match kindOf (16 * kind.val) with | some k => engineTest k pass c | none => c) s
/-- FLASH_BLOCK_RETIRE (R441): an erase or program that failed, or a block's erase count. -/
def execFlashBlockRetire (part erases : Nat) (failed : Bool) (s : State) : Result := onUnit 18 part (flashRetire part erases failed) s
/-- LEASE_GRANT_SCAN at ac 0 (R444, R446). -/
def execLeaseGrantScan (s : State) : Result := onChip (fun c => if c.tk.phase = .ac0 then leaseBoundary c else c) s
/-- DEMAND_SCRUB_DONE (R442). -/
def execDemandScrubDone (s : State) : Result := onChip scrubDone s
/-- FAULT_CLASS_EXPIRY (R447). -/
def execFaultClassExpiry (n t : Nat) (s : State) : Result := onChip (fun c => classExpiry n (atTime t c)) s

end Sys2Proof.Machine
end

