-- ==== Sys2Proof/Machine/NetOps.lean ====
section
/-! DEFINITION. The commands of the service ports: frames, PTP, address resolution (spec/06_video_path.md R175-R180,
R468). -/

namespace Sys2Proof.Machine

/-! Operations. -/

/-- The master the default algorithm has chosen (R179). -/
def fromMaster (c : Chip) (f : RxFrame) : Bool :=
  match c.net.ptp.best with | some b => b.port == f.port && b.source == ptpSource f.payload && !b.silent f.t | none => false
def setPtp (p : PtpSt) (c : Chip) : Chip := { c with net := { c.net with ptp := p } }
/-- logMessageInterval of a message. -/
def ptpLog (b : List Byte) : Int := sx 8 (numAt b 33 1)
/-- R179: a Sync or Follow_Up with an interval of Table 6-2. -/
def syncPaced (b : List Byte) : Bool := decide (-4 ≤ ptpLog b) && decide (ptpLog b ≤ 1)

/-- R179, R180: a Sync from the chosen master; a two-step one waits for its Follow_Up. -/
def ptpSync (c : Chip) : Chip :=
  match takePtp 0 (ptpSlavePort c) c with
  | none => c
  | some (f, c) =>
    if !fromMaster c f || !syncPaced f.payload then c
    else if ptpTwoStep f.payload then setPtp { c.net.ptp with twoStep := some (ptpSeq f.payload, f.t, ptpCorr f.payload) } c
    else measureSync (ptpStamp f.payload) f.t (ptpCorr f.payload) (ptpLog f.payload) c
def ptpFollowUp (c : Chip) : Chip :=
  match takePtp 8 (ptpSlavePort c) c with
  | none => c
  | some (f, c) =>
    match c.net.ptp.twoStep with
    | none => c
    | some (seq, t2, corr) =>
      if fromMaster c f && syncPaced f.payload && seq == ptpSeq f.payload then
        measureSync (ptpStamp f.payload) t2 (corr + ptpCorr f.payload) (ptpLog f.payload)
          (setPtp { c.net.ptp with twoStep := none } c)
      else c
/-- R179: the best of the announced masters; one that has fallen silent gives way. Intervals and stepsRemoved are held to
Table 6-2 and the default algorithm. -/
def ptpAnnounce (c : Chip) : Chip :=
  match takePtp 11 (ptpSlavePort c) c with
  | none => c
  | some (f, c) =>
    let a := announcedOf f
    let better := match c.net.ptp.best with
      | none => true
      | some b => b.source == a.source || b.silent f.t || rankLess a.rank b.rank
    if better && decide (64 ≤ f.payload.length) && decide (0 ≤ ptpLog f.payload) && decide (ptpLog f.payload ≤ 3)
        && decide (numAtBE f.payload 61 2 < 255) then setPtp { c.net.ptp with best := some a } c else c
/-- R179: the mean path delay of the answered request. -/
def ptpDelayResp (c : Chip) : Chip :=
  match takePtp 9 (ptpSlavePort c) c with
  | none => c
  | some (f, c) =>
    match c.net.ptp.request with
    | none => c
    | some (seq, t3) =>
      if fromMaster c f && seq == ptpSeq f.payload && bytesAt f.payload 44 10 == ptpIdentity c f.port then
        let sm : Int := (ptpStamp f.payload : Int) - t3 - ptpCorr f.payload
        setPtp { c.net.ptp with delay := (c.net.ptp.msDiff + sm) / 2, request := none } c
      else c
/-- R179: a Delay_Req on the master port is answered with its receive time. -/
def ptpDelayReq (c : Chip) : Chip :=
  match takePtp 1 (ptpMasterPort c) c with
  | none => c
  | some (f, c) => transmit (.ptpDelayResp f.port (ptpSeq f.payload) (ptpTime c f.t) (ptpSource f.payload)) c
/-- R179: what the module sends at its message intervals. -/
def ptpInterval (k : PtpSend) (c : Chip) : Chip :=
  let p := c.net.ptp
  match k, ptpMasterPort c, ptpSlavePort c with
  | .sync, some m, _ =>
    transmit (.ptpFollowUp m p.seqSync (ptpTime c c.tk.now)) (transmit (.ptpSync m p.seqSync)
      (setPtp { p with seqSync := (p.seqSync + 1) % 65536 } c))
  | .announce, some m, _ => transmit (.ptpAnnounce m p.seqAnnounce (objGet c 0x1F10 0x03 0) (objGet c 0x1F10 0x04 0)) (setPtp { p with seqAnnounce := (p.seqAnnounce + 1) % 65536 } c)
  | .delayReq, _, some s =>
    if p.best.any (fun b => !b.silent c.tk.now) then transmit (.ptpDelayReq s p.seqDelay)
      (setPtp { p with seqDelay := (p.seqDelay + 1) % 65536, request := some (p.seqDelay, c.tk.now) } c)
    else c
  | _, _, _ => c
/-- R468, R180: PPS_OUT rises at a PTP second while the time is locked or in holdover. -/
def ppsEdge (t : Nat) (c : Chip) : Chip :=
  if objGet c 0x1F10 0x05 0 ≠ 0 && decide (0 < t) && decide (ptpTime c (t - 1) / 1000000000 < ptpTime c t / 1000000000)
  then { c with net := { c.net with ppsUntil := some (t + 100000000) } } else c

/-- R175: an answer to a request for an address of the port. -/
def answerFor (cls : RxClass) (f : RxFrame → Sent) (c : Chip) : Chip :=
  match takeRx (fun x => x.cls == cls) c with
  | none => c
  | some (x, c) => if portOwns c x.port x.dst then transmit (f x) c else c
/-- R178: an answer that resolves a next hop. -/
def learnFrom (cls : RxClass) (c : Chip) : Chip :=
  match takeRx (fun x => x.cls == cls) c with
  | none => c
  | some (x, c) => resolveHop x.port x.src x.mac c

/-! Commands. -/

/-- FRAME_RECEIVED (R176). -/
def execFrameReceived (port t : Nat) (frame : List Byte) (s : State) : Result :=
  onUnit 2 port (fun c => receiveFrame port t frame (atTime t c)) s
def execPtpSync (s : State) : Result := onChip ptpSync s
def execPtpFollowUp (s : State) : Result := onChip ptpFollowUp s
def execPtpAnnounce (s : State) : Result := onChip ptpAnnounce s
def execPtpDelayResp (s : State) : Result := onChip ptpDelayResp s
def execPtpSyncTimeout (t : Nat) (s : State) : Result := onChip (fun c => syncTimeout t (atTime t c)) s
def execPtpHoldoverExpiry (t : Nat) (s : State) : Result := onChip (fun c => holdoverExpiry t (atTime t c)) s
def execPtpDelayReq (s : State) : Result := onChip ptpDelayReq s
def execPtpMessageInterval (kind : PtpSend) (t : Nat) (s : State) : Result := onChip (fun c => ptpInterval kind (atTime t c)) s
def execPpsOutEdge (t : Nat) (s : State) : Result := onChip (fun c => ppsEdge t (atTime t c)) s
def execArpRequest (s : State) : Result := onChip (answerFor .arpRequest (fun x => .arpReply x.port x.src x.mac)) s
def execNeighborSolicitation (s : State) : Result := onChip (answerFor .solicit (fun x => .advert x.port x.src x.mac)) s
def execEchoRequest (s : State) : Result := onChip (answerFor .echo (fun x => .echoReply x.port x.src x.payload)) s
def execArpReply (s : State) : Result := onChip (learnFrom .arpReply) s
def execNeighborAdvertisement (s : State) : Result := onChip (learnFrom .advert) s
def execResolutionTimeout (t : Nat) (s : State) : Result := onChip (fun c => dropUnresolved t (atTime t c)) s
/-- AUTO_NEGOTIATION: a service port's link comes up or is lost (R175). -/
def execAutoNegotiation (port : Nat) (up : Bool) (s : State) : Result :=
  onUnit 2 port (fun c => { c with net := { c.net with link := c.net.link.setIfInBounds port up } }) s

end Sys2Proof.Machine
end

