-- ==== Sys2Proof/Machine/PowerOps.lean ====
section
/-! DEFINITION. The meanings of the power and cooling rows (spec/11_power_thermal.md R349-R372). Times are in ns,
temperatures in 0.01 °C. An event whose trigger does not hold in the state changes nothing. -/

namespace Sys2Proof.Machine

/-- POWER_ESTIMATE (R349): counters and their events in the window. -/
def execPowerEstimate (counts : List (Nat × Nat)) (s : State) : Result := onChip (powerEstimate counts) s
/-- GAIN_CALIBRATION (R350): input voltage in mV, current in mA. -/
def execGainCalibration (mv ma t : Nat) (s : State) : Result := onChip (fun c => thermalShow (calibrate mv ma (atTime t c))) s
/-- DROOP_EVENT (R361). -/
def execDroopEvent (t : Nat) (s : State) : Result := onChip (fun c => droopStart (atTime t c)) s
/-- DROOP_RECOVERY (R361). -/
def execDroopRecovery (t : Nat) (s : State) : Result := onChip (fun c => droopEnd (atTime t c)) s
/-- DROOP_LOCK_EXPIRY (R361). -/
def execDroopLockExpiry (s : State) : Result :=
  onChip (fun c => if objGet c 0x2505 0x03 0 = 0 then { c with power := { c.power with lockStep := 6 } } else c) s
/-- COOLANT_STALE (R364). -/
def execCoolantStale (t : Nat) (s : State) : Result := onChip (fun c => coolantStale (atTime t c)) s
/-- DIE_SENSOR_SAMPLE (R365, R367, R434): the 64 die sensors. -/
def execDieSensorSample (dies : List Int) (t : Nat) (s : State) : Result := onChip (fun c => dieSample dies (atTime t c)) s
/-- UNDERVOLTAGE_QUALIFIED (R365, R366). -/
def execUndervoltageQualified (t : Nat) (s : State) : Result := onChip (fun c => undervoltage (atTime t c)) s
/-- INPUT_BELOW_44V (R368). -/
def execInputBelow44v (t : Nat) (s : State) : Result :=
  onChip (fun c => orderlyStop .orderly (atTime t { c with power := { c.power with okSince := none } })) s
/-- THERMAL_TRIP (R365). -/
def execThermalTrip (t : Nat) (s : State) : Result := onChip (fun c => thermalTrip (atTime t c)) s
/-- KEEP_WARM_ADJUST (R370). -/
def execKeepWarmAdjust (s : State) : Result := onChip keepWarm s
/-- WAKE_STATE_ENTRY (R371). -/
def execWakeStateEntry (s : State) : Result := onChip wakeEntry s

end Sys2Proof.Machine
end

