-- ==== Sys2Proof/Machine/SdioOps.lean ====
section
/-! DEFINITION. The meanings of the SDIO and window rows (spec/12_dictionary_host.md R375-R390). -/

namespace Sys2Proof.Machine

/-- CMD3 (R377). -/
def execCmd3 (s : State) : Result := onChip cmd3 s
/-- CMD5 (R376). -/
def execCmd5 (s : State) : Result := onChip cmd5 s
/-- CMD7 (R377). -/
def execCmd7 (rca : BitVec 16) (s : State) : Result := onChip (cmd7 rca.toNat) s
/-- CMD11 (R376): answered, with no change of signalling. -/
def execCmd11 (s : State) : Result := onChip (onCard (answer .accepted)) s
/-- CMD15 (R377). -/
def execCmd15 (rca : BitVec 16) (s : State) : Result := onChip (cmd15 rca.toNat) s
/-- CMD19 (R380). -/
def execCmd19 (s : State) : Result := onChip (onSelected (answer (.tuning ((List.range 64).map Config.tuningByte)))) s
/-- CMD52 (R377, R378, R384). -/
def execCmd52 (write raw : Bool) (fn : Fin 8) (addr : BitVec 17) (v : Byte) (s : State) : Result :=
  onChip (cmd52 write raw fn.val addr.toNat v) s
/-- CMD53 (R377, R384). -/
def execCmd53 (write block incr : Bool) (fn : Fin 8) (addr : BitVec 17) (count : Fin 512) (data : List Byte) (s : State) : Result :=
  onChip (cmd53 write block incr fn.val addr.toNat count.val data) s
/-- UNSUPPORTED_SDIO_COMMAND (R377): no response. -/
def execUnsupportedSdioCommand (s : State) : Result := onChip (answer .silent) s
/-- IO_ABORT (R383). -/
def execIoAbort (s : State) : Result := onChip (fun c => if cardAlive c then ioAbort c else c) s
/-- SDIO_RESET (R383). -/
def execSdioReset (s : State) : Result := onChip (fun c => if cardAlive c then sdioReset c else c) s
/-- GO (R387). -/
def execGo (s : State) : Result := onChip (fun c => if cardAlive c then winGo c else c) s
/-- DISCARD (R384). -/
def execDiscard (s : State) : Result := onChip (fun c => if cardAlive c then winDiscard c else c) s
/-- REQUEST_TAKE (R387, R388). -/
def execRequestTake (s : State) : Result := onChip requestTake s
/-- READ (R391, R394-R396). -/
def execRead (s : State) : Result := onChip (winRead (dictImage s)) s
/-- WRITE (R391-R395). -/
def execWrite (s : State) : Result := onChip (winWriteOp (dictImage s)) s
/-- READ_SEG (R389). -/
def execReadSeg (t : Nat) (s : State) : Result := onChip (fun c => winReadSeg (dictImage s) (atTime t c)) s
/-- WRITE_SEG (R389). -/
def execWriteSeg (t : Nat) (s : State) : Result := onChip (fun c => winWriteSeg (dictImage s) (atTime t c)) s
/-- SEGMENT_COPY_EXPIRY (R389). -/
def execSegmentCopyExpiry (r : Role) (t : Nat) (s : State) : Result := onChip (fun c => copyExpiry r (atTime t c)) s

end Sys2Proof.Machine
end

