-- ==== Sys2Proof/Machine/SecOps.lean ====
section
/-! DEFINITION. The meanings of the security events (spec/10_security.md R321-R346). An event whose trigger does not hold changes
nothing. -/

namespace Sys2Proof.Machine

/-- R323: a request of tick k is considered at boundaries k + 1 to k + 4. -/
def quoteDue (n : Nat) (c : Chip) : Bool :=
  match (quoteSlot c n).asked with
  | some k => c.tk.phase = .ac3584 && decide (k < c.tk.tick) && decide (c.tk.tick ≤ k + 4)
  | none => false
/-- R323: still unsettled at boundary k + 4. -/
def hintDue (n : Nat) (c : Chip) : Bool :=
  match (quoteSlot c n).asked with
  | some k => c.tk.phase = .ac3584 && decide (k + 4 ≤ c.tk.tick) && unsettledCode c != 0
  | none => false
/-- R323: RETRY_MS, of the pauses, the health confirmation and the check run that remain. pauseTicks is what remains of a
component's pause, checkMs of the check run. -/
def retryMs (pauseTicks checkMs : Nat) (c : Chip) : Nat :=
  let fw := c.fw.updates
  let pausing := fw.any (fun u => u.phase = .pause || u.phase = .reverting)
  let repair := c.grid.pauseFrom.isSome
  let ticks := (if pausing then pauseTicks else 0) + (if repair then 3 - c.grid.reloaded else 0)
  let conf := fw.filterMap (fun u => match u.phase with
    | .pause => some 30000
    | .confirming => some ((30000000000 - u.counted) / 1000000)
    | _ => none)
  let load := c.plan.loading.isSome
  if pausing || repair || !conf.isEmpty || load then
    min allOnes32 (ticks * tickNs c / 1000000 + conf.foldl max 0 + (if load then checkMs else 0))
  else allOnes32

/-- QUOTE_SIGN (R323). -/
def execQuoteSign (slot : Nat) (s : State) : Result :=
  onUnit 8 slot (fun c => if quoteDue slot c && unsettledCode c = 0 then signQuote slot c else c) s
/-- QUOTE_RETRY_HINT (R323). -/
def execQuoteRetryHint (slot pauseTicks checkMs : Nat) (s : State) : Result :=
  onUnit 8 slot (fun c => if hintDue slot c then hintQuote slot (retryMs pauseTicks checkMs c) c else c) s
/-- QUOTE_SLOT_TIMEOUT (R321). -/
def execQuoteSlotTimeout (slot t : Nat) (s : State) : Result :=
  onUnit 8 slot (fun c =>
    let c := atTime t c
    match (quoteSlot c slot).posted with
    | some p => if p + 600000000000 ≤ c.tk.now then blobSet 0x2704 0x04 slot [] (objSet 0x2704 0x01 slot 0 (setQuote slot {} c)) else c
    | none => c) s
/-- KEY_GENERATION_CURRENT (R329): the installs accepted before this boundary. -/
def execKeyGenerationCurrent (s : State) : Result :=
  onChip (fun c =>
    if c.tk.timer && c.tk.phase = .ac0 then
      (c.sec.installs.filter (fun k => decide (k.tick < c.tk.tick))).foldl (fun c _ => installKey 0 c) c
    else c) s
/-- KEY_RETIREMENT (R330). -/
def execKeyRetirement (kind scope : Nat) (s : State) : Result :=
  onChip (fun c => if c.tk.timer && c.tk.phase = .ac0 then retireKey kind scope c else c) s
/-- SERVICE_SESSION_BEGIN (R341). -/
def execServiceSessionBegin (s : State) : Result :=
  onChip (fun c => if objGet c 0x2722 0x01 0 = 0 && c.power.pwrGood then sessionEvent true c else c) s
/-- SERVICE_SESSION_END (R341). -/
def execServiceSessionEnd (s : State) : Result :=
  onChip (fun c => if objGet c 0x2722 0x01 0 = 1 then sessionEvent false c else c) s

end Sys2Proof.Machine
end

