-- ==== Sys2Proof/Machine/ServOps.lean ====
section
/-! DEFINITION. The events of the serving unit, the intake engine and the egress unit (spec/07_model_serving.md,
spec/08_memory.md R274-R278, spec/06_video_path.md R220, R477). -/

namespace Sys2Proof.Machine

def execServingBoundary (s : State) : Result := onChip (atPhase .ac1536 (fun c => sendDecisions (tracePoint 5 1536 c.tk.tick (servingBoundary c)))) s
def execServingTokenRecord (chan : Nat) (s : State) : Result := onChip (tokenRecord chan) s
def execRequestSubmit (s : State) : Result := onChip requestSubmit s
def execRequestCancel (s : State) : Result := onChip (requestOp 2) s
def execRequestRelease (s : State) : Result := onChip (requestOp 3) s
def execRequestAssemblyTimeout (tenant request t : Nat) (s : State) : Result :=
  onChip (fun c => assemblyTimeout tenant request t (atTime t c)) s
def execRequestWaitTimeout (tenant request : Nat) (s : State) : Result := onChip (waitTimeout tenant request) s
def execControlBlockSend (slot : Nat) (s : State) : Result := onUnit 256 slot (controlBlock slot) s
def execTreeBlock (slot : Nat) (s : State) : Result := onUnit 256 slot (treeBlock slot) s
def execMaskBlockSend (slot : Nat) (s : State) : Result := onUnit 256 slot (maskBlock slot) s
def execAcceptedPath (slot : Nat) (s : State) : Result := onUnit 256 slot (acceptedPath slot) s
def execSummaryOut (slot : Nat) (s : State) : Result := onUnit 256 slot (summaryOut slot) s
def execHotHoldExpiry (tenant conv : Nat) (s : State) : Result := onChip (hotHoldExpiry tenant conv) s
def execConversationExpiry (tenant conv : Nat) (s : State) : Result := onChip (convExpiry tenant conv) s
def execSummaryExpiry (tenant conv : Nat) (s : State) : Result := onChip (summaryExpiry tenant conv) s
def execIntakeDatagram (s : State) : Result := onChip intakeDatagram s
def execIntakeDrain (pc : Nat) (s : State) : Result := onUnit 32 pc (intakeDrain pc) s
def execHandleTimeout (handle t : Nat) (s : State) : Result := onChip (fun c => handleTimeout handle t (atTime t c)) s
def execAdapterPlacementDone (handle : Nat) (s : State) : Result := onChip (placementDone handle) s
/-- RESEAL_COMPLETE (R332). -/
def execResealComplete (tenant : Nat) (s : State) : Result := onChip (resealTenant tenant) s
/-- EGRESS_RECORD (R220); records of serving slots are SERVING_TOKEN_RECORD's. -/
def execEgressRecord (chan : Nat) (s : State) : Result := onChip (fun c => egressRecord chan c (servingOchs c)) s
/-- EGRESS_INVALID_HEADER (R477, R231). -/
def execEgressInvalidHeader (chan send : Nat) (s : State) : Result := onChip (egressInvalid silentRecord chan send) s
/-- EGRESS_PAUSE_DATAGRAM (R477, R231). -/
def execEgressPauseDatagram (campion : Bool) (e n : Nat) (s : State) : Result := onUnit 4 e (egressPause silentRecord campion e n) s

end Sys2Proof.Machine
end

