-- ==== Sys2Proof/Machine/TickOps.lean ====
section
/-! DEFINITION. The meanings of the tick's rows and of the plan events (spec/05_ticks_and_plans.md R136-R167). An event happens
in its place in the order of Table 5-1; where its trigger does not hold it changes nothing. -/

namespace Sys2Proof.Machine

/-- An event of ac 0 of the boundary. -/
def atZero (f : Chip → Chip) (c : Chip) : Chip := if c.tk.timer && c.tk.phase = .ac0 then f c else c

/-- TICK_BOUNDARY (R137, R166). -/
def execTickBoundary (t : Nat) (s : State) : Result := onChip (fun c => tickBoundary t (atTime t c)) s
/-- ABORT_EFFECT (R159). -/
def execAbortEffect (s : State) : Result := onChip (atPhase .ac64 (fun c => abortBoundary (tracePoint 3 64 0 c))) s
/-- OVERLAY_MASK_FORMED (R158). -/
def execOverlayMaskFormed (s : State) : Result :=
  onChip (atPhase .ac1024 (fun c => let c := maskBoundary c; tracePoint 4 1024 c.plan.active c)) s
/-- SCHEDULE_ARMING (R137). -/
def execScheduleArming (s : State) : Result := onChip (atPhase .ac2560 (fun c => tracePoint 6 2560 0 (armSchedules c))) s

/-- The latch: the module as it stands becomes the image. While the complex is down the image stays (R458), and
the first latch after a management firmware activation is that of the boundary after its own (R422). -/
def dictionaryLatch (s : State) : State :=
  if s.chip.tk.timer && decide (phaseRank s.chip.tk.phase < phaseRank .ac3584) then
    let c : Chip := { s.chip with tk := { s.chip.tk with phase := .ac3584 } }
    if c.fw.down || c.fw.dark then { s with chip := c }
    else
      let c := latchChip c
      let c : Chip := { c with dict := { c.dict with relatch := false } }
      { s with chip := c, img := c }
  else s
/-- DICTIONARY_LATCH (R396, R399, R400). -/
def execDictionaryLatch (s : State) : Result := .next (settle (dictionaryLatch s))
/-- HBM_BOUNDARY_REFRESH (R171). -/
def execHbmBoundaryRefresh (s : State) : Result :=
  onChip (fun c => if c.tk.timer && c.tk.phase = .ac3584 then tracePoint 8 3584 0 (refreshAll c) else c) s
/-- WORK_WINDOW_START (R75). -/
def execWorkWindowStart (s : State) : Result := onChip (atPhase .work (fun c => tracePoint 9 4000 0 (startWork c))) s
/-- BUSY_PART_END (R139). -/
def execBusyPartEnd (t : Nat) (s : State) : Result := onChip (fun c => busyPartEnd (atTime t c)) s
/-- TICK_OVERRUN (R166). -/
def execTickOverrun (t : Nat) (s : State) : Result := onChip (fun c => tickOverrun (atTime t c)) s
/-- SLACK_WINDOW_START (R65, R79, R138, R171): no plan work runs in the slack window, so every tile has reached its ENDT. -/
def execSlackWindowStart (s : State) : Result := onChip (fun c => if tilesDone c then atPhase .slack slackStart c else c) s
/-- FUNCTION_COMPLETION (R152). -/
def execFunctionCompletion (fn : Nat) (s : State) : Result := onChip (completeFn fn) s

/-- CHECK_RUN_COMPLETE (R155). -/
def execCheckRunComplete (s : State) : Result := onChip checkRunDone s
/-- RUN_EFFECT (R141). -/
def execRunEffect (s : State) : Result := onChip (atZero (fun c => if planCmdDue c c.tk.tick 2 then runPlan c else c)) s
/-- PAUSE_EFFECT (R157). -/
def execPauseEffect (s : State) : Result := onChip (atZero (fun c => if planCmdDue c c.tk.tick 3 then pausePlan c else c)) s
/-- RESUME_EFFECT (R141). -/
def execResumeEffect (s : State) : Result :=
  onChip (atZero (fun c => if planCmdDue c c.tk.tick 4 then planDone (resumePlan c) else c)) s
/-- STOP_EFFECT (R157). -/
def execStopEffect (s : State) : Result :=
  onChip (atZero (fun c => match c.plan.cmd with
    | some m => if planCmdDue c c.tk.tick 5 then stopPlan m c else c
    | none => c)) s
/-- UNLOAD_EFFECT (R157, R338). -/
def execUnloadEffect (s : State) : Result := onChip (atZero (fun c => if planCmdDue c c.tk.tick 6 then unloadPlan c else c)) s
/-- ABORT_STATUS_POSTED (R159). -/
def execAbortStatusPosted (s : State) : Result := onChip (atZero abortPosted) s
/-- RESTART_EFFECT (R162). -/
def execRestartEffect (s : State) : Result := onChip (atZero restartBoundary) s
/-- PARTITION_SCRUB_DONE (R338). -/
def execPartitionScrubDone (s : State) : Result := onChip scrubDonePlan s
/-- WAKE_COMPLETE (R372): the wake, and the effects that waited for it. -/
def execWakeComplete (t : Nat) (s : State) : Result :=
  onChip (fun c => if c.power.waking then wakeAll (atTime t c) else atTime t c) s

end Sys2Proof.Machine
end

