-- ==== Sys2Proof/Machine/VideoOps.lean ====
section
/-! DEFINITION. The events of streams, decode cores, engines and encoders (spec/06_video_path.md R186-R218). -/

namespace Sys2Proof.Machine

def execRtpPacket (stream : Nat) (s : State) : Result := onUnit 256 stream (rtpPacket stream) s
def execGapJitterTimeout (stream t : Nat) (s : State) : Result := onUnit 256 stream (fun c => gapTimeout stream t (atTime t c)) s
def execPictureRelease (stream t : Nat) (s : State) : Result := onUnit 256 stream (fun c => releasePicture stream t (atTime t c)) s
def execPictureDecoded (core t : Nat) (d : Decoded) (s : State) : Result := onUnit 8 core (fun c => decodePicture core t d (atTime t c)) s
def execPictureRefused (core t : Nat) (d : CodedParams) (s : State) : Result := onUnit 8 core (fun c => refusePicture core t d (atTime t c)) s
def execDecodeBudgetExpiry (core t : Nat) (d : Decoded) (s : State) : Result := onUnit 8 core (fun c => budgetExpiry core t d (atTime t c)) s
/-- SLICE_DECODED (R197): samples are the slice's samples by key. -/
def execSliceDecoded (core b : Nat) (samples : List (Nat × Nat)) (s : State) : Result := onUnit 8 core (decodeSlice core b samples) s
def execSliceReadinessPoint (ovl : Fin 16) (slot b : Nat) (s : State) : Result := 
  onChip (fun c => bindingOut c ovl slot b (readinessPoint ovl slot b c)) s
def execCampionFirstLayer (ovl : Fin 16) (slot b : Nat) (s : State) : Result := onChip (firstLayer ovl slot b) s
def execCampionLastLayerJob (e job : Nat) (s : State) : Result := onUnit 4 e (startCampionJob e job) s
def execCampionJobEnd (e : Nat) (s : State) : Result := onUnit 4 e (endCampionJob e) s
def execTeaselJob (e job : Nat) (s : State) : Result := onUnit 2 e (startTeaselJob e job) s
def execTeaselJobEnd (e : Nat) (s : State) : Result := onUnit 2 e (endTeaselJob e) s
def execEncoderPicturePass (stream : Nat) (s : State) : Result := onUnit 256 stream (passPicture stream) s
/-- ENCODER_SLICE_SENT (R214-R218). -/
def execEncoderSliceSent (stream t : Nat) (d : CodedSlice) (s : State) : Result :=
  onUnit 256 stream (fun c => sendCoded stream t d (atTime t c)) s
def execClipEnd (stream : Nat) (s : State) : Result := onUnit 256 stream (endClip stream) s

end Sys2Proof.Machine
end

