-- ==== Sys2Proof/Machine/Dispatch.lean ====
section
/-! DEFINITION. What each command does: one arm per constructor, one direct call of its meaning. -/

namespace Sys2Proof.Machine

def exec (i : Instr) (s : State) : Host.Outcome State Fault Refusal :=
  match i with
  | .nop t slot => Sys2Proof.Machine.execNop t slot s
  | .setl t s' imm => Sys2Proof.Machine.execSetl t s' imm s
  | .seth t s' imm => Sys2Proof.Machine.execSeth t s' imm s
  | .adds t s' imm => Sys2Proof.Machine.execAdds t s' imm s
  | .loop t level cnt stop => Sys2Proof.Machine.execLoop t level cnt stop s
  | .jump t target => Sys2Proof.Machine.execJump t target s
  | .beq t sa sb target => Sys2Proof.Machine.execBeq t sa sb target s
  | .bne t sa sb target => Sys2Proof.Machine.execBne t sa sb target s
  | .wait t n => Sys2Proof.Machine.execWait t n s
  | .endt t entry => Sys2Proof.Machine.execEndt t entry s
  | .mload t agd aod us => Sys2Proof.Machine.execMload t agd aod us s
  | .mpre t agd aod m0 count us => Sys2Proof.Machine.execMpre t agd aod m0 count us s
  | .mrun t src sel aod m0 count sw half d us => Sys2Proof.Machine.execMrun t src sel aod m0 count sw half d us s
  | .mout t agd aod m0 count => Sys2Proof.Machine.execMout t agd aod m0 count s
  | .vadd t vd va vb mask w => Sys2Proof.Machine.execVadd t vd va vb mask w s
  | .vsub t vd va vb mask w => Sys2Proof.Machine.execVsub t vd va vb mask w s
  | .vmul t vd va vb mask w => Sys2Proof.Machine.execVmul t vd va vb mask w s
  | .vfma t vd va vb mask w => Sys2Proof.Machine.execVfma t vd va vb mask w s
  | .vmin t vd va vb mask w => Sys2Proof.Machine.execVmin t vd va vb mask w s
  | .vmax t vd va vb mask w => Sys2Proof.Machine.execVmax t vd va vb mask w s
  | .vcmp t va vb mask w cond target => Sys2Proof.Machine.execVcmp t va vb mask w cond target s
  | .vdiv t vd va vb mask w => Sys2Proof.Machine.execVdiv t vd va vb mask w s
  | .vsqrt t vd va mask w => Sys2Proof.Machine.execVsqrt t vd va mask w s
  | .vrsqrt t vd va mask w => Sys2Proof.Machine.execVrsqrt t vd va mask w s
  | .vexp2 t vd va mask w => Sys2Proof.Machine.execVexp2 t vd va mask w s
  | .vexp t vd va mask w => Sys2Proof.Machine.execVexp t vd va mask w s
  | .vlog2 t vd va mask w => Sys2Proof.Machine.execVlog2 t vd va mask w s
  | .vlog t vd va mask w => Sys2Proof.Machine.execVlog t vd va mask w s
  | .vsin t vd va mask w => Sys2Proof.Machine.execVsin t vd va mask w s
  | .vcos t vd va mask w => Sys2Proof.Machine.execVcos t vd va mask w s
  | .vtanh t vd va mask w => Sys2Proof.Machine.execVtanh t vd va mask w s
  | .vsigm t vd va mask w => Sys2Proof.Machine.execVsigm t vd va mask w s
  | .verf t vd va mask w => Sys2Proof.Machine.execVerf t vd va mask w s
  | .vgelu t vd va mask w => Sys2Proof.Machine.execVgelu t vd va mask w s
  | .vsilu t vd va mask w => Sys2Proof.Machine.execVsilu t vd va mask w s
  | .vcvt t vd va mask w fo ovf => Sys2Proof.Machine.execVcvt t vd va mask w fo ovf s
  | .vrsum t vd va mask w => Sys2Proof.Machine.execVrsum t vd va mask w s
  | .vrmax t vd va mask w => Sys2Proof.Machine.execVrmax t vd va mask w s
  | .vrmin t vd va mask w => Sys2Proof.Machine.execVrmin t vd va mask w s
  | .vpool t vd agd mask w kind us => Sys2Proof.Machine.execVpool t vd agd mask w kind us s
  | .vbcast t vd va mask w k => Sys2Proof.Machine.execVbcast t vd va mask w k s
  | .vmov t vd va mask w => Sys2Proof.Machine.execVmov t vd va mask w s
  | .vld t vd agd us => Sys2Proof.Machine.execVld t vd agd us s
  | .vldc t vd agd fmt w us => Sys2Proof.Machine.execVldc t vd agd fmt w us s
  | .vst t vs agd sc n => Sys2Proof.Machine.execVst t vs agd sc n s
  | .wld t slot agd ky kx0 us => Sys2Proof.Machine.execWld t slot agd ky kx0 us s
  | .agstep t agd kind => Sys2Proof.Machine.execAgstep t agd kind s
  | .agrst t agd => Sys2Proof.Machine.execAgrst t agd s
  | .agld t agd s' us => Sys2Proof.Machine.execAgld t agd s' us s
  | .adld t q s' us => Sys2Proof.Machine.execAdld t q s' us s
  | .mkld t mask agd us => Sys2Proof.Machine.execMkld t mask agd us s
  | .send t handle agd n us => Sys2Proof.Machine.execSend t handle agd n us s
  | .recv t handle agd n => Sys2Proof.Machine.execRecv t handle agd n s
  | .instructionLineLost t e => Sys2Proof.Machine.execInstructionLineLost t e s
  | .invalidSlotSend chan j => Sys2Proof.Machine.execInvalidSlotSend chan j s
  | .flitHop n side data => Sys2Proof.Machine.execFlitHop n side data s
  | .flitEject n data => Sys2Proof.Machine.execFlitEject n data s
  | .injectionWrite n data => Sys2Proof.Machine.execInjectionWrite n data s
  | .mgmtMessageArrival t flits => Sys2Proof.Machine.execMgmtMessageArrival t flits s
  | .mgmtReadSram t us => Sys2Proof.Machine.execMgmtReadSram t us s
  | .mgmtWriteSram t => Sys2Proof.Machine.execMgmtWriteSram t s
  | .mgmtReadInstr t us => Sys2Proof.Machine.execMgmtReadInstr t us s
  | .mgmtWriteInstr t => Sys2Proof.Machine.execMgmtWriteInstr t s
  | .mgmtSelfTest t stat => Sys2Proof.Machine.execMgmtSelfTest t stat s
  | .mgmtReadCounters t => Sys2Proof.Machine.execMgmtReadCounters t s
  | .mgmtResponse n => Sys2Proof.Machine.execMgmtResponse n s
  | .tickBoundary t => Sys2Proof.Machine.execTickBoundary t s
  | .abortEffect => Sys2Proof.Machine.execAbortEffect s
  | .overlayMaskFormed => Sys2Proof.Machine.execOverlayMaskFormed s
  | .servingBoundary => Sys2Proof.Machine.execServingBoundary s
  | .scheduleArming => Sys2Proof.Machine.execScheduleArming s
  | .dictionaryLatch => Sys2Proof.Machine.execDictionaryLatch s
  | .hbmBoundaryRefresh => Sys2Proof.Machine.execHbmBoundaryRefresh s
  | .workWindowStart => Sys2Proof.Machine.execWorkWindowStart s
  | .busyPartEnd t => Sys2Proof.Machine.execBusyPartEnd t s
  | .tickOverrun t => Sys2Proof.Machine.execTickOverrun t s
  | .slackWindowStart => Sys2Proof.Machine.execSlackWindowStart s
  | .functionCompletion fn => Sys2Proof.Machine.execFunctionCompletion fn s
  | .tileDeclaredFailed t => Sys2Proof.Machine.execTileDeclaredFailed t s
  | .repairLatch => Sys2Proof.Machine.execRepairLatch s
  | .repairPauseEnd => Sys2Proof.Machine.execRepairPauseEnd s
  | .columnRetiredNoShift t => Sys2Proof.Machine.execColumnRetiredNoShift t s
  | .spareColumnSelfTest q pass => Sys2Proof.Machine.execSpareColumnSelfTest q pass s
  | .declareTileFailed r tile => Sys2Proof.Machine.execDeclareTileFailed r tile s
  | .load r => Sys2Proof.Machine.execLoad r s
  | .checkRunComplete => Sys2Proof.Machine.execCheckRunComplete s
  | .run r => Sys2Proof.Machine.execRun r s
  | .runEffect => Sys2Proof.Machine.execRunEffect s
  | .pause r => Sys2Proof.Machine.execPause r s
  | .pauseEffect => Sys2Proof.Machine.execPauseEffect s
  | .resume r => Sys2Proof.Machine.execResume r s
  | .resumeEffect => Sys2Proof.Machine.execResumeEffect s
  | .stop r => Sys2Proof.Machine.execStop r s
  | .stopEffect => Sys2Proof.Machine.execStopEffect s
  | .unload r => Sys2Proof.Machine.execUnload r s
  | .unloadEffect => Sys2Proof.Machine.execUnloadEffect s
  | .overlayRequest r mask => Sys2Proof.Machine.execOverlayRequest r mask s
  | .abortFunction r fn => Sys2Proof.Machine.execAbortFunction r fn s
  | .abortStatusPosted => Sys2Proof.Machine.execAbortStatusPosted s
  | .restartFunction r => Sys2Proof.Machine.execRestartFunction r s
  | .restartEffect => Sys2Proof.Machine.execRestartEffect s
  | .hbmAct pc j => Sys2Proof.Machine.execHbmAct pc j s
  | .hbmRd pc j errs => Sys2Proof.Machine.execHbmRd pc j errs s
  | .hbmRdAp pc j errs => Sys2Proof.Machine.execHbmRdAp pc j errs s
  | .hbmWr pc j => Sys2Proof.Machine.execHbmWr pc j s
  | .hbmWrAp pc j => Sys2Proof.Machine.execHbmWrAp pc j s
  | .hbmPre pc j => Sys2Proof.Machine.execHbmPre pc j s
  | .hbmPreAll pc j => Sys2Proof.Machine.execHbmPreAll pc j s
  | .hbmRefreshSlot pc j => Sys2Proof.Machine.execHbmRefreshSlot pc j s
  | .hbmScrubSlot pc j errs => Sys2Proof.Machine.execHbmScrubSlot pc j errs s
  | .hbmReadReturn n => Sys2Proof.Machine.execHbmReadReturn n s
  | .autonomousRefresh pc bank => Sys2Proof.Machine.execAutonomousRefresh pc bank s
  | .patrolStep pc errs => Sys2Proof.Machine.execPatrolStep pc errs s
  | .hbmWriteback pc errs => Sys2Proof.Machine.execHbmWriteback pc errs s
  | .rowSpareCopy row => Sys2Proof.Machine.execRowSpareCopy row s
  | .rowSpareSwitch row => Sys2Proof.Machine.execRowSpareSwitch row s
  | .postPackageRepair r => Sys2Proof.Machine.execPostPackageRepair r s
  | .pprComplete done left => Sys2Proof.Machine.execPprComplete done left s
  | .revocationComplete n => Sys2Proof.Machine.execRevocationComplete n s
  | .hbmTemperatureRead temps => Sys2Proof.Machine.execHbmTemperatureRead temps s
  | .caParityRetry pc => Sys2Proof.Machine.execCaParityRetry pc s
  | .frameReceived port t frame => Sys2Proof.Machine.execFrameReceived port t frame s
  | .ptpSync => Sys2Proof.Machine.execPtpSync s
  | .ptpFollowUp => Sys2Proof.Machine.execPtpFollowUp s
  | .ptpAnnounce => Sys2Proof.Machine.execPtpAnnounce s
  | .ptpDelayResp => Sys2Proof.Machine.execPtpDelayResp s
  | .ptpSyncTimeout t => Sys2Proof.Machine.execPtpSyncTimeout t s
  | .ptpHoldoverExpiry t => Sys2Proof.Machine.execPtpHoldoverExpiry t s
  | .ppsOutEdge t => Sys2Proof.Machine.execPpsOutEdge t s
  | .arpRequest => Sys2Proof.Machine.execArpRequest s
  | .neighborSolicitation => Sys2Proof.Machine.execNeighborSolicitation s
  | .echoRequest => Sys2Proof.Machine.execEchoRequest s
  | .resolutionTimeout t => Sys2Proof.Machine.execResolutionTimeout t s
  | .rtpPacket stream => Sys2Proof.Machine.execRtpPacket stream s
  | .gapJitterTimeout stream t => Sys2Proof.Machine.execGapJitterTimeout stream t s
  | .pictureDecoded core t d => Sys2Proof.Machine.execPictureDecoded core t d s
  | .pictureRefused core t d => Sys2Proof.Machine.execPictureRefused core t d s
  | .decodeBudgetExpiry core t d => Sys2Proof.Machine.execDecodeBudgetExpiry core t d s
  | .sliceDecoded core b samples => Sys2Proof.Machine.execSliceDecoded core b samples s
  | .sliceReadinessPoint ovl slot b => Sys2Proof.Machine.execSliceReadinessPoint ovl slot b s
  | .campionFirstLayer ovl slot b => Sys2Proof.Machine.execCampionFirstLayer ovl slot b s
  | .campionLastLayerJob e job => Sys2Proof.Machine.execCampionLastLayerJob e job s
  | .campionJobEnd e => Sys2Proof.Machine.execCampionJobEnd e s
  | .teaselJob e job => Sys2Proof.Machine.execTeaselJob e job s
  | .teaselJobEnd e => Sys2Proof.Machine.execTeaselJobEnd e s
  | .encoderPicturePass stream => Sys2Proof.Machine.execEncoderPicturePass stream s
  | .encoderSliceSent stream t d => Sys2Proof.Machine.execEncoderSliceSent stream t d s
  | .startClip r => Sys2Proof.Machine.execStartClip r s
  | .stopEncoder r => Sys2Proof.Machine.execStopEncoder r s
  | .requestIdr r => Sys2Proof.Machine.execRequestIdr r s
  | .clipEnd stream => Sys2Proof.Machine.execClipEnd stream s
  | .egressRecord chan => Sys2Proof.Machine.execEgressRecord chan s
  | .egressInvalidHeader chan send => Sys2Proof.Machine.execEgressInvalidHeader chan send s
  | .egressPauseDatagram campion e n => Sys2Proof.Machine.execEgressPauseDatagram campion e n s
  | .servingTokenRecord chan => Sys2Proof.Machine.execServingTokenRecord chan s
  | .requestSubmit => Sys2Proof.Machine.execRequestSubmit s
  | .requestCancel => Sys2Proof.Machine.execRequestCancel s
  | .requestRelease => Sys2Proof.Machine.execRequestRelease s
  | .requestAssemblyTimeout tenant request t => Sys2Proof.Machine.execRequestAssemblyTimeout tenant request t s
  | .requestWaitTimeout tenant request => Sys2Proof.Machine.execRequestWaitTimeout tenant request s
  | .controlBlockSend slot => Sys2Proof.Machine.execControlBlockSend slot s
  | .treeBlock slot => Sys2Proof.Machine.execTreeBlock slot s
  | .maskBlockSend slot => Sys2Proof.Machine.execMaskBlockSend slot s
  | .acceptedPath slot => Sys2Proof.Machine.execAcceptedPath slot s
  | .summaryOut slot => Sys2Proof.Machine.execSummaryOut slot s
  | .hotHoldExpiry tenant conv => Sys2Proof.Machine.execHotHoldExpiry tenant conv s
  | .conversationExpiry tenant conv => Sys2Proof.Machine.execConversationExpiry tenant conv s
  | .summaryExpiry tenant conv => Sys2Proof.Machine.execSummaryExpiry tenant conv s
  | .cancelRequest r request => Sys2Proof.Machine.execCancelRequest r request s
  | .conversationRelease r => Sys2Proof.Machine.execConversationRelease r s
  | .deleteSummary r => Sys2Proof.Machine.execDeleteSummary r s
  | .summaryExport r => Sys2Proof.Machine.execSummaryExport r s
  | .summaryImport r data => Sys2Proof.Machine.execSummaryImport r data s
  | .adapterInstall r => Sys2Proof.Machine.execAdapterInstall r s
  | .adapterRetire r => Sys2Proof.Machine.execAdapterRetire r s
  | .intakeDatagram => Sys2Proof.Machine.execIntakeDatagram s
  | .openHandle r => Sys2Proof.Machine.execOpenHandle r s
  | .close r => Sys2Proof.Machine.execClose r s
  | .release r => Sys2Proof.Machine.execRelease r s
  | .adapterPlacementDone handle => Sys2Proof.Machine.execAdapterPlacementDone handle s
  | .handleTimeout handle t => Sys2Proof.Machine.execHandleTimeout handle t s
  | .intakeDrain pc => Sys2Proof.Machine.execIntakeDrain pc s
  | .stomarFrameSend port => Sys2Proof.Machine.execStomarFrameSend port s
  | .stomarFrame port corrected bad frame marks => Sys2Proof.Machine.execStomarFrame port corrected bad frame marks s
  | .rekeyStart port => Sys2Proof.Machine.execRekeyStart port s
  | .linkKeyExhausted port => Sys2Proof.Machine.execLinkKeyExhausted port s
  | .keyExchange port fcnt t => Sys2Proof.Machine.execKeyExchange port fcnt t s
  | .laneSubstitution port lane ratio lockLost => Sys2Proof.Machine.execLaneSubstitution port lane ratio lockLost s
  | .laneControl port lane count => Sys2Proof.Machine.execLaneControl port lane count s
  | .linkUpStart port ok t => Sys2Proof.Machine.execLinkUpStart port ok t s
  | .linkRetryTimer port t => Sys2Proof.Machine.execLinkRetryTimer port t s
  | .beaconSend port => Sys2Proof.Machine.execBeaconSend port s
  | .identityBeacon port t same => Sys2Proof.Machine.execIdentityBeacon port t same s
  | .beaconTimeout port t => Sys2Proof.Machine.execBeaconTimeout port t s
  | .timedWordTransmit port entry word => Sys2Proof.Machine.execTimedWordTransmit port entry word s
  | .timedWordRelease port entry word => Sys2Proof.Machine.execTimedWordRelease port entry word s
  | .timingProbe port rtt => Sys2Proof.Machine.execTimingProbe port rtt s
  | .tickToken port tok lead t => Sys2Proof.Machine.execTickToken port tok lead t s
  | .tokenSend t => Sys2Proof.Machine.execTokenSend t s
  | .busyDone pos b => Sys2Proof.Machine.execBusyDone pos b s
  | .forwardedCommand port d => Sys2Proof.Machine.execForwardedCommand port d s
  | .forwardedCommandStatus port d st => Sys2Proof.Machine.execForwardedCommandStatus port d st s
  | .servingDecisions port adms pst moves => Sys2Proof.Machine.execServingDecisions port adms pst moves s
  | .domainFormed t => Sys2Proof.Machine.execDomainFormed t s
  | .memberLost pos t => Sys2Proof.Machine.execMemberLost pos t s
  | .leaderLost reach t => Sys2Proof.Machine.execLeaderLost reach t s
  | .memberJoin pos t => Sys2Proof.Machine.execMemberJoin pos t s
  | .streamBinding stream tick ts => Sys2Proof.Machine.execStreamBinding stream tick ts s
  | .pairHeartbeat active relinq t => Sys2Proof.Machine.execPairHeartbeat active relinq t s
  | .heartbeatTimeout t => Sys2Proof.Machine.execHeartbeatTimeout t s
  | .standbyTakeover => Sys2Proof.Machine.execStandbyTakeover s
  | .mirrorCapture entry => Sys2Proof.Machine.execMirrorCapture entry s
  | .captureAbandoned entry => Sys2Proof.Machine.execCaptureAbandoned entry s
  | .mirrorCaptureData entry tick data => Sys2Proof.Machine.execMirrorCaptureData entry tick data s
  | .captureEnd entry tick digest => Sys2Proof.Machine.execCaptureEnd entry tick digest s
  | .convergenceEnd => Sys2Proof.Machine.execConvergenceEnd s
  | .returnHoldoffExpiry t => Sys2Proof.Machine.execReturnHoldoffExpiry t s
  | .returnRequest => Sys2Proof.Machine.execReturnRequest s
  | .returnReply b => Sys2Proof.Machine.execReturnReply b s
  | .switchOver r => Sys2Proof.Machine.execSwitchOver r s
  | .inhibitReturn r => Sys2Proof.Machine.execInhibitReturn r s
  | .allowReturn r => Sys2Proof.Machine.execAllowReturn r s
  | .retrain r => Sys2Proof.Machine.execRetrain r s
  | .excludePort r => Sys2Proof.Machine.execExcludePort r s
  | .includePort r => Sys2Proof.Machine.execIncludePort r s
  | .quoteRequest r => Sys2Proof.Machine.execQuoteRequest r s
  | .quoteFree r => Sys2Proof.Machine.execQuoteFree r s
  | .quoteSign slot => Sys2Proof.Machine.execQuoteSign slot s
  | .quoteRetryHint slot pauseTicks checkMs => Sys2Proof.Machine.execQuoteRetryHint slot pauseTicks checkMs s
  | .quoteSlotTimeout slot t => Sys2Proof.Machine.execQuoteSlotTimeout slot t s
  | .keyRelease r data => Sys2Proof.Machine.execKeyRelease r data s
  | .keyGenerationCurrent => Sys2Proof.Machine.execKeyGenerationCurrent s
  | .keyRetirement kind scope => Sys2Proof.Machine.execKeyRetirement kind scope s
  | .resealComplete tenant => Sys2Proof.Machine.execResealComplete tenant s
  | .storeSweepDone r kind => Sys2Proof.Machine.execStoreSweepDone r kind s
  | .streamSweepDone r kind => Sys2Proof.Machine.execStreamSweepDone r kind s
  | .tenantAssign r => Sys2Proof.Machine.execTenantAssign r s
  | .tenantUnassign r => Sys2Proof.Machine.execTenantUnassign r s
  | .extend r data => Sys2Proof.Machine.execExtend r data s
  | .planKeyWrite r slot data => Sys2Proof.Machine.execPlanKeyWrite r slot data s
  | .serviceSessionBegin => Sys2Proof.Machine.execServiceSessionBegin s
  | .serviceSessionEnd => Sys2Proof.Machine.execServiceSessionEnd s
  | .powerEstimate counts => Sys2Proof.Machine.execPowerEstimate counts s
  | .gainCalibration mv ma t => Sys2Proof.Machine.execGainCalibration mv ma t s
  | .powerCapWrite r watts => Sys2Proof.Machine.execPowerCapWrite r watts s
  | .droopEvent t => Sys2Proof.Machine.execDroopEvent t s
  | .droopLockExpiry => Sys2Proof.Machine.execDroopLockExpiry s
  | .coolantReading r v t => Sys2Proof.Machine.execCoolantReading r v t s
  | .coolantStale t => Sys2Proof.Machine.execCoolantStale t s
  | .dieSensorSample dies t => Sys2Proof.Machine.execDieSensorSample dies t s
  | .undervoltageQualified t => Sys2Proof.Machine.execUndervoltageQualified t s
  | .inputBelow44v t => Sys2Proof.Machine.execInputBelow44v t s
  | .thermalTrip t => Sys2Proof.Machine.execThermalTrip t s
  | .survivalExit r => Sys2Proof.Machine.execSurvivalExit r s
  | .keepWarmAdjust => Sys2Proof.Machine.execKeepWarmAdjust s
  | .wakeStateEntry => Sys2Proof.Machine.execWakeStateEntry s
  | .wakeComplete t => Sys2Proof.Machine.execWakeComplete t s
  | .overvoltageTrip t => Sys2Proof.Machine.execOvervoltageTrip t s
  | .currentLimitTrip t => Sys2Proof.Machine.execCurrentLimitTrip t s
  | .inputOff t => Sys2Proof.Machine.execInputOff t s
  | .softStart t => Sys2Proof.Machine.execSoftStart t s
  | .pwrGood cores flips bad mv hot t => Sys2Proof.Machine.execPwrGood cores flips bad mv hot t s
  | .bootResume hot t => Sys2Proof.Machine.execBootResume hot t s
  | .bootComplete cols engines spares hbmOk t => Sys2Proof.Machine.execBootComplete cols engines spares hbmOk t s
  | .resetNQualified t => Sys2Proof.Machine.execResetNQualified t s
  | .resetNGlitch ns t => Sys2Proof.Machine.execResetNGlitch ns t s
  | .resetNRelease t => Sys2Proof.Machine.execResetNRelease t s
  | .cmd3 => Sys2Proof.Machine.execCmd3 s
  | .cmd5 => Sys2Proof.Machine.execCmd5 s
  | .cmd7 rca => Sys2Proof.Machine.execCmd7 rca s
  | .cmd11 => Sys2Proof.Machine.execCmd11 s
  | .cmd15 rca => Sys2Proof.Machine.execCmd15 rca s
  | .cmd19 => Sys2Proof.Machine.execCmd19 s
  | .cmd52 write raw fn addr v => Sys2Proof.Machine.execCmd52 write raw fn addr v s
  | .cmd53 write block incr fn addr count data => Sys2Proof.Machine.execCmd53 write block incr fn addr count data s
  | .unsupportedSdioCommand => Sys2Proof.Machine.execUnsupportedSdioCommand s
  | .ioAbort => Sys2Proof.Machine.execIoAbort s
  | .sdioReset => Sys2Proof.Machine.execSdioReset s
  | .go => Sys2Proof.Machine.execGo s
  | .discard => Sys2Proof.Machine.execDiscard s
  | .requestTake => Sys2Proof.Machine.execRequestTake s
  | .read => Sys2Proof.Machine.execRead s
  | .write => Sys2Proof.Machine.execWrite s
  | .readSeg t => Sys2Proof.Machine.execReadSeg t s
  | .writeSeg t => Sys2Proof.Machine.execWriteSeg t s
  | .segmentCopyExpiry r t => Sys2Proof.Machine.execSegmentCopyExpiry r t s
  | .registerWrite r idx sub data => Sys2Proof.Machine.execRegisterWrite r idx sub data s
  | .selectorWrite r idx sub data => Sys2Proof.Machine.execSelectorWrite r idx sub data s
  | .parameterWrite r idx sub data => Sys2Proof.Machine.execParameterWrite r idx sub data s
  | .alertAcknowledge r mask => Sys2Proof.Machine.execAlertAcknowledge r mask s
  | .alertEnable r mask => Sys2Proof.Machine.execAlertEnable r mask s
  | .snapshotMembers r data => Sys2Proof.Machine.execSnapshotMembers r data s
  | .latchOnce r => Sys2Proof.Machine.execLatchOnce r s
  | .latchEvery r => Sys2Proof.Machine.execLatchEvery r s
  | .latchStop r => Sys2Proof.Machine.execLatchStop r s
  | .groupFree r => Sys2Proof.Machine.execGroupFree r s
  | .componentRestart id cause msgs retained t => Sys2Proof.Machine.execComponentRestart id cause msgs retained t s
  | .restartComponentCmd r id => Sys2Proof.Machine.execRestartComponentCmd r id s
  | .complexReset cause cores t => Sys2Proof.Machine.execComplexReset cause cores t s
  | .registerRebuild flips => Sys2Proof.Machine.execRegisterRebuild flips s
  | .logMirror t => Sys2Proof.Machine.execLogMirror t s
  | .traceClear r => Sys2Proof.Machine.execTraceClear r s
  | .traceFreeze r => Sys2Proof.Machine.execTraceFreeze r s
  | .traceUnfreeze r => Sys2Proof.Machine.execTraceUnfreeze r s
  | .program r => Sys2Proof.Machine.execProgram r s
  | .programDone n ok => Sys2Proof.Machine.execProgramDone n ok s
  | .activate r => Sys2Proof.Machine.execActivate r s
  | .revert r => Sys2Proof.Machine.execRevert r s
  | .erase r => Sys2Proof.Machine.execErase r s
  | .activationPauseStart n handover => Sys2Proof.Machine.execActivationPauseStart n handover s
  | .activationPauseEnd n => Sys2Proof.Machine.execActivationPauseEnd n s
  | .imageConfirmed n => Sys2Proof.Machine.execImageConfirmed n s
  | .confirmationTimeout n broken => Sys2Proof.Machine.execConfirmationTimeout n broken s
  | .beginHb => Sys2Proof.Machine.execBeginHb s
  | .chunk off => Sys2Proof.Machine.execChunk off s
  | .endHb => Sys2Proof.Machine.execEndHb s
  | .reboot => Sys2Proof.Machine.execReboot s
  | .cancel => Sys2Proof.Machine.execCancel s
  | .trayTimeWrite r ns => Sys2Proof.Machine.execTrayTimeWrite r ns s
  | .calendarKnown t => Sys2Proof.Machine.execCalendarKnown t s
  | .lifeRecordWrite t => Sys2Proof.Machine.execLifeRecordWrite t s
  | .redundantRowCopy t wa => Sys2Proof.Machine.execRedundantRowCopy t wa s
  | .redundantRowSwitch t wa => Sys2Proof.Machine.execRedundantRowSwitch t wa s
  | .engineDeclaredFailed code => Sys2Proof.Machine.execEngineDeclaredFailed code s
  | .declareEngineFailed r engine => Sys2Proof.Machine.execDeclareEngineFailed r engine s
  | .engineSpareInsertion => Sys2Proof.Machine.execEngineSpareInsertion s
  | .engineSpareInsertionEnd => Sys2Proof.Machine.execEngineSpareInsertionEnd s
  | .engineSpareSelfTest kind pass => Sys2Proof.Machine.execEngineSpareSelfTest kind pass s
  | .flashBlockRetire part erases failed => Sys2Proof.Machine.execFlashBlockRetire part erases failed s
  | .leaseGrantScan => Sys2Proof.Machine.execLeaseGrantScan s
  | .cancelQueuedEntry r pos => Sys2Proof.Machine.execCancelQueuedEntry r pos s
  | .demandScrubStart r => Sys2Proof.Machine.execDemandScrubStart r s
  | .demandScrubStop r => Sys2Proof.Machine.execDemandScrubStop r s
  | .demandScrubDone => Sys2Proof.Machine.execDemandScrubDone s
  | .linkRetrainDone port t => Sys2Proof.Machine.execLinkRetrainDone port t s
  | .ptpDelayReq => Sys2Proof.Machine.execPtpDelayReq s
  | .ptpMessageInterval kind t => Sys2Proof.Machine.execPtpMessageInterval kind t s
  | .arpReply => Sys2Proof.Machine.execArpReply s
  | .neighborAdvertisement => Sys2Proof.Machine.execNeighborAdvertisement s
  | .autoNegotiation port up => Sys2Proof.Machine.execAutoNegotiation port up s
  | .linkDown port t => Sys2Proof.Machine.execLinkDown port t s
  | .droopRecovery t => Sys2Proof.Machine.execDroopRecovery t s
  | .partitionScrubDone => Sys2Proof.Machine.execPartitionScrubDone s
  | .pictureRelease stream t => Sys2Proof.Machine.execPictureRelease stream t s
  | .domainCommandLatch t => Sys2Proof.Machine.execDomainCommandLatch t s
  | .faultClassExpiry n t => Sys2Proof.Machine.execFaultClassExpiry n t s
  | .overvoltageRecovery t => Sys2Proof.Machine.execOvervoltageRecovery t s
  | .currentLimitRestart t => Sys2Proof.Machine.execCurrentLimitRestart t s

end Sys2Proof.Machine
end

