-- ==== Sys2Proof/WellFormed.lean ====
section
/-! DEFINITION. Which commands are well formed: the entity a command names exists. A field narrower than its type (a register,
a slot, a mask) is bounded by that type. -/

namespace Sys2Proof

/-- A command is well formed when the tile, port, pseudo-channel or other entity it names exists on this hardware. -/
def WellFormed (c : Instr) : Bool :=
  match c with
  -- tiles: 2,048 logical tiles (R98)
  | .nop i _ | .setl i _ _ | .seth i _ _ | .adds i _ _ | .loop i _ _ _ | .jump i _ | .beq i _ _ _ | .bne i _ _ _ | .wait i _
  | .endt i _ | .mload i _ _ _ | .mpre i _ _ _ _ _ | .mrun i _ _ _ _ _ _ _ _ _ | .mout i _ _ _ _ | .vadd i _ _ _ _ _
  | .vsub i _ _ _ _ _ | .vmul i _ _ _ _ _ | .vfma i _ _ _ _ _ | .vmin i _ _ _ _ _ | .vmax i _ _ _ _ _ | .vcmp i _ _ _ _ _ _
  | .vdiv i _ _ _ _ _ | .vsqrt i _ _ _ _ | .vrsqrt i _ _ _ _ | .vexp2 i _ _ _ _ | .vexp i _ _ _ _ | .vlog2 i _ _ _ _
  | .vlog i _ _ _ _ | .vsin i _ _ _ _ | .vcos i _ _ _ _ | .vtanh i _ _ _ _ | .vsigm i _ _ _ _ | .verf i _ _ _ _
  | .vgelu i _ _ _ _ | .vsilu i _ _ _ _ | .vcvt i _ _ _ _ _ _ | .vrsum i _ _ _ _ | .vrmax i _ _ _ _ | .vrmin i _ _ _ _
  | .vpool i _ _ _ _ _ _ | .vbcast i _ _ _ _ _ | .vmov i _ _ _ _ | .vld i _ _ _ | .vldc i _ _ _ _ _ | .vst i _ _ _ _
  | .wld i _ _ _ _ _ | .agstep i _ _ | .agrst i _ | .agld i _ _ _ | .adld i _ _ _ | .mkld i _ _ _ | .send i _ _ _ _
  | .recv i _ _ _ | .instructionLineLost i _ | .mgmtMessageArrival i _ | .mgmtReadSram i _ | .mgmtWriteSram i
  | .mgmtReadInstr i _ | .mgmtWriteInstr i | .mgmtSelfTest i _ | .mgmtReadCounters i | .tileDeclaredFailed i
  | .columnRetiredNoShift i | .redundantRowCopy i _ | .redundantRowSwitch i _ => decide (i < 2048)
  -- no entity with a bound: every operand value is a command
  | .invalidSlotSend _ _ | .flitHop _ _ _ | .flitEject _ _ | .injectionWrite _ _ | .mgmtResponse _ | .tickBoundary _
  | .abortEffect | .overlayMaskFormed | .servingBoundary | .scheduleArming | .dictionaryLatch | .hbmBoundaryRefresh
  | .workWindowStart | .busyPartEnd _ | .tickOverrun _ | .slackWindowStart | .functionCompletion _ | .repairLatch
  | .repairPauseEnd | .spareColumnSelfTest _ _ | .declareTileFailed _ _ | .load _ | .checkRunComplete | .run _ | .runEffect
  | .pause _ | .pauseEffect | .resume _ | .resumeEffect | .stop _ | .stopEffect | .unload _ | .unloadEffect
  | .overlayRequest _ _ | .abortFunction _ _ | .abortStatusPosted | .restartFunction _ | .restartEffect | .hbmReadReturn _
  | .postPackageRepair _ | .pprComplete _ _ | .revocationComplete _ | .hbmTemperatureRead _ | .ptpSync | .ptpFollowUp
  | .ptpAnnounce | .ptpDelayResp | .ptpSyncTimeout _ | .ptpHoldoverExpiry _ | .ppsOutEdge _ | .arpRequest
  | .neighborSolicitation | .echoRequest | .resolutionTimeout _ | .sliceReadinessPoint _ _ _ | .campionFirstLayer _ _ _
  | .startClip _ | .stopEncoder _ | .requestIdr _ | .egressRecord _ | .egressInvalidHeader _ _ | .servingTokenRecord _
  | .requestSubmit | .requestCancel | .requestRelease | .requestAssemblyTimeout _ _ _ | .requestWaitTimeout _ _
  | .hotHoldExpiry _ _ | .conversationExpiry _ _ | .summaryExpiry _ _ | .cancelRequest _ _ | .conversationRelease _
  | .deleteSummary _ | .summaryExport _ | .summaryImport _ _ | .adapterInstall _ | .adapterRetire _ | .intakeDatagram
  | .openHandle _ | .close _ | .release _ | .adapterPlacementDone _ | .handleTimeout _ _ | .tokenSend _ | .busyDone _ _
  | .domainFormed _ | .memberLost _ _ | .leaderLost _ _ | .memberJoin _ _ | .streamBinding _ _ _ | .pairHeartbeat _ _ _
  | .heartbeatTimeout _ | .standbyTakeover | .mirrorCapture _ | .captureAbandoned _ | .mirrorCaptureData _ _ _
  | .captureEnd _ _ _ | .convergenceEnd | .returnHoldoffExpiry _ | .returnRequest | .returnReply _ | .switchOver _
  | .inhibitReturn _ | .allowReturn _ | .retrain _ | .excludePort _ | .includePort _ | .quoteRequest _ | .quoteFree _
  | .keyRelease _ _ | .keyGenerationCurrent | .keyRetirement _ _ | .resealComplete _ | .storeSweepDone _ _
  | .streamSweepDone _ _ | .tenantAssign _ | .tenantUnassign _ | .extend _ _ | .planKeyWrite _ _ _ | .serviceSessionBegin
  | .serviceSessionEnd | .powerEstimate _ | .gainCalibration _ _ _ | .powerCapWrite _ _ | .droopEvent _ | .droopLockExpiry
  | .coolantReading _ _ _ | .coolantStale _ | .dieSensorSample _ _ | .undervoltageQualified _ | .inputBelow44v _
  | .thermalTrip _ | .survivalExit _ | .keepWarmAdjust | .wakeStateEntry | .wakeComplete _ | .overvoltageTrip _
  | .currentLimitTrip _ | .inputOff _ | .softStart _ | .pwrGood _ _ _ _ _ _ | .bootResume _ _ | .bootComplete _ _ _ _ _
  | .resetNQualified _ | .resetNGlitch _ _ | .resetNRelease _ | .cmd3 | .cmd5 | .cmd7 _ | .cmd11 | .cmd15 _ | .cmd19
  | .cmd52 _ _ _ _ _ | .cmd53 _ _ _ _ _ _ _ | .unsupportedSdioCommand | .ioAbort | .sdioReset | .go | .discard | .requestTake
  | .read | .write | .readSeg _ | .writeSeg _ | .segmentCopyExpiry _ _ | .registerWrite _ _ _ _ | .selectorWrite _ _ _ _
  | .parameterWrite _ _ _ _ | .alertAcknowledge _ _ | .alertEnable _ _ | .snapshotMembers _ _ | .latchOnce _ | .latchEvery _
  | .latchStop _ | .groupFree _ | .restartComponentCmd _ _ | .complexReset _ _ _ | .registerRebuild _ | .logMirror _
  | .traceClear _ | .traceFreeze _ | .traceUnfreeze _ | .program _ | .programDone _ _ | .activate _ | .revert _ | .erase _
  | .activationPauseStart _ _ | .activationPauseEnd _ | .imageConfirmed _ | .confirmationTimeout _ _ | .beginHb | .chunk _
  | .endHb | .reboot | .cancel | .trayTimeWrite _ _ | .calendarKnown _ | .lifeRecordWrite _ | .declareEngineFailed _ _
  | .engineSpareInsertion | .engineSpareInsertionEnd | .engineSpareSelfTest _ _ | .leaseGrantScan | .cancelQueuedEntry _ _
  | .demandScrubStart _ | .demandScrubStop _ | .demandScrubDone | .ptpDelayReq | .ptpMessageInterval _ _ | .arpReply
  | .neighborAdvertisement | .droopRecovery _ | .partitionScrubDone | .domainCommandLatch _ | .faultClassExpiry _ _
  | .overvoltageRecovery _ | .currentLimitRestart _ => true
  -- pseudo-channels: 32 (Table 8-1)
  | .hbmAct i _ | .hbmRd i _ _ | .hbmRdAp i _ _ | .hbmWr i _ | .hbmWrAp i _ | .hbmPre i _ | .hbmPreAll i _ | .hbmRefreshSlot i _
  | .hbmScrubSlot i _ _ | .autonomousRefresh i _ | .patrolStep i _ | .hbmWriteback i _ | .caParityRetry i | .intakeDrain i => decide (i < 32)
  -- rows of the HBM: 32 pseudo-channels × 3 SIDs × 16 banks × 16,384 rows (Table 8-1)
  | .rowSpareCopy i | .rowSpareSwitch i => decide (i < 32 * 3 * 16 * 16384)
  -- service ports: 2 (Table 4-1)
  | .frameReceived i _ _ | .autoNegotiation i _ => decide (i < 2)
  -- streams: 256 (2300.00)
  | .rtpPacket i | .gapJitterTimeout i _ | .encoderPicturePass i | .encoderSliceSent i _ _ | .clipEnd i
  | .pictureRelease i _ => decide (i < 256)
  -- decode cores: 8 (R440)
  | .pictureDecoded i _ _ | .pictureRefused i _ _ | .decodeBudgetExpiry i _ _ | .sliceDecoded i _ _ => decide (i < 8)
  -- Campion engines: 4 (R440)
  | .campionLastLayerJob i _ | .campionJobEnd i | .egressPauseDatagram _ i _ => decide (i < 4)
  -- Teasel engines: 2 (R440)
  | .teaselJob i _ | .teaselJobEnd i => decide (i < 2)
  -- serving slots: 256 (R225)
  | .controlBlockSend i | .treeBlock i | .maskBlockSend i | .acceptedPath i | .summaryOut i => decide (i < 256)
  -- Stomar ports: 8 (R280)
  | .stomarFrameSend i | .stomarFrame i _ _ _ _ | .rekeyStart i | .linkKeyExhausted i | .keyExchange i _ _
  | .laneSubstitution i _ _ _ | .laneControl i _ _ | .linkUpStart i _ _ | .linkRetryTimer i _ | .beaconSend i
  | .identityBeacon i _ _ | .beaconTimeout i _ | .tickToken i _ _ _ | .forwardedCommand i _ | .forwardedCommandStatus i _ _
  | .servingDecisions i _ _ _ | .linkRetrainDone i _ | .linkDown i _ => decide (i < 8)
  -- Stomar ports that carry a domain link: 7 (R280)
  | .timedWordTransmit i _ _ | .timedWordRelease i _ _ | .timingProbe i _ => decide (i < 7)
  -- quote slots: 8 (R321)
  | .quoteSign i | .quoteRetryHint i _ _ | .quoteSlotTimeout i _ => decide (i < 8)
  -- firmware components: 8 (R406)
  | .componentRestart i _ _ _ _ => decide (i < 8)
  -- engines by their code of 2911.01 (R440)
  | .engineDeclaredFailed i => Machine.engineExists i
  -- flash partitions: 18 (Table 13-5)
  | .flashBlockRetire i _ _ => decide (i < 18)

end Sys2Proof
end

