-- ==== Sys2Proof/Safety.lean ====
section
/-! DEFINITION. What counts as a sound state and a safe step, in the terms the statements use. -/

namespace Sys2Proof.Machine

/-- The canonical form of a tile's storage: its SRAM, instruction store, window, weight blocks, accumulators and tables. -/
def tileWf (t : Tile) : Bool :=
  cellsWf (fun _ => sWordZero) t.sram && cellsWf (fun _ => (0 : W128)) t.istore && cellsWf (fun _ => ({} : WinEntry)) t.window
    && cellsWf (fun _ => sWordZero) t.active && cellsWf (fun _ => sWordZero) t.shadow && cellsWf (fun _ => accZero) t.acc
    && cellsWf (fun _ => 0) t.pst && cellsWf (fun _ => 0) t.upsets && cellsWf (fun _ => 0) t.lineUpsets
    && cellsWf (fun _ => none) t.lineErr

/-- The canonical form of the block's storage: keys strictly rising, no entry equal to what an unlisted key reads as. -/
def Memory.wf (c : Chip) : Bool :=
  cellsWf objDefault c.objs && cellsWf (fun _ => []) c.blobs && cellsWf (fun _ => {}) c.grid.tiles
    && c.grid.tiles.all (fun e => tileWf e.2) && cellsWf (fun _ => zeroLine) c.hbm.lines

/-- R396: no at-once re-latch is outstanding: neither in the module nor in the image. -/
def Settled (s : State) : Prop := s.chip.dict.relatch = false ∧ s.img.dict.relatch = false

/-- The command answers a next state, and P holds of it. -/
def Gives (i : Instr) (s : State) (P : State → Prop) : Prop := ∃ s', exec i s = .next s' ∧ P s'

/-- The command answers exactly this next state. -/
def Answers (i : Instr) (s s' : State) : Prop := exec i s = .next s'

/-- The firmware state without the marks of conditions broken (Table 13-7), which a fault of any unit may set. -/
def fwCore (f : FwSt) : FwSt := { f with updates := f.updates.map fun (u : Update) => { u with broken := false } }

/-- A tile issues in this state: it exists, the work window runs (R138), its sequencer runs (R75, R79), it is not held (R122), no event
of an earlier command is left over, and no at-once re-latch is outstanding. -/
def TileReady (t : Nat) (s : State) : Prop :=
  t < 2048 ∧ s.chip.tk.phase = .work ∧ tileIssues (tileAt s.chip t) = true ∧ (tileAt s.chip t).ev = [] ∧ s.chip.dict.relatch = false

/-- The state in which tile t is v and all else is as it was. -/
def withTile (s : State) (t : Nat) (v : Tile) : State := { s with chip := setTile t v s.chip }

/-- The state in which the module is c, what R396 re-latches at once re-latched. -/
def onto (s : State) (c : Chip) : State := settle { s with chip := c }

/-- The state after tile t has become v and has handed the module the events that v reports (counts, log records, words sent). -/
def issued (s : State) (t : Nat) (v : Tile) : State := settle { s with chip := flushTile t (setTile t v s.chip) }

/-- R390-R395: the dictionary server takes this write of value v: it runs, the role may write the object and reaches the entry inst
that its selectors name, and no earlier command on the object waits. -/
def Granted (s : State) (r : Role) (idx sub inst v : Nat) : Prop :=
  dictServes s.chip = true ∧ instOf idx (ctxVal s.chip r) = inst ∧ commandWaits s.chip idx sub inst v = false ∧
  ∃ row, findRow (dictImage s) s.chip r idx sub true = .ok row ∧ mayReach (dictImage s) s.chip r row idx inst true = true

/-- R390-R395: the same of a write of bytes to an object that is no fixed command: row is the object's entry in Chapter 16, and the
length suits its type. -/
def Writable (s : State) (r : Role) (idx sub inst : Nat) (b : List Byte) (row : ObjRow) : Prop :=
  dictServes s.chip = true ∧ instOf idx (ctxVal s.chip r) = inst ∧ findRow (dictImage s) s.chip r idx sub true = .ok row ∧
  mayReach (dictImage s) s.chip r row idx inst true = true ∧ lengthOk row idx b.length = true

/-- A command answers STATUS st (R392), its status object o = (index, sub-index, entry) holds st, and P holds of the next state. -/
def Does (i : Instr) (s : State) (st : Nat) (o : Nat × Nat × Nat) (P : State → Prop) : Prop :=
  Gives i s fun s' => s'.chip.dict.lastRes.st = st ∧ objGet s'.chip o.1 o.2.1 o.2.2 = st ∧ P s'

/-- R444: nothing keeps the lease from being granted to an entry at its request. -/
def LeaseFree (c : Chip) (e : LeaseEntry) : Prop :=
  leaseOpen c = true ∧ c.life.lease.holders.all (leaseCompat e) = true ∧ c.life.lease.queue.all (leaseCompat e) = true

end Sys2Proof.Machine
end

