-- ==== Sys2Proof/Certificates/Slice0/Obligations.lean ====
section
/-! DEFINITION. The statements about the block, by part. Each docstring names the rules it states; a statement about what a
command does concludes with the next state it answers. -/

open Sys2Proof Sys2Proof.Machine

/-! The block as a whole. -/

/-- A step carries out the command at the front of the queue with the queue's rest.
Where the spec leaves a point open, this states the model's choice: log entry 4. -/
def Obligations.StepRunsFront : Prop :=
  ∀ (c : Instr) (rest : List Instr) (s : State), s.pending = c :: rest → step s = exec c { s with pending := rest }

/-- Commands are taken first in, first out: after n steps without a stop, the first n waiting commands are gone and the others
wait in the same order.
Where the spec leaves a point open, this states the model's choice: log entry 4. -/
def Obligations.QueueDrains : Prop :=
  ∀ (n : Nat) (s s' : State), Host.Core.run core n s = .next s' → s'.pending = s.pending.drop n

/-- A well-formed command answers a next state in every state; an ill-formed one names a tile or unit that does not exist and
stops with a fault. No command is refused.
Where the spec leaves a point open, this states the model's choice: log entry 94. -/
def Obligations.WellFormedAnswers : Prop :=
  ∀ (i : Instr) (s : State), (WellFormed i = true → ∃ s', exec i s = .next s') ∧
    (WellFormed i = false → exec i s = .fault .noSuchTile ∨ exec i s = .fault .noSuchUnit)

/-- After reset no at-once re-latch is outstanding.
Where the spec leaves a point open, this states the model's choice: log entry 93. -/
def Obligations.ResetInv : Prop := Settled State.reset

/-- Every step leaves no at-once re-latch outstanding: what R396 re-latches at once is in the image when the step ends.
Where the spec leaves a point open, this states the model's choice: log entry 93. -/
def Obligations.StepInv : Prop := ∀ s s', Settled s → step s = .next s' → Settled s'

/-- R396: a command other than the dictionary latch leaves the latched image as it is, except the objects re-latched at once
(2000.01 and 2502.01 to 2502.04); the part of the image outside the object store it never changes.
Where the spec leaves a point open, this states the model's choice: log entries 83, 93. -/
def Obligations.ImageHolds : Prop :=
  ∀ (i : Instr) (s s' : State), i ≠ .dictionaryLatch → exec i s = .next s' →
    s'.img = { s.img with objs := s'.img.objs } ∧
    ∀ idx sub inst, sub < 256 → inst < 2 ^ 48 → (idx, sub, inst) ∉ relatchKeys.map (fun k => (k.1, k.2, 0)) →
      objGet s'.img idx sub inst = objGet s.img idx sub inst

/-- The object store reads back what was written, keeps every other object, and stays canonical.
R66: a write to tile SRAM replaces the word, clears its poison and any upset in it, and leaves every other word alone.
Where the spec leaves a point open, this states the model's choice: log entries 17, 92. -/
def Obligations.StorageLaws : Prop :=
  (∀ (c : Chip) (idx sub inst v : Nat), objGet (objSet idx sub inst v c) idx sub inst = v ∧
    (∀ idx' sub' inst', okey idx' sub' inst' ≠ okey idx sub inst →
      objGet (objSet idx sub inst v c) idx' sub' inst' = objGet c idx' sub' inst') ∧
    (Memory.wf c = true → Memory.wf (objSet idx sub inst v c) = true)) ∧
  (∀ (tl : Tile) (wa : Nat) (w : SWord), w.poison = false →
    sramRead (sramWrite tl wa w) wa = (w, portUse false wa (sramWrite tl wa w)) ∧
    (∀ wa', wa' % 16384 ≠ wa % 16384 → sramPeek (sramWrite tl wa w) wa' = sramPeek tl wa') ∧
    (tileWf tl = true → tileWf (sramWrite tl wa w) = true))


/-! Tiles: the control slot. -/

/-- R72, R73 (Table 3-5): NOP, SETL, SETH and ADDS in the control slot write one scalar register and close the bundle; s14 and s15
are the module's (R78) and keep their values; a NOP in another slot changes nothing.
Where the spec leaves a point open, this states the model's choice: log entry 3. -/
def Obligations.ScalarOps : Prop :=
  ∀ (t : Nat) (r : Fin 16) (imm : BitVec 16) (slot : Slot) (s : State), TileReady t s →
    let tl := tileAt s.chip t
    let put (v : W32) : Tile := if r.val < 14 then { tl with sregs := tl.sregs.set r v } else tl
    Answers (.nop t .ctl) s (issued s t (closeBundle 0 tl)) ∧
    (slot ≠ .ctl → Answers (.nop t slot) s (withTile s t tl)) ∧
    Answers (.setl t r imm) s (issued s t (closeBundle 0 (put (imm.setWidth 32)))) ∧
    Answers (.seth t r imm) s (issued s t (closeBundle 0 (put (imm ++ (tl.sregs[r]).setWidth 16)))) ∧
    Answers (.adds t r imm) s (issued s t (closeBundle 0 (put (tl.sregs[r] + imm.signExtend 32))))

/-- R76, R77, R79: LOOP pushes its level with the count register's value, or skips its body at the cost of one empty ac; a taken
branch moves the pc and costs one ac more; a branch not taken closes the bundle; WAIT adds exactly n ac; ENDT sets the entry
address and stops the sequencer.
Where the spec leaves a point open, this states the model's choice: log entries 3, 14. -/
def Obligations.ControlOps : Prop :=
  ∀ (t : Nat) (s : State), TileReady t s →
    let tl := tileAt s.chip t
    (∀ (level : Fin 4) (cnt : Fin 16) (stop : BitVec 12), level.val = tl.loops.length →
      (tl.sregs[cnt] ≠ 0 → Answers (.loop t level cnt stop) s (issued s t (acSteps 1
        { tl with pc := (tl.pc + 1) % 4096
                  loops := { start := (tl.pc + 1) % 4096, stop := stop.toNat, remaining := (tl.sregs[cnt]).toNat } :: tl.loops }))) ∧
      (tl.sregs[cnt] = 0 → Answers (.loop t level cnt stop) s (issued s t (acSteps 2
        { tl with loops := (loopEnd tl.loops stop.toNat).1, pc := (loopEnd tl.loops stop.toNat).2 % 4096 })))) ∧
    (∀ target : BitVec 12, Answers (.jump t target) s (issued s t (acSteps 2 { tl with pc := target.toNat }))) ∧
    (∀ (a b : Fin 16) (target : BitVec 12),
      (tl.sregs[a] = tl.sregs[b] → Answers (.beq t a b target) s (issued s t (acSteps 2 { tl with pc := target.toNat })) ∧
        Answers (.bne t a b target) s (issued s t (closeBundle 0 tl))) ∧
      (tl.sregs[a] ≠ tl.sregs[b] → Answers (.bne t a b target) s (issued s t (acSteps 2 { tl with pc := target.toNat })) ∧
        Answers (.beq t a b target) s (issued s t (closeBundle 0 tl)))) ∧
    (∀ n : BitVec 16, Answers (.wait t n) s (issued s t (closeBundle n.toNat tl))) ∧
    (∀ e : BitVec 12, ∃ v, Answers (.endt t e) s (issued s t v) ∧ v.entry = e.toNat ∧ v.running = false) ∧
    (∀ (n : Nat) (v : Tile), (acSteps n v).ac = v.ac + n ∧ (closeBundle n v).ac = v.ac + n + 1)

/-- R73, R77: closing a bundle with n empty ac adds exactly n + 1 ac, moves the pc to the next bundle or back to the start of a
loop that ends here, and writes no scalar register; with no result in flight it changes nothing else.
Where the spec leaves a point open, this states the model's choice: log entry 3. -/
def Obligations.BundleTiming : Prop :=
  ∀ (tl : Tile) (n : Nat), (closeBundle n tl).ac = tl.ac + n + 1 ∧ (closeBundle n tl).sregs = tl.sregs ∧
    (closeBundle n tl).pc = (loopEnd tl.loops tl.pc).2 % 4096 ∧ (closeBundle n tl).loops = (loopEnd tl.loops tl.pc).1 ∧
    (tl.pend = [] → closeBundle n tl = { tl with ac := tl.ac + n + 1, pc := (loopEnd tl.loops tl.pc).2 % 4096
                                                 loops := (loopEnd tl.loops tl.pc).1 })

/-- What an operation issued by tile t leaves alone: every other tile; HBM, the plan, the video, serving, network, link, security and
power state; the firmware state but for marks that a condition of an image under confirmation is broken (a lost instruction line, R68,
R424); of tile t all but what it counts of its own errors; and every word of its SRAM and its registers.
Where the spec leaves a point open, this states the model's choice: log entry 3. -/
def Obligations.IssueFrame : Prop :=
  ∀ (s : State) (t : Nat) (v : Tile), s.chip.dict.relatch = false →
    let c := (issued s t v).chip
    (∀ u, u ≠ t → tileAt c u = tileAt s.chip u) ∧
    (tileAt c t).sregs = v.sregs ∧ (tileAt c t).vregs = v.vregs ∧ (tileAt c t).masks = v.masks ∧ (tileAt c t).aods = v.aods ∧
    (tileAt c t).agds = v.agds ∧ (tileAt c t).walks = v.walks ∧ (tileAt c t).acc = v.acc ∧ (tileAt c t).active = v.active ∧
    (tileAt c t).shadow = v.shadow ∧ (tileAt c t).window = v.window ∧ (tileAt c t).sram = v.sram ∧
    (tileAt c t).upsets = v.upsets ∧ (tileAt c t).lineUpsets = v.lineUpsets ∧
    (tileAt c t).istore = v.istore ∧ (tileAt c t).pst = v.pst ∧ (tileAt c t).pc = v.pc ∧ (tileAt c t).ac = v.ac ∧
    (tileAt c t).loops = v.loops ∧ (tileAt c t).entry = v.entry ∧ (tileAt c t).running = v.running ∧ (tileAt c t).pend = v.pend ∧
    (tileAt c t).ev = [] ∧
    c.hbm = s.chip.hbm ∧ c.plan = s.chip.plan ∧ c.video = s.chip.video ∧ c.serv = s.chip.serv ∧ c.net = s.chip.net ∧
    c.link = s.chip.link ∧ c.sec = s.chip.sec ∧ c.power = s.chip.power ∧ fwCore c.fw = fwCore s.chip.fw ∧ c.tk = s.chip.tk ∧
    (issued s t v).pending = s.pending ∧ (issued s t v).img = s.img

/-! Tiles: the vector slot. -/

/-- R53, R73, R95 (Tables 3-7, 3-14): a two-operand lane operation, VFMA and VCMP read their registers at issue and their result
lands at the operation's latency, in the lanes the mask selects; a VCMP into m0 writes nothing.
R53, R73, R95 (Table 3-14): the one-operand lane operations and their latencies.
Where the spec leaves a point open, this states the model's choice: log entries 1, 3, 7. -/
def Obligations.VectorOps : Prop :=
  (∀ (t : Nat) (vd va vb : Fin 32) (mask : Fin 8) (w : Bool) (s : State), TileReady t s →
    let tl := tileAt s.chip t
    let a := tl.vregs[va]
    let b := tl.vregs[vb]
    let lands (k : Nat) (v : V2048) : State := withTile s t (later k (.vreg vd v (laneMask w (maskAt tl mask)) none) tl)
    Answers (.vadd t vd va vb mask w) s (lands 4 (vecBin .add w a b)) ∧
    Answers (.vsub t vd va vb mask w) s (lands 4 (vecBin .sub w a b)) ∧
    Answers (.vmul t vd va vb mask w) s (lands 4 (vecBin .mul w a b)) ∧
    Answers (.vmin t vd va vb mask w) s (lands 4 (vecBin .min w a b)) ∧
    Answers (.vmax t vd va vb mask w) s (lands 4 (vecBin .max w a b)) ∧
    Answers (.vdiv t vd va vb mask w) s (lands 14 (vecBin .div w a b)) ∧
    Answers (.vfma t vd va vb mask w) s (lands 5 (vecFma w a b tl.vregs[vd])) ∧
    (∀ cond target : Fin 8, target.val ≠ 0 → Answers (.vcmp t va vb mask w cond target) s
      (withTile s t (later 4 (.mask target (vecCmp cond w a b (maskAt tl mask)) (cmpBits w)) tl))) ∧
    (∀ cond : Fin 8, Answers (.vcmp t va vb mask w cond 0) s (withTile s t tl))) ∧
  (∀ (t : Nat) (vd va : Fin 32) (mask : Fin 8) (w : Bool) (s : State), TileReady t s →
    let tl := tileAt s.chip t
    let a := tl.vregs[va]
    let lands (k : Nat) (v : V2048) : State := withTile s t (later k (.vreg vd v (laneMask w (maskAt tl mask)) none) tl)
    Answers (.vsqrt t vd va mask w) s (lands 14 (vecSqrt w a)) ∧
    Answers (.vrsqrt t vd va mask w) s (lands 10 (vecSpecial .rsqrt w a)) ∧
    Answers (.vexp2 t vd va mask w) s (lands 10 (vecSpecial .exp2 w a)) ∧
    Answers (.vlog2 t vd va mask w) s (lands 10 (vecSpecial .log2 w a)) ∧
    Answers (.vexp t vd va mask w) s (lands 16 (vecSpecial .exp w a)) ∧
    Answers (.vlog t vd va mask w) s (lands 16 (vecSpecial .log w a)) ∧
    Answers (.vtanh t vd va mask w) s (lands 16 (vecSpecial .tanh w a)) ∧
    Answers (.vsigm t vd va mask w) s (lands 16 (vecSpecial .sigmoid w a)) ∧
    Answers (.verf t vd va mask w) s (lands 16 (vecSpecial .erf w a)) ∧
    Answers (.vsin t vd va mask w) s (lands 18 (vecSpecial .sin w a)) ∧
    Answers (.vcos t vd va mask w) s (lands 18 (vecSpecial .cos w a)) ∧
    Answers (.vgelu t vd va mask w) s (lands 20 (vecSpecial .gelu w a)) ∧
    Answers (.vsilu t vd va mask w) s (lands 20 (vecSpecial .silu w a)))


/-- R55, R73, R95, R97 (Tables 3-7, 3-14): the converts, reductions, broadcast, move and pooling. VCVT lands after 4 ac, after 6 when
it formed MX blocks, and counts each NaN or infinity it converts to an integer (R48); a reduction leaves +0 in every lane but 0;
VPOOL reads its first tap at issue, each further tap 1 ac after the one before, and its result lands 7 ac after the last tap.
Where the spec leaves a point open, this states the model's choice: log entries 1, 2, 6, 10, 22. -/
def Obligations.VectorMoves : Prop :=
  (∀ (t : Nat) (vd va : Fin 32) (mask : Fin 8) (w : Bool) (s : State), TileReady t s →
    let tl := tileAt s.chip t
    let a := tl.vregs[va]
    let m := maskAt tl mask
    let lands (k : Nat) (v : V2048) : State := withTile s t (later k (.vreg vd v (laneMask w m) none) tl)
    (∀ (fo : Fin 16) (ovf : Bool), let r := vecCvt fo ovf w a m
      Answers (.vcvt t vd va mask w fo ovf) s (issued s t (later (if r.2.2.1.isSome then 6 else 4) (.vreg vd r.1 r.2.1 r.2.2.1)
        { tl with ev := List.replicate r.2.2.2 .nonFinite }))) ∧
    Answers (.vrsum t vd va mask w) s (lands 9 (vecReduce redSum w a)) ∧
    Answers (.vrmax t vd va mask w) s (lands 9 (vecReduce numMax w a)) ∧
    Answers (.vrmin t vd va mask w) s (lands 9 (vecReduce numMin w a)) ∧
    Answers (.vmov t vd va mask w) s (lands 4 a) ∧
    (∀ k : Fin 128, Answers (.vbcast t vd va mask w k) s (lands 4 (vecBcast w k a))) ∧
    (∀ (agd : Fin 16) (kind : Fin 4) (us : List (Nat × Upset)), Answers (.vpool t vd agd mask w kind us) s
      (issued s t (vpoolStep vd (agdAt tl agd) (walkAt tl agd) kind w (laneMask w m) 0 [] 0 (strike us tl))))) ∧
  (∀ (vd : Nat) (d : W256) (k : Walk) (kind : Nat) (w : Bool) (lanes : V2048) (tap inside : Nat) (got : List (List Nat)) (v : Tile),
    let taps := (winOf d).kh * (winOf d).kw
    ∃ lane n, (vpoolStep vd d k kind w lanes tap got inside v).pend = v.pend ++
      [if tap + 1 < taps then (v.ac + 1, .vpool vd d k kind w lanes (tap + 1) (got ++ [lane]) n)
       else (v.ac + 7, .vreg vd (ofLanes w (poolLanes kind w (got ++ [lane]) taps n)) lanes none)])

/-- R58, R74: what a lane result does when it lands: lane i takes the result's lane where its mask bit (2i for FP32 lanes, i for
BF16 lanes) is 1 and keeps its previous value where it is 0; every other register keeps its value.
Where the spec leaves a point open, this states the model's choice: log entry 7. -/
def Obligations.MaskedLanes : Prop :=
  ∀ (tl : Tile) (vd : Fin 32) (w : Bool) (m : W128) (new : List Nat), new.length = laneCount w →
    let t' := microStep tl (.vreg vd (ofLanes w new) (laneMask w m) none)
    (∀ i, i < laneCount w → (lanesOf w (vregAt t' vd)).getD i 0 =
      if m.getLsbD (if w then i else 2 * i) then new.getD i 0 % 2 ^ laneBits w else (lanesOf w (vregAt tl vd)).getD i 0) ∧
    (∀ u : Fin 32, u ≠ vd → vregAt t' u = vregAt tl u)

/-- R53: a two-operand operation acts lane by lane: the exact result of the two lanes' values, rounded to FP32 and, on BF16 lanes,
once more to BF16. -/
def Obligations.LaneArithmetic : Prop :=
  ∀ (op : VecOp2) (w : Bool) (a b : V2048) (i : Nat), i < laneCount w →
    (lanesOf w (vecBin op w a b)).getD i 0 =
      laneRound w (vecOp2 op (laneValue w ((lanesOf w a).getD i 0)) (laneValue w ((lanesOf w b).getD i 0))) % 2 ^ laneBits w

/-! Tiles: the memory, matrix and fabric slots. -/

/-- R58, R85, R86, R89, R96 (Tables 3-8, 3-11): loads of vector registers, masks, AGDs and AODs read at issue and land after 3 ac
(VLDC after 4); a load of m0 reads and writes nothing; a WLD reads its first group at issue; AGSTEP and AGRST move the walk for the
next ac; word i of a store is written 1 + ⌊i / 4⌋ ac later, at the address its take gave.
Where the spec leaves a point open, this states the model's choice: log entries 6, 8, 11. -/
def Obligations.MemoryOps : Prop :=
  ∀ (t : Nat) (agd r : Fin 16) (us : List (Nat × Upset)) (s : State), TileReady t s →
    let tl := tileAt s.chip t
    let st := strike us tl
    let ad := take st agd
    let here := sramRead st (tl.sregs[r].toNat % 16384)
    (∀ vd : Fin 32, let rd := sramReadRun 8 ad.2 ad.1
      Answers (.vld t vd agd us) s (issued s t (later 3 (.vreg vd (loadLanes rd.1) (BitVec.allOnes 2048) none) rd.2))) ∧
    (∀ (vd : Fin 32) (fmt : Fin 16) (w : Bool), let rd := sramRead ad.2 ad.1
      let f := (fmtOf fmt).getD .int8
      let sc := if fmtIsMx f then takeScales rd.2 agd (if f == .mxE2m1 then 2 else 1) true else (([], false), rd.2)
      Answers (.vldc t vd agd fmt w us) s (issued s t (later 4 (.vreg vd
        (ofLanes w (widenWord fmt w rd.1.data.toNat sc.1.1 (rd.1.poison || sc.1.2))) (BitVec.allOnes 2048) none) sc.2))) ∧
    (∀ (vs : Fin 32) (sc : Bool) (n : Fin 8), Answers (.vst t vs agd sc n) s (issued s t (vstIssue vs agd sc (n.val + 1) tl)) ∧
      ∀ i, i ≤ n.val → (tl.ac + (1 + i / 4), Micro.sram ((takes (n.val + 1) tl agd).1.getD i 0)
        { data := (vregAt tl vs).extractLsb' (256 * i) 256 }) ∈ (vstIssue vs agd sc (n.val + 1) tl).pend) ∧
    (∀ slot ky kx0 : Fin 16, let v := winOf (agdAt tl agd)
      let entries := (List.range (wldCount v kx0)).map (fun j => (j, wldSource v (walkAt tl agd) ky kx0 j))
      let srcs := entries.map (·.2)
      Answers (.wld t slot agd ky kx0 us) s
        (issued s t (wldStep slot (agdAt tl agd) (wldGroups entries [] ((winFills srcs).map bankOf)) (readHeld (agdAt tl agd) srcs st)))) ∧
    (∀ kind : Fin 4, Answers (.agstep t agd kind) s (withTile s t (later 1 (.walkStep agd kind) tl))) ∧
    Answers (.agrst t agd) s (withTile s t (later 1 (.walkReset agd) tl)) ∧
    Answers (.agld t agd r us) s (issued s t (later 3 (.agd agd here.1.data) here.2)) ∧
    (∀ q : Fin 4, Answers (.adld t q r us) s (issued s t (later 3 (.aods q here.1.data) here.2))) ∧
    (∀ mask : Fin 8, mask.val ≠ 0 → let rd := sramRead ad.2 ad.1
      Answers (.mkld t mask agd us) s (issued s t (later 3 (.mask mask (rd.1.data.extractLsb' 0 128) (BitVec.allOnes 128)) rd.2))) ∧
    Answers (.mkld t 0 agd us) s (issued s t (sramRead ad.2 ad.1).2)

/-- R63, R64, R66: one SRAM read. A word without an upset reads as stored; an error within 16 consecutive bits of the 288 is
corrected: the stored data is delivered, the read counted and its address queued for write-back (up to four; with four queued the
address is dropped and counted in 2A30.04); one wider but within 32 is uncorrectable: the word is delivered and from then on stands
poisoned, and is counted; a poisoned word delivers poison and counts each time.
Where the spec leaves a point open, this states the model's choice: log entries 21, 23. -/
def Obligations.SramRead : Prop :=
  (∀ (t : Nat) (c : Chip), tileEvent t c .wbDrop = objBump 0x2A30 0x04 0 1 c ∧
    objGet (tileEvent t c .wbDrop) 0x2A30 0x04 0 = (objGet c 0x2A30 0x04 0 + 1) % 2 ^ 64) ∧
  ∀ (tl : Tile) (wa : Nat), wa < 16384 →
    let w := sramPeek tl wa
    let e := cellsGet 0 tl.upsets wa
    let raw := w.data ^^^ e.setWidth 256
    let tp : Tile := { tl with ev := tl.ev ++ [.port false wa] }
    (e = 0 → w.poison = false → sramRead tl wa = (w, tp)) ∧
    (w.poison = true → sramRead tl wa = (w, { tp with poisoned := min allOnes32 (tl.poisoned + 1), ev := tp.ev ++ [.poisoned wa] })) ∧
    (w.poison = false → e ≠ 0 → errSpan e ≤ 16 → tl.wbQueue.length < 4 → sramRead tl wa =
      (w, { tp with corrected := min allOnes32 (tl.corrected + 1), wbQueue := tl.wbQueue ++ [wa]
                    ev := tp.ev ++ [.corrected wa] ++ [.queued wa] })) ∧
    (w.poison = false → e ≠ 0 → errSpan e ≤ 16 → 4 ≤ tl.wbQueue.length → sramRead tl wa =
      (w, { tp with corrected := min allOnes32 (tl.corrected + 1), ev := tp.ev ++ [.corrected wa] ++ [.wbDrop] })) ∧
    (w.poison = false → 16 < errSpan e → errSpan e ≤ 32 → (sramRead tl wa).1 = { data := raw, poison := true } ∧
      sramPeek (sramRead tl wa).2 wa = { data := raw, poison := true } ∧
      (sramRead tl wa).2.poisoned = min allOnes32 (tl.poisoned + 1) ∧
      (sramRead tl wa).2.ev = tp.ev ++ [.poisoned wa] ++ [.badWord wa])

/-- R80, R81, R82, R84, R85 (Table 3-10): the matrix slot. MLOAD starts its block at the AGD's next address; MPRE with PRE 0b00 readies
zeroed entries 2 ac later; MRUN runs from the block that SW makes active at its first ac, and from the window adds its first
entry's products 6 ac later (of an MXFP6 A operand, which R82 takes from no window, an open value); MOUT reads its first entry.
Where the spec leaves a point open, this states the model's choice: log entries 2, 8, 10, 12. -/
def Obligations.MatrixOps : Prop :=
  ∀ (t : Nat) (agd aod : Fin 16) (m0 : Fin 64) (count : Fin 32) (us : List (Nat × Upset)) (s : State), TileReady t s →
    let tl := tileAt s.chip t
    let st := strike us tl
    let d := aodOf (aodAt tl aod)
    (∀ f, d.fb = some f → let ad := take st agd
      Answers (.mload t agd aod us) s (issued s t (mloadStep ad.1 0 ((blockWords f).1 + (blockWords f).2) ad.2))) ∧
    Answers (.mpre t agd aod m0 count us) s (issued s t (mpreIssue agd aod m0 (count.val + 1) st)) ∧
    (d.pre = .zero → ∀ i ≤ count.val, (tl.ac + 2, Micro.accSet (m0.val + i) (List.replicate 32 accZero)) ∈
      (mpreIssue agd aod m0 (count.val + 1) st).pend) ∧
    (∀ (src sw half : Bool) (sel : Fin 16) (dd : Fin 64),
      let at0 : Tile := if sw then { st with active := st.shadow, shadow := st.active } else st
      Answers (.mrun t src sel aod m0 count sw half dd us) s
        (issued s t (mrunStep src sel aod m0 (count.val + 1) dd half false true [] 0 ([], false) at0))) ∧
    (∀ (half : Bool) (sel : Fin 16) (dd : Fin 64), let e : WinEntry := cellsGet {} tl.window (64 * sel.val + (m0.val + dd.val) % 64)
      (tl.ac + 6, if d.fa = some .mxE3m2 ∨ d.fa = some .mxE2m3 then looseAdd (aodAt tl aod) m0
        else mrunAdd tl.active (aodAt tl aod) m0 fun f k => aFromWords f k half false
          [{ data := e.data, poison := e.poison || (fmtIsMx f && e.spoison) }] [e.scale % 256, e.scale / 256]) ∈
        (mrunStep true sel aod m0 (count.val + 1) dd half false true [] 0 ([], false) tl).pend) ∧
    Answers (.mout t agd aod m0 count) s (issued s t (moutStep agd aod m0 (count.val + 1) 0 0 [] 0 tl))

/-- R68, R109, R113, R114, R115: SEND reads n words through its AGD and hands them to the channel its handle names, from which they
enter the fabric at the channel's slot; RECV writes the words of the latch positions that its channel's arrivals fix. A bundle is
fetched from the line at the pc: a correctable error in it is counted; an uncorrectable one stops the sequencer as ENDT does and keeps
the entry address.
Where the spec leaves a point open, this states the model's choice: log entries 14, 23. -/
def Obligations.FabricSlot : Prop :=
  ∀ (t : Nat) (handle : Fin 1024) (agd : Fin 16) (n : Fin 4) (s : State), TileReady t s →
    let tl := tileAt s.chip t
    (∀ us, let ad := takes (n.val + 1) (strike us tl) agd
      let r := ad.1.foldl (fun (p : List SWord × Tile) wa => let q := sramRead p.2 wa; (p.1 ++ [q.1], q.2)) ([], ad.2)
      Answers (.send t handle agd n us) s (issued s t { r.2 with ev := r.2.ev ++ [.send handle (n.val + 1) r.1] })) ∧
    (∀ (c : Chip) (ch : Channel) (ws : List SWord), sendChannel c t handle = some ch →
      tileEvent t c (.send handle (n.val + 1) ws) = addFlits (sendFlits ch (tileAt c t).ac ((ws.take (n.val + 1)).map (fun w => (w, false)))) c) ∧
    (∀ ch, recvChannel s.chip t handle = some ch → Answers (.recv t handle agd n) s
      (issued s t (recvWords agd ((List.range (n.val + 1)).map (fun i => ejectFc ch (tl.ac - ch.dly) i)) tl))) ∧
    (∀ e : Upset, let line := tl.pc / 2 % 2048
      let u := cellsGet 0 tl.lineUpsets line ^^^ e
      let hit : Tile := { tl with lineUpsets := cellsSet 0 tl.lineUpsets line u }
      (u = 0 → Answers (.instructionLineLost t e) s (withTile s t hit)) ∧
      (u ≠ 0 → errSpan u ≤ 16 → Answers (.instructionLineLost t e) s
        (issued s t { hit with corrected := min allOnes32 (tl.corrected + 1), ev := [.corrected line] })) ∧
      (16 < errSpan u → errSpan u ≤ 32 → ∃ v, Answers (.instructionLineLost t e) s (issued s t v) ∧ v.lineLost = true ∧
        v.entry = tl.entry ∧ line ∈ v.lostLines ∧ .lineLost line ∈ v.ev))

/-! The fabric and the management plane. -/

/-- R105, R106, R107, R113, R114, R116, R117, R119: a hop moves a flit one position along its path and its fc by 1, and by 3 through a
seam lane or attach stage; a management flit enters a link in the first fc that no other management flit has, and waits without a
credit; a sideband found uncorrectable drops the flit; two data-plane flits on one link, or for one ejection output, at one fc
destroy the data; an arrived flit is ejected to the latch position of its fc or to its edge port; a word of an injection channel
is written through the tile's AGD; a source that cannot send fills its slot with invalid zeros.
Where the spec leaves a point open, this states the model's choice: log entries 9, 13, 21. -/
def Obligations.FabricMoves : Prop :=
  ∀ (s : State) (i : Nat) (f : Flit), s.chip.dict.relatch = false → s.chip.grid.flits[i]? = some f →
    let c := s.chip
    let put (g : Flit) : State := { s with chip := { c with grid := { c.grid with flits := c.grid.flits.set i g } } }
    let link (dir fc : Nat) : Option (Int × Int × Nat × Nat) := some (f.x, f.y, dir, fc)
    (∀ x y dir data, flitNext f = some (x, y, dir) → (crosses f.x f.y x y = true → f.err ^^^ data = 0) →
      (f.mg = true → mgCredit x y dir c = true) → (f.mg = false → c.grid.flits.any (fun g => !g.mg && g.last = link dir f.fc) = false) →
      let at_ := if f.mg then mgSlot (decide (c.tk.phase = .work)) f.x f.y dir c (c.grid.flits.length + 1) f.fc else f.fc
      Answers (.flitHop i 0 data) s (put { f with x := x, y := y, fc := at_ + 1 + (if crosses f.x f.y x y then 2 else 0)
                                                  last := link dir at_, err := f.err ^^^ data })) ∧
    (∀ x y dir data, flitNext f = some (x, y, dir) → (crosses f.x f.y x y = true → f.err ^^^ data = 0) → f.mg = true →
      mgCredit x y dir c = false → Answers (.flitHop i 0 data) s (put { f with err := f.err ^^^ data })) ∧
    (∀ side data, wrongBits side = 2 → Gives (.flitHop i side data) s fun s' => s'.chip.grid.flits = c.grid.flits.eraseIdx i ∧
      objGet s'.chip 0x2A34 0x03 0 = (objGet c 0x2A34 0x03 0 + 1) % 2 ^ 64) ∧
    (∀ x y dir, flitNext f = some (x, y, dir) → f.mg = false → crosses f.x f.y x y = false →
      c.grid.flits.any (fun g => !g.mg && g.last = link dir f.fc) = true →
      Gives (.flitHop i 0 0) s fun s' =>
        (∀ g ∈ s'.chip.grid.flits, g.mg = false → g.last = link dir f.fc → g.p = true ∧ g.data = 0) ∧
        objGet s'.chip 0x2A34 0x05 0 = (objGet c 0x2A34 0x05 0 + 1) % 2 ^ 64) ∧
    (flitArrived f = true → f.mg = false → f.i = false → f.err = 0 →
      let tl := tileAt c f.dest
      let kept (s' : State) : Prop := s'.chip.grid.flits = c.grid.flits.eraseIdx i
      let others (s' : State) : Prop := ∀ u, u ≠ f.dest → tileAt s'.chip u = tileAt c u
      (f.inj = none → f.ek = false → ejectedAt c f.dest f.fc = none → Gives (.flitEject i 0) s fun s' => kept s' ∧ others s' ∧
        tileAt s'.chip f.dest = { tl with latch := tl.latch.setIfInBounds (f.fc % 8)
                                            { valid := true, data := f.data, poison := f.p, fc := f.fc } }) ∧
      (f.inj = none → f.ek = false → ejectedAt c f.dest f.fc = some none → Gives (.flitEject i 0) s fun s' => kept s' ∧ others s' ∧
        tileAt s'.chip f.dest = { tl with latch := tl.latch.setIfInBounds (f.fc % 8) { valid := true, data := 0, poison := true, fc := f.fc } } ∧
        objGet s'.chip 0x2A34 0x05 0 = (objGet c 0x2A34 0x05 0 + 1) % 2 ^ 64) ∧
      (f.inj = none → f.ek = true → Gives (.flitEject i 0) s fun s' => kept s' ∧ s'.chip.grid.tiles = c.grid.tiles ∧
        s'.chip.grid.edge = c.grid.edge ++ [{ port := f.dest, fc := f.fc, data := f.data, poison := f.p, invalid := false }]) ∧
      (∀ agd, f.inj = some agd → f.ek = false → ejectedAt c f.dest f.fc = none → c.grid.skips = [] →
        let ad := take tl agd
        Gives (.injectionWrite i 0) s fun s' => kept s' ∧ others s' ∧ tileAt s'.chip f.dest =
          if tileIssues tl && decide (tl.ac < f.fc / 4 + 1)
          then { ad.2 with pend := ad.2.pend ++ [(f.fc / 4 + 1, .sram ad.1 { data := f.data, poison := f.p })] }
          else sramWrite ad.2 ad.1 { data := f.data, poison := f.p })) ∧
    (∀ chan j ch pos, (channels c)[chan]? = some ch → c.plan.armed = some pos → c.tk.phase = .work →
      channelActive c.plan.active pos ch = true → j < ch.k → workPaused c = false → owesInvalid c ch = true →
      Answers (.invalidSlotSend chan j) s (onto s (if ch.kind = 1 then edgeInvalid ch (sendAc ch j) c
        else addFlits (sendFlits ch (sendAc ch j) (List.replicate ch.w (sWordZero, true))) c)))

/-- R119, R120, R122 (Table 4-4): a management message is queued while the inbox of 16 flits holds it; outside the work window the
oldest request of its type is answered, its tag, tile and address returned, and taken from the inbox: reads answer the words, a
poisoned one with P = 1, writes store the message's words; a malformed one is answered REFUSED_RANGE; the response leaves the
tile as flits with MG = 1 for S60 and is complete there once every flit its header declares has come.
Where the spec leaves a point open, this states the model's choice: log entries 2, 15, 21. -/
def Obligations.ManagementPlane : Prop :=
  ∀ (t : Nat) (s : State), t < 2048 → s.chip.dict.relatch = false → (tileAt s.chip t).ev = [] →
    let tl := tileAt s.chip t
    let g := s.chip.grid
    (∀ flits, flits ≠ [] → (tl.inbox.map (fun m => m.flits.length)).sum + flits.length ≤ 16 →
      Answers (.mgmtMessageArrival t flits) s (withTile s t { tl with inbox := tl.inbox ++ [{ flits := flits }] })) ∧
    (∀ (m : MgmtMsg) (rest : List MgmtMsg) (h : W256) (data : List W256), tl.inbox = m :: rest → m.flits = h :: data →
      s.chip.tk.phase ≠ .work →
      let flit (w : SWord) : Flit := { mg := true, ek := true, dest := 124, p := w.poison, data := w.data, msg := g.mgSent
                                       x := (tilePos t).1, y := (tilePos t).2 }
      let done (stat : Nat) (ws : List SWord) (s' : State) : Prop :=
        (tileAt s'.chip t).inbox = rest ∧ s'.chip.grid.mgSent = g.mgSent + 1 ∧
        s'.chip.grid.flits = g.flits ++ ({ data := mgResponse t h stat ws.length } :: ws).map flit
      let n := min 15 (mgCnt h)
      (mgOk m = true → mgType h = 1 → tl.held = false → ∀ us, Gives (.mgmtReadSram t us) s
        (done stOk (sramReadRun n (strike us tl) (mgAddr h)).1)) ∧
      (mgOk m = true → mgType h = 2 → Gives (.mgmtWriteSram t) s fun s' => done stOk [] s' ∧
        (tileAt s'.chip t).sram = (data.zipIdx.foldl (fun tl (w, i) => sramWrite tl (mgAddr h + i) { data := w }) tl).sram) ∧
      (mgOk m = true → mgType h = 3 → tl.held = false → (∀ i, i < n → cellsGet 0 tl.lineUpsets ((mgAddr h + i) % 2048) = 0) →
        Gives (.mgmtReadInstr t []) s (done stOk ((List.range n).map (fun i => { data := istoreLine tl ((mgAddr h + i) % 2048) })))) ∧
      (mgOk m = true → mgType h = 4 → Gives (.mgmtWriteInstr t) s fun s' => done stOk [] s' ∧
        (tileAt s'.chip t).istore = (data.zipIdx.foldl (fun tl (w, i) => setIstoreLine ((mgAddr h + i) % 2048) w tl) tl).istore) ∧
      (mgOk m = true → mgType h = 5 → ∀ stat, stat < 256 → Gives (.mgmtSelfTest t stat) s (done stat [])) ∧
      (mgOk m = true → mgType h = 6 → Gives (.mgmtReadCounters t) s
        (done stOk [{ data := Config.counterWord tl.corrected tl.poisoned tl.linesLost }])) ∧
      (mgOk m = true → tl.held = true → (mgType h = 1 → Gives (.mgmtReadSram t []) s (done stState [])) ∧
        (mgType h = 3 → Gives (.mgmtReadInstr t []) s (done stState []))) ∧
      (mgOk m = false → Gives (.mgmtReadSram t []) s (done stRange []))) ∧
    (∀ n h rest, responseFlits s.chip n = h :: rest → mgLen h.data = rest.length + 1 → (∀ f ∈ h :: rest, f.err = 0) →
      Gives (.mgmtResponse n) s fun s' => s'.chip.grid.flits = g.flits.filter (fun f => !(f.mg && f.msg == n)) ∧
        s'.chip.grid.responses = g.responses ++ [{ flits := (h :: rest).map (·.data), poison := (h :: rest).map (·.p) }])

/-! The tick. -/

/-- R136, R137, R139, R166: boundary k + 1 begins when the busy part of tick k has ended and the timer has produced it, and not
before; it sets 2000.02, starts the order of Table 5-1 at ac 0 and counts a delay past its timer edge in 2000.05 and 2000.06; an
edge that comes before the busy part ends waits for it; the busy part ends once, in the slack window, when every tile has reached
its ENDT (R79).
R75, R136, R158, R159, R171, R396 (Table 5-1): each event of the boundary, work and slack windows happens once in a tick, in
the table's order: where a later event has come it changes nothing. SCHEDULE_ARMING arms the plan position tick mod HP of a
running plan and empties the fabric and the edge ports; the dictionary latch makes the module as it stands the image.
R75, R137: what arming and the work window's start set.
Where the spec leaves a point open, this states the model's choice: log entries 18, 20, 80, 83. -/
def Obligations.TickOrder : Prop :=
  (∀ (t : Nat) (s : State),
    let c := atTime t s.chip
    (boundaryReady t c = true → Answers (.tickBoundary t) s (onto s (boundaryWork (beginTick t c))) ∧
      (beginTick t c).tk.tick = (if c.tk.fresh then 0 else c.tk.tick + 1) ∧ (beginTick t c).tk.phase = .ac0 ∧
      (beginTick t c).tk.busyEnded = false ∧ objGet (beginTick t c) 0x2000 0x02 0 = (beginTick t c).tk.tick ∧
      (∀ e, c.tk.edgeAt = some e → e < t → c.tk.fresh = false → objGet (beginTick t c) 0x2000 0x06 0 = c.tk.tick)) ∧
    (c.tk.busyEnded = false → Answers (.tickBoundary t) s (onto s c)) ∧
    (c.tk.timer = true → c.tk.busyEnded = false → c.tk.edgeAt = none → c.tk.boundaryAt + tickNs c ≤ c.tk.now →
      Answers (.tickOverrun t) s (onto s { c with tk := { c.tk with edgeAt := some (c.tk.boundaryAt + tickNs c) } })) ∧
    (c.tk.timer = true → c.tk.phase = .slack → c.tk.busyEnded = false → tilesDone c = true →
      Answers (.busyPartEnd t) s (onto s (busySend (learn { c with tk := { c.tk with busyEnded := true } }))))) ∧
  (∀ (s : State), s.chip.tk.timer = true →
    let c := s.chip
    let at_ (p : Phase) : Chip := { c with tk := { c.tk with phase := p } }
    let turn (p : Phase) (i : Instr) (f : Chip → Chip) : Prop :=
      (phaseRank c.tk.phase < phaseRank p → Answers i s (onto s (f (at_ p)))) ∧
      (phaseRank p ≤ phaseRank c.tk.phase → Answers i s (onto s c))
    turn .ac64 .abortEffect (fun c => abortBoundary (tracePoint 3 64 0 c)) ∧
    turn .ac1024 .overlayMaskFormed (fun c => tracePoint 4 1024 (maskBoundary c).plan.active (maskBoundary c)) ∧
    turn .ac1536 .servingBoundary (fun c => sendDecisions (tracePoint 5 1536 c.tk.tick (servingBoundary c))) ∧
    turn .ac2560 .scheduleArming (fun c => tracePoint 6 2560 0 (armSchedules c)) ∧
    turn .work .workWindowStart (fun c => tracePoint 9 4000 0 (startWork c)) ∧
    (tilesDone c = true → turn .slack .slackWindowStart slackStart) ∧ (tilesDone c = false → Answers .slackWindowStart s (onto s c)) ∧
    (c.tk.phase = .ac3584 → Answers .hbmBoundaryRefresh s (onto s (tracePoint 8 3584 0 (refreshAll c)))) ∧
    (phaseRank c.tk.phase < phaseRank .ac3584 → c.fw.down = false → c.fw.dark = false → Gives .dictionaryLatch s fun s' =>
      s'.img = s'.chip ∧ s'.chip.tk.phase = .ac3584 ∧ s'.chip.dict.latched = true) ∧
    (phaseRank .ac3584 ≤ phaseRank c.tk.phase → Answers .dictionaryLatch s (onto s c))) ∧
  (∀ (c : Chip) (p : Plan), c.plan.loaded = some p → c.tk.mode = .running → c.power.halted = false →
    (armSchedules c).plan.armed = some (c.tk.tick % max 1 p.cert.hp) ∧ (armSchedules c).grid.flits = c.grid.flits.filter (·.mg) ∧
    (armSchedules c).grid.edge = [] ∧
    (∀ pos t, Memory.wf c = true → c.plan.armed = some pos → workPaused c = false → (tileAt c t).idle = false →
      let tl := tileAt (startWork c) t
      tl.sregs.toList.getD 14 0 = BitVec.ofNat 32 c.plan.active ∧ tl.sregs.toList.getD 15 0 = BitVec.ofNat 32 pos ∧
      tl.loops = [] ∧ tl.pc = (tileAt c t).entry ∧ tl.ac = 0 ∧ tl.running = !(tileAt c t).held) ∧
    (∀ t, (tileAt c t).idle = true → Memory.wf c = true → tileAt (startWork c) t = tileAt c t))


/-! Failed tiles and repair. -/

/-- R121, R122, R124, R130, R132 (Table 4-5): a tile for which a cause holds is declared failed: held, its sequencer stopped; a repair whose
lease has been granted latches at ac 0 of a boundary and names its tick in 2930.06; the pause ends once the reload is complete;
a failure without a spare retires its column at the next boundary without a shift; a spare that fails its self-test retires.
Where the spec leaves a point open, this states the model's choice: log entries 25, 27. -/
def Obligations.RepairEvents : Prop :=
  ∀ (s : State),
    let c := s.chip
    (∀ t, t < 2048 → failureDue c t = true → (tileAt c t).held = false → Gives (.tileDeclaredFailed t) s fun s' =>
      (tileAt s'.chip t).held = true ∧ (tileAt s'.chip t).running = false ∧ ∀ u, u ≠ t → tileAt s'.chip u = tileAt c u) ∧
    (∀ k, latchDue c = some k → c.tk.phase = .ac0 → Answers .repairLatch s (onto s (latchRepair k c)) ∧
      objGet (latchRepair k c) 0x2930 0x06 0 = c.tk.tick) ∧
    (c.tk.phase = .ac0 → pauseOver c = true → Answers .repairPauseEnd s (onto s (endPause c))) ∧
    (∀ t e, t < 2048 → c.grid.noShift.find? (fun x => x.1 == physIndex c t) = some e → c.tk.phase = .ac0 → e.2 < c.tk.tick →
      (retiredCols c (tileQuarter t)).contains (tilePx c t) = false → Gives (.columnRetiredNoShift t) s fun s' =>
        retiredCols s'.chip (tileQuarter t) = retiredCols c (tileQuarter t) ++ [tilePx c t] ∧ s'.chip.grid.routed = c.grid.routed) ∧
    (∀ q : Fin 4, retiredCols c q = [] → c.grid.failed.any (fun e => tileQuarter e.1 == q.val) = false →
      (Gives (.spareColumnSelfTest q true) s fun s' => s'.chip.grid.spareOk = c.grid.spareOk.setIfInBounds q true ∧
        s'.chip.grid.retired = c.grid.retired) ∧
      (Gives (.spareColumnSelfTest q false) s fun s' => retiredCols s'.chip q = [32] ∧ routedCols s'.chip q = [32]))

/-! Plans and functions. -/

/-- R141, R154, R155, R156, R157, R338 (Tables 5-10, 5-13): a plan command takes effect at ac 0 of its boundary: RUN enters Running (a warm
standby Paused), PAUSE enters Paused with no schedule armed, RESUME enters Running, STOP enters Loaded, UNLOAD enters Idle; a
check run that finds no breach installs the plan and enters Loaded, one that does posts its set and position in 2100.03; a
partition scrub leaves in 2700.09 the tiles of retired columns alone, which a slack window zeroes.
R152, R160: a finite function completes in the work window of its DONE_POS tick, once; what completed there is recorded at the next
boundary.
Where the spec leaves a point open, this states the model's choice: log entries 78, 79, 103, 104. -/
def Obligations.PlanEvents : Prop :=
  (∀ (s : State), s.chip.tk.timer = true →
    let c := s.chip
    (c.tk.phase = .ac0 →
      (∀ p, planCmdDue c c.tk.tick 2 = true → c.plan.loaded = some p → Answers .runEffect s (onto s (runPlan c)) ∧
        (runPlan c).tk.mode = if pairRole (startPair (startPlan p c)) = 2 && !lockstep (startPair (startPlan p c)) then .paused else .running) ∧
      (planCmdDue c c.tk.tick 3 = true → Gives .pauseEffect s fun s' => s'.chip.tk.mode = .paused ∧ s'.chip.plan.armed = none ∧
        s'.chip.plan.cmd = none ∧ (objGet c 0x2100 0x02 0 = stPending → objGet s'.chip 0x2100 0x02 0 = stOk) ∧
        s'.chip.hbm = c.hbm ∧ s'.chip.serv = c.serv) ∧
      (planCmdDue c c.tk.tick 4 = true → Answers .resumeEffect s (onto s (planDone (resumePlan c))) ∧
        (planDone (resumePlan c)).tk.mode = .running) ∧
      (∀ m p, c.plan.cmd = some m → planCmdDue c c.tk.tick 5 = true → m.withdraws = false → c.plan.loaded = some p →
        Gives .stopEffect s fun s' => s'.chip.tk.mode = .loaded) ∧
      (∀ p, planCmdDue c c.tk.tick 6 = true → c.plan.loaded = some p → Answers .unloadEffect s (onto s (unloadPlan c)) ∧
        (unloadPlan c).tk.mode = .idle) ∧
      Answers .abortStatusPosted s (onto s (abortPosted c)) ∧
      Answers .restartEffect s (onto s (restartBoundary c))) ∧
    (∀ ld p, c.plan.loading = some ld → c.tk.wake = .run → ld.scrubbing = false → ld.plan = some p →
      (checkRun p = none → c.plan.loaded = none → c.plan.scrub = none → runExhausted c = false →
        Answers .checkRunComplete s (onto s (installPlan p ld.handle (objSet 0x2100 0x0A 0 (p.cert.sets.length * p.cert.hp) c))) ∧
        ∀ d, (installPlan p ld.handle d).tk.mode = .loaded) ∧
      (∀ set pos, checkRun p = some (set, pos) → Gives .checkRunComplete s fun s' =>
        objGet s'.chip 0x2100 0x03 0 = 8 * 2 ^ 24 + (set % 4096 * 4096 + pos % 4096) ∧ s'.chip.plan.loaded = c.plan.loaded)) ∧
    (∀ o, c.plan.loading = none → c.plan.scrub = some o → Gives .partitionScrubDone s fun s' =>
      objGet s'.chip 0x2700 0x09 0 = 589824 * c.grid.stale ∧ s'.chip.plan.scrub = none ∧ s'.chip.hbm.poison = [])) ∧
  (∀ (s : State) (p : Plan) (f : Nat) (e : FnEntry), s.chip.dict.relatch = false →
    let c := s.chip
    c.plan.loaded = some p → planFn p f = some e → c.tk.phase = .work → c.tk.mode = .running →
    e.finite = true → e.donePos = c.tk.tick % max 1 p.cert.hp → c.plan.aborted.contains f = false → c.plan.shed.contains e.tenant = false →
    (e.overlay ≠ 0 → bitOf c.plan.active e.overlay = true) →
    (c.plan.completions.contains f = false →
      Answers (.functionCompletion f) s { s with chip := { c with plan := { c.plan with completions := c.plan.completions ++ [f] } } }) ∧
    (c.plan.completions.contains f = true → Answers (.functionCompletion f) s s) ∧
    (recordCompletions { c with plan := { c.plan with completions := [f] } }).plan.completed.contains f = true)

/-! HBM. -/

/-- R143, R168, R169, R170, R260 (Table 5-12): the plan's commands to a bank: ACT opens the row it addresses, RD and RD_AP read the
addressed line of the open row into the port's return buffer for fc FC + RRET, PRE, PRE_ALL and the AP forms close, a refresh slot
refreshes its bank once, a scrub slot patrols a line of its bank. An entry issues once in a tick.
Where the spec leaves a point open, this states the model's choice: log entry 51. -/
def Obligations.HbmBankCommands : Prop :=
  ∀ (pc j : Nat) (e : HbmCmd) (s : State), pc < 32 →
    let c := s.chip
    let m := markEntry pc j e c
    let row0 := translatedRow c (rowKey pc (e.bank / 16) (e.bank % 16) (e.addr % 16384))
    let read (row : Nat) (errs : List (Nat × Byte)) : Chip :=
      let d := dataRead (row * 16 + e.addr % 16) errs m
      let back : HbmReturn := { port := 2 * pc + e.port, fc := e.fc + (hbmCert c).1, w0 := (lineWords d.2.1).1, w1 := (lineWords d.2.1).2
                                poison := decide (d.1 = .uncorrectable) || decide (d.1 = .poisoned) }
      { d.2.2 with hbm := { d.2.2.hbm with returns := d.2.2.hbm.returns ++ [back] } }
    (hbmEntry pc j 1 c = some e → Answers (.hbmAct pc j) s (onto s (openRow pc e.bank row0 m)) ∧
      openedRow (openRow pc e.bank row0 m) pc e.bank = some row0) ∧
    (∀ row errs, openedRow c pc e.bank = some row →
      (hbmEntry pc j 2 c = some e → Answers (.hbmRd pc j errs) s (onto s (read row errs))) ∧
      (hbmEntry pc j 3 c = some e → Answers (.hbmRdAp pc j errs) s (onto s (closeBank pc e.bank (read row errs))))) ∧
    (hbmEntry pc j 6 c = some e → Answers (.hbmPre pc j) s (onto s (closeBank pc e.bank m)) ∧
      openedRow (closeBank pc e.bank m) pc e.bank = none) ∧
    (hbmEntry pc j 7 c = some e → Answers (.hbmPreAll pc j) s (onto s (closeAll pc m)) ∧
      ∀ bank, bank < 48 → openedRow (closeAll pc m) pc bank = none) ∧
    (hbmEntry pc j 8 c = some e → Answers (.hbmRefreshSlot pc j) s (onto s (refreshBank pc e.bank m)) ∧
      cellsGet 0 (refreshBank pc e.bank m).hbm.refreshes (bankKey pc e.bank) = cellsGet 0 c.hbm.refreshes (bankKey pc e.bank) + 1) ∧
    (∀ errs, hbmEntry pc j 9 c = some e → Answers (.hbmScrubSlot pc j errs) s (onto s (scrubSlot pc e.bank errs m))) ∧
    (∀ cmd cmd', hbmEntry pc j cmd c = some e → hbmEntry pc j cmd' m = none)

/-- R169, R266, R268: WR and WR_AP take the two words their port received WPRE fc before and write them as the addressed line of the
open row, as the poison word when one is missing or poisoned; the line's bit in the poison map clears; every other line keeps
its value.
R169, R265, R266, R267, R268: a read return takes its line out of the buffer and leaves it on its port as two words in two fc, with
P = 1 when the line was read poisoned or uncorrectable; a read that corrects a line counts it and queues it for write-back; a line
poisoned in the map or in a revoked range reads as the poison word whatever is stored.
Where the spec leaves a point open, this states the model's choice: log entries 51, 52. -/
def Obligations.HbmAccess : Prop :=
  (∀ (pc j row : Nat) (e : HbmCmd) (s : State), pc < 32 → openedRow s.chip pc e.bank = some row →
    let c := s.chip
    let k := row * 16 + e.addr % 16
    let f := e.fc - (hbmCert c).2
    let w0 := portWord c (2 * pc + e.port) f
    let w1 := portWord c (2 * pc + e.port) (f + 1)
    let written (s' : State) : Prop :=
      hbmPeek s'.chip k = (if w0.poison || w1.poison then poisonLine else lineData w0.data w1.data) ∧
      (∀ k', servedKey c k' ≠ servedKey c k → hbmPeek s'.chip k' = hbmPeek c k') ∧
      (∀ n, keyPlanLine c k = some n → inRanges s'.chip.hbm.poison n = false) ∧
      (∀ w ∈ s'.chip.grid.edge, ¬ (w.port = 2 * pc + e.port ∧ (w.fc = f ∨ w.fc = f + 1)))
    idleWindow c k = false →
      (hbmEntry pc j 4 c = some e → Gives (.hbmWr pc j) s written) ∧
      (hbmEntry pc j 5 c = some e → Gives (.hbmWrAp pc j) s fun s' => written s' ∧ openedRow s'.chip pc e.bank = none)) ∧
  (∀ (i : Nat) (r : HbmReturn) (s : State), s.chip.hbm.returns[i]? = some r →
    let c : Chip := { s.chip with hbm := { s.chip.hbm with returns := s.chip.hbm.returns.eraseIdx i } }
    Answers (.hbmReadReturn i) s (onto s
      (portDeliver r.port (r.fc + 1) { data := r.w1, poison := r.poison } (portDeliver r.port r.fc { data := r.w0, poison := r.poison } c)))) ∧
  (∀ (k : Nat) (errs : List (Nat × Byte)) (c : Chip),
    let d := dataRead k errs c
    (lineMasked c k = true → d.1 = .poisoned ∧ d.2.1 = poisonLine ∧ objGet d.2.2 0x2B20 0x03 0 = (objGet c 0x2B20 0x03 0 + 1) % 2 ^ 64) ∧
    (lineMasked c k = false →
      d.1 = (classLine (hbmPeek (if errs.isEmpty then c else hbmPut k (strikeLine (hbmPeek c k) errs) c) k)).1 ∧
      (d.1 = .corrected → objGet d.2.2 0x2B20 0x01 0 = (objGet c 0x2B20 0x01 0 + 1) % 2 ^ 64 ∧
        ((cellsGet [] c.hbm.wbQueue (keyPc k)).length < 256 → cellsGet [] d.2.2.hbm.wbQueue (keyPc k) =
          cellsGet [] c.hbm.wbQueue (keyPc k) ++ [k])) ∧
      (d.1 = .uncorrectable → objGet d.2.2 0x2B20 0x05 0 = hbmPlace k ∧ objGet d.2.2 0x2B20 0x06 0 = c.tk.tick)))


/-- R171, R182, R262, R263, R267, R268, R269, R270, R271: the controller's own work: a refresh and a patrol step outside work windows, or in a video
pseudo-channel at any time; the oldest line of the write-back queue; copy and switch of a suspect row, after which the spare
serves it; the end of a revocation; post-package repair under the lease; the refresh interval a temperature reading sets; a CA parity
error held as fault class 0x01 for 60 s.
Where the spec leaves a point open, this states the model's choice: log entries 50, 51. -/
def Obligations.HbmMaintenance : Prop :=
  ∀ (s : State),
    let c := s.chip
    (∀ pc, pc < 32 → autonomous c pc = true →
      (∀ bank, bank < 48 → Answers (.autonomousRefresh pc bank) s (onto s (refreshBank pc bank c))) ∧
      (∀ errs, Answers (.patrolStep pc errs) s (onto s (patrolStep pc errs c))) ∧
      (∀ errs k t, cellsGet [] c.hbm.wbQueue pc = k :: t →
        let r := readLine k errs { c with hbm := { c.hbm with wbQueue := cellsSet [] c.hbm.wbQueue pc t } }
        Answers (.hbmWriteback pc errs) s (onto s (if r.1 = .corrected then hbmPut k r.2.1 r.2.2 else r.2.2)))) ∧
    (∀ row sp, row < 32 * 3 * 16 * 16384 → c.tk.phase = .slack → freeSpare c row = some sp → c.hbm.suspects.contains row = true →
      Answers (.rowSpareCopy row) s (onto s (copyRow row c)) ∧
      (copyRow row c).hbm.copied = c.hbm.copied ++ [(row, sp)] ∧ row ∉ (copyRow row c).hbm.suspects) ∧
    (∀ row sp, row < 32 * 3 * 16 * 16384 → c.tk.phase = .ac3584 → c.hbm.copied.find? (fun p => p.1 == row) = some (row, sp) →
      Gives (.rowSpareSwitch row) s fun s' => servedRow s'.chip row = sp ∧
        ∀ r, r ≠ row → servedRow s'.chip r = servedRow c r) ∧
    (∀ (done : List Nat) (left : Nat), leaseHeld c .ppr = true → Gives (.pprComplete done left) s fun s' =>
      objGet s'.chip 0x2B30 0x04 0 = left % 65536 ∧
      objGet s'.chip 0x2B31 0x00 0 = stOk) ∧
    (∀ i r, c.hbm.revoked[i]? = some r → Gives (.revocationComplete i) s fun s' =>
      s'.chip.hbm.revoked = c.hbm.revoked.eraseIdx i ∧
      ((c.hbm.revoked.eraseIdx i).any (fun q => q.fn == r.fn) = false → objGet s'.chip 0x2412 0x06 r.fn = 0)) ∧
    (∀ temps : List Int, temps.length = 8 → Gives (.hbmTemperatureRead temps) s fun s' =>
      objGet s'.chip 0x2B00 0x04 0 = refreshInterval (temps.foldl max (-128))) ∧
    (∀ pc, pc < 32 → Gives (.caParityRetry pc) s fun s' => classActive s'.chip 0x01 = true ∧
      cellsFind s'.chip.life.classUntil 0x01 = some (c.tk.now + 60000000000))

/-! Service ports. -/

/-- R175, R176, R178: a received frame is classified in the rule's order and queued for its unit, or counted as malformed, fragmented or
unclassified; a request for an address of the port is answered; an answer resolves its next hop, and what waited for it is sent; a
datagram whose next hop is not resolved within 1 s is dropped; a link that comes up or is lost changes that port only.
R179, R180, R468: PTP: a one-step Sync of the chosen master is measured, a two-step one waits for its Follow_Up; sixteen in a row within
100 ns lock the time; four intervals without a Sync enter holdover and 10 s end it; the best announced master is chosen, one fallen silent gives way; a
delay response gives the mean path delay; a master port answers Delay_Req and sends at its intervals; PPS_OUT rises for 100 ms
at a PTP second while the time is locked or in holdover.
Where the spec leaves a point open, this states the model's choice: log entries 37, 38, 39, 106. -/
def Obligations.NetworkEvents : Prop :=
  (∀ (s : State) (t : Nat),
    let c := s.chip
    let c' := atTime t c
    (∀ port frame, port < 2 →
      (parseFrame c' port frame = .fragment → Answers (.frameReceived port t frame) s (onto s (objBump 0x2340 0x03 0 1 c'))) ∧
      (parseFrame c' port frame = .malformed → Answers (.frameReceived port t frame) s (onto s (objBump 0x2340 0x02 0 1 c'))) ∧
      (parseFrame c' port frame ≠ .fragment → parseFrame c' port frame ≠ .malformed →
        (classify c' port t (parseFrame c' port frame) = none → Answers (.frameReceived port t frame) s (onto s (objBump 0x2340 0x01 0 1 c'))) ∧
        (∀ f, classify c' port t (parseFrame c' port frame) = some f →
          Answers (.frameReceived port t frame) s (onto s { c' with net := { c'.net with inbox := c'.net.inbox ++ [f] } })))) ∧
    (∀ x d, takeRx (fun x => x.cls == .arpRequest) c = some (x, d) → portOwns d x.port x.dst = true →
      Answers .arpRequest s (onto s (transmit (.arpReply x.port x.src x.mac) d))) ∧
    (∀ x d, takeRx (fun x => x.cls == .solicit) c = some (x, d) → portOwns d x.port x.dst = true →
      Answers .neighborSolicitation s (onto s (transmit (.advert x.port x.src x.mac) d))) ∧
    (∀ x d, takeRx (fun x => x.cls == .echo) c = some (x, d) → portOwns d x.port x.dst = true →
      Answers .echoRequest s (onto s (transmit (.echoReply x.port x.src x.payload) d))) ∧
    (∀ x d, takeRx (fun x => x.cls == .arpReply) c = some (x, d) → Gives .arpReply s fun s' =>
      { port := x.port, addr := x.src, mac := x.mac } ∈ s'.chip.net.neighbors ∧
      (∀ w ∈ s'.chip.net.waiting, w ∈ c.net.waiting ∧ ¬ (w.dgram.port = x.port ∧ w.hop = x.src)) ∧
      s'.chip.net.sent = c.net.sent ++ (c.net.waiting.filter (fun w => w.dgram.port == x.port && w.hop == x.src)).map
        (fun w => .datagram w.dgram x.mac)) ∧
    (∀ x d, takeRx (fun x => x.cls == .advert) c = some (x, d) → Gives .neighborAdvertisement s fun s' =>
      { port := x.port, addr := x.src, mac := x.mac } ∈ s'.chip.net.neighbors ∧
      (∀ w ∈ s'.chip.net.waiting, w ∈ c.net.waiting ∧ ¬ (w.dgram.port = x.port ∧ w.hop = x.src)) ∧
      s'.chip.net.sent = c.net.sent ++ (c.net.waiting.filter (fun w => w.dgram.port == x.port && w.hop == x.src)).map
        (fun w => .datagram w.dgram x.mac)) ∧
    (Gives (.resolutionTimeout t) s fun s' =>
      s'.chip.net.waiting = c.net.waiting.filter (fun w => !decide (w.since + 1000000000 ≤ t)) ∧ s'.chip.net.sent = c.net.sent) ∧
    (∀ port up, port < 2 → Answers (.autoNegotiation port up) s
      (onto s { c with net := { c.net with link := c.net.link.setIfInBounds port up } }))) ∧
  (∀ (s : State) (t : Nat),
    let c := s.chip
    let c' := atTime t c
    (∀ f d, takePtp 0 (ptpSlavePort c) c = some (f, d) → fromMaster d f = true → syncPaced f.payload = true →
      (ptpTwoStep f.payload = true → Answers .ptpSync s
        (onto s (setPtp { d.net.ptp with twoStep := some (ptpSeq f.payload, f.t, ptpCorr f.payload) } d))) ∧
      (ptpTwoStep f.payload = false → Answers .ptpSync s
        (onto s (measureSync (ptpStamp f.payload) f.t (ptpCorr f.payload) (ptpLog f.payload) d)))) ∧
    (∀ f d t2 corr, takePtp 8 (ptpSlavePort c) c = some (f, d) → fromMaster d f = true → syncPaced f.payload = true → d.net.ptp.twoStep = some (ptpSeq f.payload, t2, corr) →
      Answers .ptpFollowUp s (onto s (measureSync (ptpStamp f.payload) t2 (corr + ptpCorr f.payload) (ptpLog f.payload)
        (setPtp { d.net.ptp with twoStep := none } d)))) ∧
    (∀ (d : Chip) (t1 t2 : Nat) (corr log : Int), objGet d 0x1F10 0x05 0 = 0 →
      ((ptpTime d t2 : Int) - (t1 + corr + d.net.ptp.delay)).natAbs ≤ 100 →
      objGet (measureSync t1 t2 corr log d) 0x1F10 0x05 0 = (if 16 ≤ d.net.ptp.inRow + 1 then 1 else 0)) ∧
    (∀ f d, takePtp 11 (ptpSlavePort c) c = some (f, d) → 64 ≤ f.payload.length → 0 ≤ ptpLog f.payload → ptpLog f.payload ≤ 3 →
      numAtBE f.payload 61 2 < 255 →
      let a := announcedOf f
      let take : State := onto s (setPtp { d.net.ptp with best := some a } d)
      (d.net.ptp.best = none → Answers .ptpAnnounce s take) ∧
      (∀ b, d.net.ptp.best = some b → Answers .ptpAnnounce s
        (if b.source = a.source ∨ b.silent f.t = true ∨ rankLess a.rank b.rank = true then take else onto s d))) ∧
    (∀ f d t3, takePtp 9 (ptpSlavePort c) c = some (f, d) → fromMaster d f = true → d.net.ptp.request = some (ptpSeq f.payload, t3) →
      bytesAt f.payload 44 10 = ptpIdentity d f.port →
      Gives .ptpDelayResp s fun s' => s'.chip.net.ptp.request = none ∧
        s'.chip.net.ptp.delay = (d.net.ptp.msDiff + ((ptpStamp f.payload : Int) - t3 - ptpCorr f.payload)) / 2) ∧
    (∀ f d, takePtp 1 (ptpMasterPort c) c = some (f, d) → Answers .ptpDelayReq s
      (onto s (transmit (.ptpDelayResp f.port (ptpSeq f.payload) (ptpTime d f.t) (ptpSource f.payload)) d))) ∧
    (∀ l, c.net.ptp.lastSync = some l →
      (objGet c 0x1F10 0x05 0 = 1 → l + 4 * c.net.ptp.interval ≤ t → Gives (.ptpSyncTimeout t) s fun s' => objGet s'.chip 0x1F10 0x05 0 = 2) ∧
      (objGet c 0x1F10 0x05 0 = 2 → l + 10000000000 ≤ t → Gives (.ptpHoldoverExpiry t) s fun s' =>
        objGet s'.chip 0x1F10 0x05 0 = 0 ∧ objGet s'.chip 0x1F10 0x06 0 = 0 ∧ s'.chip.net.ptp.inRow = 0)) ∧
    (∀ m, ptpMasterPort c = some m →
      (Gives (.ptpMessageInterval .sync t) s fun s' => s'.chip.net.sent = c.net.sent ++
        [.ptpSync m c.net.ptp.seqSync, .ptpFollowUp m c.net.ptp.seqSync (ptpTime c' c'.tk.now)]) ∧
      (Gives (.ptpMessageInterval .announce t) s fun s' => s'.chip.net.sent = c.net.sent ++
        [.ptpAnnounce m c.net.ptp.seqAnnounce (objGet c 0x1F10 0x03 0) (objGet c 0x1F10 0x04 0)])) ∧
    (∀ m b, ptpSlavePort c = some m → c.net.ptp.best = some b → b.silent c'.tk.now = false → Gives (.ptpMessageInterval .delayReq t) s fun s' =>
      s'.chip.net.sent = c.net.sent ++ [.ptpDelayReq m c.net.ptp.seqDelay] ∧
      s'.chip.net.ptp.request = some (c.net.ptp.seqDelay, c'.tk.now)) ∧
    (objGet c 0x1F10 0x05 0 ≠ 0 → 0 < t → ptpTime c (t - 1) / 1000000000 < ptpTime c t / 1000000000 →
      Answers (.ppsOutEdge t) s (onto s { c' with net := { c'.net with ppsUntil := some (t + 100000000) } })))

/-! Video: ingest and decoding. -/

/-- R186, R187, R188, R189, R196: a stream's oldest packet is counted and, where its stream is keyed, opened (RTP in the clear passes as it
is); one that does not open is counted failed (stated where no MKI names its key), a malformed one or one of another payload type is
counted malformed, and every other one is placed in the stream's order, without its payload when its payload type is not
supported. A repeated packet, or one behind, is counted late; an open gap older than the stream's jitter setting is declared lost; a
held picture takes its place in its core's queue 0.9 frame periods after the one before.
R192, R193, R194, R195, R197: a core that ends the unit at its front within its budget discards a unit before the first IRAP picture,
refuses and counts one whose parameters do not fit the stream's declaration, and makes of any other a complete picture with its
undecoded units concealed, damaged as its packets, units and references are, and counted; at the budget's end the unit ends
with a bad unit and is counted; a reconstructed slice of a unit the decoder takes is ready.
Where the spec leaves a point open, this states the model's choice: log entries 40, 44. -/
def Obligations.StreamEvents : Prop :=
  (∀ (s : State) (st t : Nat), st < 256 →
    let c := s.chip
    let c' := atTime t c
    (∀ f d, takeRx (fun f => f.cls = .rtp st) c = some (f, d) →
      let c1 := objBump 0x2302 0x02 st 1 d
      let mode := objGet c1 0x2301 0x07 st
      let opened := if mode = 0 then some (f.payload, 0) else srtpPacket c1 st f.payload
      (mode ≠ 2 → opened = none → Answers (.rtpPacket st) s (onto s (objBump 0x2302 0x05 st 1 c1))) ∧
      (∀ b index, opened = some (b, index) →
        let c2 := if mode = 0 then c1 else modStream st (fun v =>
          { v with srtp := some (max index (v.srtp.getD 0)), replay := (v.replay ++ [index]).drop ((v.replay.length + 1) - 64) }) c1
        (rtpBody b = none ∨ numAt b 1 1 % 128 ≠ objGet c2 0x2301 0x09 st →
          Answers (.rtpPacket st) s (onto s (objBump 0x2302 0x06 st 1 c2))) ∧
        (∀ off len, rtpBody b = some (off, len) → numAt b 1 1 % 128 = objGet c2 0x2301 0x09 st →
          let x := bytesAt b off len
          let ok := payloadOk (match vdecl c2 st with | some v => v.codec | none => 0) x
          Answers (.rtpPacket st) s (onto s (placePacket st f.t
            { seq := numAtBE b 2 2, ts := numAtBE b 4 4, marker := decide (128 ≤ numAt b 1 1), payload := if ok then x else [], t := f.t, bad := !ok }
            (if ok then c2 else objBump 0x2302 0x06 st 1 c2)))))) ∧
    (∀ (d : Chip) (p : Packet) (n : Nat), (streamAt d st).next = some n →
      (32768 ≤ seqAhead n p.seq ∨ (streamAt d st).packets.any (fun q => q.seq == p.seq) = true) →
      placePacket st t p d = objBump 0x2302 0x04 st 1 d) ∧
    (∀ g, gapSince (streamAt c st) = some g → g + objGet c 0x2301 0x08 st * 1000000 ≤ t →
      Answers (.gapJitterTimeout st t) s (onto s (declareLost st t c'))) ∧
    (∀ v u rest, vdecl c st = some v → (streamAt c st).held = u :: rest → engineHeld c .decode v.dcore = false →
      (∀ r, (streamAt c st).released = some r → r * v.fpsNum + 900000000 * v.fpsDen ≤ t * v.fpsNum) →
      Gives (.pictureRelease st t) s fun s' => (streamAt s'.chip st).held = rest ∧ (streamAt s'.chip st).released = some t ∧
        cellsGet [] s'.chip.video.cores v.dcore = enqueueUnit st u (cellsGet [] c.video.cores v.dcore))) ∧
  (∀ (s : State) (core t st : Nat) (u : CodedUnit) (q : List (Nat × CodedUnit)) (w : VStream), core < 8 →
    cellsGet [] s.chip.video.cores core = (st, u) :: q → vdecl s.chip st = some w →
    let c := atTime t s.chip
    let d1 : Chip := { c with video := { c.video with cores := cellsSet [] c.video.cores core q, since := cellsSet 0 c.video.since core t } }
    let v := streamAt c st
    (∀ d : Decoded,
      ((∀ b, budgetEnd c core = some b → t ≤ b) →
        (unitTaken w v u = false → Answers (.pictureDecoded core t d) s (onto s (showStream st (setStream st (dropDecoding u.ts v) d1)))) ∧
        (unitTaken w v u = true → paramsFit w d.params = false → Answers (.pictureDecoded core t d) s (onto s (refuseUnit st u d1))) ∧
        (unitTaken w v u = true → paramsFit w d.params = true →
          let v1 := decoding u.ts v
          let id := decodingId u.ts v1
          let refs := if unitIrap w.codec u then [] else d.refs
          Gives (.pictureDecoded core t d) s fun s' =>
            (∃ p ∈ (streamAt s'.chip st).pictures, p.id = id ∧ p.ts = u.ts ∧ p.complete = true ∧
              p.damaged = (u.lost || !d.bad.isEmpty || refs.any (fun r => !v.pictures.any (fun p => p.id == r && p.complete))) ∧
              p.samples = conceal (concealFrom w id v1.pictures) d) ∧
            (streamAt s'.chip st).waitIrap = false ∧ (streamAt s'.chip st).refused = false ∧ cellsGet [] s'.chip.video.cores core = q ∧
            objGet s'.chip 0x2302 0x07 st = objGet (objBump 0x2302 0x07 st 1 c) 0x2302 0x07 st ∧ objGet s'.chip 0x2302 0x0F st = u.ts)) ∧
      (∀ b, budgetEnd c core = some b →
        let ended := finishUnit st u { d with bad := if d.bad.isEmpty then [[]] else d.bad } (objBump 0x2302 0x11 st 1 d1)
        (b ≤ t → Answers (.decodeBudgetExpiry core t d) s (onto s ended)) ∧
        (t < b → Answers (.decodeBudgetExpiry core t d) s (onto s c)) ∧
        (b < t → Answers (.pictureDecoded core t d) s (onto s ended)))) ∧
    (∀ d : CodedParams,
      (paramsFit w d = false → unitTaken w v u = true → Answers (.pictureRefused core t d) s (onto s (refuseUnit st u d1))) ∧
      (paramsFit w d = true → Answers (.pictureRefused core t d) s (onto s c))) ∧
    (∀ d : Chip, (streamAt (refuseUnit st u d) st).refused = true ∧
      (streamAt (refuseUnit st u d) st).pictures = (dropDecoding u.ts (streamAt d st)).pictures ∧
      objGet (refuseUnit st u d) 0x2302 0x0A st = objGet (objBump 0x2302 0x0A st 1 d) 0x2302 0x0A st) ∧
    (∀ (b : Nat) (samples : Cells Nat), unitTaken w v u = true →
      Gives (.sliceDecoded core b samples) s fun s' => (∃ p ∈ (streamAt s'.chip st).pictures, p.ts = u.ts ∧ p.complete = false ∧ b ∈ p.ready) ∧
        cellsGet [] s'.chip.video.cores core = (st, u) :: q))

/-- R198, R199, R200, R201: at a readiness point of an armed position the module does what readinessPoint gives and tells its peer the
binding; a due slot that is not taken is counted and hands over nothing; one that is taken on a module that follows no peer binds, at
slice 0, the latest picture that is ready or else the one being decoded, or none, and hands slice 0 over where it is ready,
else what the stream substitutes for it, and counts which.
Where the spec leaves a point open, this states the model's choice: log entries 41, 113. -/
def Obligations.SlotHandover : Prop :=
  ∀ (s : State) (ovl : Fin 16) (j : Nat) (sl : VSlot) (v : VStream), slotDecl s.chip ovl j = some (sl, v) →
    let c := s.chip
    let st := streamAt c sl.stream
    c.plan.armed = some sl.pos →
    (∀ b, b < vSlices v → Answers (.sliceReadinessPoint ovl j b) s (onto s (bindingOut c ovl j b (readinessPoint ovl j b c)))) ∧
    (∀ b, b < vSlices v → slotTaken c ovl sl v = false → readinessPoint ovl j b c = objBump 0x2302 0x0E sl.stream 1 c) ∧
    (0 < vSlices v → slotTaken c ovl sl v = true → follows c = false → st.slots.length < 260 →
      let bind := bindPicture (underDecode c sl.stream v st)
      let ready := !engineHeld c .decode v.dcore &&
        (match bind.1.bind (fun i => bind.2.1.find? (fun p => p.id == i)) with | some p => p.ready.contains 0 | none => false)
      Gives (.sliceReadinessPoint ovl j 0) s fun s' => ∃ x, slotUse (streamAt s'.chip sl.stream) ovl j c.tk.tick = some x ∧
        x.pic = bind.1 ∧ x.slices = [(0, if ready then .ready else substOf v (st.handed.contains 0))] ∧
        objGet s'.chip 0x2302 (if ready then 0x0C else 0x0D) sl.stream =
          objGet (objBump 0x2302 (if ready then 0x0C else 0x0D) sl.stream 1 c) 0x2302 (if ready then 0x0C else 0x0D) sl.stream)

/-! Campion, Teasel and the encoders. -/

/-- R205, R206, R208, R210, R212: a first layer keeps its slot's picture and slices, and the last slice ends the slot; on a held engine that
is all. A due job of a function that runs takes the words on its engine's ports into the input buffer and its outputs wait for its
end: words, or a detection list of at most KMAX detections; at the end of a job of a running engine the list is the
engine's and the job is gone. A due Teasel job's first word holds its boxes, at most NBOX, and those refused; at its end its words
leave.
Where the spec leaves a point open, this states the model's choice: log entries 31, 42, 43, 105, 108. -/
def Obligations.EngineJobs : Prop :=
  ∀ (s : State) (p : Plan), s.chip.plan.loaded = some p →
    let c := s.chip
    (∀ (ovl : Fin 16) (j b : Nat) (sl : VSlot) (v : VStream) (u : SlotUse) (prog : CProgram) (use : SliceUse),
      slotDecl c ovl j = some (sl, v) → slotUse (streamAt c sl.stream) ovl j c.tk.tick = some u → planProgram p v.campion v.program = some prog →
      u.slices.find? (fun x => x.1 == b) = some (b, use) → (streamAt c sl.stream).slots.length < 260 →
      (Gives (.campionFirstLayer ovl j b) s fun s' => ∃ u', slotUse (streamAt s'.chip sl.stream) ovl j c.tk.tick = some u' ∧
        u'.pic = u.pic ∧ u'.slices = u.slices ∧ (b + 1 = vSlices v → u'.ended = true)) ∧
      (engineHeld c .campion v.campion = true → Answers (.campionFirstLayer ovl j b) s (onto s
        (if b + 1 = vSlices v then modStream sl.stream (putSlotUse { u with ended := true }) c else c)))) ∧
    (∀ (e n : Nat) (jb : CJob), e < 4 → (planCJobs p e)[n]? = some jb →
      (jobDue c .campion e jb.pos jb.ovl jb.disp = true → campionLive c p e jb = true →
        let a := campionAt (campionInputs e c) e
        let fill := fillBuffer 32768 (jb.inBase / 32) (mapWords jb.hi jb.wi jb.cin jb.ifmt) a.arrived a.inBuf a.filled
        Gives (.campionLastLayerJob e n) s fun s' =>
          (campionAt s'.chip e).arrived = fill.1 ∧ (campionAt s'.chip e).inBuf = fill.2.1 ∧ (campionAt s'.chip e).filled = fill.2.2 ∧
          (∀ w ∈ s'.chip.grid.edge, ¬ (64 + 8 * e ≤ w.port ∧ w.port < 64 + 8 * e + 8)) ∧
          ∃ words list, (campionAt s'.chip e).job = some (n, words, list) ∧ (jb.dec = 0 → list = []) ∧
            (jb.dec ≠ 0 → words = [] ∧ ∃ kept q, list = detectionBytes jb kept q ∧ kept.length ≤ jb.kmax)) ∧
      (∀ words list, (campionAt c e).job = some (n, words, list) → engineHeld c .campion e = false →
        Gives (.campionJobEnd e) s fun s' => (campionAt s'.chip e).job = none ∧
          (campionAt s'.chip e).list = (if jb.dec = 0 then (campionAt c e).list else list))) ∧
    (∀ (e n : Nat) (jb : TJob), e < 2 → (planTJobs p e)[n]? = some jb →
      (jobDue c .teasel e jb.pos jb.ovl jb.disp = true → teaselLive c p e jb = true → Gives (.teaselJob e n) s fun s' => ∃ words boxes refused,
        (teaselAt s'.chip e).job = some (n, { data := BitVec.ofNat 256 (boxes + 65536 * refused) } :: words) ∧
        boxes ≤ jb.nbox ∧ refused ≤ boxes ∧
        (∀ w ∈ s'.chip.grid.edge, ¬ (96 + 4 * e ≤ w.port ∧ w.port < 96 + 4 * e + 4))) ∧
      (∀ words, (teaselAt c e).job = some (n, words) → engineHeld c .teasel e = false →
        Answers (.teaselJobEnd e) s (onto s (tracePoint 66 0 (e * 65536 + n)
          (teaselWords e n jb (words.map .word) (setTeasel e { teaselAt c e with job := none } c))))))

/-- R213, R214, R217, R218: the picture of the last ended slot is passed to its encoder, an IDR picture where one is due, and the next one
after it when it was tainted or substituted; with two in the queue, or a held core, it is counted dropped. What a core makes of the
next rows of the picture it codes leaves at once in sub-frame mode, else with the picture; what breaks a rule of the encoder, or is not
the core's turn, is not sent. A clip that has reached its length ends.
R220, R221, R223, R477: what the words of an egress channel amount to is dealt with in order: a refused record is counted; a record of a
function that runs is emitted, but as the second of its output channel in the tick it is refused; an invalid header emits the
channel's invalid zero-length datagram, or is counted where none is named; so does an entry that falls due in a repair pause. A
record longer than its channel allows is refused at its header. Every datagram of a channel takes the next number.
Where the spec leaves a point open, this states the model's choice: log entries 39, 44, 61, 110. -/
def Obligations.SendingEvents : Prop :=
  (∀ (s : State) (st : Nat), st < 256 →
    let c := s.chip
    let v := streamAt c st
    (∀ w u p, vdecl c st = some w → vEncoder w = true → v.slots.find? (fun u => u.ended && !u.passed) = some u →
      u.pic.bind (fun i => v.pictures.find? (fun p => p.id == i)) = some p → encOn c st = true →
      let scale := objGet c 0x2303 0x03 st
      let period := objGet c 0x2303 0x0A st
      let grey := (u.slices.filter (fun x => x.2 ≠ .ready)).map (·.1)
      (engineHeld c .encode w.ecore = false → v.enc.queue.length < 2 → Gives (.encoderPicturePass st) s fun s' =>
        (∃ x : Passed, (streamAt s'.chip st).enc.queue = v.enc.queue ++ [x] ∧ x.ts = p.ts ∧ x.samples = encFrame p grey w scale ∧ x.grey = grey ∧
          x.codec = objGet c 0x2303 0x02 st ∧ x.w = w.w / 2 ^ scale ∧ x.h = w.h / 2 ^ scale ∧
          x.idr = (x.codec == 2 || !v.enc.started || v.enc.idrAsked || (decide (0 < period) && decide (period ≤ v.enc.sinceIdr + 1)))) ∧
        (streamAt s'.chip st).enc.idrAsked = ((p.tainted || !grey.isEmpty) && objGet c 0x2303 0x14 st == 1) ∧
        cellsGet [] s'.chip.video.ecores w.ecore = cellsGet [] c.video.ecores w.ecore ++ [st]) ∧
      (2 ≤ v.enc.queue.length ∨ engineHeld c .encode w.ecore = true → Gives (.encoderPicturePass st) s fun s' =>
        (streamAt s'.chip st).enc = v.enc ∧ objGet s'.chip 0x2304 0x04 st = objGet (objBump 0x2304 0x04 st 1 c) 0x2304 0x04 st)) ∧
    (∀ (t : Nat) (w : VStream) (p : Passed) (rest : List Passed) (d : CodedSlice), vdecl c st = some w → v.enc.queue = p :: rest →
      let c' := atTime t c
      let per := max 1 (objGet c 0x2303 0x0B st)
      let first := v.enc.slice * per
      let n := min per (cdiv p.h 64 - first)
      let last := decide (cdiv p.h 64 ≤ first + per)
      let now := objGet c 0x2303 0x0C st == 1
      let level := if v.enc.slice = 0 then hrdLevel (objGet c 0x2303 0x05 st) (objGet c 0x2303 0x06 st) t v.enc else (v.enc.hrd.map (·.1)).getD 0
      let takes := !engineHeld c' .encode w.ecore && codesNow c' st w.ecore && sliceOk c' st t level first n p v.enc d
      (takes = false → Answers (.encoderSliceSent st t d) s (onto s c')) ∧
      (takes = true → Gives (.encoderSliceSent st t d) s fun s' =>
        (streamAt s'.chip st).enc.queue = (if last then rest else p :: rest) ∧
        (streamAt s'.chip st).enc.index = v.enc.index + (if now then d.packets.length else if last then (v.enc.outbox ++ d.packets).length else 0) ∧
        (streamAt s'.chip st).enc.outbox = (if now || last then [] else v.enc.outbox ++ d.packets) ∧
        (p.codec ≠ 2 → objGet s'.chip 0x2304 0x05 st = d.qps.getLastD 0))) ∧
    (v.enc.clip = some 0 → Gives (.clipEnd st) s fun s' => objGet s'.chip 0x2304 0x01 st = 2 ∧ (streamAt s'.chip st).enc.clip = none)) ∧
  (∀ (s : State) (n : Nat),
    let c := s.chip
    let c1 := egressTaken n c
    (nextEgress c n = some .refused → Answers (.egressRecord n) s (onto s (refuseRecord c1))) ∧
    (∀ o ws b bad, nextEgress c n = some (.record o ws b bad) → (servingOchs c).contains o.och = false →
      (fnLive c o.fn o.tenant = true → ochFree c o.och = true → Answers (.egressRecord n) s (onto s
        (emitResult o b bad (slotFlags c1 o).1 (slotFlags c1 o).2 (takeOch o.och c1)))) ∧
      (fnLive c o.fn o.tenant = true → ochFree c o.och = false → Answers (.egressRecord n) s (onto s (refuseRecord c1))) ∧
      (fnLive c o.fn o.tenant = false → Answers (.egressRecord n) s (onto s c1))) ∧
    (∀ j named, nextEgress c n = some (.lost j named) →
      (named = none → Answers (.egressInvalidHeader n j) s (onto s (refuseRecord c1))) ∧
      (∀ och p o, named = some och → c.plan.loaded = some p → planOch p och = some o →
        Answers (.egressInvalidHeader n j) s (onto s (emitInvalid silentRecord o c1)))) ∧
    (∀ (o : OchEntry) (b : List Byte) (bad : Bool) (f ts : Nat) (d : Chip),
      cellsGet 0 (emitResult o b bad f ts d).net.nums o.och = (ochNumber d o.och + 1) % 2 ^ 47) ∧
    (∀ (p : Plan) (ch : Channel) (named : Option Nat) (w : EdgeWord),
      (∀ o, planOch p (fld w.data.toNat 9 0) = some o → o.maxlen < fld w.data.toNat 31 16) → (judgeHeader p ch named w).2 = [.refused]) ∧
    (∀ p pos x o, c.plan.loaded = some p → c.plan.armed = some pos → workPaused c = true →
      (∀ i e ch, e < 4 → (planEgress p)[i]? = some x → x.pos = pos → bitOf c.plan.active x.ovl = true → planOch p x.och = some o →
        egressChannel p x = some ch → channelActive c.plan.active pos ch = true →
        Answers (.egressPauseDatagram false e i) s (onto s (emitInvalid silentRecord o c))) ∧
      (∀ i e jb, e < 4 → (planCJobs p e)[i]? = some jb → jb.pos = pos → entryActive c.plan.active jb.ovl jb.disp = true → jb.dec ≠ 0 →
        planOch p jb.och = some o → Answers (.egressPauseDatagram true e i) s (onto s (emitInvalid silentRecord o c)))))

/-! Serving. -/

/-- R18, R227, R228, R229, R235, R242, R250: a submit datagram's part joins its request, and a part that arrived before changes nothing; a
complete request waits, is noted for refusal with its status, or is counted as a duplicate; a cancel and a release wait for the
next boundary, with the tick they came in and whether a reserved field or the length is wrong; a request whose parts do not all
arrive within 1 s is dropped; one that has waited its slots' longest time is refused with TIMEOUT from ac 1,536 of the boundary on.
Where the spec leaves a point open, this states the model's choice: log entries 45, 105. -/
def Obligations.ServingRequests : Prop :=
  ∀ (s : State),
    let c := s.chip
    (∀ t b d c1 c2, takeRequest (fun op => op != 2 && op != 3) c = (some ((t, b, d), c1), c2) →
      Answers .requestSubmit s (onto s (submitPart t b d c1))) ∧
    (∀ t b d (e : Chip) q, findAsm e (numAt b 4 2) (numAt b 8 4) = some q → q.got.length < q.parts →
      q.got.any (fun g => g.1 == numAt b 0x16 2 / 256) = true →
      ∃ q', findAsm (submitPart t b d e) (numAt b 4 2) (numAt b 8 4) = some q' ∧ q'.got = q.got ∧ q'.bad = q.bad) ∧
    (∀ (q : LmReq) (d : Chip),
      let q' : LmReq := { q with got := q.got.insertionSort (fun a b => a.1 ≤ b.1) }
      let d1 := objBump 0x2400 0x02 0 1 (dropAsm q.tenant q.id d)
      (submitCheck d1 q' = none → completeRequest q d = objBump 0x2400 0x06 0 1 d1) ∧
      (submitCheck d1 q' = some stOk → completeRequest q d = addReq { q' with st := .waiting } d1) ∧
      (∀ st, submitCheck d1 q' = some st → st ≠ stOk → (completeRequest q d).serv.refusals = d.serv.refusals ++ [(q', st)] ∧
        (completeRequest q d).serv.reqs = (dropAsm q.tenant q.id d).serv.reqs)) ∧
    (∀ t b d c1 c2, takeRequest (· == 2) c = (some ((t, b, d), c1), c2) → Gives .requestCancel s fun s' =>
      s'.chip.serv.cancels = c1.serv.cancels ++
        [{ tenant := numAt b 4 2, key := numAt b 8 4, fn := numAt b 6 2, conv := numAt b 0xC 4, datagram := true, tick := c1.tk.tick
           bad := decide (numAt b 0 1 ≠ 1 ∨ fld (numAt b 1 1) 6 1 ≠ 0 ∨ 8 ≤ numAt b 3 1 ∨ numAt b 0x16 2 ≠ 0 ∨ numAt b 0x44 4 ≠ 0 ∨ d ≠ []) }]) ∧
    (∀ t b d c1 c2, takeRequest (· == 3) c = (some ((t, b, d), c1), c2) → Gives .requestRelease s fun s' =>
      s'.chip.serv.releases = c1.serv.releases ++
        [{ tenant := numAt b 4 2, key := numAt b 0xC 4, fn := numAt b 6 2, conv := numAt b 0xC 4, datagram := true, tick := c1.tk.tick
           bad := decide (numAt b 0 1 ≠ 1 ∨ fld (numAt b 1 1) 6 1 ≠ 0 ∨ 8 ≤ numAt b 3 1 ∨ numAt b 0x16 2 ≠ 0 ∨ numAt b 0x44 4 ≠ 0 ∨ d ≠ []) }]) ∧
    (∀ tenant id t q, findAsm c tenant id = some q → q.first + 1000000000 ≤ t → Gives (.requestAssemblyTimeout tenant id t) s fun s' =>
      findAsm s'.chip tenant id = none ∧ objGet s'.chip 0x2400 0x05 0 = objGet (objBump 0x2400 0x05 0 1 c) 0x2400 0x05 0) ∧
    (∀ tenant id q p, findReq c tenant id = some q → c.plan.loaded = some p → q.st = .waiting → q.taken = true →
      let w := ((planRSlots p).filter (fun s => slotFn p s == q.fn)).foldl (fun m s => max m s.maxWait) 0
      0 < w → w ≤ q.waited → served c = true → Answers (.requestWaitTimeout tenant id) s (onto s (refuseReq q stTimeout c)))

/-- R231, R237, R238, R244, R246, R247, R248: what a served slot sends and takes in its work window: the control block with its prompt,
zeros in an idle slot; the tree block, of at most TREE_N nodes; the mask block; the accepted path, which begins at node 0 and
holds 31 nodes at most; the summary; the token record, cut at the first stop token or the last token asked for.
Where the spec leaves a point open, this states the model's choice: log entries 46, 47. -/
def Obligations.SlotWork : Prop :=
  ∀ (s : State) (n : Nat) (sl : RSlot), n < 256 → servedSlot s.chip n = some sl →
    let c := s.chip
    (∀ ch, slotChan c sl sl.ctl = some ch →
      (slotReq c n = none → Answers (.controlBlockSend n) s (onto s (channelWords ch (plainWords [0, 0]) c))) ∧
      (∀ q, slotReq c n = some q → q.prefill ≤ q.ticks → Answers (.controlBlockSend n) s (onto s (channelWords ch
        (plainWords [BitVec.ofNat 256 (controlWord q ((servSlot c n).cap.getD sl.treeN)), BitVec.ofNat 256 (natLE q.params)]) c)))) ∧
    (∀ ch q, slotChan c sl sl.tree = some ch → slotReq c n = some q → sl.treeN ≠ 0 → q.prefill ≤ q.ticks → (servSlot c n).tree = none →
      3 ≤ ((arrivedWords c ch).filter (fun w => w.1 == 0)).length →
      Gives (.treeBlock n) s fun s' => ∃ tr, (servSlot s'.chip n).tree = some tr ∧ tr.l = reqLen q ∧ tr.nEff ≤ sl.treeN ∧
        tr.parents.length = tr.nEff ∧ tr.path = none) ∧
    (∀ ch tr, slotChan c sl sl.mask = some ch → (servSlot c n).tree = some tr →
      Answers (.maskBlockSend n) s (onto s (channelWords ch (plainWords (maskWords tr sl.treeD)) c)) ∧ (maskWords tr sl.treeD).length = 19) ∧
    (∀ ch tr j i w rest, slotChan c sl sl.accept = some ch → (servSlot c n).tree = some tr → tr.path = none →
      arrivedWords c ch = (j, i, w) :: rest → Gives (.acceptedPath n) s fun s' => ∃ path,
        (servSlot s'.chip n).tree = some { tr with path := some (0 :: path) } ∧ path.length ≤ 30 ∧
        (w.poison = true ∨ w.invalid = true → path = []) ∧ ∀ a ∈ path, a < tr.nEff) ∧
    (∀ ch q, slotChan c sl sl.sumOut = some ch → slotReq c n = some q → sl.sumKib ≠ 0 → q.prefill ≤ q.ticks →
      32 * sl.sumKib ≤ (arrivedWords c ch).length → Gives (.summaryOut n) s fun s' => (servSlot s'.chip n).summary =
        (((arrivedWords c ch).map (·.2.2)).take (32 * sl.sumKib)).flatMap (fun w => bytesLE 32 w.data.toNat)) ∧
    (∀ (q : LmReq) (e : Nat) (l : List Nat), e < q.g → e + (cutTokens q e l).1.length ≤ q.g ∧
      (∀ t ∈ (cutTokens q e l).1.dropLast, t ∉ q.stop))

/-- R220, R231, R237: a token record of a slot's output channel in a generating tick commits its tokens, and leaves as the request's result
datagram unless the request is cancelled; one with a poisoned or invalid payload word advances the count by what the record or the
tick gives and leaves as zeros, marked invalid; the second record of its output channel in a tick is refused and counted.
Where the spec leaves a point open, this states the model's choice: log entries 45, 47, 110. -/
def Obligations.TokenRecord : Prop :=
  ∀ (s : State) (n : Nat) (o : OchEntry) (ws : List EdgeWord) (d : List Byte) (bad : Bool) (sl : RSlot) (q : LmReq),
    let c := s.chip
    nextEgress c n = some (.record o ws d bad) → ochSlot c o.och = some sl → slotReq c sl.slot = some q → q.over_ = false → q.prefill ≤ q.ticks →
    let c1 := egressTaken n c
    let r := cutTokens q q.emitted (tokensOf ((d.drop 4).take (4 * numAt d 0 4)))
    let q' : LmReq := { q with emitted := q.emitted + r.1.length, over_ := decide (r.2 ≠ 0) }
    let f := slotFlags c1 o
    let unread := (ws[1]?.map (fun w => w.poison || w.invalid)).getD true
    let lost := countSilent q (if unread = true then silentTokens c1 sl else numAt d 0 4) c1
    (ochFree c o.och = false → Answers (.servingTokenRecord n) s (onto s (refuseRecord c1))) ∧
    (ochFree c o.och = true → bad = false → q.st = .cancelled → Answers (.servingTokenRecord n) s (onto s (setReq q' c1))) ∧
    (ochFree c o.och = true → bad = false → q.st ≠ .cancelled → Answers (.servingTokenRecord n) s (onto s
      (emitResult o (bytesLE 4 q.id ++ bytesLE 4 q.conv ++ bytesLE 4 q.emitted
        ++ bytesLE 2 r.1.length ++ bytesLE 1 r.2 ++ bytesLE 1 0 ++ r.1.flatMap (bytesLE 4)) false f.1 f.2 (takeOch o.och (setReq q' c1))))) ∧
    (ochFree c o.och = true → bad = true → q.st = .cancelled → Answers (.servingTokenRecord n) s (onto s lost)) ∧
    (ochFree c o.och = true → bad = true → q.st ≠ .cancelled → Answers (.servingTokenRecord n) s (onto s
      (emitResult o (List.replicate (d.length + 12) 0) true f.1 f.2 (takeOch o.och lost))))

/-- R233, R241, R242, R245, R332: from ac 1,536 of the boundary on an idle conversation held for its time begins to leave, and one past its
lifetime, and a summary past its own, are forgotten; at the end of a re-seal no summary is lost and 2201.08 shows 2.
R274, R275, R276, R278: an intake datagram of an open handle that keeps the rules buffers the units it brings anew, one for no handle is
dropped and counted; the oldest buffered unit whose staging lines lie in a free pseudo-channel is written to its staging lines; a
handle idle for 600 s is closed and counted; a placed image posts OK and its version, a refused one its status.
Where the spec leaves a point open, this states the model's choice: log entries 46, 48, 49, 97, 105, 109. -/
def Obligations.ConversationEvents : Prop :=
  (∀ (s : State) (t i : Nat),
    let c := s.chip
    (∀ v p k, findConv c t i = some v → c.plan.loaded = some p → v.idle = some k → v.leaving = false → served c = true →
      k + (match v.home.bind (fun h => planPool p h.1) with | some x => x.hotHold | none => 0) ≤ c.tk.tick →
      Answers (.hotHoldExpiry t i) s (onto s (setConv { v with leaving := true } c))) ∧
    (∀ v k h, findConv c t i = some v → v.idle = some k → v.home = some h → served c = true → k + ttlTicks c (objGet c 0x2431 0x03 h.1) ≤ c.tk.tick →
      Gives (.conversationExpiry t i) s fun s' => findConv s'.chip t i = none ∧
        objGet s'.chip 0x2431 0x04 h.1 = objGet (objBump 0x2431 0x04 h.1 1 c) 0x2431 0x04 h.1) ∧
    (∀ v, findSummary c t i = some v → served c = true → v.since + ttlTicks c (objGet c 0x2435 0x01 0) ≤ c.tk.tick →
      Gives (.summaryExpiry t i) s fun s' => findSummary s'.chip t i = none) ∧
    (objGet c 0x2201 0x08 t = 1 → Gives (.resealComplete t) s fun s' => objGet s'.chip 0x2201 0x08 t = 2 ∧
      s'.chip.serv.sums.length = c.serv.sums.length)) ∧
  (∀ (s : State),
    let c := s.chip
    (∀ f d, takeRx (fun f => f.cls = .intake) c = some (f, d) →
      let b := f.payload
      let len := numAt b 2 2
      let off := numAt b 8 8
      let h := numAt b 4 4
      (handleAt d h = none → Answers .intakeDatagram s (onto s (intakeDrop d))) ∧
      (∀ hd, handleAt d h = some hd → hd.st = .opened → b.length = 32 + len →
        numAt b 0x10 4 = crc32c (b.take 0x10 ++ bytesLE 4 0 ++ (b.drop 0x14).take (12 + len)) → numAt b 0 1 = 1 → numAt b 1 1 = 0 →
        numAt b 0x14 12 = 0 → 0 < len → len ≤ 8192 → (len % 1024 = 0 ∨ off + len = hd.size) → off % 1024 = 0 → off + len ≤ hd.size →
        let us := (List.range (cdiv len 1024)).map (fun i => off / 1024 + i)
        let fresh := us.filter (fun u => !hd.units.contains u)
        fresh ≠ [] → (d.intake.buffer.map (fun u => u.2.2.length)).sum
          + (fresh.map (unitLen hd)).sum ≤ 16 * 2 ^ 20 →
        Gives .intakeDatagram s fun s' => s'.chip.intake.buffer = d.intake.buffer ++ fresh.map (fun u => (h, u, bytesAt b (32 + 1024 * u - off) (unitLen hd u))) ∧
          handleAt s'.chip h = some { hd with units := hd.units ++ fresh, lastRecv := max d.tk.now f.t })) ∧
    (∀ pc, pc < 32 →
      let here (x : Nat × Nat × List Byte) : Bool := (handleAt c x.1).any (fun h => areaLine h.area (16 * x.2.1) / 256 % 32 == pc)
      let free := bitOf (vpcMask c) pc || c.tk.phase ≠ .work || c.tk.mode = .idle || c.tk.mode = .loaded
      (∀ i x hd, free = true → c.intake.buffer.findIdx? here = some i → c.intake.buffer[i]? = some x → handleAt c x.1 = some hd →
        Answers (.intakeDrain pc) s (onto s (stageUnit hd x.2.1 x.2.2 { c with intake := { c.intake with buffer := c.intake.buffer.eraseIdx i } }))) ∧
      (c.intake.buffer.findIdx? here = none ∨ free = false → Answers (.intakeDrain pc) s (onto s c))) ∧
    (∀ h t hd, handleAt c h = some hd → hd.st = .opened → hd.lastRecv + 600000000000 ≤ t → Gives (.handleTimeout h t) s fun s' =>
      (∀ u ∈ s'.chip.intake.buffer, u.1 ≠ h) ∧ objGet s'.chip 0x2B40 0x09 0 = objGet (objBump 0x2B40 0x09 0 1 c) 0x2B40 0x09 0) ∧
    (∀ h hd p, handleAt c h = some hd → hd.st = .placing → c.plan.loaded = some p →
      (∀ st, adapterImage c h hd = .error st → Gives (.adapterPlacementDone h) s fun s' =>
        (∃ v, handleAt s'.chip h = some v ∧ v.st = .failed) ∧ objGet s'.chip 0x2B40 0x06 0 = st) ∧
      (∀ d ver pt, adapterImage c h hd = .ok (d, ver, pt) → Gives (.adapterPlacementDone h) s fun s' =>
        (∃ v buf, handleAt s'.chip h = some v ∧ v.st = .placed ∧ v.placed = some (buf, ver)) ∧ objGet s'.chip 0x2B40 0x06 0 = stOk)))

/-! Stomar links. -/

/-- R283, R284, R285, R286: a port that sends a frame sends an old one asked for again first, marked as a replay, and else a new one with
the next frame count, kept among the last 512 for replay; a frame with an uncorrectable codeword asks for a replay, and one that fails
authentication, or sets a reserved bit of its header, is lost; a frame with the expected count is accepted and the next one expected.
R287, R334, R335: a rekey names a count ahead of the next frame for the new key; a key not replaced in time ends the link; the
key exchange takes its steps in order, refuses a peer it cannot accept and ends with both keys.
Where the spec leaves a point open, this states the model's choice: log entries 18, 30, 32, 56. -/
def Obligations.LinkEvents : Prop :=
  (∀ (s : State) (p : Nat), p < 8 → (portAt s.chip p).stage ≠ .down → (portAt s.chip p).stage ≠ .training →
    let c := s.chip
    let v := portAt c p
    (∀ f rest, v.resend = f :: rest → Gives (.stomarFrameSend p) s fun s' => (portAt s'.chip p).resend = rest ∧
      (∃ g, (portAt s'.chip p).last = some g ∧ g.fcnt = f.fcnt ∧ g.marks = f.marks ∧ g.bytes = f.bytes.set 3 (f.bytes.getD 3 0 ||| 2)) ∧
      (portAt s'.chip p).txCnt = v.txCnt ∧ objGet s'.chip 0x2601 0x0B p = objGet (objBump 0x2601 0x0B p 1 c) 0x2601 0x0B p) ∧
    (v.resend = [] → v.replay.length ≤ 512 → Gives (.stomarFrameSend p) s fun s' => (portAt s'.chip p).txCnt = v.txCnt + 1 ∧
      (∃ f, (portAt s'.chip p).last = some f ∧ f.fcnt = v.txCnt ∧ (portAt s'.chip p).replay.getLast? = some f) ∧
      (portAt s'.chip p).replay.length ≤ 512 ∧ (portAt s'.chip p).credit ≤ v.credit ∧ (portAt s'.chip p).rxNext = v.rxNext) ∧
    (∀ corrected bad frame marks,
      let c1 := objBump 0x2601 0x0A p bad (objBump 0x2601 0x09 p corrected c)
      (0 < bad → Answers (.stomarFrame p corrected bad frame marks) s (onto s (setPort p { v with nak := some v.rxNext, nakDue := true } c1))) ∧
      (bad = 0 → Answers (.stomarFrame p corrected bad frame marks) s (onto s (frameIn p frame marks c1)))) ∧
    (∀ frame marks k payload, frame.length = 1285 → numAt (frame.take 53) 0 2 = 0x4D53 → numAt (frame.take 53) 2 1 = 1 →
      bitOf (numAt (frame.take 53) 3 1) 0 = v.rxGen → v.rxKey = some k →
      let h := frame.take 53
      (headerReserved h = true → frameIn p frame marks c = frameLost p c) ∧
      (headerReserved h = false →
      let opened := gcmOpen k (frameIv (numAt h 4 8)) (h.set 3 (h.getD 3 0 &&& 0xFD)) (bytesAt frame 53 1216) (bytesAt frame 0x4F5 16)
      (opened = none → frameIn p frame marks c = frameLost p (linkRefuse p c)) ∧
      (opened = some payload → numAt h 4 8 < v.rxNext → frameIn p frame marks c = c) ∧
      (opened = some payload → numAt h 4 8 = v.rxNext → numAt h 0x14 8 = allOnes64 →
        (portAt (frameIn p frame marks c) p).rxNext = v.rxNext + 1 ∧ (portAt (frameIn p frame marks c) p).nak = none) ∧
      (opened = some payload → v.rxNext < numAt h 4 8 → v.nak = none → numAt h 0x14 8 = allOnes64 →
        (portAt (frameIn p frame marks c) p).nak = some v.rxNext ∧ (portAt (frameIn p frame marks c) p).rxNext = v.rxNext)))) ∧
  (∀ (s : State) (p fcnt t : Nat), p < 8 →
    let c := s.chip
    let v := portAt c p
    (∀ k, v.txKey = some k → v.stage = .up → v.txSwitch = none → fwPause c 3 = false → v.txSince + 2 ^ 31 ≤ v.txCnt →
      Gives (.rekeyStart p) s fun s' => (∃ at_ k', (portAt s'.chip p).txSwitch = some (at_, k') ∧ v.txCnt < at_) ∧
        (portAt s'.chip p).txKey = some k ∧ objGet s'.chip 0x2601 0x0E p = objGet (objBump 0x2601 0x0E p 1 c) 0x2601 0x0E p) ∧
    (v.stage = .up → v.txSince + (2 ^ 32 - 2 ^ 24) ≤ v.txCnt → Gives (.linkKeyExhausted p) s fun s' =>
      (portAt s'.chip p).stage = .down ∧ (portAt s'.chip p).txKey = none ∧ (portAt s'.chip p).rxKey = none) ∧
    (∀ m d, takeMsg p 3 (atTime t c) = some (m, d) →
      (1 ≤ numAt m.body 0 1 → numAt m.body 0 1 ≤ 3 → numAt m.body 2 1 ≠ 0 → numAt m.body 3 1 = 0 →
        (v.stage = .up → numAt m.body 0 1 = 2 → m.keyed = true →
          Answers (.keyExchange p fcnt t) s (onto s (gotRekey p fcnt (bytesAt m.body 4 1088) d))) ∧
        (v.stage ≠ .up → v.stage ≠ .beacons →
          let parts := cellsPut v.kex.parts (numAt m.body 0 1 * 256 + numAt m.body 1 1) (m.body.drop 4)
          let n := numAt m.body 2 1
          let whole := (List.range n).flatMap (fun i => (cellsFind parts (numAt m.body 0 1 * 256 + i)).getD [])
          let d1 := setPort p { portAt d p with kex := { v.kex with parts := parts.filter (fun e => e.1 / 256 != numAt m.body 0 1) } } d
          ((List.range n).all (fun i => cellsHas parts (numAt m.body 0 1 * 256 + i)) = false → Answers (.keyExchange p fcnt t) s
            (onto s (setPort p { portAt d p with kex := { v.kex with parts := parts } } d))) ∧
          ((List.range n).all (fun i => cellsHas parts (numAt m.body 0 1 * 256 + i)) = true →
            (numAt m.body 0 1 = 1 → v.stage = .plain ∨ v.stage = .offered → Answers (.keyExchange p fcnt t) s (onto s (gotOffer p whole d1))) ∧
            (numAt m.body 0 1 = 2 → v.stage = .encapsulated → Answers (.keyExchange p fcnt t) s (onto s (gotCipher p whole d1))) ∧
            (numAt m.body 0 1 = 3 → v.stage = .encapsulated → Answers (.keyExchange p fcnt t) s (onto s (gotFinish p whole d1))))))) ∧
    (∀ (d : Chip) (o : List Byte), peerOk d p o = false → (portAt (gotOffer p o d) p).stage = .down ∧
      (portAt (gotOffer p o d) p).txKey = none) ∧
    (∀ (d : Chip) (sig : List Byte), (portAt d p).kex.digest ≠ [] →
      Config.dsaOk (bytesAt (offerRecord (portAt d p).kex.peerOffer) 0x80 1312) (portAt d p).kex.digest sig = true →
      (portAt (gotFinish p sig d) p).stage = .finished ∧ (portAt (gotFinish p sig d) p).keyedAt = some d.tk.now ∧
      (portAt (gotFinish p sig d) p).txKey = some (linkKey (portAt d p).kex (if lowerHere (portAt d p).kex then 0 else 1)) ∧
      (portAt (gotFinish p sig d) p).rxKey = some (linkKey (portAt d p).kex (1 - (if lowerHere (portAt d p).kex then 0 else 1)))))


/-- R288, R289, R290, R291, R442: link-up trains and locks or waits to start again, twice as long after each failure up to 60 s; a lane
that lost lock is replaced by the spare; an authenticated beacon shows its peer and gives the port its wiring result; a port
without one 100 ms after its keys gets result 8; a retrain ends once the port is in service.
Where the spec leaves a point open, this states the model's choice: log entries 57, 58. -/
def Obligations.LinkUp : Prop :=
  ∀ (s : State) (p t : Nat), p < 8 →
    let c := s.chip
    let v := portAt c p
    (v.stage = .training → (Gives (.linkUpStart p true t) s fun s' => (portAt s'.chip p).stage = .plain ∧ linkState s'.chip p = 2 ∧
        objGet s'.chip 0x2601 0x02 p = 0x0F) ∧
      (Gives (.linkUpStart p false t) s fun s' => (portAt s'.chip p).stage = .down)) ∧
    (∀ d, v.stage = .down → v.downAt = some d → linkState c p = 0 → v.excluded = false → d + v.wait ≤ t →
      Gives (.linkRetryTimer p t) s fun s' => (portAt s'.chip p).stage = .training ∧ linkState s'.chip p = 1) ∧
    (v.stage ≠ .down → v.excluded = false → Gives (.linkDown p t) s fun s' => (portAt s'.chip p).stage = .down ∧ linkState s'.chip p = 0 ∧
      (portAt s'.chip p).txKey = none ∧ (portAt s'.chip p).outWords = [] ∧
      (v.upAt = none → (portAt s'.chip p).wait = v.retry ∧ (portAt s'.chip p).retry = min 60000000000 (2 * v.retry))) ∧
    (∀ lane ratio, ratio ≤ 10000 → Answers (.laneSubstitution p lane ratio false) s
      (onto s (objSet 0x2601 0x0F p (real32 ((ratio : Rat) / 1000000000)) c))) ∧
    (∀ lane ratio, v.stage ≠ .down → v.stage ≠ .training → fwPause c 3 = false → lane ≤ 4 → bitOf (objGet c 0x2601 0x02 p) lane = true →
      objGet c 0x2601 0x03 p = 0 → Gives (.laneSubstitution p lane ratio true) s fun s' => objGet s'.chip 0x2601 0x03 p = 1 ∧
        objGet s'.chip 0x2601 0x02 p = (objGet c 0x2601 0x02 p - 2 ^ lane) ||| 16) ∧
    (∀ lane count m d, takeMsg p 2 c = some (m, d) → Answers (.laneControl p lane count) s
      (onto s (laneDue p (setPort p { portAt d p with txLane := some (lane, count) } d)))) ∧
    (v.stage = .up → Answers (.beaconSend p) s (onto s (sendMsg p 1 0 (beaconBody p c) c))) ∧
    (∀ same m d, takeMsg p 1 (atTime t c) = some (m, d) → m.body.length = 64 → numAt m.body 0 1 = 1 → numAt m.body 3 1 < 16 →
      numAt m.body 0x39 7 = 0 → m.keyed = true → Gives (.identityBeacon p t same) s fun s' =>
        (portAt s'.chip p).beacon = true ∧ objGet s'.chip 0x2601 0x04 p = numAt m.body 8 8 ∧
        objGet s'.chip 0x2601 0x05 p = numAt m.body 2 1 * 256 + numAt m.body 1 1 ∧ objGet s'.chip 0x2601 0x06 p = numAt m.body 4 4) ∧
    (∀ k, v.keyedAt = some k → v.beacon = false → k + 100000000 ≤ t → Gives (.beaconTimeout p t) s fun s' =>
      objGet s'.chip 0x2601 0x08 p = 8) ∧
    (∀ e u, c.life.lease.holders.find? (fun e => e.act = .lr && e.obj == p) = some e → cellsFind c.life.retrain p = some u →
      inService c p = true → Gives (.linkRetrainDone p t) s fun s' => objGet s'.chip 0x2601 0x12 p = stOk ∧
        e ∈ s'.chip.life.lease.releases)

/-- R24, R292, R293, R294, R297: toward a module of the same wiring hash a timed word leaves its edge port in its fc with its tick and its
index in the tick's sequence, and none leaves toward one of another hash; in a repair
pause, in Survival and for a stopped function one with I = 1 takes its place; at the other end it is released in its fc, and one that has not
arrived leaves with P = 1 and is counted, and a stopped function's leaves with I = 1; a probe gives half its round trip as the
delay.
Where the spec leaves a point open, this states the model's choice: log entry 56. -/
def Obligations.TimedTransfers : Prop :=
  ∀ (s : State) (p e j : Nat) (en : SchedEntry), p < 7 →
    let c := s.chip
    let v := portAt c p
    let pl := wordPlace en j
    let arrived := c.grid.edge.find? (fun w => w.port == stomarEdge p pl.2 && w.fc == pl.1)
    (armedEntry c p e false = some en → j < en.count → inService c p = true → hashAt c p = true →
      (∀ w, arrived = some w → slotMuted c en = false → Gives (.timedWordTransmit p e j) s fun s' =>
        (portAt s'.chip p).timedOut = v.timedOut ++
          [{ tick := c.tk.tick, idx := wordIndex c p en j, data := w.data, poison := w.poison, invalid := w.invalid }] ∧
        s'.chip.grid.edge = c.grid.edge.erase w) ∧
      (slotMuted c en = true → Gives (.timedWordTransmit p e j) s fun s' =>
        (portAt s'.chip p).timedOut = v.timedOut ++
          [{ tick := c.tk.tick, idx := wordIndex c p en j, data := 0, poison := false, invalid := true }])) ∧
    (armedEntry c p e false = some en → j < en.count → hashAt c p = false → Gives (.timedWordTransmit p e j) s fun s' =>
      (portAt s'.chip p).timedOut = v.timedOut) ∧
    (armedEntry c p e true = some en → j < en.count →
      let i := wordIndex c p en j
      let rest := v.timedIn.filter (fun w => w.tick == c.tk.tick && w.idx != i)
      let c1 := setPort p { v with timedIn := rest, rxTick := c.tk.tick, rxIdx := max (i + 1) (if v.rxTick = c.tk.tick then v.rxIdx else 0) } c
      (entryStopped c en = true → Answers (.timedWordRelease p e j) s (onto s (portDeliverI (stomarEdge p pl.2) pl.1 { data := 0 } true c1))) ∧
      (∀ w, entryStopped c en = false → v.timedIn.find? (fun w => w.tick == c.tk.tick && w.idx == i) = some w →
        Answers (.timedWordRelease p e j) s (onto s (portDeliverI (stomarEdge p pl.2) pl.1 { data := w.data, poison := w.poison } w.invalid c1))) ∧
      (entryStopped c en = false → v.timedIn.find? (fun w => w.tick == c.tk.tick && w.idx == i) = none →
        Answers (.timedWordRelease p e j) s
          (onto s (portDeliverI (stomarEdge p pl.2) pl.1 { data := 0, poison := true } false (objBump 0x2601 0x0D p 1 c1))))) ∧
    (∀ m d rtt, takeMsg p 4 c = some (m, d) → Gives (.timingProbe p rtt) s fun s' => (portAt s'.chip p).delay = rtt / 2)

/-! Domains and pairs. -/

/-- R297, R298, R299, R300, R302, R303: a token not seen before is the one of the next boundary; the leader sends it 1,000 ns before it fires; a
busy-done of this tick is kept; a forwarded command is judged by the leader and its status returned; a domain whose members
are all ready forms; a silent member is lost at F + T/4, a silent leader replaced by the lowest position reached; a member
whose request the leader holds and whose wiring check has passed joins at an aligned boundary; the command latch closes 2,000 ns before F.
Where the spec leaves a point open, this states the model's choice: log entries 59, 60, 111. -/
def Obligations.DomainEvents : Prop :=
  ∀ (s : State) (t : Nat),
    let c := s.chip
    let c' := atTime t c
    (∀ port tok lead m d, port < 7 → takeMsg port 0x10 c' = some (m, d) → 2 ≤ domSize c → c.link.dom.token = none →
      Gives (.tickToken port tok lead t) s fun s' => s'.chip.link.dom.token = some tok ∧
        (domState c = 1 → domState s'.chip = 2 ∧ s'.chip.tk.tick = tok.tick - 1)) ∧
    (isLeader c = true → alone c' = false → tokenReady c = false → c.tk.busyEnded = true → allBusy c = true → fireTime c' ≤ c'.tk.now + 1000 →
      Answers (.tokenSend t) s (onto s (sendToken (c'.tk.now + 1000) c'))) ∧
    (∀ pos b m d, pos < 8 → pos ≠ myPos c → takeMsg (portToward c pos) 0x11 c = some (m, d) → b.tick = c.tk.tick →
      Gives (.busyDone pos b) s fun s' => cellsFind s'.chip.link.dom.busy pos = some b) ∧
    (∀ port d m e, port < 8 → takeMsg port 0x12 c = some (m, e) →
      (isLeader e = true → Answers (.forwardedCommand port d) s (onto s (sendMsg port 0x13 (serialAt (showUnsettled (leaderAccept d e).1) port)
        (Config.msgBody 0x13 [d.idx, d.sub, d.inst, d.value, (leaderAccept d e).2]) (showUnsettled (leaderAccept d e).1)))) ∧
      (isLeader e = false → Answers (.forwardedCommand port d) s (onto s e))) ∧
    (∀ port d st m e x, port < 8 → takeMsg port 0x13 c = some (m, e) → st ≠ stPending →
      e.link.dom.asked.find? (fun x => x.idx == d.idx && x.sub == d.sub && x.inst == d.inst && x.value == d.value) = some x →
      Gives (.forwardedCommandStatus port d st) s fun s' => objGet s'.chip (domStatus d).1 (domStatus d).2.1 (domStatus d).2.2 = st ∧
        s'.chip.link.dom.asked = e.link.dom.asked.erase x) ∧
    (∀ port adms pst moves p m e, port < 8 → takeMsg port 0x14 c = some (m, e) → c.plan.loaded = some p → c.tk.phase = .ac1536 →
      (follows e = false ∨ port ≠ pairPath e) → Answers (.servingDecisions port adms pst moves) s (onto s
        (let e1 := pst.foldl (fun c x => if x.1 < 2048 then setPst x.1 x.2.1 x.2.2 c else c) e
         writeBinds p (setServ { e1.serv with moves := e1.serv.moves ++ moves } e1)))) ∧
    (domReady c = true → inDomain c = false → domState c ≠ 1 → Gives (.domainFormed t) s fun s' =>
      domState s'.chip = (if myPos c = 0 then 2 else 1) ∧ presentMask s'.chip = 2 ^ domSize c - 1 ∧ leaderPos s'.chip = 0) ∧
    (∀ pos b, isLeader c = true → pos ≠ myPos c → isPresent c pos = true → cellsFind c.link.dom.busy pos = some b → b.tick ≠ c.tk.tick →
      tokenReady c = false → lossDue c' = true → Gives (.memberLost pos t) s fun s' => presentMask s'.chip = presentMask c - 2 ^ pos ∧
        domState s'.chip = 3 ∧ pos ∈ s'.chip.link.dom.lost) ∧
    (∀ reach, inDomain c = true → isLeader c = false → tokenReady c = false → lossDue c' = true → c.tk.busyEnded = false →
      Gives (.leaderLost reach t) s fun s' => domState s'.chip = 3 ∧ leaderPos s'.chip =
        ((reach.filter (fun q => q < domSize c && q != leaderPos c)) ++ [myPos c]).foldl min (myPos c)) ∧
    (∀ pos, c.tk.phase = .ac0 → c.tk.tick % startAlign c' = 0 → pos ≠ myPos c → isLeader c = true → c.link.dom.joining.contains pos = true →
      wiredTo c (portToward c pos) = true →
      Gives (.memberJoin pos t) s fun s' => presentMask s'.chip = (presentMask c ||| 2 ^ pos) ∧ pos ∉ s'.chip.link.dom.joining) ∧
    (inDomain c = true → fireTime c' ≤ c'.tk.now + 2000 → Answers (.domainCommandLatch t) s
      (onto s { c' with link := { c'.link with dom := { c'.link.dom with latched := true } } }))

/-- R306, R307, R309, R310, R311: a heartbeat shows the peer; without one for 1.5 T the peer is lost; a takeover that is due makes this module
active, counted with its tick; a due capture is taken once, sent by the active module with its digest, or abandoned; a
complete one enters the store; a stream's binding is the peer's last; convergence ends at a boundary; after the hold-off the
primary asks to return, the standby names the boundary and the primary takes it.
Where the spec leaves a point open, this states the model's choice: log entries 61, 62. -/
def Obligations.PairEvents : Prop :=
  ∀ (s : State) (t : Nat),
    let c := s.chip
    let c' := atTime t c
    (∀ d active relinq, takePeer 0x20 c' = some d → Gives (.pairHeartbeat active relinq t) s fun s' =>
      s'.chip.link.pair.beat = some c'.tk.now ∧ s'.chip.link.pair.peerActive = active ∧ s'.chip.link.pair.peerLost = false ∧
      (pairRole c = 1 → active = true → paired d = true → pairActive s'.chip = false)) ∧
    (∀ b, c.link.pair.beat = some b → paired c = true → c.link.pair.peerLost = false → 2 * b + 3 * tickNs c ≤ 2 * t →
      Gives (.heartbeatTimeout t) s fun s' => s'.chip.link.pair.peerLost = true ∧ s'.chip.link.pair.peerActive = false) ∧
    (∀ w p, c.link.pair.takeover = some w → c.plan.loaded = some p → lockstep c = true → w < c.tk.tick → paired c = true → c.tk.phase = .ac0 →
      c.tk.mode = .running → Gives .standbyTakeover s fun s' => pairActive s'.chip = true ∧ s'.chip.link.pair.takeover = none ∧
        objGet s'.chip 0x2620 0x09 0 = c.tk.tick ∧ objGet s'.chip 0x2620 0x08 0 = objGet (objBump 0x2620 0x08 0 1 c) 0x2620 0x08 0) ∧
    (∀ e p m, c.plan.loaded = some p → mirrorEntry p e = some m → paired c = true → captureDue c m = true →
      (m.kind ≠ 0 → c.tk.phase = .ac0 → c.fw.down = false → e ∉ c.link.pair.sending → Gives (.mirrorCapture e) s fun s' =>
        s'.chip.link.pair.sending = c.link.pair.sending ++ [e] ∧ s'.chip.grid = c.grid ∧ s'.chip.serv = c.serv ∧
        (pairActive c = true → objGet s'.chip 0x2621 0x01 0 = objGet (objBump 0x2621 0x01 0 1 c) 0x2621 0x01 0)) ∧
      (pairActive c = true → c.tk.phase = .ac3584 → e ∉ c.link.pair.sending → Answers (.captureAbandoned e) s (onto s
        (objBump 0x2621 0x03 0 1 { c with link := { c.link with pair := { c.link.pair with sending := c.link.pair.sending ++ [e] } } })))) ∧
    (∀ e k data d, takePeer 0x21 c = some d → cellsFind d.link.pair.arriving e = none → Gives (.mirrorCaptureData e k data) s fun s' =>
      cellsFind s'.chip.link.pair.arriving e = some { entry := e, tick := k, data := data }) ∧
    (∀ e k x d, takePeer 0x22 c = some d → cellsFind d.link.pair.arriving e = some x → x.tick = k → paired d = true →
      Gives (.captureEnd e k (sha3Bytes x.data)) s fun s' => cellsFind s'.chip.link.pair.store e = some x) ∧
    (c.link.pair.converge = 1 → c.tk.phase = .ac0 → Gives .convergenceEnd s fun s' => s'.chip.link.pair.converge = 0) ∧
    (∀ stream k ts d, takePeer 0x15 c = some d → Gives (.streamBinding stream k ts) s fun s' =>
      (∀ x ∈ s'.chip.link.pair.binds, x.1 = stream → x = (stream, k, ts)) ∧ (stream, k, ts) ∈ s'.chip.link.pair.binds) ∧
    (∀ u, pairHealthy c = true → pairActive c = false → c.link.pair.healthySince = some u → c.link.pair.inhibit = false →
      c.link.pair.returnAt = none → u + objGet c 0x2620 0x04 0 * 1000000000 ≤ t →
      Gives (.returnHoldoffExpiry t) s fun s' => objGet s'.chip 0x2620 0x06 0 = 5) ∧
    (∀ d, pairRole c = 2 → takePeer 0x23 c = some d → paired d = true → pairActive d = true → d.link.pair.inhibit = false →
      Gives .returnRequest s fun s' => s'.chip.link.pair.returnAt = some (c.tk.tick + if lockstep c then 2 else 1)) ∧
    (∀ b d, pairRole c = 1 → takePeer 0x23 c = some d → paired d = true → pairActive d = false → Gives (.returnReply b) s fun s' =>
      s'.chip.link.pair.returnAt = some b)

/-! Security. -/

/-- R318, R321, R323, R329, R330, R341: a quote is signed and posted while the module is settled, and a retry hint posted when it stays
unsettled to boundary k + 4; a slot held 600 s after posting is freed; an installed key is current from its boundary and the
one before it retiring, erased at its deadline; a service session's begin and end are measured.
Where the spec leaves a point open, this states the model's choice: log entries 30, 53, 54, 55, 112. -/
def Obligations.SecurityEvents : Prop :=
  ∀ (s : State),
    let c := s.chip
    (∀ n sd, n < 8 → quoteDue n c = true → unsettledCode c = 0 → c.sec.seed = some sd → Gives (.quoteSign n) s fun s' =>
      objGet s'.chip 0x2704 0x03 n = stOk ∧ (quoteSlot s'.chip n).asked = none ∧ (quoteSlot s'.chip n).posted = some c.tk.now ∧
      blobGet s'.chip 0x2704 0x04 n = quoteBody n true 0 c ++ idSign sd (quoteBody n true 0 c)) ∧
    (∀ n a b, n < 8 → hintDue n c = true → Gives (.quoteRetryHint n a b) s fun s' => objGet s'.chip 0x2704 0x03 n = stUnsettled ∧
      (quoteSlot s'.chip n).asked = none ∧ blobGet s'.chip 0x2704 0x04 n = quoteBody n false (retryMs a b c) c) ∧
    (∀ n t p, n < 8 → (quoteSlot c n).posted = some p → p + 600000000000 ≤ t → Gives (.quoteSlotTimeout n t) s fun s' =>
      quoteSlot s'.chip n = {} ∧ blobGet s'.chip 0x2704 0x04 n = []) ∧
    (∀ k, c.tk.timer = true → c.tk.phase = .ac0 → c.sec.installs = [k] → k.tick < c.tk.tick →
      Answers .keyGenerationCurrent s (onto s (installKey 0 c)) ∧ (installKey 0 c).sec.installs = [] ∧
      keyAt (installKey 0 c) k.kind k.scope k.gen = some { st := .current, key := k.key, salt := k.salt, tenant := k.tenant } ∧
      (∀ g p, currentKey c k.kind k.scope = some (g, p) → g ≠ k.gen → k.gen < 2 → g < 2 →
        keyAt (installKey 0 c) k.kind k.scope g = some { p with st := .retiring, since := c.tk.boundaryAt })) ∧
    (∀ kind scope g k, c.tk.timer = true → c.tk.phase = .ac0 → retiringKey c kind scope = some (g, k) → retireDeadline c k.since ≤ c.tk.boundaryAt →
      Gives (.keyRetirement kind scope) s fun s' => keyAt s'.chip kind scope g = some { st := .retired, key := 0, salt := [], tenant := k.tenant }) ∧
    (objGet c 0x2722 0x01 0 = 0 → c.power.pwrGood = true → Answers .serviceSessionBegin s (onto s (sessionEvent true c)) ∧
      objGet (sessionEvent true c) 0x2722 0x01 0 = 1) ∧
    (objGet c 0x2722 0x01 0 = 1 → Answers .serviceSessionEnd s (onto s (sessionEvent false c)) ∧
      objGet (sessionEvent false c) 0x2722 0x01 0 = 0)

/-! Power and cooling. -/

/-- R349, R350, R361, R364, R365, R367, R370, R371, R372: an estimate joins the millisecond's; a calibration keeps the gain in 0.8 to 1.25; a droop
episode is counted and stretches the tick; stale readings are counted; die samples show the hottest sensor and, above 105 °C,
enter Survival and halt compute; keep-warm power ends where it is off; a wake state is entered only when deeper.
Where the spec leaves a point open, this states the model's choice: log entries 33, 63, 65, 66. -/
def Obligations.PowerEvents : Prop :=
  ∀ (s : State) (t : Nat),
    let c := s.chip
    let c' := atTime t c
    (∀ counts, Gives (.powerEstimate counts) s fun s' => s'.chip.power.ms.n = c.power.ms.n + 1 ∧ s'.chip.power.gain = c.power.gain) ∧
    (∀ mv ma, Gives (.gainCalibration mv ma t) s fun s' => 4 / 5 ≤ s'.chip.power.gain ∧ s'.chip.power.gain ≤ 5 / 4 ∧
      objGet s'.chip 0x2510 0x03 0 = min 65535 mv ∧ s'.chip.power.ms = {}) ∧
    (c.power.droop = none → c.power.halted = false → Gives (.droopEvent t) s fun s' => s'.chip.power.droop = some c'.tk.now ∧
      s'.chip.power.tickDroops = c.power.tickDroops + 1 ∧ objGet s'.chip 0x2505 0x01 0 = objGet (objBump 0x2505 0x01 0 1 c) 0x2505 0x01 0) ∧
    (∀ u, c.power.droop = some u → Answers (.droopRecovery t) s
      (onto s { c' with power := { c'.power with droop := none, stretch := c'.power.stretch + (c'.tk.now - u) } })) ∧
    (objGet c 0x2505 0x03 0 = 0 → Answers .droopLockExpiry s (onto s { c with power := { c.power with lockStep := 6 } })) ∧
    (∀ u, c.power.lastFresh = some u → c.power.stale = false → c.power.needed ≤ c.power.fresh → protects c' = true → u + 100000000 ≤ t →
      Gives (.coolantStale t) s fun s' => s'.chip.power.stale = true ∧ s'.chip.power.inRow = 0 ∧
        objGet s'.chip 0x2521 0x06 0 = objGet (objBump 0x2521 0x06 0 1 c) 0x2521 0x06 0) ∧
    (∀ (d : Int) ds, Gives (.dieSensorSample (d :: ds) t) s fun s' => s'.chip.power.die = ds.foldl max d ∧
      objGet s'.chip 0x2521 0x01 0 = toTwos 16 (ds.foldl max d) ∧
      (10500 < ds.foldl max d → protects c' = true → c.tk.mode ≠ .survival →
        s'.chip.tk.mode = .survival ∧ s'.chip.power.halted = true ∧ s'.chip.tk.step = 0 ∧ objGet s'.chip 0x2502 0x02 0 = 4)) ∧
    (objGet c 0x2540 0x03 0 ≠ 1 → Answers .keepWarmAdjust s (onto s (objSet 0x2540 0x02 0 0 c))) ∧
    (c.tk.mode ≠ .running → c.power.waking = false → c.tk.deferred = [] → c.plan.cmd = none → c.plan.loading = none → c.life.lease.holders = [] →
      wakeCode c.tk.wake < wakeCode (wakeTarget c) → Gives .wakeStateEntry s fun s' => s'.chip.tk.wake = wakeTarget c ∧
        objGet s'.chip 0x2530 0x02 0 = wakeCode (wakeTarget c)) ∧
    (c.power.waking = true → Answers (.wakeComplete t) s (onto s (wakeAll c'))) ∧ (∀ d : Chip, (wakeDone d).tk.wake = .run)

/-- R365, R366, R368, R449, R451, R455, R460, R471: what each loss of input or trip leaves, and how the module starts again.
R373, R449, R452, R453, R456, R457 (Tables 15-1, 15-3): PWR_GOOD 20 ms into the soft start loses all that flash does not keep and
leads to Booting, to Harebell or to a stop; BOOT_COMPLETE enters Idle with the tick timer at the boundary before tick 0, or
stops where HBM training failed.
Where the spec leaves a point open, this states the model's choice: log entries 16, 36, 71. -/
def Obligations.StartAndStop : Prop :=
  (∀ (s : State) (t : Nat),
    let c := s.chip
    let c' := atTime t c
    (protects c' = true → c.tk.mode ≠ .survival → Gives (.undervoltageQualified t) s fun s' => s'.chip.tk.mode = .survival ∧
      s'.chip.tk.step = 0 ∧ s'.chip.tk.before = c.tk.mode ∧ s'.chip.power.okSince = none ∧ objGet s'.chip 0x2502 0x02 0 = 1) ∧
    (c.tk.mode ≠ .off → c.tk.mode ≠ .stopped → c.tk.mode ≠ .softStart →
      (Gives (.inputBelow44v t) s fun s' => s'.chip.tk.mode = .stopped ∧ s'.chip.power.rails = .off ∧ s'.chip.tk.timer = false ∧
        s'.chip.power.stopCause = .orderly) ∧
      (Gives (.thermalTrip t) s fun s' => s'.chip.tk.mode = .stopped ∧ s'.chip.power.gridOn = false ∧ s'.chip.power.stopCause = .trip ∧
        s'.chip.tk.timer = false) ∧
      (Gives (.resetNQualified t) s fun s' => s'.chip.tk.mode = .stopped ∧ s'.chip.power.rails = .off ∧ s'.chip.power.resetAt = some c'.tk.now)) ∧
    (c.tk.mode ≠ .off →
      (Gives (.overvoltageTrip t) s fun s' => s'.chip.tk.mode = .stopped ∧ s'.chip.power.rails = .off ∧ s'.chip.power.stopCause = .overvoltage ∧
        s'.chip.power.offAt = some c'.tk.now) ∧
      (Gives (.currentLimitTrip t) s fun s' => s'.chip.tk.mode = .off ∧ s'.chip.power.rails = .off ∧ s'.chip.power.stopCause = .limit) ∧
      (Gives (.inputOff t) s fun s' => s'.chip.tk.mode = .off ∧ s'.chip.power.rails = .off ∧ s'.chip.power.pwrGood = false)) ∧
    (∀ u, c.power.offAt = some u → u + 1000000000 ≤ t →
      (c.power.stopCause = .overvoltage → c.tk.mode = .stopped → Gives (.overvoltageRecovery t) s fun s' => s'.chip.tk.mode = .softStart ∧
        s'.chip.power.rails = .soft c'.tk.now) ∧
      (c.power.stopCause = .limit → c.tk.mode = .off → Gives (.currentLimitRestart t) s fun s' => s'.chip.tk.mode = .softStart ∧
        s'.chip.power.rails = .soft c'.tk.now)) ∧
    (c.tk.mode = .off → c.power.stopCause = .none → Gives (.softStart t) s fun s' => s'.chip.tk.mode = .softStart ∧
      s'.chip.power.rails = .soft c'.tk.now) ∧
    (∀ u, c.power.okSince = some u → u + 100000000 ≤ t → c.tk.mode = .booting → c.power.bootHeld = true → ∀ hot : Int,
      hot ≤ 8500 ∨ (c.power.gridPassed = false ∧ c.power.fromTrip = false) →
      Gives (.bootResume hot t) s fun s' => s'.chip.power.bootHeld = false ∧ s'.chip.power.gridOn = true) ∧
    (∀ ns, 10000 ≤ ns → ns < 100000 → c.tk.mode ≠ .off → c.tk.mode ≠ .softStart → Answers (.resetNGlitch ns t) s (onto s (logRec 1 srcPower .resetGlitch [] c'))) ∧
    (∀ u, c.power.resetAt = some u → u + 50000000 ≤ t → Gives (.resetNRelease t) s fun s' => s'.chip.tk.mode = .softStart ∧
      s'.chip.power.rails = .on ∧ s'.chip.power.resetAt = none)) ∧
  (∀ (s : State) (t : Nat),
    let c := s.chip
    (∀ u cores flips bad mv hot, c.tk.mode = .softStart → c.power.rails = .soft u → u + 20000000 ≤ t →
      Gives (.pwrGood cores flips bad mv hot t) s fun s' =>
        (s'.chip.tk.mode = .booting ∨ s'.chip.tk.mode = .harebell ∨ s'.chip.tk.mode = .stopped) ∧ s'.chip.plan.loaded = none ∧
        s'.chip.hbm.lines = [] ∧ s'.chip.serv.reqs = [] ∧ s'.chip.sec.keys = [] ∧ s'.chip.sec.birth = c.sec.birth ∧ s'.chip.sec.helpers = c.sec.helpers ∧
        s'.chip.hbm.spares = c.hbm.spares) ∧
    (∀ cols engines spares, c.tk.mode = .booting → c.power.bootHeld = false →
      (Gives (.bootComplete cols engines spares true t) s fun s' => s'.chip.tk.mode = .idle ∧ s'.chip.tk.timer = true ∧ s'.chip.tk.fresh = true ∧
        s'.chip.tk.tick = 0 ∧ ∀ p, p < 8 → linkState s'.chip p = 1) ∧
      (Gives (.bootComplete cols engines spares false t) s fun s' => s'.chip.tk.mode = .stopped ∧ s'.chip.power.rails = .off)))


/-! Firmware. -/

/-- R390, R408, R409, R410, R412, R458: a component restarts alone, counted with its tick and cause; while the dictionary server restarts
IOR1 is clear and no request is taken, and its restart clears the access contexts, the snapshot groups and the request taken, and keeps
the writes taken; a complex reset erases the keys and the identity
and starts with the complex down; the rebuild ends that state; the log is mirrored no sooner than 1 s after the last time.
Where the spec leaves a point open, this states the model's choice: log entry 69. -/
def Obligations.ComplexEvents : Prop :=
  ∀ (s : State) (t : Nat),
    let c := s.chip
    let c' := atTime t c
    (∀ id (cause : Fin 4) msgs retained, 1 ≤ id → id ≤ 7 → c.fw.down = false →
      ((cellsGet [] c.fw.restarts id).filter (fun u => decide (c'.tk.now ≤ u + 60000000000))).length < 2 →
      Gives (.componentRestart id cause msgs retained t) s fun s' => id ∈ s'.chip.fw.restarting ∧
        objGet s'.chip 0x2811 0x02 id = objGet (objBump 0x2811 0x02 id 1 c) 0x2811 0x02 id ∧
        objGet s'.chip 0x2811 0x03 id = c.tk.tick ∧ objGet s'.chip 0x2811 0x04 id = cause.val ∧ s'.chip.fw.down = false) ∧
    (∀ (cause : Fin 4) msgs retained, c.fw.down = false → Gives (.componentRestart 1 cause msgs retained t) s fun s' =>
      s'.chip.dict.ctxs = [] ∧ s'.chip.dict.groups = Vector.replicate 8 {} ∧ s'.chip.win.taken = none ∧
      s'.chip.dict.pendingW = c.dict.pendingW ∧ ior1 s'.chip = false) ∧
    (1 ∈ c.fw.restarting → ior1 c = false ∧ Answers .requestTake s (onto s c)) ∧
    (∀ cause, complexRuns c = true → 1 ≤ cause → cause ≤ 4 → objGet c 0x2812 0x01 0 = 15 → Gives (.complexReset cause 15 t) s fun s' =>
      s'.chip.fw.down = true ∧ objGet s'.chip 0x2812 0x03 0 = cause ∧ s'.chip.sec.keys = [] ∧ s'.chip.sec.seed = none ∧
      s'.chip.sec.rebuilding = true ∧ s'.chip.grid = c.grid ∧ s'.chip.hbm = c.hbm ∧ s'.chip.plan = c.plan) ∧
    (∀ flips, c.sec.rebuilding = true → c.fw.down = false → Gives (.registerRebuild flips) s fun s' => s'.chip.sec.rebuilding = false ∧
      s'.chip.sec.seed = pufSeed c.sec.birth c.sec.helpers flips ∧
      objGet s'.chip 0x2700 0x01 0 = identityOf c.sec.birth c.sec.helpers (pufSeed c.sec.birth c.sec.helpers flips)) ∧
    (c.log.mirrorDue = true → c.fw.down = false → (∀ u, c.log.mirrorAt = some u → u + 1000000000 ≤ t) → Gives (.logMirror t) s fun s' =>
      s'.chip.log.mirrorDue = false ∧ s'.chip.log.mirrored = c.log.next ∧ s'.chip.log.mirrorAt = some c'.tk.now ∧
      objGet s'.chip 0x2A01 0x02 0 = s'.chip.log.mirror.length)

/-- R419, R421, R423, R424, R425, R426: programming that reads back leaves the slot valid, else empty; at its boundary an activation or a revert pauses its component and writes the handover record's header, and the component starts from
the first-use state where the record is lost or the image does not take its format; at the pause's end the slot is active and unconfirmed; confirmed, it raises the floor; broken or not confirmed in
30 s of counted time, the slot fails and the other one is restored.
Where the spec leaves a point open, this states the model's choice: log entries 68, 107. -/
def Obligations.UpdateEvents : Prop :=
  ∀ (s : State) (n : Fin 5) (u : Update), updOf s.chip n = some u →
    let c := s.chip
    let k := fwComp c n
    (u.phase = .programming →
      (Gives (.programDone n true) s fun s' => fwSlot (fwComp s'.chip n) u.slot = { st := .valid, image := u.image } ∧
        objGet s'.chip 0x2801 0x0A n = stOk ∧ updOf s'.chip n = none) ∧
      (Gives (.programDone n false) s fun s' => fwSlot (fwComp s'.chip n) u.slot = {} ∧ objGet s'.chip 0x2801 0x0A n = stIntegrity ∧
        updOf s'.chip n = none)) ∧
    (c.tk.phase = .ac0 → c.fw.down = false →
      (u.phase = .granted → u.boundary ≤ c.tk.tick → wakeCode c.tk.wake ≤ 1 →
        let d := if u.revert then startPause u .reverting (noteRevert n c) else startPause u .pause c
        (takesFormat u.image (handoverOf u c).format = true → Answers (.activationPauseStart n true) s (onto s d)) ∧
        (takesFormat u.image (handoverOf u c).format = false → Answers (.activationPauseStart n true) s (onto s (handoverLost n d))) ∧
        Answers (.activationPauseStart n false) s (onto s (handoverLost n d)) ∧
        (updOf d n).map (·.phase) = some (if u.revert then .reverting else .pause) ∧ d.fw.handover = some (handoverOf u c)) ∧
      (u.phase = .pause → u.boundary < c.tk.tick → u.slot < 2 → Gives (.activationPauseEnd n) s fun s' =>
        (fwComp s'.chip n).active = u.slot ∧ (fwActive s'.chip n).st = .unconfirmed ∧ (fwActive s'.chip n).image = (fwSlot k u.slot).image ∧
        (updOf s'.chip n).map (·.phase) = some .confirming) ∧
      (u.phase = .confirming → confirmTime u c = true → u.broken = false → Gives (.imageConfirmed n) s fun s' => (fwActive s'.chip n).st = .confirmed ∧
        (∀ i, (fwActive c n).image = some i → (fwComp s'.chip n).floor = max k.floor i.sec) ∧ updOf s'.chip n = none ∧
        (u.owed = true → objGet s'.chip 0x2801 0x0A n = stOk)) ∧
      (∀ broken, u.phase = .confirming → (broken = true ∨ u.broken = true ∨ 30000000000 ≤ u.counted) → u.revert = false → u.slot < 2 → slotUsable (fwSlot k (1 - u.slot)) = true →
        Gives (.confirmationTimeout n broken) s fun s' => (fwSlot (fwComp s'.chip n) u.slot).st = .failed ∧
          (updOf s'.chip n).map (fun x => (x.phase, x.slot)) = some (.reverting, 1 - u.slot)))

/-- R428, R430, R431 (Tables 13-8, 13-9): Harebell's commands: each leaves INT2 pending; BEGIN checks a header and erases a slot, CHUNK
continues at H_OFFSET, END makes a verified image active unconfirmed, CANCEL leaves the slot empty; REBOOT starts again from
PWR_GOOD once every component has a usable image. Outside Harebell they change nothing.
Where the spec leaves a point open, this states the model's choice: log entry 70. -/
def Obligations.HarebellEvents : Prop :=
  ∀ (s : State),
    let c := s.chip
    let h := (List.range 256).map (fun i => BitVec.ofNat 8 (cellsGet 0 c.fw.hb.header i))
    (c.tk.mode = .harebell →
      (birthOk c.sec.birth = false → Answers .beginHb s (onto s (hbDone stIntegrity c))) ∧
      (birthOk c.sec.birth = true → fwHeader h = none → Answers .beginHb s (onto s (hbDone stRange c))) ∧
      (∀ i, birthOk c.sec.birth = true → fwHeader h = some i → fwAllowed c i = true → i.component < 5 → Gives .beginHb s fun s' =>
        ∃ n, s'.chip.fw.hb.load = some (i.component, n, []) ∧ s'.chip.fw.hb.offset = 0 ∧ s'.chip.fw.hb.err = stOk ∧ s'.chip.fw.hb.int2 = true ∧
          (fwSlot (fwComp s'.chip i.component) n).st = .writing) ∧
      (∀ off, c.fw.hb.load = none → Answers (.chunk off) s (onto s (hbDone stState c)) ∧ Answers .endHb s (onto s (hbDone stState c)) ∧
        Answers .cancel s (onto s (hbDone stOk c))) ∧
      (∀ comp n bytes, c.fw.hb.load = some (comp, n, bytes) →
        (1 ≤ c.fw.hb.len → c.fw.hb.len ≤ 65536 →
          c.fw.hb.offset + c.fw.hb.len ≤ (List.range 8).foldl (fun s i => s + cellsGet 0 c.fw.hb.header (0x28 + i) * 256 ^ i) 0 →
          Gives (.chunk c.fw.hb.offset) s fun s' => s'.chip.fw.hb.offset = c.fw.hb.offset + c.fw.hb.len ∧
            ∃ d, s'.chip.fw.hb.load = some (comp, n, bytes ++ d) ∧ d.length = c.fw.hb.len) ∧
        (∀ i, comp < 5 → n < 2 → fwCheck c comp bytes = .ok i → Gives .endHb s fun s' => (fwComp s'.chip comp).active = n ∧
          fwActive s'.chip comp = { st := .unconfirmed, image := some i } ∧ s'.chip.fw.hb.imageDone = true ∧ s'.chip.fw.hb.err = stOk) ∧
        (comp < 5 → Gives .cancel s fun s' => fwSlot (fwComp s'.chip comp) n = {} ∧ s'.chip.fw.hb.load = none ∧ s'.chip.fw.hb.int2 = true)) ∧
      (hbNeed c ≠ 0 → Answers .reboot s (onto s (hbDone stNoResource c))) ∧
      (hbNeed c = 0 → compatFails c = none → Gives .reboot s fun s' => s'.chip.tk.mode = .softStart ∧ s'.chip.fw.hb.rebooted = true)) ∧
    (c.tk.mode ≠ .harebell → ∀ i ∈ [Instr.beginHb, .endHb, .reboot, .cancel], Answers i s (onto s c))

/-! Life and maintenance. -/

/-- R434, R436, R437, R439, R440, R441: the calendar's first knowledge is recorded with its tick; a life record is written after 60 s of
power-on time; a suspect SRAM word of a tile that is not held is copied in a slack window and switched at the next boundary; a failed engine is held until
its spare stands in; a block that failed or has 80,000 erases is retired.
Where the spec leaves a point open, this states the model's choice: log entries 67, 73. -/
def Obligations.LifeEvents : Prop :=
  ∀ (s : State) (t : Nat),
    let c := s.chip
    let c' := atTime t c
    (∀ d, (c.life.tray = some d ∨ (c.life.tray = none ∧ c.life.calendar = some d)) → objGet c 0x1F10 0x05 0 = 0 → objGet c 0x2901 0x04 0 = allOnes64 →
      Gives (.calendarKnown t) s fun s' => objGet s'.chip 0x2901 0x04 0 = c.tk.tick ∧ objGet s'.chip 0x2901 0x01 0 = (d + c'.tk.now).toNat ∧
        objGet s'.chip 0x2901 0x02 0 = (if c.life.tray.isSome then 2 else 3)) ∧
    ((countTime c').life.recordAt + 60 ≤ objGet (countTime c') 0x2900 0x01 0 →
      Answers (.lifeRecordWrite t) s (onto s (writeLifeRecord false (countTime c')))) ∧
    (∀ u wa, u < 2048 → c.tk.phase = .slack → (tileAt c u).held = false → (tileAt c u).suspects.contains wa = true → bankUsed (tileAt c u) (sramBank wa) < 8 →
      Gives (.redundantRowCopy u wa) s fun s' => wa ∉ (tileAt s'.chip u).suspects ∧ (tileAt s'.chip u).copied = (tileAt c u).copied ++ [wa]) ∧
    (∀ u wa, u < 2048 → c.tk.phase = .ac0 → (tileAt c u).copied.contains wa = true → Gives (.redundantRowSwitch u wa) s fun s' =>
      (tileAt s'.chip u).spareWords = (tileAt c u).spareWords ++ [wa] ∧ objGet s'.chip 0x2921 0x03 (physIndex c u) = (tileAt c u).spareWords.length + 1) ∧
    (∀ code k, engineExists code = true → kindOf code = some k → c.life.heldEngines.contains code = false →
      Gives (.engineDeclaredFailed code) s fun s' => s'.chip.life.heldEngines = c.life.heldEngines ++ [code] ∧ classActive s'.chip 0x0A = true) ∧
    (∀ e k, c.tk.phase = .ac0 → c.life.inserting = none → c.life.lease.holders.find? (fun e => e.act = .es && decide (e.tick < c.tk.tick)) = some e →
      kindOf e.obj = some k → Gives .engineSpareInsertion s fun s' => s'.chip.life.inserting = some (e.obj, c.tk.tick) ∧
        s'.chip.life.sparedEngines = c.life.sparedEngines ++ [e.obj]) ∧
    (∀ code b, c.tk.phase = .ac0 → c.life.inserting = some (code, b) → b < c.tk.tick → Gives .engineSpareInsertionEnd s fun s' =>
      s'.chip.life.inserting = none ∧ code ∉ s'.chip.life.heldEngines) ∧
    (∀ (kind : Fin 4) k, kindOf (16 * kind.val) = some k → spareState c k = 0 → Gives (.engineSpareSelfTest kind false) s fun s' =>
      s'.chip.life.spareLost = c.life.spareLost ++ [k]) ∧
    (∀ part erases failed, part < 18 → (failed = true ∨ 80000 ≤ erases) → 0 < objGet c 0x2910 0x08 0 →
      Gives (.flashBlockRetire part erases failed) s fun s' => objGet s'.chip 0x2910 0x08 0 = objGet c 0x2910 0x08 0 - 1 ∧
        objGet s'.chip 0x2910 0x09 0 = max erases (objGet c 0x2910 0x09 0))

/-- R442, R443, R444, R446, R447: at the lease scan what was released leaves first, and a lone queued request for a spare insertion is granted
when nothing holds the lease; two entries fit together whichever is taken first; a demand scrub whose pass is full releases the lease; a fault class held for a time ends when it has passed.
Where the spec leaves a point open, this states the model's choice: log entries 74, 81. -/
def Obligations.LeaseEvents : Prop :=
  ∀ (s : State) (t : Nat),
    let c := s.chip
    (c.tk.phase = .ac0 → c.fw.down = false → leaseOpen c = true →
      Answers .leaseGrantScan s (onto s (leaseBoundary c)) ∧
      (c.life.lease.queue = [] → (leaseBoundary c).life.lease.holders = c.life.lease.holders.filter (fun e => !c.life.lease.releases.contains e) ∧
        (leaseBoundary c).life.lease.releases = []) ∧
      (∀ e, c.life.lease.holders = [] → c.life.lease.queue = [e] → e.act = .si ∨ e.act = .es → (leaseBoundary c).life.lease.holders = [e] ∧
        (leaseBoundary c).life.lease.queue = [])) ∧
    (∀ a b : LeaseEntry, leaseCompat a b = leaseCompat b a) ∧
    (c.life.scrubbing = true → leaseHeld c .ds = true → scrubFull c = true → Gives .demandScrubDone s fun s' => objGet s'.chip 0x2903 0x02 0 = stOk ∧
      objGet s'.chip 0x2903 0x03 0 = 1000 ∧ s'.chip.life.scrubbing = false) ∧
    (∀ n u, n < 18 → n ≠ 0x10 → n ≠ 0x01 → cellsFind c.life.classUntil n = some u → u ≤ t → Gives (.faultClassExpiry n t) s fun s' =>
      classActive s'.chip n = false ∧ cellsFind s'.chip.life.classUntil n = none)

/-! Dictionary commands. -/

/-- R141, R154-R163 (Table 5-10): a LOAD takes its staged image and starts its check run; RUN, PAUSE, RESUME, STOP and UNLOAD wait
for their boundary; an overlay request becomes the mask wanted; an abort and a restart of a function join those pending, with the
tick at which they were accepted.
Where the spec leaves a point open, this states the model's choice: log entries 78, 79. -/
def Obligations.PlanCommands : Prop :=
  ∀ (s : State) (r : Role),
    let c := s.chip
    let img := dictImage s
    let h := ctxVal c r 0x2100 0x04
    (∀ hd, Granted s r 0x2100 0x01 0 1 → judgedMode img c = .idle ∨ judgedMode img c = .loaded → anyUnconfirmed c = false → leaseHeld c .ppr = false →
      beyondReduced c = false → cellsFind c.intake.handles h = some hd → hd.kind = 0 → hd.st = .complete ∨ hd.st = .inUse →
      Does (.load r) s stPending (0x2100, 0x02, 0) fun s' => cellsFind s'.chip.intake.handles h = some { hd with st := .inUse } ∧
        objGet s'.chip 0x2100 0x03 0 = 0 ∧ ∃ ld, s'.chip.plan.loading = some ld ∧ ld.handle = h ∧
          (∀ p, validatePlan c h hd = .ok p → ld.plan = some p) ∧
          (∀ f, validatePlan c h hd = .error f → ld.plan = none ∧ ld.fail = (f.1, classStatus f.1, f.2))) ∧
    (∀ e ∈ [(Instr.run r, 2), (.pause r, 3), (.resume r, 4), (.stop r, 5), (.unload r, 6)], Granted s r 0x2100 0x01 0 e.2 →
      forwards c = false → planAllowed img c e.2 = true → (e.2 = 2 → inDomain c = true ∨ domSize c < 2) →
      Does e.1 s stPending (0x2100, 0x02, 0) fun s' => ∃ w, s'.chip.plan.cmd = some w ∧ w.code = e.2 ∧ w.tick = acceptTick c) ∧
    (∀ (mask : BitVec 16) p, Granted s r 0x2102 0x01 0 mask.toNat → c.plan.loaded = some p → bitOf mask.toNat 0 = true →
      (requestable p).contains mask.toNat = true → forwards c = false →
      (mask.toNat ≠ c.plan.want → Does (.overlayRequest r mask) s stPending (0x2102, 0x02, 0) fun s' =>
        s'.chip.plan.want = mask.toNat ∧ s'.chip.plan.ovlWaiting = true) ∧
      (mask.toNat = c.plan.want → Does (.overlayRequest r mask) s stOk (0x2102, 0x02, 0) fun s' => s'.chip.plan = c.plan)) ∧
    (∀ fn : BitVec 16, Granted s r 0x2410 0x01 0 fn.toNat → judgedMode img c = .running ∨ judgedMode img c = .paused → fn ≠ 0 →
      fnInPlan c fn.toNat = true → ownsFn c r fn.toNat = true → forwards c = false → abortState (judgedMode img c) fn.toNat c = none →
      Does (.abortFunction r fn) s stPending (0x2410, 0x02, 0) fun s' => objGet s'.chip 0x2412 0x02 fn.toNat = stPending ∧
        objGet s'.chip 0x2412 0x03 fn.toNat = acceptTick c ∧
        s'.chip.plan.aborts = c.plan.aborts ++ [{ fn := fn.toNat, tick := acceptTick c, prev := fnState c fn.toNat }]) ∧
    (∀ f, Granted s r 0x2413 0x00 f 1 → ownsFn c r f = true → forwards c = false → restartAllowed (judgedMode img c) f c = true →
      Does (.restartFunction r) s stPending (0x2413, 0x00, f) fun s' =>
        s'.chip.plan.restarts = c.plan.restarts ++ [{ fn := f, tick := acceptTick c, prev := fnState c f }])

/-- R133, R213, R214, R271, R440, R442, R445: a declared tile is held and its spare claimed; encoders start, stop and are asked for an IDR;
a declared engine is held; post-package repair, retraining and the demand scrub take the lease, or wait for it.
Where the spec leaves a point open, this states the model's choice: log entries 28, 66, 74. -/
def Obligations.RepairCommands : Prop :=
  ∀ (s : State) (r : Role),
    let c := s.chip
    let img := dictImage s
    let req (act : Activity) (obj : Nat) : LeaseEntry := { act := act, obj := obj, tick := c.tk.tick, commanded := true }
    (∀ tile : BitVec 16, let t := tile.toNat
      Granted s r 0x2931 0x00 0 t → t < 2048 → c.tk.wake = .run →
      judgedMode img c = .idle ∨ judgedMode img c = .loaded ∨ judgedMode img c = .running →
      spareFree c (tileQuarter t) = true → c.grid.failed = [] → c.grid.pauseFrom = none → (tileAt c t).held = false →
      Does (.declareTileFailed r tile) s stOk (0x2932, 0x00, 0) fun s' => s'.chip.grid.failed = [(t, c.tk.tick)] ∧
        (tileAt s'.chip t).held = true ∧ (tileAt s'.chip t).running = false) ∧
    (∀ n v, Granted s r 0x2305 0x01 n 1 → vdecl c n = some v → vEncoder v = true → Does (.startClip r) s stOk (0x2305, 0x02, n) fun s' =>
      (streamAt s'.chip n).enc.clip = some (objGet c 0x2303 0x13 n) ∧ objGet s'.chip 0x2304 0x01 n = 1) ∧
    (∀ n v, Granted s r 0x2305 0x01 n 2 → vdecl c n = some v → vEncoder v = true → Does (.stopEncoder r) s stOk (0x2305, 0x02, n) fun s' =>
      (streamAt s'.chip n).enc.clip = none ∧ (streamAt s'.chip n).enc.stopped = true ∧ objGet s'.chip 0x2304 0x01 n = 0) ∧
    (∀ n v, Granted s r 0x2305 0x01 n 3 → vdecl c n = some v → vEncoder v = true → Does (.requestIdr r) s stOk (0x2305, 0x02, n) fun s' =>
      (streamAt s'.chip n).enc = { (streamAt c n).enc with idrAsked := true }) ∧
    (∀ e : BitVec 8, Granted s r 0x2911 0x01 0 e.toNat → engineExists e.toNat = true → c.life.heldEngines.contains e.toNat = false →
      Does (.declareEngineFailed r e) s stOk (0x2911, 0x02, 0) fun s' => s'.chip.life.heldEngines = c.life.heldEngines ++ [e.toNat]) ∧
    (Granted s r 0x2B31 0x00 0 1 → c.tk.wake = .run → judgedMode img c = .idle ∨ judgedMode img c = .loaded → LeaseFree c (req .ppr 0) →
      Does (.postPackageRepair r) s stPending (0x2B31, 0x00, 0) fun s' => s'.chip.life.lease.holders = c.life.lease.holders ++ [req .ppr 0]) ∧
    (∀ p, Granted s r 0x2601 0x11 p 1 → LeaseFree c (req .lr p) → Does (.retrain r) s stPending (0x2601, 0x12, p) fun s' =>
      s'.chip.life.lease.holders = c.life.lease.holders ++ [req .lr p] ∧ s'.chip.link.portCmds = c.link.portCmds ++ [(p, 1)]) ∧
    (Granted s r 0x2903 0x01 0 1 →
      (LeaseFree c (req .ds 0) → Does (.demandScrubStart r) s stPending (0x2903, 0x02, 0) fun s' => s'.chip.life.scrubbing = true ∧
        s'.chip.life.lease.holders = c.life.lease.holders ++ [req .ds 0] ∧ objGet s'.chip 0x2903 0x03 0 = 0) ∧
      (¬ LeaseFree c (req .ds 0) → (c.life.lease.queue.filter (·.commanded)).length < 16 →
        Does (.demandScrubStart r) s stQueued (0x2903, 0x02, 0) fun s' => s'.chip.life.lease.queue = c.life.lease.queue ++ [req .ds 0])) ∧
    (Granted s r 0x2903 0x01 0 2 → leaseHeld c .ds = true → Does (.demandScrubStop r) s stOk (0x2903, 0x02, 0) fun s' =>
      s'.chip.life.scrubbing = false) ∧
    (∀ (pos : BitVec 8) e, Granted s r 0x2902 0x04 0 pos.toNat → pos ≠ 0 → pos.toNat ≤ 24 → img.life.lease.queue[pos.toNat - 1]? = some e →
      c.life.lease.queue.contains e = true → e.commanded = true →
      Does (.cancelQueuedEntry r pos) s stOk (0x2902, 0x05, 0) fun s' => s'.chip.life.lease.queue = c.life.lease.queue.erase e ∧
        ∀ i n k, leaseStatus e = some (i, n, k) → objGet s'.chip i n k = stState)

/-- R275, R291, R312: OPEN gives a handle for a staged image, CLOSE completes it or starts its placement, RELEASE frees it; the port and
pair commands wait for their boundary.
Where the spec leaves a point open, this states the model's choice: log entries 48, 49, 61, 109. -/
def Obligations.IntakeAndLinkCommands : Prop :=
  ∀ (s : State) (r : Role),
    let c := s.chip
    let par (sub : Nat) : Nat := ctxVal c r 0x2B40 sub
    (Granted s r 0x2B40 0x02 0 1 → c.tk.wake = .run → (isTenant r = true → par 4 = 1 ∧ ownAdapter c (roleTenant r) (par 5) = true) →
      0 < par 3 → par 4 ≤ 2 → par 3 ≤ stagingFree c → c.intake.handles.length < 16 →
      Does (.openHandle r) s stOk (0x2B40, 0x06, 0) fun s' => handleAt s'.chip (ctxVal s'.chip r 0x2B40 0x07) =
        some { kind := par 4, aslot := par 5, size := par 3, tenant := roleTenant r, lastRecv := c.tk.now
               area := takeRuns (16 * cdiv (par 3) 1024) (stagingGaps c) }) ∧
    (∀ hd, handleAt c (par 7) = some hd → (isTenant r = true → hd.kind = 1 ∧ hd.tenant = roleTenant r) →
      (Granted s r 0x2B40 0x02 0 2 → hd.st = .opened → missingUnit hd = none →
        (hd.kind = 1 → Does (.close r) s stPending (0x2B40, 0x06, 0) fun s' => handleAt s'.chip (par 7) = some { hd with st := .placing }) ∧
        (hd.kind ≠ 1 → Does (.close r) s stOk (0x2B40, 0x06, 0) fun s' => handleAt s'.chip (par 7) = some { hd with st := .complete })) ∧
      (Granted s r 0x2B40 0x02 0 3 → (hd.st = .inUse → hd.kind = 1) → Does (.release r) s stOk (0x2B40, 0x06, 0) fun s' =>
        handleAt s'.chip (par 7) = none)) ∧
    (∀ e ∈ [(Instr.excludePort r, 2), (.includePort r, 3)], ∀ p, Granted s r 0x2601 0x11 p e.2 →
      Does e.1 s stPending (0x2601, 0x12, p) fun s' => s'.chip.link.portCmds = c.link.portCmds ++ [(p, e.2)]) ∧
    (∀ e ∈ [(Instr.switchOver r, 1), (.inhibitReturn r, 2), (.allowReturn r, 3)], Granted s r 0x2620 0x0B 0 e.2 →
      forwards c = false ∨ lockstep c = true → pairAllowed c e.2 = true → Does e.1 s stPending (0x2620, 0x0C, 0) fun s' =>
        s'.chip.link.pair.cmd = some (e.2, acceptTick c))

/-- R242, R245, R250, R254: cancels and releases join those of the next boundary; a summary is deleted, exported or imported; an adapter
version placed is installed at a boundary, or retired.
Where the spec leaves a point open, this states the model's choice: log entries 45, 48, 105. -/
def Obligations.ServingCommands : Prop :=
  ∀ (s : State) (r : Role),
    let c := s.chip
    let img := dictImage s
    (∀ q : BitVec 32, Granted s r 0x2403 0x01 0 q.toNat → Does (.cancelRequest r q) s stPending (0x2403, 0x03, 0) fun s' =>
      ∃ w, s'.chip.serv.cancels = c.serv.cancels ++ [w] ∧ w.key = q.toNat ∧ w.datagram = false ∧ w.tick = acceptTick c ∧
        w.tenant = (if isTenant r then roleTenant r else ctxVal c r 0x2403 0x02)) ∧
    (∀ n, Granted s r 0x2433 0x06 n 1 → Does (.conversationRelease r) s stPending (0x2433, 0x06, n) fun s' =>
      ∃ w, s'.chip.serv.releases = c.serv.releases ++ [w] ∧ w.tenant = n / 2 ^ 32 ∧ w.key = n % 2 ^ 32 ∧ w.tick = acceptTick c) ∧
    (∀ n v, Granted s r 0x2433 0x06 n 2 → findSummary c (n / 2 ^ 32) (n % 2 ^ 32) = some v →
      Does (.deleteSummary r) s stPending (0x2433, 0x06, n) fun s' =>
        s'.chip.serv.sumOps = c.serv.sumOps ++ [⟨n / 2 ^ 32, n % 2 ^ 32, none, acceptTick c⟩]) ∧
    (∀ n row v, dictServes c = true → findRow img c r 0x2436 0x00 false = .ok row → instOf 0x2436 (ctxVal c r) = n →
      mayReach img c r row 0x2436 n false = true → findSummary img (n / 2 ^ 32) (n % 2 ^ 32) = some v →
      Gives (.summaryExport r) s fun s' => s'.chip.dict.lastData = v.sealed ∧ s'.chip.dict.lastRes = resOk ∧ s'.chip.serv = c.serv) ∧
    (∀ n data pt c', Granted s r 0x2436 0x00 n (natLE data) → data.length ≤ 262172 → openSummary c (n / 2 ^ 32) (n % 2 ^ 32) data = some pt →
      storeSummary (n / 2 ^ 32) (n % 2 ^ 32) data c = some c' → Answers (.summaryImport r data) s (onto s (noteRes
        (setServ { c.serv with sumOps := c.serv.sumOps ++ [⟨n / 2 ^ 32, n % 2 ^ 32, some data, acceptTick c⟩] } c, resOk)))) ∧
    (∀ n p d, c.plan.loaded = some p → planAdapter p n = some d →
      (∀ hd, Granted s r 0x2441 0x01 n 1 → cellsFind c.intake.handles (ctxVal c r 0x2441 0x02) = some hd → hd.kind = 1 → hd.aslot = n →
        adapterFits c (ctxVal c r 0x2441 0x02) d hd = true → hd.st = .placed → (adSlot c n).live.length < 2 →
        Does (.adapterInstall r) s stPending (0x2441, 0x03, n) fun s' => s'.chip.serv.adOps = c.serv.adOps ++ [⟨n, hd.placed, acceptTick c⟩] ∧
          cellsFind s'.chip.intake.handles (ctxVal c r 0x2441 0x02) = some { hd with st := .inUse }) ∧
      (Granted s r 0x2441 0x01 n 2 → (adSlot c n).cur.isSome = true → Does (.adapterRetire r) s stPending (0x2441, 0x03, n) fun s' =>
        s'.chip.serv.adOps = c.serv.adOps ++ [⟨n, none, acceptTick c⟩]))

/-- R318, R321, R327-R330, R336, R337: a quote is asked for and its slot freed; a key record that passes every row of Table 10-7 is
installed at its boundary, its vendor key anchored, and one that fails names the row; sweeps, tenants and plan keys join what the
next boundary applies; EXTEND extends the register it names.
Where the spec leaves a point open, this states the model's choice: log entries 53, 54, 55, 112. -/
def Obligations.SecurityCommands : Prop :=
  ∀ (s : State) (r : Role),
    let c := s.chip
    let img := dictImage s
    (∀ n, n < 8 → (quoteSlot c n).owner = some (roleKey r) →
      (Granted s r 0x2704 0x02 n 1 → (quoteSlot c n).asked = none → identityValid c = true →
        Does (.quoteRequest r) s stPending (0x2704, 0x03, n) fun s' => (quoteSlot s'.chip n).asked = some c.tk.tick ∧
          (quoteSlot s'.chip n).posted = none ∧ (quoteSlot s'.chip n).owner = some (roleKey r)) ∧
      (Granted s r 0x2704 0x02 n 2 → Does (.quoteFree r) s stOk (0x2704, 0x03, n) fun s' => quoteSlot s'.chip n = {} ∧
        blobGet s'.chip 0x2704 0x04 n = [] ∧ objGet s'.chip 0x2704 0x01 n = 0)) ∧
    (∀ data, Granted s r 0x2710 0x01 0 (natLE data) → data.length = 4960 →
      (∀ k, keyRecordCheck c r data = .ok k → Does (.keyRelease r data) s stPending (0x2710, 0x02, 0) fun s' =>
        s'.chip.sec.installs = c.sec.installs ++ [{ k with tick := c.tk.tick }] ∧ objGet s'.chip 0x2710 0x03 0 = 0 ∧
        objGet s'.chip 0x2201 0x02 (numAt data 4 2) = (Config.sha3 (bytesAt data 0x4CC 1312)).toNat) ∧
      (∀ row st, keyRecordCheck c r data = .error (row, st) → Does (.keyRelease r data) s st (0x2710, 0x02, 0) fun s' =>
        objGet s'.chip 0x2710 0x03 0 = row ∧ s'.chip.sec = c.sec)) ∧
    (∀ (kind : BitVec 8) n, (retiringKey c kind.toNat n).isSome = true → c.sec.sweeps.contains (kind.toNat, n) = false →
      (kind.toNat < 3 → Granted s r 0x2201 0x07 n kind.toNat → Does (.storeSweepDone r kind) s stOk (0x2201, 0x0C, n) fun s' =>
        s'.chip.sec.sweeps = c.sec.sweeps ++ [(kind.toNat, n)]) ∧
      (kind.toNat = 3 ∨ kind.toNat = 4 → Granted s r 0x2306 0x03 n kind.toNat → Gives (.streamSweepDone r kind) s fun s' =>
        s'.chip.dict.lastRes = resOk ∧ s'.chip.sec.sweeps = c.sec.sweeps ++ [(kind.toNat, n)])) ∧
    (∀ t, t ≠ 0 →
      (Granted s r 0x2201 0x01 t 1 → Does (.tenantAssign r) s stPending (0x2201, 0x0C, t) fun s' =>
        s'.chip.sec.tenantOps = c.sec.tenantOps ++ [(t, true)]) ∧
      (Granted s r 0x2201 0x01 t 0 → (∀ p, img.plan.loaded = some p → t ∉ planTenants p) →
        Does (.tenantUnassign r) s stPending (0x2201, 0x0C, t) fun s' => s'.chip.sec.tenantOps = c.sec.tenantOps ++ [(t, false)])) ∧
    (∀ data, Granted s r 0x2702 0x02 0 (natLE data) → data.length = 33 → 13 ≤ numAt data 0 1 → numAt data 0 1 ≤ 15 →
      Does (.extend r data) s stOk (0x2702, 0x03, 0) fun s' => measGet s'.chip (numAt data 0 1) =
        Config.sha3 (bytesLE 32 (measGet c (numAt data 0 1)).toNat ++ bytesLE 32 (BitVec.ofNat 256 (numAt data 1 32)).toNat)) ∧
    (∀ (slot : Fin 8) data, Granted s r 0x2720 (slot.val + 1) 0 (natLE data) → slot ≠ 0 → data.length = 0 ∨ data.length = 1312 →
      judgedMode img c = .idle ∨ judgedMode img c = .loaded → r = .service ∨ (blobGet c 0x2720 (slot.val + 1) 0 = [] ∧ data ≠ []) →
      Does (.planKeyWrite r slot data) s stPending (0x2720, 0x09, 0) fun s' => s'.chip.sec.planKeys = c.sec.planKeys ++ [(slot.val, data)])

/-- R419, R420, R425: PROGRAM writes the slot that is not active from a checked staged image; ACTIVATE and REVERT take the lease, or wait for it,
with a valid image in the other slot; ERASE empties that slot.
Where the spec leaves a point open, this states the model's choice: log entries 68, 74. -/
def Obligations.UpdateCommands : Prop :=
  ∀ (s : State) (r : Role) (n : Nat),
    let c := s.chip
    let k := fwComp c n
    let o := otherSlot k
    let m := judgedMode (dictImage s) c
    (∀ hd i, Granted s r 0x2801 0x08 n 1 → n < 5 → (fwActive c n).st ≠ .unconfirmed → updBusy c = false →
      cellsFind c.intake.handles (ctxVal c r 0x2801 0x09) = some hd → hd.kind = 2 → hd.st = .complete → fwCheck c n (imageOf c (ctxVal c r 0x2801 0x09) hd) = .ok i →
      hd.size + 65536 * (cellsFind c.life.badBlocks (6 + 2 * n + o)).getD 0 ≤ slotBytes n →
      Does (.program r) s stPending (0x2801, 0x0A, n) fun s' => (fwSlot (fwComp s'.chip n) o).st = .writing ∧
        updOf s'.chip n = some { component := n, phase := .programming, slot := o, image := some i }) ∧
    (∀ e ∈ [(Instr.activate r, 2, false), (.revert r, 3, true)], ∀ i, Granted s r 0x2801 0x08 n e.2.1 → m ≠ .survival →
      m ≠ .stopped → m ≠ .booting → (n = 4 → m = .idle ∨ m = .loaded) → anyUnconfirmed c = false →
      updBusy c = false → (fwSlot k o).st = .valid → (fwSlot k o).image = some i → compatOk c n i = true → k.floor ≤ i.sec →
      (e.2.2 = false → ∀ a, (fwActive c n).image = some a → i.hovInMin ≤ a.hovOut ∧ a.hovOut ≤ i.hovInMax ∧ a.hovInMin ≤ i.hovOut ∧
        i.hovOut ≤ a.hovInMax) →
      let l : LeaseEntry := { act := .fw, obj := n, tick := c.tk.tick, commanded := true }
      (LeaseFree c l → Does e.1 s stPending (0x2801, 0x0A, n) fun s' => s'.chip.life.lease.holders = c.life.lease.holders ++ [l] ∧
        updOf s'.chip n = some { component := n, phase := .granted, slot := o, boundary := c.tk.tick + 1, revert := e.2.2, image := some i }) ∧
      (¬ LeaseFree c l → (c.life.lease.queue.filter (·.commanded)).length < 16 →
        Does e.1 s stQueued (0x2801, 0x0A, n) fun s' => s'.chip.life.lease.queue = c.life.lease.queue ++ [l])) ∧
    (Granted s r 0x2801 0x08 n 4 → n < 5 → (fwActive c n).st ≠ .unconfirmed → updBusy c = false →
      Does (.erase r) s stOk (0x2801, 0x0A, n) fun s' => fwSlot (fwComp s'.chip n) o = {})

/-- R351, R362, R369, R391, R395, R398, R399, R400, R409, R414, R435, R476: writes to registers, selectors, parameters, readings, alerts, snapshot groups,
the trace, the tray time and a component's restart, with what each leaves.
Where the spec leaves a point open, this states the model's choice: log entries 82, 84, 85, 89. -/
def Obligations.ServerCommands : Prop :=
  ∀ (s : State) (r : Role),
    let c := s.chip
    (∀ (idx : BitVec 16) (sub : BitVec 8) n b row, let i := idx.toNat
      Writable s r i sub.toNat n b row →
      (row.kind = .selector → rangeOk row i (natLE b) = true → Gives (.selectorWrite r idx sub b) s fun s' =>
        ctxVal s'.chip r i sub.toNat = natLE b ∧ s'.chip.dict.lastRes = resOk) ∧
      (row.kind = .param → rangeOk row i (natLE b) = true → Gives (.parameterWrite r idx sub b) s fun s' =>
        ctxVal s'.chip r i sub.toNat = natLE b ∧ s'.chip.dict.lastRes = resOk) ∧
      (ownRow i sub.toNat = false → commandOf i sub.toNat = none → row.blob = true ∨ reservedSet i row.sub (natLE b) = false →
        rangeOk row i (natLE b) = true → stateRefuses (dictImage s) c i row.sub n (natLE b) = false →
        (row.kind = .atOnce → Gives (.registerWrite r idx sub b) s fun s' => objGet s'.chip i row.sub n = natLE b ∧ s'.chip.dict.lastRes = resOk) ∧
        (row.kind = .plain → Gives (.registerWrite r idx sub b) s fun s' => s'.chip.dict.lastRes = resOk ∧ s'.chip.objs = c.objs ∧
          ∃ w ∈ s'.chip.dict.pendingW, w.key = okey i row.sub n ∧ w.value = b))) ∧
    (∀ v : BitVec 16, Granted s r 0x2500 0x01 0 v.toNat → 120 ≤ v.toNat → v.toNat ≤ 420 → Gives (.powerCapWrite r v) s fun s' =>
      s'.chip.dict.lastRes = resOk ∧ ∃ w ∈ s'.chip.dict.pendingW, w.key = okey 0x2500 0x01 0 ∧ w.value = bytesLE 2 v.toNat) ∧
    (∀ (v : BitVec 64) t, let c' := atTime t c
      Granted { s with chip := c' } r 0x2520 0x01 0 v.toNat →
      (fld v.toNat 63 48 ≠ c.power.seq → Gives (.coolantReading r v t) s fun s' => objGet s'.chip 0x2520 0x01 0 = v.toNat ∧
        s'.chip.power.seq = fld v.toNat 63 48 ∧ s'.chip.power.lastFresh = some c'.tk.now ∧ s'.chip.power.fresh = c.power.fresh + 1) ∧
      (fld v.toNat 63 48 = c.power.seq → Gives (.coolantReading r v t) s fun s' => objGet s'.chip 0x2520 0x01 0 = v.toNat ∧
        s'.chip.power = c.power)) ∧
    (∀ u, Granted s r 0x2502 0x01 0 1 → c.tk.mode = .survival → c.power.leaving = false → c.power.okSince = some u →
      u + 100000000 ≤ c.tk.now → c.power.flows.length = 3 → (∀ f ∈ c.power.flows, 900 ≤ f) → c.power.die ≤ 8500 →
      Does (.survivalExit r) s stOk (0x2502, 0x01, 0) fun s' => s'.chip.power.leaving = true ∧ s'.chip.power.halted = false) ∧
    (∀ m : BitVec 32,
      (Granted s r 0x2001 0x02 0 m.toNat → reservedSet 0x2001 2 m.toNat = false → Gives (.alertAcknowledge r m) s fun s' => s'.chip.dict.lastRes = resOk ∧
        objGet s'.chip 0x2001 0x01 0 = objGet c 0x2001 0x01 0 - (objGet c 0x2001 0x01 0 &&& m.toNat)) ∧
      (Granted s r 0x2001 0x03 0 m.toNat → reservedSet 0x2001 3 m.toNat = false → Gives (.alertEnable r m) s fun s' => s'.chip.dict.lastRes = resOk ∧
        objGet s'.chip 0x2001 0x03 0 = m.toNat ∧ objGet s'.chip 0x2001 0x01 0 = objGet c 0x2001 0x01 0)) ∧
    (∀ n, n < 8 →
      (∀ data, Granted s r 0x2011 0x01 n (natLE data) → data.length % 16 = 0 → data.length ≤ 1024 →
        (groupAt c n).owner = none ∨ (groupAt c n).owner = some (roleKey r) →
        (∀ m ∈ entriesOf 16 (data.length / 16) data, numAt m 3 1 ≤ 1 ∧ numAt m 12 4 = 0 ∧ (numAt m 3 1 = 1 → memberSelOk m = true)) →
        16 + ((entriesOf 16 (data.length / 16) data).map (fun m => 4 + padTo4 (maxSize (numAt m 0 2) (numAt m 2 1)))).sum ≤ 65536 →
        Gives (.snapshotMembers r data) s fun s' => groupAt s'.chip n = { groupAt c n with owner := some (roleKey r), members := data }) ∧
      ((groupAt c n).owner = some (roleKey r) →
        (Granted s r 0x2011 0x02 n 1 → Does (.latchOnce r) s stPending (0x2011, 0x03, n) fun s' => groupAt s'.chip n = { groupAt c n with once := true }) ∧
        (Granted s r 0x2011 0x02 n 2 → Does (.latchEvery r) s stOk (0x2011, 0x03, n) fun s' => groupAt s'.chip n = { groupAt c n with every := true }) ∧
        (Granted s r 0x2011 0x02 n 3 → Does (.latchStop r) s stOk (0x2011, 0x03, n) fun s' => groupAt s'.chip n = { groupAt c n with every := false }) ∧
        (Granted s r 0x2011 0x02 n 4 → Does (.groupFree r) s stOk (0x2011, 0x03, n) fun s' => groupAt s'.chip n = {}))) ∧
    (∀ id : BitVec 8, Granted s r 0x2812 0x04 0 id.toNat → 1 ≤ id.toNat → id.toNat ≤ 7 →
      ((cellsGet [] c.fw.restarts id.toNat).filter (fun u => decide (c.tk.now ≤ u + 60000000000))).length < 2 →
      Gives (.restartComponentCmd r id) s fun s' => id.toNat ∈ s'.chip.fw.restarting ∧ objGet s'.chip 0x2811 0x04 id.toNat = 4 ∧
        s'.chip.dict.lastRes = resOk) ∧
    (Granted s r 0x2A10 0x04 0 1 → Does (.traceClear r) s stOk (0x2A10, 0x06, 0) fun s' => s'.chip.trace = { c.trace with buf := [] }) ∧
    (Granted s r 0x2A10 0x04 0 2 → Does (.traceFreeze r) s stOk (0x2A10, 0x06, 0) fun s' => s'.chip.trace = { c.trace with frozen := true }) ∧
    (Granted s r 0x2A10 0x04 0 3 → Does (.traceUnfreeze r) s stOk (0x2A10, 0x06, 0) fun s' => s'.chip.trace = { c.trace with frozen := false }) ∧
    (∀ ns : BitVec 64, Granted s r 0x2901 0x03 0 ns.toNat → Gives (.trayTimeWrite r ns) s fun s' => objGet s'.chip 0x2901 0x03 0 = ns.toNat ∧
      s'.chip.dict.lastRes = resOk ∧ (objGet c 0x1F10 0x05 0 = 0 → s'.chip.life.tray = some ((ns.toNat : Int) - c.tk.now)))

/-- R70, R340, R341, R376, R390-R394, R396: what refuses a write, in the order of the checks: a role that is not served, an index or sub-index that does not
exist, Booting, the role's rights, another tenant's entry, a wrong length, an earlier command that waits. A refused write changes
nothing but the result that its response shows. A selector value above 2,047 in 2A31.00 is REFUSED_RANGE.
Where the spec leaves a point open, this states the model's choice: log entries 82, 84. -/
def Obligations.DictionaryRefusals : Prop :=
  (∀ (s : State) (r : Role) (v : BitVec 16) (row : ObjRow), 2047 < v.toNat → Writable s r 0x2A31 0x00 0 (bytesLE 2 v.toNat) row →
    Answers (.selectorWrite r 0x2A31 0x00 (bytesLE 2 v.toNat)) s (onto s (noteRes (s.chip, { st := stRange, detail := 0x09 })))) ∧
  ∀ (s : State) (r : Role) (idx : BitVec 16) (sub : BitVec 8) (b : List Byte),
    let c := s.chip
    let img := dictImage s
    let i := idx.toNat
    let k := sub.toNat
    let refuse (e : Res) : Prop := Answers (.registerWrite r idx sub b) s (onto s (noteRes (c, e)))
    ownRow i k = false →
      (dictServes c = false → Answers (.registerWrite r idx sub b) s (onto s c)) ∧
      (dictServes c = true →
        (∀ t, r = .tenant t → t = 0 ∨ 4095 < t → refuse { st := stRange, detail := 0x08 }) ∧
        (∀ t, r = .tenant t → 1 ≤ t → t ≤ 4095 → tenantAssigned img t = false → refuse { st := stRights, detail := 0x0B }) ∧
        (r = .service → objGet c 0x2722 0x01 0 ≠ 1 → refuse { st := stRights, detail := 0x0A }) ∧
        (roleRefusal img c r = none →
          (objIndexExists i = false → refuse { st := stRange, detail := 0x01 }) ∧
          (objIndexExists i = true → objRow i k = none → refuse { st := stRange, detail := 0x02 }) ∧
          (∀ row, objIndexExists i = true → objRow i k = some row →
            (c.tk.mode = .booting → refuse { st := stState, detail := 0x0C }) ∧
            (c.tk.mode ≠ .booting →
              (rightOf row r = 0 → refuse { st := stRights, detail := 0x00 }) ∧ (rightOf row r = 1 → refuse { st := stRights, detail := 0x05 }) ∧
              (2 ≤ rightOf row r → let n := instOf i (ctxVal c r)
                (mayReach img c r row i n true = false → refuse { st := stRights, detail := 0x06 }) ∧
                (mayReach img c r row i n true = true → lengthOk row i b.length = false → i ≠ 0x2710 → refuse { st := stRange, detail := 0x03 }) ∧
                (∀ e ∈ [(Instr.run r, 2), (.pause r, 3), (.resume r, 4), (.unload r, 6)], statusBusy c 0x2100 0x02 0 = true →
                  findRow img c r 0x2100 0x01 true = .ok row → Answers e.1 s (onto s (noteRes (c, { st := stState, detail := 0x0C })))))))))

/-! The card and its window. -/

/-- R376-R380, R383 (Tables 12-1, 12-2): the card answers CMD3, CMD5, CMD7, CMD11, CMD15 and CMD19 as the spec gives it; CMD52 moves one byte
and CMD53 several of a ready function; a function that is not ready moves none; nothing answers an unsupported command or a card that is not
alive; an abort ends the transfer and a reset returns the registers to their reset values.
Where the spec leaves a point open, this states the model's choice: log entries 35, 87. -/
def Obligations.CardCommands : Prop :=
  ∀ (s : State),
    let c := s.chip
    let tells (i : Instr) (a : CardAns) (k : CardSt) : Prop := Gives i s fun s' => s'.chip.card = { k with answer := a }
    tells .unsupportedSdioCommand .silent c.card ∧
    (cardAlive c = false → ∀ i ∈ [Instr.cmd3, .cmd5, .cmd11, .cmd19], tells i .silent c.card) ∧
    (cardAlive c = true →
      tells .cmd3 (.r6 (Config.cardAddress c.free % 65536)) { c.card with rca := Config.cardAddress c.free % 65536 } ∧
      tells .cmd5 (.r4 2 0 1 0x300000) c.card ∧ tells .cmd11 .accepted c.card ∧
      (∀ a : BitVec 16, (a.toNat = c.card.rca → tells (.cmd7 a) .accepted { c.card with selected := true } ∧
          tells (.cmd15 a) .silent { c.card with inactive := true }) ∧
        (a.toNat ≠ c.card.rca → tells (.cmd7 a) .silent { c.card with selected := false } ∧ tells (.cmd15 a) .silent c.card)) ∧
      Answers .ioAbort s (onto s { c with card := { c.card with transfer := false } }) ∧
      Answers .sdioReset s (onto s
        { c with card := { c.card with regs := [], transfer := false }, win := { c.win with respReady := false, resp := [] } }) ∧
      (∀ v : Byte, fnWrite 0 6 v c = if bitOf v.toNat 3 then sdioReset c else if v.toNat % 8 = 1 then ioAbort c else c) ∧
      (∀ a, cardReg (sdioReset c) a = 0) ∧
      (c.card.selected = true →
        tells .cmd19 (.tuning ((List.range 64).map Config.tuningByte)) c.card ∧
        (∀ (w raw : Bool) (fn : Fin 8) (a : BitVec 17) (v : Byte) (block incr : Bool) (count : Fin 512) (data : List Byte),
          (functionReady c fn.val = false → tells (.cmd52 w raw fn a v) (.r5 .function []) c.card ∧
            tells (.cmd53 w block incr fn a count data) (.r5 .function []) c.card) ∧
          (functionReady c fn.val = true →
            tells (.cmd52 false raw fn a v) (.r5 .ok [fnByte c fn.val a.toNat]) c.card ∧
            Answers (.cmd52 true false fn a v) s (onto s (answer (.r5 .ok [v]) (fnWrite fn.val a.toNat v c))) ∧
            (cmd53Length c fn.val block incr count.val = none → tells (.cmd53 w block incr fn a count data) (.r5 .illegal []) c.card) ∧
            (∀ n, cmd53Length c fn.val block incr count.val = some n →
              tells (.cmd53 false block incr fn a count data) (.r5 .ok ((List.range n).map (fun i => fnByte c fn.val ((a.toNat + i) % 0x20000))))
                { c.card with transfer := false } ∧
              (data.length < n → tells (.cmd53 true block incr fn a count data) (.r5 .ok []) { c.card with transfer := fn == 1 }) ∧
              (n ≤ data.length → Answers (.cmd53 true block incr fn a count data) s (onto s (answer (.r5 .ok [])
                (fnWriteRun fn.val a.toNat (data.take n) { c with card := { c.card with transfer := false } })))))))))

/-- R384, R385, R387, R388, R389: GO asks for a request to be taken, or shows an overrun while one is; a request taken that R388 does not refuse is carried
out by its operation's row, and its response stands in the window; a READ_SEG sends the part asked for; a copy lives 1 s.
Where the spec leaves a point open, this states the model's choice: log entries 86, 96. -/
def Obligations.WindowRequests : Prop :=
  ∀ (s : State) (t : Nat),
    let c := s.chip
    let img := dictImage s
    (cardAlive c = true →
      (c.win.busy = true → Gives .go s fun s' => s'.chip.win = { c.win with overrun := true, stateByte := s'.chip.win.stateByte }) ∧
      (c.win.busy = false → Gives .go s fun s' => s'.chip.win = { c.win with go := true, stateByte := s'.chip.win.stateByte }) ∧
      Gives .discard s fun s' => s'.chip.win = { c.win with respReady := false, stateByte := s'.chip.win.stateByte }) ∧
    (c.win.go = true → c.win.busy = false → dictServes c = true →
      (frameBad (frameOf c) = false → Gives .requestTake s fun s' => s'.chip.win =
        { c.win with go := false, busy := true, overrun := false, respReady := false, taken := some (frameOf c)
                     stateByte := s'.chip.win.stateByte }) ∧
      (∀ f, f = frameOf c →
        (f.op = 0 ∨ 4 < f.op ∨ 2 < f.role ∨ (f.role = 1 ∧ (f.tenant = 0 ∨ 4095 < f.tenant)) ∨ (f.role ≠ 1 ∧ f.tenant ≠ 0) ∨ 1 < f.flags ∨
          ((f.op = 1 ∨ f.op = 2) ∧ f.offset ≠ 0) ∨ 8176 < f.length) → c.dict.relatch = false → Gives .requestTake s fun s' =>
        s'.chip = { c with win := s'.chip.win, dict := { c.dict with lastRes := { st := stRange, detail := 0x08 }, lastData := [] } } ∧
        s'.chip.win = { c.win with go := false, busy := false, overrun := false, respReady := true, taken := none, tag := f.tag
                                   resp := s'.chip.win.resp } ∧
        s'.chip.win.resp.take 2 = [0x05, 0x08])) ∧
    (∀ q, takenOp c 1 = some q →
      (∀ e, dictRead img c (roleOf q) q.idx q.sub = .error e → Answers .read s (onto s (respond q e (typeOf q.idx q.sub) true false [] c))) ∧
      (∀ row n v, dictRead img c (roleOf q) q.idx q.sub = .ok (row, n, v) →
        (v.length ≤ 8176 → Gives .read s fun s' => s'.chip.win.respReady = true ∧ s'.chip.win.busy = false ∧ s'.chip.win.resp.take 1 = [0] ∧
          s'.chip.win.resp.drop 32 = v ∧ s'.chip.dict.lastRes = resOk ∧ s'.chip.objs = c.objs) ∧
        (8176 < v.length → Answers .read s (onto s (respond q resLength (typeOf q.idx q.sub) true false [] c))))) ∧
    (∀ q, takenOp c 2 = some q → Gives .write s fun s' => s'.chip.win.respReady = true ∧ s'.chip.win.busy = false ∧
      s'.chip.dict.lastRes = (dictWrite img (roleOf q) q.idx q.sub q.data c).2 ∧
      s'.chip.objs = (dictWrite img (roleOf q) q.idx q.sub q.data c).1.objs) ∧
    (∀ q row n v, takenOp (atTime t c) 3 = some q →
      dictRead (dictImage s) (atTime t c) (roleOf q) q.idx q.sub = .ok (row, n, v) → q.offset = 0 →
      Gives (.readSeg t) s fun s' => s'.chip.dict.lastData = v.take q.length ∧ s'.chip.dict.lastRes = resOk ∧ s'.chip.win.busy = false) ∧
    (∀ q row, takenOp (atTime t c) 4 = some q → findRow img (atTime t c) (roleOf q) q.idx q.sub true = .ok row → q.offset = 0 →
      mayReach img (atTime t c) (roleOf q) row q.idx (instOf q.idx (ctxVal (atTime t c) (roleOf q))) true = true → bitOf q.flags 0 = false →
      Gives (.writeSeg t) s fun s' => (ctxOf s'.chip (roleOf q)).wseg.map (·.data) = some q.data ∧ s'.chip.dict.lastRes = resOk ∧
        s'.chip.objs = c.objs) ∧
    (∀ r v, (ctxOf c r).copy = some v → v.t + 1000000000 < t → Gives (.segmentCopyExpiry r t) s fun s' => (ctxOf s'.chip r).copy = none)

/-- What the commands of one shape leave alone, whatever their outcome: a command to the card changes the card (and may take a free value),
GO and DISCARD the window, an SDIO reset both; a write that configures the dictionary, its snapshots, alerts, trace, keys, tenants, quotes or
waiting requests leaves the tiles, HBM, the video engines, the plan, the links, the ports, power, time, firmware, staging, the card and
its window; a droop or power estimate changes only power, its objects and the time.
Where the spec leaves a point open, this states the model's choice: log entry 5. -/
def Obligations.CommandFrames : Prop :=
  ∀ (s s' : State) (i : Instr), s.chip.dict.relatch = false → exec i s = .next s' →
    let c := s.chip
    let d := s'.chip
    (∀ (a : BitVec 16), i ∈ [Instr.cmd3, .cmd5, .cmd7 a, .cmd11, .cmd15 a, .cmd19, .ioAbort, .unsupportedSdioCommand] →
      d = { c with card := d.card, free := d.free }) ∧
    (i ∈ [Instr.go, .discard] → d = { c with win := d.win }) ∧
    (i = .sdioReset → d = { c with card := d.card, win := d.win }) ∧
    (∀ (r : Role) (idx : BitVec 16) (sub kind : BitVec 8) (m : BitVec 32) (ns : BitVec 64) (w : BitVec 16) (slot : Fin 8) (b : List Byte),
      i ∈ [Instr.registerWrite r idx sub b, .selectorWrite r idx sub b, .parameterWrite r idx sub b, .powerCapWrite r w, .alertAcknowledge r m,
        .alertEnable r m, .snapshotMembers r b, .latchOnce r, .latchEvery r, .latchStop r, .groupFree r, .traceClear r, .traceFreeze r,
        .traceUnfreeze r, .trayTimeWrite r ns, .extend r b, .planKeyWrite r slot b, .quoteRequest r, .quoteFree r, .storeSweepDone r kind,
        .streamSweepDone r kind, .tenantAssign r, .tenantUnassign r, .cancelRequest r m, .conversationRelease r, .deleteSummary r,
        .summaryExport r, .adapterRetire r] →
      d.grid = c.grid ∧ d.hbm = c.hbm ∧ d.video = c.video ∧ d.plan = c.plan ∧ d.link = c.link ∧ d.net = c.net ∧ d.power = c.power ∧
      d.tk = c.tk ∧ d.fw = c.fw ∧ d.intake = c.intake ∧ d.card = c.card ∧ d.win = c.win) ∧
    (∀ t counts, i ∈ [Instr.droopEvent t, .droopRecovery t, .droopLockExpiry, .powerEstimate counts, .keepWarmAdjust] →
      d = { c with power := d.power, objs := d.objs, tk := { c.tk with now := d.tk.now } })
end

