-- ==== Sys2Proof/Laws/Bits.lean ====
section
/-! SUPPORT. Numbers and the byte strings that spell them. -/

namespace Sys2Proof.Machine

@[simp] theorem bytesLE_length (n v : Nat) : (bytesLE n v).length = n := by
  induction n generalizing v with
  | zero => rfl
  | succ n ih => simp [bytesLE, ih]

theorem natLE_bytesLE (n v : Nat) : natLE (bytesLE n v) = v % 256 ^ n := by
  induction n generalizing v with
  | zero => simp [bytesLE, natLE, Nat.mod_one]
  | succ n ih => simp only [bytesLE, natLE, ih, BitVec.toNat_ofNat]; rw [show (2:Nat) ^ 8 = 256 from rfl, pow_succ', Nat.mod_mul]

/-- A number that fits reads back. -/
theorem natLE_bytesLE_of_lt {n v : Nat} (h : v < 256 ^ n) : natLE (bytesLE n v) = v := by
  rw [natLE_bytesLE, Nat.mod_eq_of_lt h]

theorem numAt_bytesLE (n v : Nat) : numAt (bytesLE n v) 0 n = v % 256 ^ n := by
  rw [numAt, List.drop_zero, List.take_of_length_le (by simp), natLE_bytesLE]

theorem numAt_bytesLE_of_lt {n v : Nat} (h : v < 256 ^ n) : numAt (bytesLE n v) 0 n = v := by
  rw [numAt_bytesLE, Nat.mod_eq_of_lt h]

theorem natLE_lt (l : List Byte) : natLE l < 256 ^ l.length := by
  induction l with
  | nil => simp [natLE]
  | cons b t ih => simp only [natLE, List.length_cons, pow_succ]; have := b.isLt; omega

end Sys2Proof.Machine
end

