-- ==== Sys2Proof/Laws/Cells.lean ====
section
/-! SUPPORT. The laws of sparse storage: a read after a write gives the value written, a write leaves every other key alone,
and every operation keeps the canonical form. None of the read laws needs the canonical form. -/

namespace Sys2Proof.Machine

section Read
variable {α : Type}

theorem cellsGet_drop_same (d : α) (m : Cells α) (k : Nat) : cellsGet d (cellsDrop m k) k = d := by
  induction m with
  | nil => rfl
  | cons e t ih =>
    obtain ⟨j, w⟩ := e
    by_cases h : j = k
    · subst h; simpa [cellsDrop] using ih
    · simp only [cellsDrop] at ih ⊢
      rw [List.filter_cons_of_pos (by simpa using h)]
      simpa [cellsGet, h] using ih

theorem cellsGet_drop_ne (d : α) (m : Cells α) {k k' : Nat} (h : k' ≠ k) :
    cellsGet d (cellsDrop m k) k' = cellsGet d m k' := by
  induction m with
  | nil => rfl
  | cons e t ih =>
    obtain ⟨j, w⟩ := e
    simp only [cellsDrop] at ih ⊢
    by_cases hj : j = k
    · subst hj
      rw [List.filter_cons_of_neg (by simp)]
      simp [cellsGet, h.symm, ih]
    · rw [List.filter_cons_of_pos (by simpa using hj)]
      by_cases hj' : j = k' <;> simp [cellsGet, hj', ih]

variable [DecidableEq α]

@[simp] theorem cellsGet_set_same (d : α) (m : Cells α) (k : Nat) (v : α) : cellsGet d (cellsSet d m k v) k = v := by
  induction m with
  | nil => by_cases h : v = d <;> simp [cellsSet, cellsGet, h]
  | cons e t ih =>
    obtain ⟨j, w⟩ := e
    by_cases h1 : k < j
    · by_cases hv : v = d
      · have := cellsGet_drop_same d t k
        simp [cellsSet, cellsGet, h1, hv, Nat.ne_of_gt h1, this]
      · simp [cellsSet, cellsGet, h1, hv]
    · by_cases h2 : k = j
      · subst h2
        by_cases hv : v = d
        · have := cellsGet_drop_same d t k
          simp [cellsSet, hv, this]
        · simp [cellsSet, cellsGet, hv]
      · have : ¬ j = k := fun x => h2 x.symm
        simp [cellsSet, cellsGet, h1, h2, this, ih]

/-- A write with one default leaves the reads of every other key alone, whatever default they read with. -/
theorem cellsGet_set_ne (d d' : α) (m : Cells α) {k k' : Nat} (v : α) (h : k' ≠ k) :
    cellsGet d' (cellsSet d m k v) k' = cellsGet d' m k' := by
  induction m with
  | nil => by_cases hv : v = d <;> simp [cellsSet, cellsGet, hv, h.symm]
  | cons e t ih =>
    obtain ⟨j, w⟩ := e
    have hd := cellsGet_drop_ne d' t h
    by_cases h1 : k < j
    · by_cases hv : v = d
      · simp only [cellsSet, h1, hv, if_true, cellsGet, hd]
      · simp [cellsSet, cellsGet, h1, hv, h.symm]
    · by_cases h2 : k = j
      · subst h2
        by_cases hv : v = d
        · simp [cellsSet, cellsGet, hv, hd, h.symm]
        · simp [cellsSet, cellsGet, hv, h.symm]
      · simp only [cellsSet, h1, h2, if_false, cellsGet, ih]

omit [DecidableEq α] in
theorem cellsDrop_idem (m : Cells α) (k : Nat) : cellsDrop (cellsDrop m k) k = cellsDrop m k := by
  simp [cellsDrop, List.filter_filter]

theorem cellsSet_drop (d : α) (m : Cells α) (k : Nat) : cellsSet d (cellsDrop m k) k d = cellsDrop m k := by
  induction m with
  | nil => simp [cellsDrop, cellsSet]
  | cons e t ih =>
    obtain ⟨j, w⟩ := e
    by_cases h : j = k
    · subst h; simpa [cellsDrop] using ih
    · have hj : ¬ k = j := fun x => h x.symm
      have hc : cellsDrop ((j, w) :: t) k = (j, w) :: cellsDrop t k := by simp [cellsDrop, h]
      rw [hc]
      by_cases h1 : k < j
      · simp [cellsSet, h1, cellsDrop_idem]
      · simp [cellsSet, h1, hj, ih]

/-- Writing the same value twice is writing it once. -/
theorem cellsSet_idem (d : α) (m : Cells α) (k : Nat) (v : α) : cellsSet d (cellsSet d m k v) k v = cellsSet d m k v := by
  induction m with
  | nil => by_cases h : v = d <;> simp [cellsSet, h]
  | cons e t ih =>
    obtain ⟨j, w⟩ := e
    by_cases h1 : k < j
    · by_cases hv : v = d
      · simp [cellsSet, h1, hv, cellsDrop_idem]
      · simp [cellsSet, h1, hv]
    · by_cases h2 : k = j
      · subst h2
        by_cases hv : v = d
        · simp [cellsSet, hv, cellsSet_drop]
        · simp [cellsSet, hv]
      · simp [cellsSet, h1, h2, ih]

/-- A second write replaces a first that listed its value. -/
theorem cellsSet_over (d : α) (m : Cells α) (k : Nat) {v : α} (w : α) (hv : v ≠ d) :
    cellsSet d (cellsSet d m k v) k w = cellsSet d m k w := by
  induction m with
  | nil => simp [cellsSet, hv, cellsDrop]
  | cons e t ih =>
    obtain ⟨j, x⟩ := e
    by_cases h1 : k < j
    · have : j ≠ k := by omega
      simp [cellsSet, h1, hv, cellsDrop, this]
    · by_cases h2 : k = j
      · simp [cellsSet, h2, hv]
      · simp [cellsSet, h1, h2, ih]

/-- A write keeps what holds of every entry, if it holds of the value written. -/
theorem cellsSet_all (d : α) {p : α → Bool} {m : Cells α} {k : Nat} {v : α} (hv : p v = true) (h : m.all (fun e => p e.2) = true) :
    (cellsSet d m k v).all (fun e => p e.2) = true := by
  induction m with
  | nil => by_cases e : v = d <;> simp [cellsSet, e, hv]
  | cons e r ih =>
    obtain ⟨j, w⟩ := e
    simp only [List.all_cons, Bool.and_eq_true] at h
    have hd : (cellsDrop r k).all (fun e => p e.2) = true := by
      have h2 := h.2
      rw [List.all_eq_true] at h2 ⊢
      exact fun x hx => h2 x (List.mem_of_mem_filter hx)
    by_cases h1 : k < j
    · by_cases hv' : v = d
      · simp only [cellsSet, h1, hv', if_true, List.all_cons, h.1, hd, Bool.and_self]
      · simp only [cellsSet, h1, hv', if_true, if_false, List.all_cons, hv, h.1, h.2, Bool.and_self]
    · by_cases h2 : k = j
      · subst h2
        by_cases hv' : v = d
        · simp only [cellsSet, lt_irrefl, if_false, if_true, hv', hd]
        · simp only [cellsSet, lt_irrefl, if_false, if_true, hv', List.all_cons, hv, h.2, Bool.and_self]
      · simp only [cellsSet, h1, h2, if_false, List.all_cons, h.1, ih h.2, Bool.and_self]

end Read

section Optional
variable {α : Type}

@[simp] theorem cellsFind_put_same (m : Cells α) (k : Nat) (v : α) : cellsFind (cellsPut m k v) k = some v := by
  induction m with
  | nil => simp [cellsPut, cellsFind]
  | cons e t ih =>
    obtain ⟨j, w⟩ := e
    by_cases h1 : k < j
    · simp [cellsPut, cellsFind, h1]
    · by_cases h2 : k = j
      · simp [cellsPut, cellsFind, h2]
      · have : ¬ j = k := fun x => h2 x.symm
        simp [cellsPut, cellsFind, h1, h2, this, ih]

theorem cellsFind_put_ne (m : Cells α) {k k' : Nat} (v : α) (h : k' ≠ k) : cellsFind (cellsPut m k v) k' = cellsFind m k' := by
  induction m with
  | nil => simp [cellsPut, cellsFind, h.symm]
  | cons e t ih =>
    obtain ⟨j, w⟩ := e
    by_cases h1 : k < j
    · simp [cellsPut, cellsFind, h1, h.symm]
    · by_cases h2 : k = j
      · subst h2; simp [cellsPut, cellsFind, h.symm]
      · simp only [cellsPut, h1, h2, if_false, cellsFind, ih]

@[simp] theorem cellsFind_drop_same (m : Cells α) (k : Nat) : cellsFind (cellsDrop m k) k = none := by
  induction m with
  | nil => rfl
  | cons e t ih =>
    obtain ⟨j, w⟩ := e
    by_cases h : j = k
    · subst h; simpa [cellsDrop] using ih
    · simp only [cellsDrop] at ih ⊢
      rw [List.filter_cons_of_pos (by simpa using h)]
      simpa [cellsFind, h] using ih

end Optional

/-! The canonical form. -/

section Canonical
variable {α : Type} [DecidableEq α] {d : Nat → α}

theorem cellsWfFrom_mono {lo lo' : Nat} {m : Cells α} (h : lo' ≤ lo) (w : cellsWfFrom d lo m = true) :
    cellsWfFrom d lo' m = true := by
  cases m with
  | nil => rfl
  | cons e t =>
    obtain ⟨j, x⟩ := e
    simp only [cellsWfFrom, Bool.and_eq_true, decide_eq_true_eq] at w ⊢
    exact ⟨⟨by omega, w.1.2⟩, w.2⟩

/-- Removing entries keeps the form. -/
theorem cellsWfFrom_filter (p : Nat × α → Bool) {lo : Nat} {m : Cells α} (w : cellsWfFrom d lo m = true) :
    cellsWfFrom d lo (m.filter p) = true := by
  induction m generalizing lo with
  | nil => rfl
  | cons e t ih =>
    obtain ⟨j, x⟩ := e
    simp only [cellsWfFrom, Bool.and_eq_true, decide_eq_true_eq] at w
    by_cases hp : p (j, x) = true
    · rw [List.filter_cons_of_pos hp]
      simp only [cellsWfFrom, Bool.and_eq_true, decide_eq_true_eq]
      exact ⟨⟨w.1.1, w.1.2⟩, ih w.2⟩
    · rw [List.filter_cons_of_neg hp]
      exact ih (cellsWfFrom_mono (by omega) w.2)

theorem cellsWfFrom_set {lo : Nat} {m : Cells α} {k : Nat} (v : α) (hk : lo ≤ k) (w : cellsWfFrom d lo m = true) :
    cellsWfFrom d lo (cellsSet (d k) m k v) = true := by
  induction m generalizing lo with
  | nil => by_cases h : v = d k <;> simp [cellsSet, cellsWfFrom, h, hk]
  | cons e t ih =>
    obtain ⟨j, x⟩ := e
    simp only [cellsWfFrom, Bool.and_eq_true, decide_eq_true_eq] at w
    by_cases h1 : k < j
    · by_cases hv : v = d k
      · have := cellsWfFrom_filter (fun e => e.1 != k) w.2
        simp only [cellsSet, h1, if_true, hv, cellsWfFrom, Bool.and_eq_true, decide_eq_true_eq]
        exact ⟨⟨w.1.1, w.1.2⟩, this⟩
      · simp only [cellsSet, h1, if_true, hv, if_false, cellsWfFrom, Bool.and_eq_true, decide_eq_true_eq]
        exact ⟨⟨hk, hv⟩, ⟨⟨by omega, w.1.2⟩, w.2⟩⟩
    · by_cases h2 : k = j
      · subst h2
        by_cases hv : v = d k
        · have := cellsWfFrom_filter (fun e => e.1 != k) w.2
          simp only [cellsSet, lt_irrefl, if_false, if_true, hv]
          exact cellsWfFrom_mono (by omega) this
        · simp only [cellsSet, lt_irrefl, if_false, if_true, hv, cellsWfFrom, Bool.and_eq_true, decide_eq_true_eq]
          exact ⟨⟨hk, hv⟩, w.2⟩
      · simp only [cellsSet, h1, if_false, h2, cellsWfFrom, Bool.and_eq_true, decide_eq_true_eq]
        exact ⟨⟨w.1.1, w.1.2⟩, ih (by omega) w.2⟩

/-- A write keeps the canonical form. -/
theorem cellsWf_set {m : Cells α} (k : Nat) (v : α) (w : cellsWf d m = true) : cellsWf d (cellsSet (d k) m k v) = true :=
  cellsWfFrom_set v (Nat.zero_le _) w

/-- Clearing keys keeps it. -/
theorem cellsWf_clear {m : Cells α} (p : Nat → Bool) (w : cellsWf d m = true) : cellsWf d (cellsClear p m) = true :=
  cellsWfFrom_filter _ w

/-- Dropping an entry keeps it. -/
theorem cellsWf_drop {m : Cells α} (k : Nat) (w : cellsWf d m = true) : cellsWf d (cellsDrop m k) = true :=
  cellsWfFrom_filter _ w

theorem cellsWf_mod {e : α} {m : Cells α} (k : Nat) (f : α → α) (w : cellsWf (fun _ => e) m = true) :
    cellsWf (fun _ => e) (cellsMod e m k f) = true :=
  cellsWf_set (d := fun _ => e) k _ w

theorem cellsWf_setRun {e : α} {m : Cells α} (k : Nat) (vs : List α) (w : cellsWf (fun _ => e) m = true) :
    cellsWf (fun _ => e) (cellsSetRun e m k vs) = true := by
  induction vs generalizing m k with
  | nil => exact w
  | cons v t ih => exact ih (k + 1) (cellsWf_set (d := fun _ => e) k v w)

theorem cellsWfFrom_map (e : α) (f : α → α) {lo : Nat} {m : Cells α} (w : cellsWfFrom (fun _ => e) lo m = true) :
    cellsWfFrom (fun _ => e) lo (cellsMap e f m) = true := by
  induction m generalizing lo with
  | nil => rfl
  | cons x t ih =>
    obtain ⟨j, y⟩ := x
    simp only [cellsWfFrom, Bool.and_eq_true, decide_eq_true_eq] at w
    simp only [cellsMap, List.map_cons] at ih ⊢
    by_cases h : f y = e
    · rw [List.filter_cons_of_neg (by simpa using h)]
      exact cellsWfFrom_mono (by omega) (ih w.2)
    · rw [List.filter_cons_of_pos (by simpa using h)]
      simp only [cellsWfFrom, Bool.and_eq_true, decide_eq_true_eq]
      exact ⟨⟨w.1.1, h⟩, ih w.2⟩

/-- Changing every entry keeps it. -/
theorem cellsWf_map (e : α) (f : α → α) {m : Cells α} (w : cellsWf (fun _ => e) m = true) :
    cellsWf (fun _ => e) (cellsMap e f m) = true :=
  cellsWfFrom_map e f w

end Canonical

end Sys2Proof.Machine
end

