-- ==== Sys2Proof/Laws/State.lean ====
section
/-! SUPPORT. What each update of State and of the module's record leaves alone, one small lemma a field, true by unfolding, so
that no later proof unfolds a record update. -/

namespace Sys2Proof.Machine

/-! The block. -/

theorem onChip_next (f : Chip → Chip) (s : State) : onChip f s = .next (settle { s with chip := f s.chip }) := rfl

/-! objSet changes the object store alone. -/

@[simp] theorem objSet_tk (i sb n v : Nat) (c : Chip) : (objSet i sb n v c).tk = c.tk := rfl
@[simp] theorem objSet_blobs (i sb n v : Nat) (c : Chip) : (objSet i sb n v c).blobs = c.blobs := rfl
@[simp] theorem objSet_dict (i sb n v : Nat) (c : Chip) : (objSet i sb n v c).dict = c.dict := rfl
@[simp] theorem objSet_card (i sb n v : Nat) (c : Chip) : (objSet i sb n v c).card = c.card := rfl
@[simp] theorem objSet_win (i sb n v : Nat) (c : Chip) : (objSet i sb n v c).win = c.win := rfl
@[simp] theorem objSet_log (i sb n v : Nat) (c : Chip) : (objSet i sb n v c).log = c.log := rfl
@[simp] theorem objSet_trace (i sb n v : Nat) (c : Chip) : (objSet i sb n v c).trace = c.trace := rfl
@[simp] theorem objSet_grid (i sb n v : Nat) (c : Chip) : (objSet i sb n v c).grid = c.grid := rfl
@[simp] theorem objSet_plan (i sb n v : Nat) (c : Chip) : (objSet i sb n v c).plan = c.plan := rfl
@[simp] theorem objSet_hbm (i sb n v : Nat) (c : Chip) : (objSet i sb n v c).hbm = c.hbm := rfl
@[simp] theorem objSet_intake (i sb n v : Nat) (c : Chip) : (objSet i sb n v c).intake = c.intake := rfl
@[simp] theorem objSet_sec (i sb n v : Nat) (c : Chip) : (objSet i sb n v c).sec = c.sec := rfl
@[simp] theorem objSet_net (i sb n v : Nat) (c : Chip) : (objSet i sb n v c).net = c.net := rfl
@[simp] theorem objSet_video (i sb n v : Nat) (c : Chip) : (objSet i sb n v c).video = c.video := rfl
@[simp] theorem objSet_serv (i sb n v : Nat) (c : Chip) : (objSet i sb n v c).serv = c.serv := rfl
@[simp] theorem objSet_life (i sb n v : Nat) (c : Chip) : (objSet i sb n v c).life = c.life := rfl
@[simp] theorem objSet_power (i sb n v : Nat) (c : Chip) : (objSet i sb n v c).power = c.power := rfl
@[simp] theorem objSet_fw (i sb n v : Nat) (c : Chip) : (objSet i sb n v c).fw = c.fw := rfl
@[simp] theorem objSet_link (i sb n v : Nat) (c : Chip) : (objSet i sb n v c).link = c.link := rfl
@[simp] theorem objSet_free (i sb n v : Nat) (c : Chip) : (objSet i sb n v c).free = c.free := rfl

/-! blobSet. -/

@[simp] theorem blobSet_tk (i sb n : Nat) (v : List Byte) (c : Chip) : (blobSet i sb n v c).tk = c.tk := rfl
@[simp] theorem blobSet_objs (i sb n : Nat) (v : List Byte) (c : Chip) : (blobSet i sb n v c).objs = c.objs := rfl
@[simp] theorem blobSet_dict (i sb n : Nat) (v : List Byte) (c : Chip) : (blobSet i sb n v c).dict = c.dict := rfl
@[simp] theorem blobSet_card (i sb n : Nat) (v : List Byte) (c : Chip) : (blobSet i sb n v c).card = c.card := rfl
@[simp] theorem blobSet_win (i sb n : Nat) (v : List Byte) (c : Chip) : (blobSet i sb n v c).win = c.win := rfl
@[simp] theorem blobSet_log (i sb n : Nat) (v : List Byte) (c : Chip) : (blobSet i sb n v c).log = c.log := rfl
@[simp] theorem blobSet_trace (i sb n : Nat) (v : List Byte) (c : Chip) : (blobSet i sb n v c).trace = c.trace := rfl
@[simp] theorem blobSet_grid (i sb n : Nat) (v : List Byte) (c : Chip) : (blobSet i sb n v c).grid = c.grid := rfl
@[simp] theorem blobSet_plan (i sb n : Nat) (v : List Byte) (c : Chip) : (blobSet i sb n v c).plan = c.plan := rfl
@[simp] theorem blobSet_hbm (i sb n : Nat) (v : List Byte) (c : Chip) : (blobSet i sb n v c).hbm = c.hbm := rfl
@[simp] theorem blobSet_intake (i sb n : Nat) (v : List Byte) (c : Chip) : (blobSet i sb n v c).intake = c.intake := rfl
@[simp] theorem blobSet_sec (i sb n : Nat) (v : List Byte) (c : Chip) : (blobSet i sb n v c).sec = c.sec := rfl
@[simp] theorem blobSet_net (i sb n : Nat) (v : List Byte) (c : Chip) : (blobSet i sb n v c).net = c.net := rfl
@[simp] theorem blobSet_video (i sb n : Nat) (v : List Byte) (c : Chip) : (blobSet i sb n v c).video = c.video := rfl
@[simp] theorem blobSet_serv (i sb n : Nat) (v : List Byte) (c : Chip) : (blobSet i sb n v c).serv = c.serv := rfl
@[simp] theorem blobSet_life (i sb n : Nat) (v : List Byte) (c : Chip) : (blobSet i sb n v c).life = c.life := rfl
@[simp] theorem blobSet_power (i sb n : Nat) (v : List Byte) (c : Chip) : (blobSet i sb n v c).power = c.power := rfl
@[simp] theorem blobSet_fw (i sb n : Nat) (v : List Byte) (c : Chip) : (blobSet i sb n v c).fw = c.fw := rfl
@[simp] theorem blobSet_link (i sb n : Nat) (v : List Byte) (c : Chip) : (blobSet i sb n v c).link = c.link := rfl
@[simp] theorem blobSet_free (i sb n : Nat) (v : List Byte) (c : Chip) : (blobSet i sb n v c).free = c.free := rfl

/-! objBump and objBumpSat. -/

@[simp] theorem objBump_tk (i sb n v : Nat) (c : Chip) : (objBump i sb n v c).tk = c.tk := rfl
@[simp] theorem objBump_blobs (i sb n v : Nat) (c : Chip) : (objBump i sb n v c).blobs = c.blobs := rfl
@[simp] theorem objBump_dict (i sb n v : Nat) (c : Chip) : (objBump i sb n v c).dict = c.dict := rfl
@[simp] theorem objBump_card (i sb n v : Nat) (c : Chip) : (objBump i sb n v c).card = c.card := rfl
@[simp] theorem objBump_win (i sb n v : Nat) (c : Chip) : (objBump i sb n v c).win = c.win := rfl
@[simp] theorem objBump_log (i sb n v : Nat) (c : Chip) : (objBump i sb n v c).log = c.log := rfl
@[simp] theorem objBump_trace (i sb n v : Nat) (c : Chip) : (objBump i sb n v c).trace = c.trace := rfl
@[simp] theorem objBump_grid (i sb n v : Nat) (c : Chip) : (objBump i sb n v c).grid = c.grid := rfl
@[simp] theorem objBump_plan (i sb n v : Nat) (c : Chip) : (objBump i sb n v c).plan = c.plan := rfl
@[simp] theorem objBump_hbm (i sb n v : Nat) (c : Chip) : (objBump i sb n v c).hbm = c.hbm := rfl
@[simp] theorem objBump_intake (i sb n v : Nat) (c : Chip) : (objBump i sb n v c).intake = c.intake := rfl
@[simp] theorem objBump_sec (i sb n v : Nat) (c : Chip) : (objBump i sb n v c).sec = c.sec := rfl
@[simp] theorem objBump_net (i sb n v : Nat) (c : Chip) : (objBump i sb n v c).net = c.net := rfl
@[simp] theorem objBump_video (i sb n v : Nat) (c : Chip) : (objBump i sb n v c).video = c.video := rfl
@[simp] theorem objBump_serv (i sb n v : Nat) (c : Chip) : (objBump i sb n v c).serv = c.serv := rfl
@[simp] theorem objBump_life (i sb n v : Nat) (c : Chip) : (objBump i sb n v c).life = c.life := rfl
@[simp] theorem objBump_power (i sb n v : Nat) (c : Chip) : (objBump i sb n v c).power = c.power := rfl
@[simp] theorem objBump_fw (i sb n v : Nat) (c : Chip) : (objBump i sb n v c).fw = c.fw := rfl
@[simp] theorem objBump_link (i sb n v : Nat) (c : Chip) : (objBump i sb n v c).link = c.link := rfl
@[simp] theorem objBump_free (i sb n v : Nat) (c : Chip) : (objBump i sb n v c).free = c.free := rfl
@[simp] theorem objBumpSat_tk (i sb n v : Nat) (c : Chip) : (objBumpSat i sb n v c).tk = c.tk := rfl
@[simp] theorem objBumpSat_blobs (i sb n v : Nat) (c : Chip) : (objBumpSat i sb n v c).blobs = c.blobs := rfl
@[simp] theorem objBumpSat_dict (i sb n v : Nat) (c : Chip) : (objBumpSat i sb n v c).dict = c.dict := rfl
@[simp] theorem objBumpSat_card (i sb n v : Nat) (c : Chip) : (objBumpSat i sb n v c).card = c.card := rfl
@[simp] theorem objBumpSat_win (i sb n v : Nat) (c : Chip) : (objBumpSat i sb n v c).win = c.win := rfl
@[simp] theorem objBumpSat_log (i sb n v : Nat) (c : Chip) : (objBumpSat i sb n v c).log = c.log := rfl
@[simp] theorem objBumpSat_trace (i sb n v : Nat) (c : Chip) : (objBumpSat i sb n v c).trace = c.trace := rfl
@[simp] theorem objBumpSat_grid (i sb n v : Nat) (c : Chip) : (objBumpSat i sb n v c).grid = c.grid := rfl
@[simp] theorem objBumpSat_plan (i sb n v : Nat) (c : Chip) : (objBumpSat i sb n v c).plan = c.plan := rfl
@[simp] theorem objBumpSat_hbm (i sb n v : Nat) (c : Chip) : (objBumpSat i sb n v c).hbm = c.hbm := rfl
@[simp] theorem objBumpSat_intake (i sb n v : Nat) (c : Chip) : (objBumpSat i sb n v c).intake = c.intake := rfl
@[simp] theorem objBumpSat_sec (i sb n v : Nat) (c : Chip) : (objBumpSat i sb n v c).sec = c.sec := rfl
@[simp] theorem objBumpSat_net (i sb n v : Nat) (c : Chip) : (objBumpSat i sb n v c).net = c.net := rfl
@[simp] theorem objBumpSat_video (i sb n v : Nat) (c : Chip) : (objBumpSat i sb n v c).video = c.video := rfl
@[simp] theorem objBumpSat_serv (i sb n v : Nat) (c : Chip) : (objBumpSat i sb n v c).serv = c.serv := rfl
@[simp] theorem objBumpSat_life (i sb n v : Nat) (c : Chip) : (objBumpSat i sb n v c).life = c.life := rfl
@[simp] theorem objBumpSat_power (i sb n v : Nat) (c : Chip) : (objBumpSat i sb n v c).power = c.power := rfl
@[simp] theorem objBumpSat_fw (i sb n v : Nat) (c : Chip) : (objBumpSat i sb n v c).fw = c.fw := rfl
@[simp] theorem objBumpSat_link (i sb n v : Nat) (c : Chip) : (objBumpSat i sb n v c).link = c.link := rfl
@[simp] theorem objBumpSat_free (i sb n v : Nat) (c : Chip) : (objBumpSat i sb n v c).free = c.free := rfl

/-! setTile changes the grid alone. -/

@[simp] theorem setTile_tk (t : Nat) (v : Tile) (c : Chip) : (setTile t v c).tk = c.tk := rfl
@[simp] theorem setTile_objs (t : Nat) (v : Tile) (c : Chip) : (setTile t v c).objs = c.objs := rfl
@[simp] theorem setTile_blobs (t : Nat) (v : Tile) (c : Chip) : (setTile t v c).blobs = c.blobs := rfl
@[simp] theorem setTile_dict (t : Nat) (v : Tile) (c : Chip) : (setTile t v c).dict = c.dict := rfl
@[simp] theorem setTile_card (t : Nat) (v : Tile) (c : Chip) : (setTile t v c).card = c.card := rfl
@[simp] theorem setTile_win (t : Nat) (v : Tile) (c : Chip) : (setTile t v c).win = c.win := rfl
@[simp] theorem setTile_log (t : Nat) (v : Tile) (c : Chip) : (setTile t v c).log = c.log := rfl
@[simp] theorem setTile_trace (t : Nat) (v : Tile) (c : Chip) : (setTile t v c).trace = c.trace := rfl
@[simp] theorem setTile_plan (t : Nat) (v : Tile) (c : Chip) : (setTile t v c).plan = c.plan := rfl
@[simp] theorem setTile_hbm (t : Nat) (v : Tile) (c : Chip) : (setTile t v c).hbm = c.hbm := rfl
@[simp] theorem setTile_intake (t : Nat) (v : Tile) (c : Chip) : (setTile t v c).intake = c.intake := rfl
@[simp] theorem setTile_sec (t : Nat) (v : Tile) (c : Chip) : (setTile t v c).sec = c.sec := rfl
@[simp] theorem setTile_net (t : Nat) (v : Tile) (c : Chip) : (setTile t v c).net = c.net := rfl
@[simp] theorem setTile_video (t : Nat) (v : Tile) (c : Chip) : (setTile t v c).video = c.video := rfl
@[simp] theorem setTile_serv (t : Nat) (v : Tile) (c : Chip) : (setTile t v c).serv = c.serv := rfl
@[simp] theorem setTile_life (t : Nat) (v : Tile) (c : Chip) : (setTile t v c).life = c.life := rfl
@[simp] theorem setTile_power (t : Nat) (v : Tile) (c : Chip) : (setTile t v c).power = c.power := rfl
@[simp] theorem setTile_fw (t : Nat) (v : Tile) (c : Chip) : (setTile t v c).fw = c.fw := rfl
@[simp] theorem setTile_link (t : Nat) (v : Tile) (c : Chip) : (setTile t v c).link = c.link := rfl
@[simp] theorem setTile_free (t : Nat) (v : Tile) (c : Chip) : (setTile t v c).free = c.free := rfl

/-! addFlits changes the grid alone. -/

@[simp] theorem addFlits_tk (fs : List Flit) (c : Chip) : (addFlits fs c).tk = c.tk := rfl
@[simp] theorem addFlits_objs (fs : List Flit) (c : Chip) : (addFlits fs c).objs = c.objs := rfl
@[simp] theorem addFlits_blobs (fs : List Flit) (c : Chip) : (addFlits fs c).blobs = c.blobs := rfl
@[simp] theorem addFlits_dict (fs : List Flit) (c : Chip) : (addFlits fs c).dict = c.dict := rfl
@[simp] theorem addFlits_card (fs : List Flit) (c : Chip) : (addFlits fs c).card = c.card := rfl
@[simp] theorem addFlits_win (fs : List Flit) (c : Chip) : (addFlits fs c).win = c.win := rfl
@[simp] theorem addFlits_log (fs : List Flit) (c : Chip) : (addFlits fs c).log = c.log := rfl
@[simp] theorem addFlits_trace (fs : List Flit) (c : Chip) : (addFlits fs c).trace = c.trace := rfl
@[simp] theorem addFlits_plan (fs : List Flit) (c : Chip) : (addFlits fs c).plan = c.plan := rfl
@[simp] theorem addFlits_hbm (fs : List Flit) (c : Chip) : (addFlits fs c).hbm = c.hbm := rfl
@[simp] theorem addFlits_intake (fs : List Flit) (c : Chip) : (addFlits fs c).intake = c.intake := rfl
@[simp] theorem addFlits_sec (fs : List Flit) (c : Chip) : (addFlits fs c).sec = c.sec := rfl
@[simp] theorem addFlits_net (fs : List Flit) (c : Chip) : (addFlits fs c).net = c.net := rfl
@[simp] theorem addFlits_video (fs : List Flit) (c : Chip) : (addFlits fs c).video = c.video := rfl
@[simp] theorem addFlits_serv (fs : List Flit) (c : Chip) : (addFlits fs c).serv = c.serv := rfl
@[simp] theorem addFlits_life (fs : List Flit) (c : Chip) : (addFlits fs c).life = c.life := rfl
@[simp] theorem addFlits_power (fs : List Flit) (c : Chip) : (addFlits fs c).power = c.power := rfl
@[simp] theorem addFlits_fw (fs : List Flit) (c : Chip) : (addFlits fs c).fw = c.fw := rfl
@[simp] theorem addFlits_link (fs : List Flit) (c : Chip) : (addFlits fs c).link = c.link := rfl
@[simp] theorem addFlits_free (fs : List Flit) (c : Chip) : (addFlits fs c).free = c.free := rfl

/-! alertLater changes the dictionary server alone. -/

@[simp] theorem alertLater_tk (b : Nat) (c : Chip) : (alertLater b c).tk = c.tk := rfl
@[simp] theorem alertLater_objs (b : Nat) (c : Chip) : (alertLater b c).objs = c.objs := rfl
@[simp] theorem alertLater_blobs (b : Nat) (c : Chip) : (alertLater b c).blobs = c.blobs := rfl
@[simp] theorem alertLater_card (b : Nat) (c : Chip) : (alertLater b c).card = c.card := rfl
@[simp] theorem alertLater_win (b : Nat) (c : Chip) : (alertLater b c).win = c.win := rfl
@[simp] theorem alertLater_log (b : Nat) (c : Chip) : (alertLater b c).log = c.log := rfl
@[simp] theorem alertLater_trace (b : Nat) (c : Chip) : (alertLater b c).trace = c.trace := rfl
@[simp] theorem alertLater_grid (b : Nat) (c : Chip) : (alertLater b c).grid = c.grid := rfl
@[simp] theorem alertLater_plan (b : Nat) (c : Chip) : (alertLater b c).plan = c.plan := rfl
@[simp] theorem alertLater_hbm (b : Nat) (c : Chip) : (alertLater b c).hbm = c.hbm := rfl
@[simp] theorem alertLater_intake (b : Nat) (c : Chip) : (alertLater b c).intake = c.intake := rfl
@[simp] theorem alertLater_sec (b : Nat) (c : Chip) : (alertLater b c).sec = c.sec := rfl
@[simp] theorem alertLater_net (b : Nat) (c : Chip) : (alertLater b c).net = c.net := rfl
@[simp] theorem alertLater_video (b : Nat) (c : Chip) : (alertLater b c).video = c.video := rfl
@[simp] theorem alertLater_serv (b : Nat) (c : Chip) : (alertLater b c).serv = c.serv := rfl
@[simp] theorem alertLater_life (b : Nat) (c : Chip) : (alertLater b c).life = c.life := rfl
@[simp] theorem alertLater_power (b : Nat) (c : Chip) : (alertLater b c).power = c.power := rfl
@[simp] theorem alertLater_fw (b : Nat) (c : Chip) : (alertLater b c).fw = c.fw := rfl
@[simp] theorem alertLater_link (b : Nat) (c : Chip) : (alertLater b c).link = c.link := rfl
@[simp] theorem alertLater_free (b : Nat) (c : Chip) : (alertLater b c).free = c.free := rfl

/-! atTime changes the clock alone. -/

@[simp] theorem atTime_objs (t : Nat) (c : Chip) : (atTime t c).objs = c.objs := rfl
@[simp] theorem atTime_blobs (t : Nat) (c : Chip) : (atTime t c).blobs = c.blobs := rfl
@[simp] theorem atTime_dict (t : Nat) (c : Chip) : (atTime t c).dict = c.dict := rfl
@[simp] theorem atTime_card (t : Nat) (c : Chip) : (atTime t c).card = c.card := rfl
@[simp] theorem atTime_win (t : Nat) (c : Chip) : (atTime t c).win = c.win := rfl
@[simp] theorem atTime_log (t : Nat) (c : Chip) : (atTime t c).log = c.log := rfl
@[simp] theorem atTime_trace (t : Nat) (c : Chip) : (atTime t c).trace = c.trace := rfl
@[simp] theorem atTime_grid (t : Nat) (c : Chip) : (atTime t c).grid = c.grid := rfl
@[simp] theorem atTime_plan (t : Nat) (c : Chip) : (atTime t c).plan = c.plan := rfl
@[simp] theorem atTime_hbm (t : Nat) (c : Chip) : (atTime t c).hbm = c.hbm := rfl
@[simp] theorem atTime_intake (t : Nat) (c : Chip) : (atTime t c).intake = c.intake := rfl
@[simp] theorem atTime_sec (t : Nat) (c : Chip) : (atTime t c).sec = c.sec := rfl
@[simp] theorem atTime_net (t : Nat) (c : Chip) : (atTime t c).net = c.net := rfl
@[simp] theorem atTime_video (t : Nat) (c : Chip) : (atTime t c).video = c.video := rfl
@[simp] theorem atTime_serv (t : Nat) (c : Chip) : (atTime t c).serv = c.serv := rfl
@[simp] theorem atTime_life (t : Nat) (c : Chip) : (atTime t c).life = c.life := rfl
@[simp] theorem atTime_power (t : Nat) (c : Chip) : (atTime t c).power = c.power := rfl
@[simp] theorem atTime_fw (t : Nat) (c : Chip) : (atTime t c).fw = c.fw := rfl
@[simp] theorem atTime_link (t : Nat) (c : Chip) : (atTime t c).link = c.link := rfl
@[simp] theorem atTime_free (t : Nat) (c : Chip) : (atTime t c).free = c.free := rfl

@[simp] theorem atTime_now (t : Nat) (c : Chip) : (atTime t c).tk.now = max c.tk.now t := rfl
@[simp] theorem atTime_tick (t : Nat) (c : Chip) : (atTime t c).tk.tick = c.tk.tick := rfl
@[simp] theorem atTime_timer (t : Nat) (c : Chip) : (atTime t c).tk.timer = c.tk.timer := rfl
@[simp] theorem atTime_phase (t : Nat) (c : Chip) : (atTime t c).tk.phase = c.tk.phase := rfl
@[simp] theorem atTime_mode (t : Nat) (c : Chip) : (atTime t c).tk.mode = c.tk.mode := rfl

/-! setCtx changes the dictionary server alone. -/

@[simp] theorem setCtx_tk (r : Role) (a : AccessCtx) (c : Chip) : (setCtx r a c).tk = c.tk := rfl
@[simp] theorem setCtx_objs (r : Role) (a : AccessCtx) (c : Chip) : (setCtx r a c).objs = c.objs := rfl
@[simp] theorem setCtx_blobs (r : Role) (a : AccessCtx) (c : Chip) : (setCtx r a c).blobs = c.blobs := rfl
@[simp] theorem setCtx_card (r : Role) (a : AccessCtx) (c : Chip) : (setCtx r a c).card = c.card := rfl
@[simp] theorem setCtx_win (r : Role) (a : AccessCtx) (c : Chip) : (setCtx r a c).win = c.win := rfl
@[simp] theorem setCtx_log (r : Role) (a : AccessCtx) (c : Chip) : (setCtx r a c).log = c.log := rfl
@[simp] theorem setCtx_trace (r : Role) (a : AccessCtx) (c : Chip) : (setCtx r a c).trace = c.trace := rfl
@[simp] theorem setCtx_grid (r : Role) (a : AccessCtx) (c : Chip) : (setCtx r a c).grid = c.grid := rfl
@[simp] theorem setCtx_plan (r : Role) (a : AccessCtx) (c : Chip) : (setCtx r a c).plan = c.plan := rfl
@[simp] theorem setCtx_hbm (r : Role) (a : AccessCtx) (c : Chip) : (setCtx r a c).hbm = c.hbm := rfl
@[simp] theorem setCtx_intake (r : Role) (a : AccessCtx) (c : Chip) : (setCtx r a c).intake = c.intake := rfl
@[simp] theorem setCtx_sec (r : Role) (a : AccessCtx) (c : Chip) : (setCtx r a c).sec = c.sec := rfl
@[simp] theorem setCtx_net (r : Role) (a : AccessCtx) (c : Chip) : (setCtx r a c).net = c.net := rfl
@[simp] theorem setCtx_video (r : Role) (a : AccessCtx) (c : Chip) : (setCtx r a c).video = c.video := rfl
@[simp] theorem setCtx_serv (r : Role) (a : AccessCtx) (c : Chip) : (setCtx r a c).serv = c.serv := rfl
@[simp] theorem setCtx_life (r : Role) (a : AccessCtx) (c : Chip) : (setCtx r a c).life = c.life := rfl
@[simp] theorem setCtx_power (r : Role) (a : AccessCtx) (c : Chip) : (setCtx r a c).power = c.power := rfl
@[simp] theorem setCtx_fw (r : Role) (a : AccessCtx) (c : Chip) : (setCtx r a c).fw = c.fw := rfl
@[simp] theorem setCtx_link (r : Role) (a : AccessCtx) (c : Chip) : (setCtx r a c).link = c.link := rfl
@[simp] theorem setCtx_free (r : Role) (a : AccessCtx) (c : Chip) : (setCtx r a c).free = c.free := rfl

/-! postStatus changes the object store and the alerts that wait for the latch. -/

@[simp] theorem postStatus_tk (i sb n v : Nat) (c : Chip) : (postStatus i sb n v c).tk = c.tk := by dsimp only [postStatus]; split <;> rfl
@[simp] theorem postStatus_blobs (i sb n v : Nat) (c : Chip) : (postStatus i sb n v c).blobs = c.blobs := by dsimp only [postStatus]; split <;> rfl
@[simp] theorem postStatus_card (i sb n v : Nat) (c : Chip) : (postStatus i sb n v c).card = c.card := by dsimp only [postStatus]; split <;> rfl
@[simp] theorem postStatus_win (i sb n v : Nat) (c : Chip) : (postStatus i sb n v c).win = c.win := by dsimp only [postStatus]; split <;> rfl
@[simp] theorem postStatus_log (i sb n v : Nat) (c : Chip) : (postStatus i sb n v c).log = c.log := by dsimp only [postStatus]; split <;> rfl
@[simp] theorem postStatus_trace (i sb n v : Nat) (c : Chip) : (postStatus i sb n v c).trace = c.trace := by dsimp only [postStatus]; split <;> rfl
@[simp] theorem postStatus_grid (i sb n v : Nat) (c : Chip) : (postStatus i sb n v c).grid = c.grid := by dsimp only [postStatus]; split <;> rfl
@[simp] theorem postStatus_plan (i sb n v : Nat) (c : Chip) : (postStatus i sb n v c).plan = c.plan := by dsimp only [postStatus]; split <;> rfl
@[simp] theorem postStatus_hbm (i sb n v : Nat) (c : Chip) : (postStatus i sb n v c).hbm = c.hbm := by dsimp only [postStatus]; split <;> rfl
@[simp] theorem postStatus_intake (i sb n v : Nat) (c : Chip) : (postStatus i sb n v c).intake = c.intake := by dsimp only [postStatus]; split <;> rfl
@[simp] theorem postStatus_sec (i sb n v : Nat) (c : Chip) : (postStatus i sb n v c).sec = c.sec := by dsimp only [postStatus]; split <;> rfl
@[simp] theorem postStatus_net (i sb n v : Nat) (c : Chip) : (postStatus i sb n v c).net = c.net := by dsimp only [postStatus]; split <;> rfl
@[simp] theorem postStatus_video (i sb n v : Nat) (c : Chip) : (postStatus i sb n v c).video = c.video := by dsimp only [postStatus]; split <;> rfl
@[simp] theorem postStatus_serv (i sb n v : Nat) (c : Chip) : (postStatus i sb n v c).serv = c.serv := by dsimp only [postStatus]; split <;> rfl
@[simp] theorem postStatus_life (i sb n v : Nat) (c : Chip) : (postStatus i sb n v c).life = c.life := by dsimp only [postStatus]; split <;> rfl
@[simp] theorem postStatus_power (i sb n v : Nat) (c : Chip) : (postStatus i sb n v c).power = c.power := by dsimp only [postStatus]; split <;> rfl
@[simp] theorem postStatus_fw (i sb n v : Nat) (c : Chip) : (postStatus i sb n v c).fw = c.fw := by dsimp only [postStatus]; split <;> rfl
@[simp] theorem postStatus_link (i sb n v : Nat) (c : Chip) : (postStatus i sb n v c).link = c.link := by dsimp only [postStatus]; split <;> rfl
@[simp] theorem postStatus_free (i sb n v : Nat) (c : Chip) : (postStatus i sb n v c).free = c.free := by dsimp only [postStatus]; split <;> rfl

/-! tracePoint changes the trace and its object 2A10.05. -/

@[simp] theorem tracePoint_tk (p a v : Nat) (c : Chip) : (tracePoint p a v c).tk = c.tk := by dsimp only [tracePoint]; split_ifs <;> rfl
@[simp] theorem tracePoint_blobs (p a v : Nat) (c : Chip) : (tracePoint p a v c).blobs = c.blobs := by dsimp only [tracePoint]; split_ifs <;> rfl
@[simp] theorem tracePoint_dict (p a v : Nat) (c : Chip) : (tracePoint p a v c).dict = c.dict := by dsimp only [tracePoint]; split_ifs <;> rfl
@[simp] theorem tracePoint_card (p a v : Nat) (c : Chip) : (tracePoint p a v c).card = c.card := by dsimp only [tracePoint]; split_ifs <;> rfl
@[simp] theorem tracePoint_win (p a v : Nat) (c : Chip) : (tracePoint p a v c).win = c.win := by dsimp only [tracePoint]; split_ifs <;> rfl
@[simp] theorem tracePoint_log (p a v : Nat) (c : Chip) : (tracePoint p a v c).log = c.log := by dsimp only [tracePoint]; split_ifs <;> rfl
@[simp] theorem tracePoint_grid (p a v : Nat) (c : Chip) : (tracePoint p a v c).grid = c.grid := by dsimp only [tracePoint]; split_ifs <;> rfl
@[simp] theorem tracePoint_plan (p a v : Nat) (c : Chip) : (tracePoint p a v c).plan = c.plan := by dsimp only [tracePoint]; split_ifs <;> rfl
@[simp] theorem tracePoint_hbm (p a v : Nat) (c : Chip) : (tracePoint p a v c).hbm = c.hbm := by dsimp only [tracePoint]; split_ifs <;> rfl
@[simp] theorem tracePoint_intake (p a v : Nat) (c : Chip) : (tracePoint p a v c).intake = c.intake := by dsimp only [tracePoint]; split_ifs <;> rfl
@[simp] theorem tracePoint_sec (p a v : Nat) (c : Chip) : (tracePoint p a v c).sec = c.sec := by dsimp only [tracePoint]; split_ifs <;> rfl
@[simp] theorem tracePoint_net (p a v : Nat) (c : Chip) : (tracePoint p a v c).net = c.net := by dsimp only [tracePoint]; split_ifs <;> rfl
@[simp] theorem tracePoint_video (p a v : Nat) (c : Chip) : (tracePoint p a v c).video = c.video := by dsimp only [tracePoint]; split_ifs <;> rfl
@[simp] theorem tracePoint_serv (p a v : Nat) (c : Chip) : (tracePoint p a v c).serv = c.serv := by dsimp only [tracePoint]; split_ifs <;> rfl
@[simp] theorem tracePoint_life (p a v : Nat) (c : Chip) : (tracePoint p a v c).life = c.life := by dsimp only [tracePoint]; split_ifs <;> rfl
@[simp] theorem tracePoint_power (p a v : Nat) (c : Chip) : (tracePoint p a v c).power = c.power := by dsimp only [tracePoint]; split_ifs <;> rfl
@[simp] theorem tracePoint_fw (p a v : Nat) (c : Chip) : (tracePoint p a v c).fw = c.fw := by dsimp only [tracePoint]; split_ifs <;> rfl
@[simp] theorem tracePoint_link (p a v : Nat) (c : Chip) : (tracePoint p a v c).link = c.link := by dsimp only [tracePoint]; split_ifs <;> rfl
@[simp] theorem tracePoint_free (p a v : Nat) (c : Chip) : (tracePoint p a v c).free = c.free := by dsimp only [tracePoint]; split_ifs <;> rfl

/-! breakUpd marks the images under confirmation (Table 13-7) alone. -/

@[simp] theorem breakUpd_tk (n : Nat) (c : Chip) : (breakUpd n c).tk = c.tk := rfl
@[simp] theorem breakUpd_objs (n : Nat) (c : Chip) : (breakUpd n c).objs = c.objs := rfl
@[simp] theorem breakUpd_blobs (n : Nat) (c : Chip) : (breakUpd n c).blobs = c.blobs := rfl
@[simp] theorem breakUpd_dict (n : Nat) (c : Chip) : (breakUpd n c).dict = c.dict := rfl
@[simp] theorem breakUpd_card (n : Nat) (c : Chip) : (breakUpd n c).card = c.card := rfl
@[simp] theorem breakUpd_win (n : Nat) (c : Chip) : (breakUpd n c).win = c.win := rfl
@[simp] theorem breakUpd_log (n : Nat) (c : Chip) : (breakUpd n c).log = c.log := rfl
@[simp] theorem breakUpd_trace (n : Nat) (c : Chip) : (breakUpd n c).trace = c.trace := rfl
@[simp] theorem breakUpd_grid (n : Nat) (c : Chip) : (breakUpd n c).grid = c.grid := rfl
@[simp] theorem breakUpd_plan (n : Nat) (c : Chip) : (breakUpd n c).plan = c.plan := rfl
@[simp] theorem breakUpd_hbm (n : Nat) (c : Chip) : (breakUpd n c).hbm = c.hbm := rfl
@[simp] theorem breakUpd_intake (n : Nat) (c : Chip) : (breakUpd n c).intake = c.intake := rfl
@[simp] theorem breakUpd_sec (n : Nat) (c : Chip) : (breakUpd n c).sec = c.sec := rfl
@[simp] theorem breakUpd_net (n : Nat) (c : Chip) : (breakUpd n c).net = c.net := rfl
@[simp] theorem breakUpd_video (n : Nat) (c : Chip) : (breakUpd n c).video = c.video := rfl
@[simp] theorem breakUpd_serv (n : Nat) (c : Chip) : (breakUpd n c).serv = c.serv := rfl
@[simp] theorem breakUpd_life (n : Nat) (c : Chip) : (breakUpd n c).life = c.life := rfl
@[simp] theorem breakUpd_power (n : Nat) (c : Chip) : (breakUpd n c).power = c.power := rfl
@[simp] theorem breakUpd_link (n : Nat) (c : Chip) : (breakUpd n c).link = c.link := rfl
@[simp] theorem breakUpd_free (n : Nat) (c : Chip) : (breakUpd n c).free = c.free := rfl

theorem fwCore_breakUpd (n : Nat) (c : Chip) : fwCore (breakUpd n c).fw = fwCore c.fw := by
  simp only [fwCore, breakUpd, List.map_map, FwSt.mk.injEq, true_and, and_true]
  exact List.map_congr_left fun u _ => by dsimp only [Function.comp]; split_ifs <;> rfl

/-! logRec changes the log, its objects and the alerts that wait for the latch. -/

@[simp] theorem logRec_tk (sv sr : Nat) (e : LogEv) (ids : List Nat) (c : Chip) : (logRec sv sr e ids c).tk = c.tk := by dsimp only [logRec]; split_ifs <;> rfl
@[simp] theorem logRec_blobs (sv sr : Nat) (e : LogEv) (ids : List Nat) (c : Chip) : (logRec sv sr e ids c).blobs = c.blobs := by dsimp only [logRec]; split_ifs <;> rfl
@[simp] theorem logRec_card (sv sr : Nat) (e : LogEv) (ids : List Nat) (c : Chip) : (logRec sv sr e ids c).card = c.card := by dsimp only [logRec]; split_ifs <;> rfl
@[simp] theorem logRec_win (sv sr : Nat) (e : LogEv) (ids : List Nat) (c : Chip) : (logRec sv sr e ids c).win = c.win := by dsimp only [logRec]; split_ifs <;> rfl
@[simp] theorem logRec_trace (sv sr : Nat) (e : LogEv) (ids : List Nat) (c : Chip) : (logRec sv sr e ids c).trace = c.trace := by dsimp only [logRec]; split_ifs <;> rfl
@[simp] theorem logRec_grid (sv sr : Nat) (e : LogEv) (ids : List Nat) (c : Chip) : (logRec sv sr e ids c).grid = c.grid := by dsimp only [logRec]; split_ifs <;> rfl
@[simp] theorem logRec_plan (sv sr : Nat) (e : LogEv) (ids : List Nat) (c : Chip) : (logRec sv sr e ids c).plan = c.plan := by dsimp only [logRec]; split_ifs <;> rfl
@[simp] theorem logRec_hbm (sv sr : Nat) (e : LogEv) (ids : List Nat) (c : Chip) : (logRec sv sr e ids c).hbm = c.hbm := by dsimp only [logRec]; split_ifs <;> rfl
@[simp] theorem logRec_intake (sv sr : Nat) (e : LogEv) (ids : List Nat) (c : Chip) : (logRec sv sr e ids c).intake = c.intake := by dsimp only [logRec]; split_ifs <;> rfl
@[simp] theorem logRec_sec (sv sr : Nat) (e : LogEv) (ids : List Nat) (c : Chip) : (logRec sv sr e ids c).sec = c.sec := by dsimp only [logRec]; split_ifs <;> rfl
@[simp] theorem logRec_net (sv sr : Nat) (e : LogEv) (ids : List Nat) (c : Chip) : (logRec sv sr e ids c).net = c.net := by dsimp only [logRec]; split_ifs <;> rfl
@[simp] theorem logRec_video (sv sr : Nat) (e : LogEv) (ids : List Nat) (c : Chip) : (logRec sv sr e ids c).video = c.video := by dsimp only [logRec]; split_ifs <;> rfl
@[simp] theorem logRec_serv (sv sr : Nat) (e : LogEv) (ids : List Nat) (c : Chip) : (logRec sv sr e ids c).serv = c.serv := by dsimp only [logRec]; split_ifs <;> rfl
@[simp] theorem logRec_life (sv sr : Nat) (e : LogEv) (ids : List Nat) (c : Chip) : (logRec sv sr e ids c).life = c.life := by dsimp only [logRec]; split_ifs <;> rfl
@[simp] theorem logRec_power (sv sr : Nat) (e : LogEv) (ids : List Nat) (c : Chip) : (logRec sv sr e ids c).power = c.power := by dsimp only [logRec]; split_ifs <;> rfl
@[simp] theorem logRec_fw (sv sr : Nat) (e : LogEv) (ids : List Nat) (c : Chip) : (logRec sv sr e ids c).fw = c.fw := by dsimp only [logRec]; split_ifs <;> rfl
@[simp] theorem logRec_link (sv sr : Nat) (e : LogEv) (ids : List Nat) (c : Chip) : (logRec sv sr e ids c).link = c.link := by dsimp only [logRec]; split_ifs <;> rfl
@[simp] theorem logRec_free (sv sr : Nat) (e : LogEv) (ids : List Nat) (c : Chip) : (logRec sv sr e ids c).free = c.free := by dsimp only [logRec]; split_ifs <;> rfl

/-! setClass changes the class objects and logs. -/

@[simp] theorem setClass_tk (n : Nat) (on : Bool) (c : Chip) : (setClass n on c).tk = c.tk := by dsimp only [setClass]; split_ifs <;> simp
@[simp] theorem setClass_blobs (n : Nat) (on : Bool) (c : Chip) : (setClass n on c).blobs = c.blobs := by dsimp only [setClass]; split_ifs <;> simp
@[simp] theorem setClass_card (n : Nat) (on : Bool) (c : Chip) : (setClass n on c).card = c.card := by dsimp only [setClass]; split_ifs <;> simp
@[simp] theorem setClass_win (n : Nat) (on : Bool) (c : Chip) : (setClass n on c).win = c.win := by dsimp only [setClass]; split_ifs <;> simp
@[simp] theorem setClass_trace (n : Nat) (on : Bool) (c : Chip) : (setClass n on c).trace = c.trace := by dsimp only [setClass]; split_ifs <;> simp
@[simp] theorem setClass_grid (n : Nat) (on : Bool) (c : Chip) : (setClass n on c).grid = c.grid := by dsimp only [setClass]; split_ifs <;> simp
@[simp] theorem setClass_plan (n : Nat) (on : Bool) (c : Chip) : (setClass n on c).plan = c.plan := by dsimp only [setClass]; split_ifs <;> simp
@[simp] theorem setClass_hbm (n : Nat) (on : Bool) (c : Chip) : (setClass n on c).hbm = c.hbm := by dsimp only [setClass]; split_ifs <;> simp
@[simp] theorem setClass_intake (n : Nat) (on : Bool) (c : Chip) : (setClass n on c).intake = c.intake := by dsimp only [setClass]; split_ifs <;> simp
@[simp] theorem setClass_sec (n : Nat) (on : Bool) (c : Chip) : (setClass n on c).sec = c.sec := by dsimp only [setClass]; split_ifs <;> simp
@[simp] theorem setClass_net (n : Nat) (on : Bool) (c : Chip) : (setClass n on c).net = c.net := by dsimp only [setClass]; split_ifs <;> simp
@[simp] theorem setClass_video (n : Nat) (on : Bool) (c : Chip) : (setClass n on c).video = c.video := by dsimp only [setClass]; split_ifs <;> simp
@[simp] theorem setClass_serv (n : Nat) (on : Bool) (c : Chip) : (setClass n on c).serv = c.serv := by dsimp only [setClass]; split_ifs <;> simp
@[simp] theorem setClass_life (n : Nat) (on : Bool) (c : Chip) : (setClass n on c).life = c.life := by dsimp only [setClass]; split_ifs <;> simp
@[simp] theorem setClass_power (n : Nat) (on : Bool) (c : Chip) : (setClass n on c).power = c.power := by dsimp only [setClass]; split_ifs <;> simp
@[simp] theorem setClass_fw (n : Nat) (on : Bool) (c : Chip) : (setClass n on c).fw = c.fw := by dsimp only [setClass]; split_ifs <;> simp
@[simp] theorem setClass_link (n : Nat) (on : Bool) (c : Chip) : (setClass n on c).link = c.link := by dsimp only [setClass]; split_ifs <;> simp
@[simp] theorem setClass_free (n : Nat) (on : Bool) (c : Chip) : (setClass n on c).free = c.free := by dsimp only [setClass]; split_ifs <;> simp

/-! holdClass besides keeps the time the class ends. -/

@[simp] theorem holdClass_tk (n t : Nat) (c : Chip) : (holdClass n t c).tk = c.tk := by simp [holdClass]
@[simp] theorem holdClass_blobs (n t : Nat) (c : Chip) : (holdClass n t c).blobs = c.blobs := by simp [holdClass]
@[simp] theorem holdClass_card (n t : Nat) (c : Chip) : (holdClass n t c).card = c.card := by simp [holdClass]
@[simp] theorem holdClass_win (n t : Nat) (c : Chip) : (holdClass n t c).win = c.win := by simp [holdClass]
@[simp] theorem holdClass_trace (n t : Nat) (c : Chip) : (holdClass n t c).trace = c.trace := by simp [holdClass]
@[simp] theorem holdClass_grid (n t : Nat) (c : Chip) : (holdClass n t c).grid = c.grid := by simp [holdClass]
@[simp] theorem holdClass_plan (n t : Nat) (c : Chip) : (holdClass n t c).plan = c.plan := by simp [holdClass]
@[simp] theorem holdClass_hbm (n t : Nat) (c : Chip) : (holdClass n t c).hbm = c.hbm := by simp [holdClass]
@[simp] theorem holdClass_intake (n t : Nat) (c : Chip) : (holdClass n t c).intake = c.intake := by simp [holdClass]
@[simp] theorem holdClass_sec (n t : Nat) (c : Chip) : (holdClass n t c).sec = c.sec := by simp [holdClass]
@[simp] theorem holdClass_net (n t : Nat) (c : Chip) : (holdClass n t c).net = c.net := by simp [holdClass]
@[simp] theorem holdClass_video (n t : Nat) (c : Chip) : (holdClass n t c).video = c.video := by simp [holdClass]
@[simp] theorem holdClass_serv (n t : Nat) (c : Chip) : (holdClass n t c).serv = c.serv := by simp [holdClass]
@[simp] theorem holdClass_power (n t : Nat) (c : Chip) : (holdClass n t c).power = c.power := by simp [holdClass]
@[simp] theorem holdClass_fw (n t : Nat) (c : Chip) : (holdClass n t c).fw = c.fw := by simp [holdClass]
@[simp] theorem holdClass_link (n t : Nat) (c : Chip) : (holdClass n t c).link = c.link := by simp [holdClass]
@[simp] theorem holdClass_free (n t : Nat) (c : Chip) : (holdClass n t c).free = c.free := by simp [holdClass]

/-! None of them asks for an at-once re-latch. -/

@[simp] theorem alertLater_relatch (b : Nat) (c : Chip) : (alertLater b c).dict.relatch = c.dict.relatch := rfl
@[simp] theorem postStatus_relatch (i sb n v : Nat) (c : Chip) : (postStatus i sb n v c).dict.relatch = c.dict.relatch := by
  dsimp only [postStatus]; split <;> rfl
@[simp] theorem logRec_relatch (sv sr : Nat) (e : LogEv) (ids : List Nat) (c : Chip) : (logRec sv sr e ids c).dict.relatch = c.dict.relatch := by
  dsimp only [logRec]; split_ifs <;> rfl
@[simp] theorem setClass_relatch (n : Nat) (on : Bool) (c : Chip) : (setClass n on c).dict.relatch = c.dict.relatch := by
  dsimp only [setClass]; split_ifs <;> simp
@[simp] theorem holdClass_relatch (n t : Nat) (c : Chip) : (holdClass n t c).dict.relatch = c.dict.relatch := by simp [holdClass]
@[simp] theorem setCtx_relatch (r : Role) (a : AccessCtx) (c : Chip) : (setCtx r a c).dict.relatch = c.dict.relatch := rfl

end Sys2Proof.Machine
end

