-- ==== Sys2Proof/Laws/Ops.lean ====
section
/-! SUPPORT. Everything the shared operations can do: how a meaning answers, reads after writes of objects, tiles and words, and
that the storage operations keep the canonical form. -/

namespace Sys2Proof.Machine

/-! How a meaning answers. -/

@[simp] theorem settle_pending (s : State) : (settle s).pending = s.pending := by unfold settle; split <;> rfl

/-- Without an at-once re-latch the state stays. -/
theorem settle_of_clear {s : State} (h : s.chip.dict.relatch = false) : settle s = s := by simp [settle, h]

@[simp] theorem settle_relatch (s : State) : (settle s).chip.dict.relatch = false := by
  unfold settle; split <;> simp_all

theorem settle_chip_of_clear {s : State} (h : s.chip.dict.relatch = false) : (settle s).chip = s.chip := by
  rw [settle_of_clear h]

/-- A fold of object writes leaves every other part of the image alone. -/
theorem foldl_objSet_dict (l : List (Nat × Nat)) (g : Nat × Nat → Nat) (i : Chip) :
    (l.foldl (fun i k => objSet k.1 k.2 0 (g k) i) i).dict = i.dict := by
  induction l generalizing i with
  | nil => rfl
  | cons k t ih => simpa using ih (objSet k.1 k.2 0 (g k) i)

@[simp] theorem settle_img_dict (s : State) : (settle s).img.dict = s.img.dict := by
  unfold settle; split
  · exact foldl_objSet_dict relatchKeys (fun k => objGet s.chip k.1 k.2 0) s.img
  · rfl

theorem onChip_of_clear (f : Chip → Chip) (s : State) (h : (f s.chip).dict.relatch = false) :
    onChip f s = .next { s with chip := f s.chip } := by
  rw [onChip_next, settle_of_clear h]

theorem onUnit_of_lt {n i : Nat} (h : i < n) (f : Chip → Chip) (s : State) : onUnit n i f s = onChip f s := by
  simp [onUnit, h]

theorem onTile_of_lt {t : Nat} (h : t < 2048) (f : Tile → Tile) (s : State) : onTile t f s = onChip (issueTile t f) s := by
  simp [onTile, h]

theorem onAnyTile_of_lt {t : Nat} (h : t < 2048) (f : Chip → Chip) (s : State) : onAnyTile t f s = onChip f s := by
  simp [onAnyTile, h]

/-! Objects. -/

/-- Objects of different indices are different entries. -/
theorem okey_ne_idx {i i' b b' n n' : Nat} (h : i ≠ i') : okey i b n ≠ okey i' b' n' := by unfold okey; omega

/-- Objects of one index with different sub-indices are different entries. -/
theorem okey_ne_sub {i b b' n n' : Nat} (h : b % 256 ≠ b' % 256) : okey i b n ≠ okey i b' n' := by unfold okey; omega

/-- Entries of one object for different instances are different. -/
theorem okey_ne_inst {i b n n' : Nat} (h : n % 2 ^ 48 ≠ n' % 2 ^ 48) : okey i b n ≠ okey i b n' := by unfold okey; omega

@[simp] theorem objGet_set_same (c : Chip) (i b n v : Nat) : objGet (objSet i b n v c) i b n = v := by
  simp [objGet, objSet]

theorem objGet_set_ne (c : Chip) {i b n i' b' n' : Nat} (v : Nat) (h : okey i' b' n' ≠ okey i b n) :
    objGet (objSet i b n v c) i' b' n' = objGet c i' b' n' := by
  simpa [objGet, objSet] using cellsGet_set_ne _ _ _ v h

theorem objGet_bump_same (c : Chip) (i b n v : Nat) :
    objGet (objBump i b n v c) i b n = (objGet c i b n + v) % (objMax i b + 1) := objGet_set_same _ _ _ _ _

theorem objGet_bump_ne (c : Chip) {i b n i' b' n' : Nat} (v : Nat) (h : okey i' b' n' ≠ okey i b n) :
    objGet (objBump i b n v c) i' b' n' = objGet c i' b' n' := objGet_set_ne _ _ h

theorem objGet_bumpSat_same (c : Chip) (i b n v : Nat) :
    objGet (objBumpSat i b n v c) i b n = min (objMax i b) (objGet c i b n + v) := objGet_set_same _ _ _ _ _

theorem objGet_bumpSat_ne (c : Chip) {i b n i' b' n' : Nat} (v : Nat) (h : okey i' b' n' ≠ okey i b n) :
    objGet (objBumpSat i b n v c) i' b' n' = objGet c i' b' n' := objGet_set_ne _ _ h

/-- An update that keeps the object store keeps every object. -/
theorem objGet_of_objs {c c' : Chip} (h : c'.objs = c.objs) (i b n : Nat) : objGet c' i b n = objGet c i b n := by
  simp [objGet, h]

@[simp] theorem objGet_blobSet (c : Chip) (i b n i' b' n' : Nat) (v : List Byte) :
    objGet (blobSet i b n v c) i' b' n' = objGet c i' b' n' := rfl
@[simp] theorem objGet_setTile (c : Chip) (t : Nat) (v : Tile) (i b n : Nat) : objGet (setTile t v c) i b n = objGet c i b n := rfl
@[simp] theorem objGet_addFlits (c : Chip) (fs : List Flit) (i b n : Nat) : objGet (addFlits fs c) i b n = objGet c i b n := rfl
@[simp] theorem objGet_alertLater (c : Chip) (k i b n : Nat) : objGet (alertLater k c) i b n = objGet c i b n := rfl
@[simp] theorem objGet_atTime (c : Chip) (t i b n : Nat) : objGet (atTime t c) i b n = objGet c i b n := rfl
@[simp] theorem objGet_setCtx (c : Chip) (r : Role) (a : AccessCtx) (i b n : Nat) : objGet (setCtx r a c) i b n = objGet c i b n := rfl

theorem objGet_tracePoint (c : Chip) (p a v : Nat) {i b n : Nat} (h : okey i b n ≠ okey 0x2A10 0x05 0) :
    objGet (tracePoint p a v c) i b n = objGet c i b n := by
  have hb := objGet_bump_ne c 1 h
  dsimp only [tracePoint]
  split_ifs <;> first | rfl | exact hb

theorem objGet_logRec (c : Chip) (sv sr : Nat) (e : LogEv) (ids : List Nat) {i b n : Nat} (h2 : okey i b n ≠ okey 0x2A00 0x02 0)
    (h3 : okey i b n ≠ okey 0x2A00 0x03 0) (h5 : okey i b n ≠ okey 0x2A00 0x05 0) (h6 : okey i b n ≠ okey 0x2811 0x06 7) :
    objGet (logRec sv sr e ids c) i b n = objGet c i b n := by
  have g (l : LogSt) : objGet { c with log := l } i b n = objGet c i b n := rfl
  dsimp only [logRec]
  split_ifs <;> simp only [objGet_alertLater, objGet_bump_ne _ _ h5, objGet_bump_ne _ _ h3, objGet_bump_ne _ _ h6, objGet_set_ne _ _ h2, g]

theorem objGet_postStatus_same (c : Chip) (i b n v : Nat) : objGet (postStatus i b n v c) i b n = v := by
  dsimp only [postStatus]; split <;> simp

theorem objGet_postStatus_ne (c : Chip) {i b n i' b' n' : Nat} (v : Nat) (h : okey i' b' n' ≠ okey i b n) :
    objGet (postStatus i b n v c) i' b' n' = objGet c i' b' n' := by
  dsimp only [postStatus]; split <;> simp [objGet_set_ne _ _ h]

/-- A fault class writes 1001.00, 2A40, 2A42 and the log's objects (2A00, 2811) and no other. -/
theorem objGet_setClass (c : Chip) (m : Nat) (on : Bool) {i b n : Nat} (h : i ≠ 0x1001 ∧ i ≠ 0x2A40 ∧ i ≠ 0x2A42 ∧ i ≠ 0x2A00 ∧ i ≠ 0x2811) :
    objGet (setClass m on c) i b n = objGet c i b n := by
  have l (c : Chip) (sv sr : Nat) (e : LogEv) (ids : List Nat) : objGet (logRec sv sr e ids c) i b n = objGet c i b n :=
    objGet_logRec c sv sr e ids (okey_ne_idx h.2.2.2.1) (okey_ne_idx h.2.2.2.1) (okey_ne_idx h.2.2.2.1) (okey_ne_idx h.2.2.2.2)
  have w (c : Chip) (j b' n' v : Nat) (hj : i ≠ j) : objGet (objSet j b' n' v c) i b n = objGet c i b n :=
    objGet_set_ne c v (okey_ne_idx hj)
  have w' (c : Chip) (j b' n' v : Nat) (hj : i ≠ j) : objGet (objBumpSat j b' n' v c) i b n = objGet c i b n :=
    objGet_bumpSat_ne c v (okey_ne_idx hj)
  dsimp only [setClass]
  split_ifs
  · rfl
  all_goals
    simp only [l, w _ _ _ _ _ h.1, w _ 0x2A40 _ _ _ h.2.1, w _ 0x2A42 _ _ _ h.2.2.1, w' _ 0x2A42 _ _ _ h.2.2.1]

/-! Tiles and their storage. -/

@[simp] theorem tileAt_setTile_same (c : Chip) (t : Nat) (v : Tile) : tileAt (setTile t v c) t = v := by simp [tileAt, setTile]

theorem tileAt_setTile_ne (c : Chip) {t t' : Nat} (v : Tile) (h : t' ≠ t) : tileAt (setTile t v c) t' = tileAt c t' := by
  simpa [tileAt, setTile] using cellsGet_set_ne _ _ _ v h

/-- An update that keeps the grid keeps every tile. -/
theorem tileAt_of_grid {c c' : Chip} (h : c'.grid = c.grid) (t : Nat) : tileAt c' t = tileAt c t := by simp [tileAt, h]

@[simp] theorem tileAt_objSet (c : Chip) (i b n v t : Nat) : tileAt (objSet i b n v c) t = tileAt c t := rfl
@[simp] theorem tileAt_addFlits (c : Chip) (fs : List Flit) (t : Nat) : tileAt (addFlits fs c) t = tileAt c t := rfl

/-- Handing over no event changes nothing but clears the list. -/
theorem flushTile_quiet {t : Nat} {c : Chip} (h : (tileAt c t).ev = []) : flushTile t c = setTile t (tileAt c t) c := by
  have : ({ tileAt c t with ev := [] } : Tile) = tileAt c t := by rw [← h]
  simp only [flushTile, h, List.foldl_nil, this]

/-- Writing a tile twice is writing it once. -/
@[simp] theorem setTile_idem (t : Nat) (v : Tile) (c : Chip) : setTile t v (setTile t v c) = setTile t v c := by
  simp [setTile, cellsSet_idem]

/-- An operation that a ready tile issues and that reports nothing: the tile becomes what the operation makes it, and every
other tile and part of the module stays. -/
theorem issueTile_quiet {t : Nat} {c : Chip} (f : Tile → Tile) (hw : c.tk.phase = .work) (hi : tileIssues (tileAt c t) = true) (hq : (f (tileAt c t)).ev = []) :
    issueTile t f c = setTile t (f (tileAt c t)) c := by
  simp only [issueTile, hw, hi, decide_true, Bool.and_self, if_true]
  rw [flushTile_quiet (by simpa using hq)]
  simp

theorem sramPeek_write_same (t : Tile) (wa : Nat) (w : SWord) : sramPeek (sramWrite t wa w) wa = w := by
  simp [sramPeek, sramWrite]

theorem sramPeek_write_ne (t : Tile) {wa wa' : Nat} (w : SWord) (h : wa' % 16384 ≠ wa % 16384) :
    sramPeek (sramWrite t wa w) wa' = sramPeek t wa' := by
  simpa [sramPeek, sramWrite] using cellsGet_set_ne _ _ _ w h

/-- A word without an upset is delivered as stored. -/
theorem sramLook_clean (t : Tile) (wa : Nat) (hu : cellsGet 0 t.upsets (wa % 16384) = 0) (hp : (sramPeek t wa).poison = false) :
    sramLook t wa = (.clean, sramPeek t wa) := by
  unfold sramPeek at hp ⊢
  simp only [sramLook, hu, hp, burstDecode, if_true, Bool.false_eq_true, if_false]
  rw [← hp]
/-- A read of a word without an upset delivers it as stored and leaves a record of the bank it used alone. -/
theorem sramRead_clean (t : Tile) (wa : Nat) (hu : cellsGet 0 t.upsets (wa % 16384) = 0) (hp : (sramPeek t wa).poison = false) :
    sramRead t wa = (sramPeek t wa, portUse false wa t) := by
  simp only [sramRead, sramLook_clean t wa hu hp, sramNote, hp, Bool.false_eq_true, if_false]

/-! The canonical form. -/

theorem memWf_objSet {c : Chip} (i b n v : Nat) (h : Memory.wf c = true) : Memory.wf (objSet i b n v c) = true := by
  simp only [Memory.wf, Bool.and_eq_true] at h ⊢
  exact ⟨⟨⟨⟨cellsWf_set (d := objDefault) _ v h.1.1.1.1, h.1.1.1.2⟩, h.1.1.2⟩, h.1.2⟩, h.2⟩

theorem memWf_blobSet {c : Chip} (i b n : Nat) (v : List Byte) (h : Memory.wf c = true) : Memory.wf (blobSet i b n v c) = true := by
  simp only [Memory.wf, Bool.and_eq_true] at h ⊢
  exact ⟨⟨⟨⟨h.1.1.1.1, cellsWf_set (d := fun _ => []) _ v h.1.1.1.2⟩, h.1.1.2⟩, h.1.2⟩, h.2⟩

theorem memWf_objReset {c : Chip} (i n : Nat) (h : Memory.wf c = true) : Memory.wf (objReset i n c) = true := by
  simp only [Memory.wf, Bool.and_eq_true] at h ⊢
  let p (k : Nat) : Bool := k / 2 ^ 56 == i && k % 2 ^ 48 == n % 2 ^ 48
  exact ⟨⟨⟨⟨cellsWf_clear p h.1.1.1.1, cellsWf_clear p h.1.1.1.2⟩, h.1.1.2⟩, h.1.2⟩, h.2⟩

theorem memWf_setTile {c : Chip} (t : Nat) {v : Tile} (hv : tileWf v = true) (h : Memory.wf c = true) :
    Memory.wf (setTile t v c) = true := by
  simp only [Memory.wf, Bool.and_eq_true] at h ⊢
  exact ⟨⟨⟨⟨h.1.1.1.1, h.1.1.1.2⟩, cellsWf_set (d := fun _ => ({} : Tile)) _ v h.1.1.2⟩, cellsSet_all _ hv h.1.2⟩, h.2⟩

theorem tileWf_sramWrite {t : Tile} (wa : Nat) (w : SWord) (h : tileWf t = true) : tileWf (sramWrite t wa w) = true := by
  simp only [tileWf, Bool.and_eq_true] at h ⊢
  obtain ⟨⟨⟨⟨⟨⟨⟨⟨⟨a, b⟩, c⟩, d⟩, e⟩, f⟩, g⟩, i⟩, k⟩, j⟩ := h
  exact ⟨⟨⟨⟨⟨⟨⟨⟨⟨cellsWf_set (d := fun _ => sWordZero) _ w a, b⟩, c⟩, d⟩, e⟩, f⟩, g⟩, cellsWf_set (d := fun _ => 0) _ 0 i⟩, k⟩, j⟩

theorem memWf_hbmPut {c : Chip} (k : Nat) (l : Line) (h : Memory.wf c = true) : Memory.wf (hbmPut k l c) = true := by
  simp only [Memory.wf, Bool.and_eq_true] at h ⊢
  exact ⟨⟨⟨⟨h.1.1.1.1, h.1.1.1.2⟩, h.1.1.2⟩, h.1.2⟩, cellsWf_set (d := fun _ => zeroLine) _ l h.2⟩

theorem memWf_reset : Memory.wf Chip.reset = true := by decide

end Sys2Proof.Machine
end

