-- ==== Sys2Proof/Laws/Dict.lean ====
section
/-! SUPPORT. What an access to the dictionary does, once for every command object: what a note of the result leaves alone, and the
outcome of a command that is granted. -/

namespace Sys2Proof.Machine

/-! A settled state keeps the module but for the flag of R396 and the window's STATE byte. -/

theorem settle_chip (s : State) :
    ∃ b w, (settle s).chip = { s.chip with dict := { s.chip.dict with relatch := b }, win := { s.chip.win with stateByte := w } } := by
  unfold settle; split
  · exact ⟨_, _, rfl⟩
  · exact ⟨s.chip.dict.relatch, s.chip.win.stateByte, rfl⟩

@[simp] theorem settle_tk (s : State) : (settle s).chip.tk = s.chip.tk := by unfold settle; split <;> rfl
@[simp] theorem settle_blobs (s : State) : (settle s).chip.blobs = s.chip.blobs := by unfold settle; split <;> rfl
@[simp] theorem settle_card (s : State) : (settle s).chip.card = s.chip.card := by unfold settle; split <;> rfl
@[simp] theorem settle_log (s : State) : (settle s).chip.log = s.chip.log := by unfold settle; split <;> rfl
@[simp] theorem settle_trace (s : State) : (settle s).chip.trace = s.chip.trace := by unfold settle; split <;> rfl
@[simp] theorem settle_grid (s : State) : (settle s).chip.grid = s.chip.grid := by unfold settle; split <;> rfl
@[simp] theorem settle_plan (s : State) : (settle s).chip.plan = s.chip.plan := by unfold settle; split <;> rfl
@[simp] theorem settle_hbm (s : State) : (settle s).chip.hbm = s.chip.hbm := by unfold settle; split <;> rfl
@[simp] theorem settle_intake (s : State) : (settle s).chip.intake = s.chip.intake := by unfold settle; split <;> rfl
@[simp] theorem settle_sec (s : State) : (settle s).chip.sec = s.chip.sec := by unfold settle; split <;> rfl
@[simp] theorem settle_net (s : State) : (settle s).chip.net = s.chip.net := by unfold settle; split <;> rfl
@[simp] theorem settle_video (s : State) : (settle s).chip.video = s.chip.video := by unfold settle; split <;> rfl
@[simp] theorem settle_serv (s : State) : (settle s).chip.serv = s.chip.serv := by unfold settle; split <;> rfl
@[simp] theorem settle_life (s : State) : (settle s).chip.life = s.chip.life := by unfold settle; split <;> rfl
@[simp] theorem settle_power (s : State) : (settle s).chip.power = s.chip.power := by unfold settle; split <;> rfl
@[simp] theorem settle_fw (s : State) : (settle s).chip.fw = s.chip.fw := by unfold settle; split <;> rfl
@[simp] theorem settle_link (s : State) : (settle s).chip.link = s.chip.link := by unfold settle; split <;> rfl
@[simp] theorem settle_free (s : State) : (settle s).chip.free = s.chip.free := by unfold settle; split <;> rfl
@[simp] theorem settle_objs (s : State) : (settle s).chip.objs = s.chip.objs := by unfold settle; split <;> rfl
@[simp] theorem settle_dict_ctxs (s : State) : (settle s).chip.dict.ctxs = s.chip.dict.ctxs := by unfold settle; split <;> rfl
@[simp] theorem settle_dict_pendingW (s : State) : (settle s).chip.dict.pendingW = s.chip.dict.pendingW := by unfold settle; split <;> rfl
@[simp] theorem settle_dict_groups (s : State) : (settle s).chip.dict.groups = s.chip.dict.groups := by unfold settle; split <;> rfl
@[simp] theorem settle_dict_alertOn (s : State) : (settle s).chip.dict.alertOn = s.chip.dict.alertOn := by unfold settle; split <;> rfl
@[simp] theorem settle_dict_lastRes (s : State) : (settle s).chip.dict.lastRes = s.chip.dict.lastRes := by unfold settle; split <;> rfl
@[simp] theorem settle_dict_lastData (s : State) : (settle s).chip.dict.lastData = s.chip.dict.lastData := by unfold settle; split <;> rfl
@[simp] theorem settle_dict_latched (s : State) : (settle s).chip.dict.latched = s.chip.dict.latched := by unfold settle; split <;> rfl
@[simp] theorem settle_dict_coarse (s : State) : (settle s).chip.dict.coarse = s.chip.dict.coarse := by unfold settle; split <;> rfl
@[simp] theorem settle_dict_alerts (s : State) : (settle s).chip.dict.alerts = s.chip.dict.alerts := by unfold settle; split <;> rfl
@[simp] theorem objGet_settle (s : State) (i b n : Nat) : objGet (settle s).chip i b n = objGet s.chip i b n := objGet_of_objs (settle_objs s) i b n

/-! A note of a status, and of a command's value and outcome (R391, R392). -/

theorem postStatus_note (i k n st : Nat) (c : Chip) :
    ∃ o a, postStatus i k n st c = { c with objs := o, dict := { c.dict with alerts := a } } := by
  dsimp only [postStatus]; split
  · exact ⟨_, _, rfl⟩
  · exact ⟨_, c.dict.alerts, rfl⟩

theorem noteCommand_note (row : ObjRow) (i n v : Nat) (res : Res) (c : Chip) :
    ∃ o a, noteCommand row i n v res c = { c with objs := o, dict := { c.dict with alerts := a } } := by
  have h (d : Chip) (e : ∃ o, d = { c with objs := o }) (i k n st : Nat) :
      ∃ o a, postStatus i k n st d = { c with objs := o, dict := { c.dict with alerts := a } } := by
    obtain ⟨o, rfl⟩ := e
    obtain ⟨o', a, h⟩ := postStatus_note i k n st { c with objs := o }
    exact ⟨o', a, h⟩
  dsimp only [noteCommand]
  generalize hd : (if row.blob || !keepsValue i row.sub || decide (statusOf i row.sub = some (i, row.sub)) then c else objSet i row.sub n v c) = d
  have e : ∃ o, d = { c with objs := o } := by
    subst hd; split
    · exact ⟨c.objs, rfl⟩
    · exact ⟨_, rfl⟩
  split
  · exact h d e _ _ _ _
  · obtain ⟨o, rfl⟩ := e; exact ⟨o, c.dict.alerts, rfl⟩

@[simp] theorem noteCommand_tk (row : ObjRow) (i n v : Nat) (res : Res) (c : Chip) : (noteCommand row i n v res c).tk = c.tk := by
  obtain ⟨o, a, h⟩ := noteCommand_note row i n v res c; rw [h]
@[simp] theorem noteCommand_blobs (row : ObjRow) (i n v : Nat) (res : Res) (c : Chip) : (noteCommand row i n v res c).blobs = c.blobs := by
  obtain ⟨o, a, h⟩ := noteCommand_note row i n v res c; rw [h]
@[simp] theorem noteCommand_card (row : ObjRow) (i n v : Nat) (res : Res) (c : Chip) : (noteCommand row i n v res c).card = c.card := by
  obtain ⟨o, a, h⟩ := noteCommand_note row i n v res c; rw [h]
@[simp] theorem noteCommand_win (row : ObjRow) (i n v : Nat) (res : Res) (c : Chip) : (noteCommand row i n v res c).win = c.win := by
  obtain ⟨o, a, h⟩ := noteCommand_note row i n v res c; rw [h]
@[simp] theorem noteCommand_log (row : ObjRow) (i n v : Nat) (res : Res) (c : Chip) : (noteCommand row i n v res c).log = c.log := by
  obtain ⟨o, a, h⟩ := noteCommand_note row i n v res c; rw [h]
@[simp] theorem noteCommand_trace (row : ObjRow) (i n v : Nat) (res : Res) (c : Chip) : (noteCommand row i n v res c).trace = c.trace := by
  obtain ⟨o, a, h⟩ := noteCommand_note row i n v res c; rw [h]
@[simp] theorem noteCommand_grid (row : ObjRow) (i n v : Nat) (res : Res) (c : Chip) : (noteCommand row i n v res c).grid = c.grid := by
  obtain ⟨o, a, h⟩ := noteCommand_note row i n v res c; rw [h]
@[simp] theorem noteCommand_plan (row : ObjRow) (i n v : Nat) (res : Res) (c : Chip) : (noteCommand row i n v res c).plan = c.plan := by
  obtain ⟨o, a, h⟩ := noteCommand_note row i n v res c; rw [h]
@[simp] theorem noteCommand_hbm (row : ObjRow) (i n v : Nat) (res : Res) (c : Chip) : (noteCommand row i n v res c).hbm = c.hbm := by
  obtain ⟨o, a, h⟩ := noteCommand_note row i n v res c; rw [h]
@[simp] theorem noteCommand_intake (row : ObjRow) (i n v : Nat) (res : Res) (c : Chip) : (noteCommand row i n v res c).intake = c.intake := by
  obtain ⟨o, a, h⟩ := noteCommand_note row i n v res c; rw [h]
@[simp] theorem noteCommand_sec (row : ObjRow) (i n v : Nat) (res : Res) (c : Chip) : (noteCommand row i n v res c).sec = c.sec := by
  obtain ⟨o, a, h⟩ := noteCommand_note row i n v res c; rw [h]
@[simp] theorem noteCommand_net (row : ObjRow) (i n v : Nat) (res : Res) (c : Chip) : (noteCommand row i n v res c).net = c.net := by
  obtain ⟨o, a, h⟩ := noteCommand_note row i n v res c; rw [h]
@[simp] theorem noteCommand_video (row : ObjRow) (i n v : Nat) (res : Res) (c : Chip) : (noteCommand row i n v res c).video = c.video := by
  obtain ⟨o, a, h⟩ := noteCommand_note row i n v res c; rw [h]
@[simp] theorem noteCommand_serv (row : ObjRow) (i n v : Nat) (res : Res) (c : Chip) : (noteCommand row i n v res c).serv = c.serv := by
  obtain ⟨o, a, h⟩ := noteCommand_note row i n v res c; rw [h]
@[simp] theorem noteCommand_life (row : ObjRow) (i n v : Nat) (res : Res) (c : Chip) : (noteCommand row i n v res c).life = c.life := by
  obtain ⟨o, a, h⟩ := noteCommand_note row i n v res c; rw [h]
@[simp] theorem noteCommand_power (row : ObjRow) (i n v : Nat) (res : Res) (c : Chip) : (noteCommand row i n v res c).power = c.power := by
  obtain ⟨o, a, h⟩ := noteCommand_note row i n v res c; rw [h]
@[simp] theorem noteCommand_fw (row : ObjRow) (i n v : Nat) (res : Res) (c : Chip) : (noteCommand row i n v res c).fw = c.fw := by
  obtain ⟨o, a, h⟩ := noteCommand_note row i n v res c; rw [h]
@[simp] theorem noteCommand_link (row : ObjRow) (i n v : Nat) (res : Res) (c : Chip) : (noteCommand row i n v res c).link = c.link := by
  obtain ⟨o, a, h⟩ := noteCommand_note row i n v res c; rw [h]
@[simp] theorem noteCommand_free (row : ObjRow) (i n v : Nat) (res : Res) (c : Chip) : (noteCommand row i n v res c).free = c.free := by
  obtain ⟨o, a, h⟩ := noteCommand_note row i n v res c; rw [h]
@[simp] theorem noteCommand_dict_ctxs (row : ObjRow) (i n v : Nat) (res : Res) (c : Chip) : (noteCommand row i n v res c).dict.ctxs = c.dict.ctxs := by
  obtain ⟨o, a, h⟩ := noteCommand_note row i n v res c; rw [h]
@[simp] theorem noteCommand_dict_pendingW (row : ObjRow) (i n v : Nat) (res : Res) (c : Chip) : (noteCommand row i n v res c).dict.pendingW = c.dict.pendingW := by
  obtain ⟨o, a, h⟩ := noteCommand_note row i n v res c; rw [h]
@[simp] theorem noteCommand_dict_groups (row : ObjRow) (i n v : Nat) (res : Res) (c : Chip) : (noteCommand row i n v res c).dict.groups = c.dict.groups := by
  obtain ⟨o, a, h⟩ := noteCommand_note row i n v res c; rw [h]
@[simp] theorem noteCommand_dict_alertOn (row : ObjRow) (i n v : Nat) (res : Res) (c : Chip) : (noteCommand row i n v res c).dict.alertOn = c.dict.alertOn := by
  obtain ⟨o, a, h⟩ := noteCommand_note row i n v res c; rw [h]
@[simp] theorem noteCommand_dict_lastRes (row : ObjRow) (i n v : Nat) (res : Res) (c : Chip) : (noteCommand row i n v res c).dict.lastRes = c.dict.lastRes := by
  obtain ⟨o, a, h⟩ := noteCommand_note row i n v res c; rw [h]
@[simp] theorem noteCommand_dict_lastData (row : ObjRow) (i n v : Nat) (res : Res) (c : Chip) : (noteCommand row i n v res c).dict.lastData = c.dict.lastData := by
  obtain ⟨o, a, h⟩ := noteCommand_note row i n v res c; rw [h]
@[simp] theorem noteCommand_dict_latched (row : ObjRow) (i n v : Nat) (res : Res) (c : Chip) : (noteCommand row i n v res c).dict.latched = c.dict.latched := by
  obtain ⟨o, a, h⟩ := noteCommand_note row i n v res c; rw [h]
@[simp] theorem noteCommand_dict_coarse (row : ObjRow) (i n v : Nat) (res : Res) (c : Chip) : (noteCommand row i n v res c).dict.coarse = c.dict.coarse := by
  obtain ⟨o, a, h⟩ := noteCommand_note row i n v res c; rw [h]
@[simp] theorem noteCommand_dict_relatch (row : ObjRow) (i n v : Nat) (res : Res) (c : Chip) : (noteCommand row i n v res c).dict.relatch = c.dict.relatch := by
  obtain ⟨o, a, h⟩ := noteCommand_note row i n v res c; rw [h]

/-- A command's note writes its own object and its status object, and no other. -/
theorem objGet_noteCommand_ne {row : ObjRow} {i n v : Nat} {res : Res} {c : Chip} {j k m : Nat} (h1 : okey j k m ≠ okey i row.sub n)
    (h2 : ∀ o, statusOf i row.sub = some o → okey j k m ≠ okey o.1 o.2 (statusInst o n)) :
    objGet (noteCommand row i n v res c) j k m = objGet c j k m := by
  dsimp only [noteCommand]
  generalize hd : (if row.blob || !keepsValue i row.sub || decide (statusOf i row.sub = some (i, row.sub)) then c else objSet i row.sub n v c) = d
  have e : objGet d j k m = objGet c j k m := by
    subst hd; split
    · rfl
    · exact objGet_set_ne _ _ h1
  cases ho : statusOf i row.sub with
  | none => exact e
  | some o => exact (objGet_postStatus_ne _ _ (h2 o ho)).trans e

/-! Rows and commands. -/

theorem findRow_row {img c : Chip} {r : Role} {i k : Nat} {w : Bool} {row : ObjRow} (h : findRow img c r i k w = .ok row) :
    objRow i k = some row := by
  unfold findRow at h
  repeat' (split at h <;> try contradiction)
  all_goals (injection h with h; subst h; assumption)

/-- A granted write to a command object: the command's effect and answer, noted. -/
theorem dictWrite_command {s : State} {r : Role} {i k n v : Nat} {b : List Byte} {f : Cmd} {row0 : ObjRow} {c' : Chip} {res : Res}
    (hg : Granted s r i k n v) (hv : natLE b = v) (hrow : objRow i k = some row0) (hk : row0.kind ≠ .selector ∧ row0.kind ≠ .param)
    (hsub : row0.sub = k) (hf : commandOf i k = some f) (hl : lengthOk row0 i b.length = true) (hr : rangeOk row0 i v = true)
    (hn : needsRun i k v = false ∨ s.chip.tk.wake = .run) (hout : f (dictImage s) r n b s.chip = (c', res))
    (hnr : res.st ≠ stRights ∨ i = 0x2710) :
    dictWrite (dictImage s) r i k b s.chip = (noteCommand row0 i n v res c', res) := by
  obtain ⟨h1, h2, h3, row, h4, h5⟩ := hg
  have := findRow_row h4
  rw [hrow] at this; injection this with this; subst this
  subst hv
  have hq : runCommand f (dictImage s) r i k n b s.chip = (c', res) := by
    unfold runCommand
    rcases hn with hn | hn <;> simp [hn, hout]
  simp [dictWrite, h4, h2, h5, hl, hk, hf, writeCommand, hsub, h3, hr, hq]
  intro h h'; simp_all

/-- What a granted write of a command's row answers: the noted effect. -/
theorem write_answers {inst : Instr} {s : State} {r : Role} {i k n v : Nat} {b : List Byte} {f : Cmd} {row0 : ObjRow} {c' : Chip} {res : Res}
    (hx : exec inst s = onWrite r i k b s)
    (hg : Granted s r i k n v) (hv : natLE b = v) (hrow : objRow i k = some row0) (hk : row0.kind ≠ .selector ∧ row0.kind ≠ .param)
    (hsub : row0.sub = k) (hf : commandOf i k = some f) (hl : lengthOk row0 i b.length = true) (hr : rangeOk row0 i v = true)
    (hn : needsRun i k v = false ∨ s.chip.tk.wake = .run) (hout : f (dictImage s) r n b s.chip = (c', res))
    (hnr : res.st ≠ stRights ∨ i = 0x2710) :
    Answers inst s (onto s (noteRes (noteCommand row0 i n v res c', res))) := by
  unfold Answers onto
  rw [hx, onWrite, onChip, if_pos hg.1, dictWrite_command hg hv hrow hk hsub hf hl hr hn hout hnr]

/-- The same with the status posted (R392), for a statement about the next state. -/
theorem write_does {inst : Instr} {s : State} {r : Role} {i k n v st : Nat} {b : List Byte} {f : Cmd} {row0 : ObjRow} {c' : Chip} {res : Res}
    {o : Nat × Nat} {P : State → Prop} (hx : exec inst s = onWrite r i k b s)
    (hg : Granted s r i k n v) (hv : natLE b = v) (hrow : objRow i k = some row0) (hk : row0.kind ≠ .selector ∧ row0.kind ≠ .param)
    (hsub : row0.sub = k) (hf : commandOf i k = some f) (hl : lengthOk row0 i b.length = true) (hr : rangeOk row0 i v = true)
    (hn : needsRun i k v = false ∨ s.chip.tk.wake = .run) (ho : statusOf i k = some o) (hout : f (dictImage s) r n b s.chip = (c', res))
    (hst : res.st = st) (hnr : st ≠ stRights ∨ i = 0x2710) (hP : P (onto s (noteRes (noteCommand row0 i n v res c', res)))) :
    Does inst s st (o.1, o.2, statusInst o n) P := by
  refine ⟨_, write_answers hx hg hv hrow hk hsub hf hl hr hn hout (by rwa [hst]), ?_, ?_, hP⟩
  · simp [onto, noteRes, hst]
  · rw [onto, objGet_settle]
    show objGet (noteCommand row0 i n v res c') _ _ _ = _
    simp only [noteCommand, hsub, ho]
    rw [objGet_postStatus_same, hst]

end Sys2Proof.Machine
end

