-- ==== Sys2Proof/Laws/Exec.lean ====
section
/-! SUPPORT. Everything a command can do to the block: an effect on the module, settled; a stop on an entity that does not exist;
or the dictionary latch. -/

namespace Sys2Proof.Machine

/-- What exec can answer to command i in state s. -/
def Lifts (i : Instr) (s : State) (r : Result) : Prop :=
  (∃ c, r = .next (settle { s with chip := c })) ∨ r = .fault .noSuchTile ∨ r = .fault .noSuchUnit ∨ i = .dictionaryLatch

theorem lifts_chip {i : Instr} (f : Chip → Chip) (s : State) : Lifts i s (onChip f s) := .inl ⟨_, rfl⟩
theorem lifts_tile {i : Instr} (t : Nat) (f : Tile → Tile) (s : State) : Lifts i s (onTile t f s) := by
  unfold onTile; split; exacts [lifts_chip _ _, .inr (.inl rfl)]
theorem lifts_anyTile {i : Instr} (t : Nat) (f : Chip → Chip) (s : State) : Lifts i s (onAnyTile t f s) := by
  unfold onAnyTile; split; exacts [lifts_chip _ _, .inr (.inl rfl)]
theorem lifts_unit {i : Instr} (n k : Nat) (f : Chip → Chip) (s : State) : Lifts i s (onUnit n k f s) := by
  unfold onUnit; split; exacts [lifts_chip _ _, .inr (.inr (.inl rfl))]

theorem exec_lifts (i : Instr) (s : State) : Lifts i s (exec i s) := by
  cases i
  case nop => exact lifts_tile _ _ _
  case setl => exact lifts_tile _ _ _
  case seth => exact lifts_tile _ _ _
  case adds => exact lifts_tile _ _ _
  case loop => exact lifts_tile _ _ _
  case jump => exact lifts_tile _ _ _
  case beq => exact lifts_tile _ _ _
  case bne => exact lifts_tile _ _ _
  case wait => exact lifts_tile _ _ _
  case endt => exact lifts_tile _ _ _
  case mload => exact lifts_tile _ _ _
  case mpre => exact lifts_tile _ _ _
  case mrun => exact lifts_tile _ _ _
  case mout => exact lifts_tile _ _ _
  case vadd => exact lifts_tile _ _ _
  case vsub => exact lifts_tile _ _ _
  case vmul => exact lifts_tile _ _ _
  case vfma => exact lifts_tile _ _ _
  case vmin => exact lifts_tile _ _ _
  case vmax => exact lifts_tile _ _ _
  case vcmp => exact lifts_tile _ _ _
  case vdiv => exact lifts_tile _ _ _
  case vsqrt => exact lifts_tile _ _ _
  case vrsqrt => exact lifts_tile _ _ _
  case vexp2 => exact lifts_tile _ _ _
  case vexp => exact lifts_tile _ _ _
  case vlog2 => exact lifts_tile _ _ _
  case vlog => exact lifts_tile _ _ _
  case vsin => exact lifts_tile _ _ _
  case vcos => exact lifts_tile _ _ _
  case vtanh => exact lifts_tile _ _ _
  case vsigm => exact lifts_tile _ _ _
  case verf => exact lifts_tile _ _ _
  case vgelu => exact lifts_tile _ _ _
  case vsilu => exact lifts_tile _ _ _
  case vcvt => exact lifts_tile _ _ _
  case vrsum => exact lifts_tile _ _ _
  case vrmax => exact lifts_tile _ _ _
  case vrmin => exact lifts_tile _ _ _
  case vpool => exact lifts_tile _ _ _
  case vbcast => exact lifts_tile _ _ _
  case vmov => exact lifts_tile _ _ _
  case vld => exact lifts_tile _ _ _
  case vldc => exact lifts_tile _ _ _
  case vst => exact lifts_tile _ _ _
  case wld => exact lifts_tile _ _ _
  case agstep => exact lifts_tile _ _ _
  case agrst => exact lifts_tile _ _ _
  case agld => exact lifts_tile _ _ _
  case adld => exact lifts_tile _ _ _
  case mkld => exact lifts_tile _ _ _
  case send => exact lifts_tile _ _ _
  case recv => exact lifts_tile _ _ _
  case instructionLineLost => exact lifts_tile _ _ _
  case invalidSlotSend => exact .inl ⟨_, rfl⟩
  case flitHop => exact .inl ⟨_, rfl⟩
  case flitEject => exact .inl ⟨_, rfl⟩
  case injectionWrite => exact .inl ⟨_, rfl⟩
  case mgmtMessageArrival => exact lifts_anyTile _ _ _
  case mgmtReadSram => exact lifts_anyTile _ _ _
  case mgmtWriteSram => exact lifts_anyTile _ _ _
  case mgmtReadInstr => exact lifts_anyTile _ _ _
  case mgmtWriteInstr => exact lifts_anyTile _ _ _
  case mgmtSelfTest => exact lifts_anyTile _ _ _
  case mgmtReadCounters => exact lifts_anyTile _ _ _
  case mgmtResponse => exact .inl ⟨_, rfl⟩
  case tickBoundary => exact .inl ⟨_, rfl⟩
  case abortEffect => exact .inl ⟨_, rfl⟩
  case overlayMaskFormed => exact .inl ⟨_, rfl⟩
  case servingBoundary => exact .inl ⟨_, rfl⟩
  case scheduleArming => exact .inl ⟨_, rfl⟩
  case dictionaryLatch => exact .inr (.inr (.inr rfl))
  case hbmBoundaryRefresh => exact .inl ⟨_, rfl⟩
  case workWindowStart => exact .inl ⟨_, rfl⟩
  case busyPartEnd => exact .inl ⟨_, rfl⟩
  case tickOverrun => exact .inl ⟨_, rfl⟩
  case slackWindowStart => exact .inl ⟨_, rfl⟩
  case functionCompletion => exact .inl ⟨_, rfl⟩
  case tileDeclaredFailed => exact lifts_anyTile _ _ _
  case repairLatch => exact .inl ⟨_, rfl⟩
  case repairPauseEnd => exact .inl ⟨_, rfl⟩
  case columnRetiredNoShift => exact lifts_anyTile _ _ _
  case spareColumnSelfTest => exact .inl ⟨_, rfl⟩
  case declareTileFailed => exact .inl ⟨_, rfl⟩
  case load => exact .inl ⟨_, rfl⟩
  case checkRunComplete => exact .inl ⟨_, rfl⟩
  case run => exact .inl ⟨_, rfl⟩
  case runEffect => exact .inl ⟨_, rfl⟩
  case pause => exact .inl ⟨_, rfl⟩
  case pauseEffect => exact .inl ⟨_, rfl⟩
  case resume => exact .inl ⟨_, rfl⟩
  case resumeEffect => exact .inl ⟨_, rfl⟩
  case stop => exact .inl ⟨_, rfl⟩
  case stopEffect => exact .inl ⟨_, rfl⟩
  case unload => exact .inl ⟨_, rfl⟩
  case unloadEffect => exact .inl ⟨_, rfl⟩
  case overlayRequest => exact .inl ⟨_, rfl⟩
  case abortFunction => exact .inl ⟨_, rfl⟩
  case abortStatusPosted => exact .inl ⟨_, rfl⟩
  case restartFunction => exact .inl ⟨_, rfl⟩
  case restartEffect => exact .inl ⟨_, rfl⟩
  case hbmAct => exact lifts_unit _ _ _ _
  case hbmRd => exact lifts_unit _ _ _ _
  case hbmRdAp => exact lifts_unit _ _ _ _
  case hbmWr => exact lifts_unit _ _ _ _
  case hbmWrAp => exact lifts_unit _ _ _ _
  case hbmPre => exact lifts_unit _ _ _ _
  case hbmPreAll => exact lifts_unit _ _ _ _
  case hbmRefreshSlot => exact lifts_unit _ _ _ _
  case hbmScrubSlot => exact lifts_unit _ _ _ _
  case hbmReadReturn => exact .inl ⟨_, rfl⟩
  case autonomousRefresh => exact lifts_unit _ _ _ _
  case patrolStep => exact lifts_unit _ _ _ _
  case hbmWriteback => exact lifts_unit _ _ _ _
  case rowSpareCopy => exact lifts_unit _ _ _ _
  case rowSpareSwitch => exact lifts_unit _ _ _ _
  case postPackageRepair => exact .inl ⟨_, rfl⟩
  case pprComplete => exact .inl ⟨_, rfl⟩
  case revocationComplete => exact .inl ⟨_, rfl⟩
  case hbmTemperatureRead => exact .inl ⟨_, rfl⟩
  case caParityRetry => exact lifts_unit _ _ _ _
  case frameReceived => exact lifts_unit _ _ _ _
  case ptpSync => exact .inl ⟨_, rfl⟩
  case ptpFollowUp => exact .inl ⟨_, rfl⟩
  case ptpAnnounce => exact .inl ⟨_, rfl⟩
  case ptpDelayResp => exact .inl ⟨_, rfl⟩
  case ptpSyncTimeout => exact .inl ⟨_, rfl⟩
  case ptpHoldoverExpiry => exact .inl ⟨_, rfl⟩
  case ppsOutEdge => exact .inl ⟨_, rfl⟩
  case arpRequest => exact .inl ⟨_, rfl⟩
  case neighborSolicitation => exact .inl ⟨_, rfl⟩
  case echoRequest => exact .inl ⟨_, rfl⟩
  case resolutionTimeout => exact .inl ⟨_, rfl⟩
  case rtpPacket => exact lifts_unit _ _ _ _
  case gapJitterTimeout => exact lifts_unit _ _ _ _
  case pictureDecoded => exact lifts_unit _ _ _ _
  case pictureRefused => exact lifts_unit _ _ _ _
  case decodeBudgetExpiry => exact lifts_unit _ _ _ _
  case sliceDecoded => exact lifts_unit _ _ _ _
  case sliceReadinessPoint => exact .inl ⟨_, rfl⟩
  case campionFirstLayer => exact .inl ⟨_, rfl⟩
  case campionLastLayerJob => exact lifts_unit _ _ _ _
  case campionJobEnd => exact lifts_unit _ _ _ _
  case teaselJob => exact lifts_unit _ _ _ _
  case teaselJobEnd => exact lifts_unit _ _ _ _
  case encoderPicturePass => exact lifts_unit _ _ _ _
  case encoderSliceSent => exact lifts_unit _ _ _ _
  case startClip => exact .inl ⟨_, rfl⟩
  case stopEncoder => exact .inl ⟨_, rfl⟩
  case requestIdr => exact .inl ⟨_, rfl⟩
  case clipEnd => exact lifts_unit _ _ _ _
  case egressRecord => exact .inl ⟨_, rfl⟩
  case egressInvalidHeader => exact .inl ⟨_, rfl⟩
  case egressPauseDatagram => exact lifts_unit _ _ _ _
  case servingTokenRecord => exact .inl ⟨_, rfl⟩
  case requestSubmit => exact .inl ⟨_, rfl⟩
  case requestCancel => exact .inl ⟨_, rfl⟩
  case requestRelease => exact .inl ⟨_, rfl⟩
  case requestAssemblyTimeout => exact .inl ⟨_, rfl⟩
  case requestWaitTimeout => exact .inl ⟨_, rfl⟩
  case controlBlockSend => exact lifts_unit _ _ _ _
  case treeBlock => exact lifts_unit _ _ _ _
  case maskBlockSend => exact lifts_unit _ _ _ _
  case acceptedPath => exact lifts_unit _ _ _ _
  case summaryOut => exact lifts_unit _ _ _ _
  case hotHoldExpiry => exact .inl ⟨_, rfl⟩
  case conversationExpiry => exact .inl ⟨_, rfl⟩
  case summaryExpiry => exact .inl ⟨_, rfl⟩
  case cancelRequest => exact .inl ⟨_, rfl⟩
  case conversationRelease => exact .inl ⟨_, rfl⟩
  case deleteSummary => exact .inl ⟨_, rfl⟩
  case summaryExport => exact .inl ⟨_, rfl⟩
  case summaryImport => exact .inl ⟨_, rfl⟩
  case adapterInstall => exact .inl ⟨_, rfl⟩
  case adapterRetire => exact .inl ⟨_, rfl⟩
  case intakeDatagram => exact .inl ⟨_, rfl⟩
  case openHandle => exact .inl ⟨_, rfl⟩
  case close => exact .inl ⟨_, rfl⟩
  case release => exact .inl ⟨_, rfl⟩
  case adapterPlacementDone => exact .inl ⟨_, rfl⟩
  case handleTimeout => exact .inl ⟨_, rfl⟩
  case intakeDrain => exact lifts_unit _ _ _ _
  case stomarFrameSend => exact lifts_unit _ _ _ _
  case stomarFrame => exact lifts_unit _ _ _ _
  case rekeyStart => exact lifts_unit _ _ _ _
  case linkKeyExhausted => exact lifts_unit _ _ _ _
  case keyExchange => exact lifts_unit _ _ _ _
  case laneSubstitution => exact lifts_unit _ _ _ _
  case laneControl => exact lifts_unit _ _ _ _
  case linkUpStart => exact lifts_unit _ _ _ _
  case linkRetryTimer => exact lifts_unit _ _ _ _
  case beaconSend => exact lifts_unit _ _ _ _
  case identityBeacon => exact lifts_unit _ _ _ _
  case beaconTimeout => exact lifts_unit _ _ _ _
  case timedWordTransmit => exact lifts_unit _ _ _ _
  case timedWordRelease => exact lifts_unit _ _ _ _
  case timingProbe => exact lifts_unit _ _ _ _
  case tickToken => exact lifts_unit _ _ _ _
  case tokenSend => exact .inl ⟨_, rfl⟩
  case busyDone => exact .inl ⟨_, rfl⟩
  case forwardedCommand => exact lifts_unit _ _ _ _
  case forwardedCommandStatus => exact lifts_unit _ _ _ _
  case servingDecisions => exact lifts_unit _ _ _ _
  case domainFormed => exact .inl ⟨_, rfl⟩
  case memberLost => exact .inl ⟨_, rfl⟩
  case leaderLost => exact .inl ⟨_, rfl⟩
  case memberJoin => exact .inl ⟨_, rfl⟩
  case streamBinding => exact .inl ⟨_, rfl⟩
  case pairHeartbeat => exact .inl ⟨_, rfl⟩
  case heartbeatTimeout => exact .inl ⟨_, rfl⟩
  case standbyTakeover => exact .inl ⟨_, rfl⟩
  case mirrorCapture => exact .inl ⟨_, rfl⟩
  case captureAbandoned => exact .inl ⟨_, rfl⟩
  case mirrorCaptureData => exact .inl ⟨_, rfl⟩
  case captureEnd => exact .inl ⟨_, rfl⟩
  case convergenceEnd => exact .inl ⟨_, rfl⟩
  case returnHoldoffExpiry => exact .inl ⟨_, rfl⟩
  case returnRequest => exact .inl ⟨_, rfl⟩
  case returnReply => exact .inl ⟨_, rfl⟩
  case switchOver => exact .inl ⟨_, rfl⟩
  case inhibitReturn => exact .inl ⟨_, rfl⟩
  case allowReturn => exact .inl ⟨_, rfl⟩
  case retrain => exact .inl ⟨_, rfl⟩
  case excludePort => exact .inl ⟨_, rfl⟩
  case includePort => exact .inl ⟨_, rfl⟩
  case quoteRequest => exact .inl ⟨_, rfl⟩
  case quoteFree => exact .inl ⟨_, rfl⟩
  case quoteSign => exact lifts_unit _ _ _ _
  case quoteRetryHint => exact lifts_unit _ _ _ _
  case quoteSlotTimeout => exact lifts_unit _ _ _ _
  case keyRelease => exact .inl ⟨_, rfl⟩
  case keyGenerationCurrent => exact .inl ⟨_, rfl⟩
  case keyRetirement => exact .inl ⟨_, rfl⟩
  case resealComplete => exact .inl ⟨_, rfl⟩
  case storeSweepDone => exact .inl ⟨_, rfl⟩
  case streamSweepDone => exact .inl ⟨_, rfl⟩
  case tenantAssign => exact .inl ⟨_, rfl⟩
  case tenantUnassign => exact .inl ⟨_, rfl⟩
  case extend => exact .inl ⟨_, rfl⟩
  case planKeyWrite => exact .inl ⟨_, rfl⟩
  case serviceSessionBegin => exact .inl ⟨_, rfl⟩
  case serviceSessionEnd => exact .inl ⟨_, rfl⟩
  case powerEstimate => exact .inl ⟨_, rfl⟩
  case gainCalibration => exact .inl ⟨_, rfl⟩
  case powerCapWrite => exact .inl ⟨_, rfl⟩
  case droopEvent => exact .inl ⟨_, rfl⟩
  case droopLockExpiry => exact .inl ⟨_, rfl⟩
  case coolantReading => exact .inl ⟨_, rfl⟩
  case coolantStale => exact .inl ⟨_, rfl⟩
  case dieSensorSample => exact .inl ⟨_, rfl⟩
  case undervoltageQualified => exact .inl ⟨_, rfl⟩
  case inputBelow44v => exact .inl ⟨_, rfl⟩
  case thermalTrip => exact .inl ⟨_, rfl⟩
  case survivalExit => exact .inl ⟨_, rfl⟩
  case keepWarmAdjust => exact .inl ⟨_, rfl⟩
  case wakeStateEntry => exact .inl ⟨_, rfl⟩
  case wakeComplete => exact .inl ⟨_, rfl⟩
  case overvoltageTrip => exact .inl ⟨_, rfl⟩
  case currentLimitTrip => exact .inl ⟨_, rfl⟩
  case inputOff => exact .inl ⟨_, rfl⟩
  case softStart => exact .inl ⟨_, rfl⟩
  case pwrGood => exact .inl ⟨_, rfl⟩
  case bootResume => exact .inl ⟨_, rfl⟩
  case bootComplete => exact .inl ⟨_, rfl⟩
  case resetNQualified => exact .inl ⟨_, rfl⟩
  case resetNGlitch => exact .inl ⟨_, rfl⟩
  case resetNRelease => exact .inl ⟨_, rfl⟩
  case cmd3 => exact .inl ⟨_, rfl⟩
  case cmd5 => exact .inl ⟨_, rfl⟩
  case cmd7 => exact .inl ⟨_, rfl⟩
  case cmd11 => exact .inl ⟨_, rfl⟩
  case cmd15 => exact .inl ⟨_, rfl⟩
  case cmd19 => exact .inl ⟨_, rfl⟩
  case cmd52 => exact .inl ⟨_, rfl⟩
  case cmd53 => exact .inl ⟨_, rfl⟩
  case unsupportedSdioCommand => exact .inl ⟨_, rfl⟩
  case ioAbort => exact .inl ⟨_, rfl⟩
  case sdioReset => exact .inl ⟨_, rfl⟩
  case go => exact .inl ⟨_, rfl⟩
  case discard => exact .inl ⟨_, rfl⟩
  case requestTake => exact .inl ⟨_, rfl⟩
  case read => exact .inl ⟨_, rfl⟩
  case write => exact .inl ⟨_, rfl⟩
  case readSeg => exact .inl ⟨_, rfl⟩
  case writeSeg => exact .inl ⟨_, rfl⟩
  case segmentCopyExpiry => exact .inl ⟨_, rfl⟩
  case registerWrite => simp only [exec, execRegisterWrite]; split; exacts [lifts_chip _ _, lifts_chip _ _]
  case selectorWrite => simp only [exec, execSelectorWrite]; split; exacts [lifts_chip _ _, lifts_chip _ _]
  case parameterWrite => simp only [exec, execParameterWrite]; split; exacts [lifts_chip _ _, lifts_chip _ _]
  case alertAcknowledge => exact .inl ⟨_, rfl⟩
  case alertEnable => exact .inl ⟨_, rfl⟩
  case snapshotMembers => exact .inl ⟨_, rfl⟩
  case latchOnce => exact .inl ⟨_, rfl⟩
  case latchEvery => exact .inl ⟨_, rfl⟩
  case latchStop => exact .inl ⟨_, rfl⟩
  case groupFree => exact .inl ⟨_, rfl⟩
  case componentRestart => exact lifts_unit _ _ _ _
  case restartComponentCmd => exact .inl ⟨_, rfl⟩
  case complexReset => exact .inl ⟨_, rfl⟩
  case registerRebuild => exact .inl ⟨_, rfl⟩
  case logMirror => exact .inl ⟨_, rfl⟩
  case traceClear => exact .inl ⟨_, rfl⟩
  case traceFreeze => exact .inl ⟨_, rfl⟩
  case traceUnfreeze => exact .inl ⟨_, rfl⟩
  case program => exact .inl ⟨_, rfl⟩
  case programDone => exact .inl ⟨_, rfl⟩
  case activate => exact .inl ⟨_, rfl⟩
  case revert => exact .inl ⟨_, rfl⟩
  case erase => exact .inl ⟨_, rfl⟩
  case activationPauseStart => exact .inl ⟨_, rfl⟩
  case activationPauseEnd => exact .inl ⟨_, rfl⟩
  case imageConfirmed => exact .inl ⟨_, rfl⟩
  case confirmationTimeout => exact .inl ⟨_, rfl⟩
  case beginHb => exact .inl ⟨_, rfl⟩
  case chunk => exact .inl ⟨_, rfl⟩
  case endHb => exact .inl ⟨_, rfl⟩
  case reboot => exact .inl ⟨_, rfl⟩
  case cancel => exact .inl ⟨_, rfl⟩
  case trayTimeWrite => exact .inl ⟨_, rfl⟩
  case calendarKnown => exact .inl ⟨_, rfl⟩
  case lifeRecordWrite => exact .inl ⟨_, rfl⟩
  case redundantRowCopy => exact lifts_anyTile _ _ _
  case redundantRowSwitch => exact lifts_anyTile _ _ _
  case engineDeclaredFailed => simp only [exec, execEngineDeclaredFailed]; split; exacts [lifts_chip _ _, .inr (.inr (.inl rfl))]
  case declareEngineFailed => exact .inl ⟨_, rfl⟩
  case engineSpareInsertion => exact .inl ⟨_, rfl⟩
  case engineSpareInsertionEnd => exact .inl ⟨_, rfl⟩
  case engineSpareSelfTest => exact .inl ⟨_, rfl⟩
  case flashBlockRetire => exact lifts_unit _ _ _ _
  case leaseGrantScan => exact .inl ⟨_, rfl⟩
  case cancelQueuedEntry => exact .inl ⟨_, rfl⟩
  case demandScrubStart => exact .inl ⟨_, rfl⟩
  case demandScrubStop => exact .inl ⟨_, rfl⟩
  case demandScrubDone => exact .inl ⟨_, rfl⟩
  case linkRetrainDone => exact lifts_unit _ _ _ _
  case ptpDelayReq => exact .inl ⟨_, rfl⟩
  case ptpMessageInterval => exact .inl ⟨_, rfl⟩
  case arpReply => exact .inl ⟨_, rfl⟩
  case neighborAdvertisement => exact .inl ⟨_, rfl⟩
  case autoNegotiation => exact lifts_unit _ _ _ _
  case linkDown => exact lifts_unit _ _ _ _
  case droopRecovery => exact .inl ⟨_, rfl⟩
  case partitionScrubDone => exact .inl ⟨_, rfl⟩
  case pictureRelease => exact lifts_unit _ _ _ _
  case domainCommandLatch => exact .inl ⟨_, rfl⟩
  case faultClassExpiry => exact .inl ⟨_, rfl⟩
  case overvoltageRecovery => exact .inl ⟨_, rfl⟩
  case currentLimitRestart => exact .inl ⟨_, rfl⟩

end Sys2Proof.Machine
end

