-- ==== Sys2Proof/Laws/Tile.lean ====
section
/-! SUPPORT. What the operations of a tile leave alone: its sequencer (registers, loop stack, pc, ac) is moved by the control slot
alone, whatever results land meanwhile. -/

namespace Sys2Proof.Machine

/-- The sequencer of a tile: what only the control slot and the module move. -/
def seqPart (t : Tile) : Vector W32 16 × List LoopLevel × Nat × Nat × Bool × Nat × Bool × Bool × List Nat :=
  (t.sregs, t.loops, t.entry, t.pc, t.running, t.ac, t.held, t.lineLost, t.lostLines)

section Keeps

@[simp] theorem seq_later (k : Nat) (m : Micro) (t : Tile) : seqPart (later k m t) = seqPart t := rfl
@[simp] theorem seq_tileEv (e : TileEv) (t : Tile) : seqPart (tileEv e t) = seqPart t := rfl
@[simp] theorem seq_setWalk (t : Tile) (i : Nat) (w : Walk) : seqPart (setWalk t i w) = seqPart t := rfl
@[simp] theorem seq_sramWrite (t : Tile) (wa : Nat) (w : SWord) : seqPart (sramWrite t wa w) = seqPart t := rfl
@[simp] theorem seq_setEntry (t : Tile) (m : Nat) (v : List Acc) : seqPart (setEntry t m v) = seqPart t := rfl
@[simp] theorem seq_queue (wa : Nat) (t : Tile) : seqPart (queueWriteBack wa t) = seqPart t := by
  unfold queueWriteBack; split <;> rfl
@[simp] theorem seq_portUse (w : Bool) (wa : Nat) (t : Tile) : seqPart (portUse w wa t) = seqPart t := rfl
@[simp] theorem seq_sramNote (wa : Nat) (r : CodeResult × SWord) (t : Tile) : seqPart (sramNote wa r t) = seqPart t := by
  unfold sramNote; split
  · exact (seq_queue _ _).trans rfl
  · rfl
  · split <;> rfl
@[simp] theorem seq_sramRead (t : Tile) (wa : Nat) : seqPart (sramRead t wa).2 = seqPart t := by
  dsimp only [sramRead]; rw [seq_sramNote, seq_portUse]
@[simp] theorem seq_sramReadRun (n : Nat) (t : Tile) (wa : Nat) : seqPart (sramReadRun n t wa).2 = seqPart t := by
  induction n generalizing t wa with
  | zero => rfl
  | succ n ih => simp only [sramReadRun]; rw [ih, seq_sramRead]
@[simp] theorem seq_take (t : Tile) (i : Nat) : seqPart (take t i).2 = seqPart t := by
  dsimp only [take]; split <;> rfl
@[simp] theorem seq_takes (n : Nat) (t : Tile) (i : Nat) : seqPart (takes n t i).2 = seqPart t := by
  induction n generalizing t with
  | zero => rfl
  | succ n ih => simp only [takes]; rw [ih, seq_take]
/-- A fold of operations that keep the sequencer keeps it. -/
theorem seq_foldl {α : Type} (f : Tile → α → Tile) (h : ∀ t a, seqPart (f t a) = seqPart t) (l : List α) (t : Tile) :
    seqPart (l.foldl f t) = seqPart t := by
  induction l generalizing t with
  | nil => rfl
  | cons a l ih => rw [List.foldl_cons, ih, h]

theorem seq_foldl_pair {α β : Type} (f : β × Tile → α → β × Tile) (h : ∀ p a, seqPart (f p a).2 = seqPart p.2) (l : List α)
    (p : β × Tile) : seqPart (l.foldl f p).2 = seqPart p.2 := by
  induction l generalizing p with
  | nil => rfl
  | cons a l ih => rw [List.foldl_cons, ih, h]

@[simp] theorem seq_takeScales (t : Tile) (i b : Nat) (f : Bool) : seqPart (takeScales t i b f).2 = seqPart t := by
  dsimp only [takeScales]; rw [seq_setWalk]; exact seq_foldl _ (fun _ _ => seq_sramRead _ _) _ _

theorem seq_strike (us : List (Nat × Upset)) (t : Tile) : seqPart (strike us t) = seqPart t :=
  seq_foldl _ (fun _ _ => by rfl) us t

@[simp] theorem seq_winFetch (t : Tile) (d : W256) (s : WinSrc) : seqPart (winFetch t d s).2 = seqPart t := by
  cases s
  · rfl
  · rfl
  · exact seq_sramRead _ _

@[simp] theorem seq_readHeld (d : W256) (ss : List WinSrc) (t : Tile) : seqPart (readHeld d ss t) = seqPart t :=
  (seq_foldl _ (fun _ _ => seq_sramNote _ _ _) _ _).trans (seq_foldl _ (fun t wa => seq_sramRead t wa) _ _)

theorem seq_mload (b n k : Nat) (t : Tile) : seqPart (mloadStep b n k t) = seqPart t := by
  have h := fun (l : List (SWord × Nat)) (t : Tile) => seq_foldl (fun t (p : SWord × Nat) => later 2 (.shadow (n + p.2) p.1) t) (fun _ _ => by rfl) l t
  dsimp only [mloadStep]; split
  · rw [seq_later, h, seq_sramReadRun]
  · rw [h, seq_sramReadRun]

theorem seq_readAll (p : List SWord × Tile) (l : List Nat) :
    seqPart (l.foldl (fun (p : List SWord × Tile) wa => let q := sramRead p.2 wa; (p.1 ++ [q.1], q.2)) p).2 = seqPart p.2 :=
  seq_foldl_pair (fun (p : List SWord × Tile) wa => let q := sramRead p.2 wa; (p.1 ++ [q.1], q.2)) (fun p a => seq_sramRead p.2 a) l p

theorem seq_mpre (a m l s : Nat) (g : List SWord) (t : Tile) : seqPart (mpre128Step a m l s g t) = seqPart t := by
  dsimp only [mpre128Step]
  split_ifs <;> simp only [seq_later, seq_readAll, seq_takes]

theorem seq_mrun (w : Bool) (sel aod m l d : Nat) (h o f : Bool) (c : List SWord) (b : Nat) (sc : List Nat × Bool) (t : Tile) :
    seqPart (mrunStep w sel aod m l d h o f c b sc t) = seqPart t := by
  dsimp only [mrunStep]
  split_ifs <;> simp only [seq_later, seq_take, seq_sramRead, seq_sramReadRun, seq_takeScales]

theorem seq_moutFlush (a n b k : Nat) (t : Tile) : seqPart (moutFlush a n b k t).2 = seqPart t := by
  induction n generalizing b k t with
  | zero => rfl
  | succ n ih =>
    dsimp only [moutFlush]; split
    · rfl
    · rw [ih]; simp only [seq_later, seq_take]

theorem seq_moutEnd (a b n : Nat) (t : Tile) : seqPart (moutEnd a b n t) = seqPart t := by
  induction n generalizing b t with
  | zero => rfl
  | succ n ih => dsimp only [moutEnd]; rw [ih]; simp only [seq_later, seq_take]

theorem seq_moutScale (a : Nat) (sc : List Nat) (f : Nat) (t : Tile) : seqPart (moutScaleWord a sc f t) = seqPart t := rfl

theorem seq_mout (a aod m l b n : Nat) (sc : List Nat) (f : Nat) (t : Tile) :
    seqPart (moutStep a aod m l b n sc f t) = seqPart t := by
  have hev := fun (l : List TileEv) (t : Tile) => seq_foldl (fun t e => tileEv e t) (fun _ _ => by rfl) l t
  have hw := fun (l : List (W256 × Nat)) (t : Tile) => seq_foldl (fun t (p : W256 × Nat) =>
    let ad := take t a; later (5 + p.2 / 4) (.sram ad.1 { data := p.1 }) ad.2)
    (fun t w => by simp only [seq_later, seq_take]) l t
  dsimp only [moutStep]
  split
  · split_ifs <;> simp only [seq_later, seq_take]
  · split_ifs <;> simp only [seq_later, hw, hev]
  · split_ifs <;> simp only [seq_later, seq_moutEnd, seq_moutScale, seq_setWalk, seq_moutFlush, hev]

theorem seq_vpool (vd : Nat) (d : W256) (k : Walk) (kind : Nat) (w : Bool) (la : V2048) (tap : Nat) (g : List (List Nat)) (i : Nat)
    (t : Tile) : seqPart (vpoolStep vd d k kind w la tap g i t) = seqPart t := by
  dsimp only [vpoolStep]; split_ifs <;> simp only [seq_later, seq_winFetch, seq_readHeld]

theorem seq_wld (slot : Nat) (d : W256) (g : List (List (Nat × WinSrc))) (t : Tile) : seqPart (wldStep slot d g t) = seqPart t := by
  have hg := fun (l : List (Nat × WinSrc)) (t : Tile) => seq_foldl (fun t (p : Nat × WinSrc) =>
    let r := winFetch t d p.2; later 1 (.win slot p.1 r.1) r.2) (fun t p => by simp only [seq_later, seq_winFetch]) l t
  cases g with
  | nil => rfl
  | cons g rest => dsimp only [wldStep]; split_ifs <;> simp only [seq_later, hg]

/-- No micro-operation moves the sequencer. -/
theorem seq_micro (t : Tile) (m : Micro) : seqPart (microStep t m) = seqPart t := by
  cases m
  case mload => exact seq_mload _ _ _ _
  case mpre128 => exact seq_mpre _ _ _ _ _ _
  case mrun => exact seq_mrun _ _ _ _ _ _ _ _ _ _ _ _ _
  case mout => exact seq_mout _ _ _ _ _ _ _ _ _
  case vpool => exact seq_vpool _ _ _ _ _ _ _ _ _ _
  case wld => exact seq_wld _ _ _ _
  case win => dsimp only [microStep]; split <;> rfl
  all_goals rfl

/-- An ac moves the ac count alone. -/
theorem seq_acStep (t : Tile) : seqPart (acStep t) = seqPart { t with ac := t.ac + 1 } := by
  dsimp only [acStep, acLand]
  rw [seq_foldl _ seq_micro, seq_foldl (fun t (e : Nat × Micro) => microStep t e.2) (fun t e => seq_micro t e.2)]
  rfl

theorem seq_acSteps (n : Nat) (t : Tile) : seqPart (acSteps n t) = seqPart { t with ac := t.ac + n } := by
  induction n generalizing t with
  | zero => rfl
  | succ n ih =>
    dsimp only [acSteps]; split
    · rfl
    · rw [ih]
      have h := seq_acStep t
      simp only [seqPart, Prod.mk.injEq] at h ⊢
      obtain ⟨h1, h2, h3, h4, h5, h6, h7⟩ := h
      exact ⟨h1, h2, h3, h4, h5, by rw [h6]; omega, h7⟩

/-- Completing what was issued moves the ac count alone. -/
theorem seq_acDrain (n : Nat) (t : Tile) : ∃ k, seqPart (acDrain n t) = seqPart { t with ac := t.ac + k } := by
  induction n generalizing t with
  | zero => exact ⟨0, rfl⟩
  | succ n ih =>
    dsimp only [acDrain]; split
    · exact ⟨0, rfl⟩
    · obtain ⟨k, hk⟩ := ih (acStep t)
      refine ⟨k + 1, hk.trans ?_⟩
      have h := seq_acStep t
      simp only [seqPart, Prod.mk.injEq] at h ⊢
      obtain ⟨h1, h2, h3, h4, h5, h6, h7⟩ := h
      exact ⟨h1, h2, h3, h4, h5, by rw [h6]; omega, h7⟩

end Keeps

/-! Issuing. -/

/-- What a tile's operation answers: the tile as the operation makes it, its events handed over. -/
theorem onTile_issued {t : Nat} {s : State} (h : TileReady t s) (f : Tile → Tile) :
    onTile t f s = .next (issued s t (f (tileAt s.chip t))) := by
  simp only [onTile, h.1, if_true, onChip, issueTile, h.2.1, h.2.2.1, decide_true, Bool.and_self, issued]

/-- Records of the banks that an operation uses (R60) are no report: they change nothing. -/
theorem flushTile_ports {t : Nat} {c : Chip} (h : ∀ e ∈ (tileAt c t).ev, ∃ w a, e = .port w a) :
    flushTile t c = setTile t { tileAt c t with ev := [] } c := by
  have aux (l : List TileEv) (hl : ∀ e ∈ l, ∃ w a, e = .port w a) (c : Chip) : l.foldl (tileEvent t) c = c := by
    induction l with
    | nil => rfl
    | cons e l ih =>
      obtain ⟨w, a, rfl⟩ := hl e (by simp)
      exact ih (fun e he => hl e (by simp [he]))
  exact aux _ h _

/-- An operation whose events are bank records alone changes the tile and nothing else. -/
theorem issued_ports {s : State} {t : Nat} {v : Tile} (hv : ∀ e ∈ v.ev, ∃ w a, e = .port w a) (hr : s.chip.dict.relatch = false) :
    issued s t v = withTile s t { v with ev := [] } := by
  unfold issued withTile
  rw [flushTile_ports (by simpa using hv), tileAt_setTile_same]
  have h2 : setTile t { v with ev := [] } (setTile t v s.chip) = setTile t { v with ev := [] } s.chip := by
    by_cases he : v.ev = []
    · have : ({ v with ev := [] } : Tile) = v := by rw [← he]
      rw [this, setTile_idem]
    · have : v ≠ {} := fun h => he (by rw [h])
      simp only [setTile, cellsSet_over _ _ _ _ this]
  rw [h2]
  exact settle_of_clear (by simpa using hr)

/-- An operation that reports nothing changes the tile and nothing else. -/
theorem issued_quiet {s : State} {t : Nat} {v : Tile} (hv : v.ev = []) (hr : s.chip.dict.relatch = false) :
    issued s t v = withTile s t v := by
  rw [issued_ports (by simp [hv]) hr, ← hv]

theorem onTile_ports {t : Nat} {s : State} (h : TileReady t s) (f : Tile → Tile)
    (hp : ∀ e ∈ (f (tileAt s.chip t)).ev, ∃ w a, e = .port w a) :
    onTile t f s = .next (withTile s t { f (tileAt s.chip t) with ev := [] }) := by
  rw [onTile_issued h, issued_ports hp h.2.2.2.2]

theorem onTile_quiet {t : Nat} {s : State} (h : TileReady t s) (f : Tile → Tile) (hq : (f (tileAt s.chip t)).ev = []) :
    onTile t f s = .next (withTile s t (f (tileAt s.chip t))) := by
  rw [onTile_issued h, issued_quiet hq h.2.2.2.2]

end Sys2Proof.Machine
end

