-- ==== Sys2Proof/Laws/Fabric.lean ====
section
/-! SUPPORT. What handing a tile's events to the module can change: counts, the log, the trace, fault class 0x10, words sent, and
the tile's own record of its errors; nothing else of the module, of the tile or of any other tile. -/

namespace Sys2Proof.Machine

/-- What of the module the events of a tile leave alone. -/
def unreported (c : Chip) : TickSt × Cells (List Byte) × CardSt × WindowSt × PlanSt × HbmSt × IntakeSt × SecSt × NetSt × VideoSt × ServSt ×
    PowerSt × LinkSt × Nat × Bool × FwSt :=
  (c.tk, c.blobs, c.card, c.win, c.plan, c.hbm, c.intake, c.sec, c.net, c.video, c.serv, c.power, c.link, c.free, c.dict.relatch, fwCore c.fw)

theorem unreported_wearRead (t : Nat) (c : Chip) : unreported (wearRead t c) = unreported c := by
  dsimp only [wearRead]; split_ifs <;> simp [unreported]
theorem unreported_highEscape (p : Nat) (c : Chip) : unreported (countHighEscape p c) = unreported c := by
  dsimp only [countHighEscape]; split_ifs <;> simp [unreported]
theorem unreported_event (t : Nat) (c : Chip) (e : TileEv) : unreported (tileEvent t c e) = unreported c := by
  cases e <;> dsimp only [tileEvent]
  case corrected => rw [unreported_wearRead]; simp [unreported]
  case highEscape => exact unreported_highEscape _ _
  all_goals (try split_ifs) <;> (try split) <;> simp [unreported, fwCore_breakUpd]
/-- Handing a tile's events to the module leaves these alone. -/
theorem unreported_flushTile (t : Nat) (c : Chip) : unreported (flushTile t c) = unreported c := by
  dsimp only [flushTile]
  generalize (tileAt c t).ev = l
  have h (l : List TileEv) (c : Chip) : unreported (l.foldl (tileEvent t) c) = unreported c := by
    induction l generalizing c with
    | nil => rfl
    | cons e l ih => rw [List.foldl_cons, ih, unreported_event]
  rw [h]; rfl

@[simp] theorem flushTile_tk (t : Nat) (c : Chip) : (flushTile t c).tk = c.tk := congrArg (·.1) (unreported_flushTile t c)
@[simp] theorem flushTile_blobs (t : Nat) (c : Chip) : (flushTile t c).blobs = c.blobs := congrArg (·.2.1) (unreported_flushTile t c)
@[simp] theorem flushTile_card (t : Nat) (c : Chip) : (flushTile t c).card = c.card := congrArg (·.2.2.1) (unreported_flushTile t c)
@[simp] theorem flushTile_win (t : Nat) (c : Chip) : (flushTile t c).win = c.win := congrArg (·.2.2.2.1) (unreported_flushTile t c)
@[simp] theorem flushTile_plan (t : Nat) (c : Chip) : (flushTile t c).plan = c.plan := congrArg (·.2.2.2.2.1) (unreported_flushTile t c)
@[simp] theorem flushTile_hbm (t : Nat) (c : Chip) : (flushTile t c).hbm = c.hbm := congrArg (·.2.2.2.2.2.1) (unreported_flushTile t c)
@[simp] theorem flushTile_intake (t : Nat) (c : Chip) : (flushTile t c).intake = c.intake := congrArg (·.2.2.2.2.2.2.1) (unreported_flushTile t c)
@[simp] theorem flushTile_sec (t : Nat) (c : Chip) : (flushTile t c).sec = c.sec := congrArg (·.2.2.2.2.2.2.2.1) (unreported_flushTile t c)
@[simp] theorem flushTile_net (t : Nat) (c : Chip) : (flushTile t c).net = c.net := congrArg (·.2.2.2.2.2.2.2.2.1) (unreported_flushTile t c)
@[simp] theorem flushTile_video (t : Nat) (c : Chip) : (flushTile t c).video = c.video := congrArg (·.2.2.2.2.2.2.2.2.2.1) (unreported_flushTile t c)
@[simp] theorem flushTile_serv (t : Nat) (c : Chip) : (flushTile t c).serv = c.serv := congrArg (·.2.2.2.2.2.2.2.2.2.2.1) (unreported_flushTile t c)
@[simp] theorem flushTile_power (t : Nat) (c : Chip) : (flushTile t c).power = c.power := congrArg (·.2.2.2.2.2.2.2.2.2.2.2.1) (unreported_flushTile t c)
@[simp] theorem flushTile_link (t : Nat) (c : Chip) : (flushTile t c).link = c.link := congrArg (·.2.2.2.2.2.2.2.2.2.2.2.2.1) (unreported_flushTile t c)
@[simp] theorem flushTile_free (t : Nat) (c : Chip) : (flushTile t c).free = c.free := congrArg (·.2.2.2.2.2.2.2.2.2.2.2.2.2.1) (unreported_flushTile t c)
@[simp] theorem flushTile_relatch (t : Nat) (c : Chip) : (flushTile t c).dict.relatch = c.dict.relatch := congrArg (·.2.2.2.2.2.2.2.2.2.2.2.2.2.2.1) (unreported_flushTile t c)
theorem flushTile_fw (t : Nat) (c : Chip) : fwCore (flushTile t c).fw = fwCore c.fw := congrArg (·.2.2.2.2.2.2.2.2.2.2.2.2.2.2.2) (unreported_flushTile t c)

/-- A tile without its record of its own errors. -/
def tileCore (v : Tile) : Tile :=
  { v with logTick := none, badWords := [], suspects := [], wbTicks := [], lineErr := [], lineTwice := false }

theorem wearRead_grid (t : Nat) (c : Chip) : (wearRead t c).grid = c.grid := by dsimp only [wearRead]; split_ifs <;> simp
theorem countHighEscape_grid (p : Nat) (c : Chip) : (countHighEscape p c).grid = c.grid := by
  dsimp only [countHighEscape]; split_ifs <;> simp

/-- An event changes of the tiles only its own tile's error record. -/
theorem tileEvent_tile (t : Nat) (c : Chip) (e : TileEv) :
    tileCore (tileAt (tileEvent t c e) t) = tileCore (tileAt c t) ∧ ∀ u, u ≠ t → tileAt (tileEvent t c e) u = tileAt c u := by
  have g {c' : Chip} (h : c'.grid = c.grid) : tileCore (tileAt c' t) = tileCore (tileAt c t) ∧ ∀ u, u ≠ t → tileAt c' u = tileAt c u := by
    simp only [tileAt, h]; exact ⟨trivial, fun _ _ => trivial⟩
  have k {c' c'' : Chip} {v : Tile} (h : c''.grid = (setTile t v c').grid) (hc : c'.grid = c.grid) (hv : tileCore v = tileCore (tileAt c t)) :
      tileCore (tileAt c'' t) = tileCore (tileAt c t) ∧ ∀ u, u ≠ t → tileAt c'' u = tileAt c u := by
    rw [tileAt_of_grid h, tileAt_setTile_same]
    exact ⟨hv, fun u hu => by rw [tileAt_of_grid h, tileAt_setTile_ne _ _ hu, tileAt_of_grid hc]⟩
  cases e <;> dsimp only [tileEvent]
  case corrected => exact g (by rw [wearRead_grid]; rfl)
  case poisoned wa =>
    have aux (d : Chip) (hg : d.grid = c.grid) :
        let r := if (tileAt d t).logTick = some d.tk.tick then d
          else logRec 1 srcGrid .poisonedDelivery [t, wa] (setTile t { tileAt d t with logTick := some d.tk.tick } d)
        tileCore (tileAt r t) = tileCore (tileAt c t) ∧ ∀ u, u ≠ t → tileAt r u = tileAt c u := by
      dsimp only
      split
      · exact g hg
      · exact k (c' := d) (v := { tileAt d t with logTick := some d.tk.tick }) (by rw [logRec_grid]) hg
          (by rw [tileAt_of_grid hg]; rfl)
    exact aux _ (by simp)
  case badWord wa =>
    split
    · exact g rfl
    · exact k (c' := objBumpSat 0x2921 0x02 (physIndex c t) 1 c) rfl rfl rfl
  case queued => exact k (c' := c) rfl rfl rfl
  case wbDrop => exact g rfl
  case highEscape => exact g (countHighEscape_grid _ _)
  case lowEscape => exact g rfl
  case nonFinite => exact g rfl
  case missingWord => exact g rfl
  case port => exact g rfl
  case lineLost => split_ifs <;> exact k (c' := c) rfl rfl rfl
  case send =>
    split
    · exact ⟨rfl, fun _ _ => rfl⟩
    · exact ⟨rfl, fun _ _ => rfl⟩

/-- Handing over events changes of the tiles only the tile's own error record. -/
theorem flushTile_tile (t : Nat) (c : Chip) :
    tileCore (tileAt (flushTile t c) t) = tileCore { tileAt c t with ev := [] } ∧
      ∀ u, u ≠ t → tileAt (flushTile t c) u = tileAt c u := by
  have h (l : List TileEv) (c : Chip) : tileCore (tileAt (l.foldl (tileEvent t) c) t) = tileCore (tileAt c t) ∧
      ∀ u, u ≠ t → tileAt (l.foldl (tileEvent t) c) u = tileAt c u := by
    induction l generalizing c with
    | nil => exact ⟨rfl, fun _ _ => rfl⟩
    | cons e l ih =>
      have a := tileEvent_tile t c e
      have b := ih (tileEvent t c e)
      rw [List.foldl_cons]
      exact ⟨b.1.trans a.1, fun u hu => (b.2 u hu).trans (a.2 u hu)⟩
  dsimp only [flushTile]
  have a := h (tileAt c t).ev (setTile t { tileAt c t with ev := [] } c)
  rw [tileAt_setTile_same] at a
  exact ⟨a.1, fun u hu => (a.2 u hu).trans (tileAt_setTile_ne _ _ hu)⟩

end Sys2Proof.Machine
end

