-- ==== Sys2Proof/Tests/Slice0.lean ====
section
/-! SUPPORT. Tests: the well-formedness smoke test, concrete states that meet the hypotheses of each statement, and single steps
whose expected results come from the spec. A hypothesis that rests on a free value of Config (a signature, a hash, a sealed text)
has no witness of its own: its theorem shows that the other hypotheses of its clause hold together. -/

namespace Sys2Proof.Tests

set_option Elab.async false

open Sys2Proof Sys2Proof.Machine

/-! States. -/

/-- The block whose module and image are c. -/
def blk (c : Chip) : State := { pending := [], chip := c, img := c }
/-- A tile whose sequencer runs. -/
def live : Tile := { running := true, idle := false }
/-- A tick that runs, in a phase. -/
def tkIn (m : ModState) (p : Phase) : TickSt := { tick := 10, timer := true, fresh := false, phase := p, busyEnded := false, mode := m }
def inMode (m : ModState) (p : Phase) : Chip := { tk := tkIn m p }
/-- The block in its work window with tile t as given. -/
def withT (t : Nat) (tl : Tile) : State := blk (setTile t tl (inMode .running .work))
def eqv (s s' : State) : Bool := s == s'

/-! Well-formedness: each bound refuses the first value past it. -/

theorem test_wellFormed_tile : WellFormed (.nop 2047 .ctl) = true ∧ WellFormed (.nop 2048 .ctl) = false := by decide
theorem test_wellFormed_pc : WellFormed (.hbmAct 31 0) = true ∧ WellFormed (.hbmAct 32 0) = false := by decide
theorem test_wellFormed_row : WellFormed (.rowSpareCopy (32 * 3 * 16 * 16384 - 1)) = true ∧
    WellFormed (.rowSpareCopy (32 * 3 * 16 * 16384)) = false := by decide
theorem test_wellFormed_port : WellFormed (.frameReceived 1 0 []) = true ∧ WellFormed (.frameReceived 2 0 []) = false := by decide
theorem test_wellFormed_stream : WellFormed (.rtpPacket 255) = true ∧ WellFormed (.rtpPacket 256) = false := by decide
theorem test_wellFormed_core : WellFormed (.sliceDecoded 7 0 []) = true ∧ WellFormed (.sliceDecoded 8 0 []) = false := by decide
theorem test_wellFormed_campion : WellFormed (.campionJobEnd 3) = true ∧ WellFormed (.campionJobEnd 4) = false := by decide
theorem test_wellFormed_teasel : WellFormed (.teaselJobEnd 1) = true ∧ WellFormed (.teaselJobEnd 2) = false := by decide
theorem test_wellFormed_slot : WellFormed (.treeBlock 255) = true ∧ WellFormed (.treeBlock 256) = false := by decide
theorem test_wellFormed_stomar : WellFormed (.rekeyStart 7) = true ∧ WellFormed (.rekeyStart 8) = false := by decide
theorem test_wellFormed_domain : WellFormed (.timingProbe 6 0) = true ∧ WellFormed (.timingProbe 7 0) = false := by decide
theorem test_wellFormed_quote : WellFormed (.quoteSign 7) = true ∧ WellFormed (.quoteSign 8) = false := by decide
theorem test_wellFormed_component : WellFormed (.componentRestart 7 0 0 true 0) = true ∧
    WellFormed (.componentRestart 8 0 0 true 0) = false := by decide
theorem test_wellFormed_engine : WellFormed (.engineDeclaredFailed 0x31) = true ∧ WellFormed (.engineDeclaredFailed 0x32) = false := by decide
theorem test_wellFormed_partition : WellFormed (.flashBlockRetire 17 0 false) = true ∧
    WellFormed (.flashBlockRetire 18 0 false) = false := by decide

/-! The queue. -/

theorem test_meets_StepRunsFront : ({ blk {} with pending := [.go, .discard] } : State).pending = .go :: [.discard] := by decide
theorem test_meets_QueueDrains : Host.Core.run core 0 (blk {}) = .next (blk {}) := by rfl
theorem test_meets_StepInv : Settled (blk {}) ∧ step (blk {}) = .next (blk {}) := by unfold Settled; exact ⟨by decide, rfl⟩
theorem test_idle_queue_keeps_state : step (blk {}) = .next (blk {}) := rfl
/-- ImageHolds: a command other than the latch, and an object that is not re-latched at once. -/
theorem test_meets_ImageHolds : Instr.go ≠ .dictionaryLatch ∧ (∃ s', exec .go (blk {}) = .next s') ∧
    (0x2000, 0x02, 0) ∉ relatchKeys.map (fun k => (k.1, k.2, 0)) := ⟨by simp, ⟨_, rfl⟩, by decide⟩

/-! Tiles. -/

theorem test_meets_TileReady : TileReady 0 (withT 0 live) ∧ TileReady 2047 (withT 2047 live) := by
  unfold TileReady; decide +kernel
/-- ControlOps: a zero count and another; equal and different registers. -/
theorem test_meets_ControlOps : TileReady 5 (withT 5 { live with sregs := live.sregs.set 1 7 }) ∧
    (let tl := tileAt (withT 5 { live with sregs := live.sregs.set 1 7 }).chip 5
     (0 : Fin 4).val = tl.loops.length ∧ tl.sregs[1] ≠ 0 ∧ tl.sregs[2] = 0 ∧ tl.sregs[0] = tl.sregs[2] ∧ tl.sregs[0] ≠ tl.sregs[1]) := by
  unfold TileReady; decide +kernel
theorem test_meets_BundleTiming : live.pend = [] := by decide
theorem test_meets_MaskedLanes : (List.replicate (laneCount true) 0).length = laneCount true ∧ 127 < laneCount true ∧
    (List.replicate (laneCount false) 0).length = laneCount false ∧ 63 < laneCount false ∧ (1 : Fin 32) ≠ 31 := by
  decide +kernel
/-- MatrixOps: BF16 operands, zeroed accumulators, the last of 32 entries. -/
theorem test_meets_MatrixOps : TileReady 5 (withT 5 live) ∧ (aodOf 0).fb.isSome = true ∧ (aodOf 0).pre = .zero ∧ (31 : Nat) ≤ (31 : Fin 32).val := by
  unfold TileReady; decide +kernel
/-- SramRead: a word without an error, clean and poisoned; error bursts of 16 bits and of 17 and 32; a full write-back queue. -/
def burst16 : Upset := 0xFFFF
def burst17 : Upset := 0x10001
def burst32 : Upset := 0xFFFFFFFF
theorem test_meets_SramRead :
    (cellsGet 0 live.upsets 16383 = 0 ∧ (sramPeek live 16383).poison = false) ∧
    (sramPeek (sramWrite live 3 { data := 5, poison := true }) 3).poison = true ∧
    (cellsGet 0 (strike [(3, burst16)] live).upsets 3 = burst16 ∧ burst16 ≠ 0 ∧ errSpan burst16 = 16) ∧ live.wbQueue.length < 4 ∧
    4 ≤ ({ live with wbQueue := [1, 2, 3, 4] } : Tile).wbQueue.length ∧ errSpan burst17 = 17 ∧ errSpan burst32 = 32 := by decide +kernel
/-- StorageLaws: a clean word, another address, another object, a tile in canonical form. -/
theorem test_meets_StorageLaws : sWordZero.poison = false ∧ 16384 % 16384 ≠ 1 % 16384 ∧ okey 0x2000 2 0 ≠ okey 0x2000 1 0 ∧
    Memory.wf {} = true ∧ tileWf live = true := by decide +kernel

/-! A plan image built from section data written out from its tables. -/

def cert0 : Cert :=
  { sc := 6, sx := 6, tickQ := 0, hp := 4, sa := 1, lw := 0, ls := 0, margin := 0, hbmSet := 0, rret := 100, wpre := 50, sets := [1] }
/-- A section in the clear, of the base plan. -/
def sec (type item : Nat) (data : List Byte) : Section :=
  { type := type, overlay := 0, enc := false, item := item, keyTenant := 0, keyGen := 0, data := data }
def planOf (ss : List Section) : Plan :=
  { planId := [], version := 1, wiringHash := [], domainSize := 1, domainPos := 0, overlayMask := 1, fnCount := 0, tenantCount := 0
    targetClass := [], reducedCols := [], ucodeMin := 0, yarrowMin := 0, linkMin := 0, hbmBytes := 0, keySlot := 0, digest := []
    cert := cert0, sections := ss }
/-- A channel descriptor (Table 4-3): KIND, SRC, DST, SH, DH, W, INJ, K, DLY, and a period of 10 ac. -/
def chanBytes (kind src dst sh dh w inj k dly : Nat) : List Byte :=
  bytesLE 32 (kind * 2 ^ 254 + src * 2 ^ 243 + dst * 2 ^ 232 + sh * 2 ^ 222 + dh * 2 ^ 212 + (w - 1) * 2 ^ 207 + inj * 2 ^ 206 + 10 * 2 ^ 138 + k * 2 ^ 116
    + dly * 2 ^ 110)
/-- A function table entry (Table 5-8). -/
def fnBytes (fn kind ovl tenant finite donePos : Nat) : List Byte :=
  bytesLE 2 fn ++ bytesLE 1 kind ++ bytesLE 1 ovl ++ bytesLE 2 tenant ++ bytesLE 1 finite ++ bytesLE 1 0 ++ bytesLE 2 donePos ++ List.replicate 6 0
/-- Tile 1 to tile 5, one injection channel, tile 5 to egress port S61, and port S0 to tile 5. -/
def chanSec : Section := sec 0x0005 0 (chanBytes 0 1 5 3 4 1 0 2 0 ++ chanBytes 2 5 (64 + 61) 3 0 1 0 2 0 ++ chanBytes 1 64 5 0 9 1 0 2 0)
def fnSec : Section := sec 0x0009 0 (fnBytes 1 1 0 0 1 2 ++ fnBytes 2 1 0 7 0 0)
def plan0 : Plan := planOf [chanSec, fnSec]
/-- plan0 loaded and running in its work window, at position 2. -/
def running0 : Chip := { inMode .running .work with plan := { loaded := some plan0, armed := some 2 } }
def withPlan (ss : List Section) (c : Chip) : Chip := { c with plan := { c.plan with loaded := some (planOf ss), armed := some 2 } }

/-! Fabric and management plane. -/

theorem test_meets_FabricSlot : TileReady 5 (blk (setTile 5 live running0)) ∧
    ((sendChannel (setTile 5 live running0) 5 3).isSome && (recvChannel (setTile 5 live running0) 5 4).isSome) = true ∧
    errSpan (cellsGet 0 live.lineUpsets 0 ^^^ burst16) ≤ 16 ∧ 16 < errSpan (cellsGet 0 live.lineUpsets 0 ^^^ burst17) ∧
    errSpan (cellsGet 0 live.lineUpsets 0 ^^^ burst32) ≤ 32 := by
  unfold TileReady; decide +kernel

/-- A flit at tile 0 bound for tile 2, a management flit on the same way, and what has arrived at tile 0. -/
def flit0 : Flit := { dest := 2, fc := 8, data := 9 }
def mgFlit0 : Flit := { flit0 with mg := true }
def arrived0 : Flit := { dest := 0, fc := 8, data := 9 }
def withFlits (fs : List Flit) : Chip := { running0 with grid := { flits := fs } }
/-- Four management flits in the next router's west input. -/
def mgFull : List Flit := List.replicate 4 { mgFlit0 with x := 1, last := some (0, 0, 0, 3) }
/-- FabricMoves: a free link and a busy one, management flits with a credit and without; a wrong sideband; an arrival at a tile, one
beside another of the same fc, at an edge port and for an injection AGD; a source that cannot send. -/
theorem test_meets_FabricMoves :
    ((withFlits [flit0]).grid.flits[0]? = some flit0 ∧ flitNext flit0 = some (1, 0, 0) ∧ (crosses flit0.x flit0.y 1 0 = true → flit0.err ^^^ 0 = 0) ∧
      (withFlits [flit0]).grid.flits.any (fun g => !g.mg && g.last = some (flit0.x, flit0.y, 0, flit0.fc)) = false) ∧
    (mgCredit 1 0 0 (withFlits [mgFlit0]) = true ∧ mgCredit 1 0 0 (withFlits (mgFlit0 :: mgFull)) = false) ∧ wrongBits 3 = 2 ∧
    (crosses flit0.x flit0.y 1 0 = false ∧ flit0.mg = false ∧
      (withFlits [flit0, { flit0 with x := 1, last := some (0, 0, 0, 8) }]).grid.flits.any
        (fun g => !g.mg && g.last = some (flit0.x, flit0.y, 0, flit0.fc)) = true) ∧
    (flitArrived arrived0 = true ∧ arrived0.mg = false ∧ arrived0.inj = none ∧ arrived0.ek = false ∧ arrived0.i = false ∧ arrived0.err = 0 ∧
      ejectedAt (withFlits [arrived0]) 0 8 = none ∧ (withFlits [arrived0]).grid.skips = []) ∧
    ejectedAt { withFlits [arrived0] with grid := { flits := [arrived0], ejected := [(0, 8, none)] } } 0 8 = some none ∧
    flitArrived { arrived0 with ek := true, dest := 64, x := (portPos 64).1, y := (portPos 64).2 } = true ∧
    flitArrived { arrived0 with inj := some 15 } = true ∧
    (∃ ch, (channels running0)[2]? = some ch ∧ running0.plan.armed = some 2 ∧ running0.tk.phase = .work ∧
      channelActive running0.plan.active 2 ch = true ∧ 1 < ch.k ∧ workPaused running0 = false ∧ owesInvalid running0 ch = true) := by
  refine ⟨by decide +kernel, by decide +kernel, by decide +kernel, by decide +kernel, by decide +kernel, by decide +kernel, by decide +kernel,
    by decide +kernel, ⟨_, rfl, by decide +kernel⟩⟩

/-- A management request (Table 4-4): TYPE, LEN, ORIG, CNT. -/
def mgReq (type len cnt : Nat) : W256 := BitVec.ofNat 256 (type * 2 ^ 252 + (len - 1) * 2 ^ 248 + portS60 * 2 ^ 237 + (cnt - 1) * 2 ^ 195)
/-- A response of one data flit, at port S60. -/
def mgResp (data : W256) : Flit :=
  { mg := true, ek := true, dest := 124, data := data, msg := 3, x := (portPos 124).1, y := (portPos 124).2 }
/-- ManagementPlane: each type well formed and one that is not, at tile 2,047 with an inbox of 15 flits; a held tile; a response. -/
theorem test_meets_ManagementPlane : (2047 < 2048 ∧ (tileAt {} 2047).ev = [] ∧ (0 : Nat) + [(0 : W256)].length ≤ 16) ∧
    mgOk { flits := [mgReq 1 1 16] } = true ∧ mgType (mgReq 1 1 16) = 1 ∧
    mgOk { flits := [mgReq 2 3 1, 7, 8] } = true ∧ mgType (mgReq 2 3 1) = 2 ∧
    mgOk { flits := [mgReq 3 1 16] } = true ∧ mgType (mgReq 3 1 16) = 3 ∧
    mgOk { flits := [mgReq 4 2 1, 7] } = true ∧ mgType (mgReq 4 2 1) = 4 ∧
    mgOk { flits := [mgReq 5 1 1] } = true ∧ mgType (mgReq 5 1 1) = 5 ∧
    mgOk { flits := [mgReq 6 1 1] } = true ∧ mgType (mgReq 6 1 1) = 6 ∧
    mgOk { flits := [mgReq 7 1 1] } = false ∧ (inMode .running .slack).tk.phase ≠ .work ∧
    (tileAt (setTile 5 { live with held := true } (inMode .running .slack)) 5).held = true ∧
    (let c := withFlits [mgResp (mgReq 0x9 2 1), mgResp 7]
     responseFlits c 3 = [mgResp (mgReq 0x9 2 1), mgResp 7] ∧ mgLen (mgReq 0x9 2 1) = [mgResp 7].length + 1) := by decide +kernel

/-! The tick, repair, plans. -/

/-- TickOrder: a boundary at its timer edge, a busy part not ended, each window before its phase and past it. -/
theorem test_meets_TickOrder :
    boundaryReady 1000000000 { inMode .idle .slack with tk := { tkIn .idle .slack with busyEnded := true } } = true ∧
    (inMode .idle .slack).tk.busyEnded = false ∧ (inMode .idle .slack).tk.timer = true ∧
    (inMode .idle .ac0).tk.boundaryAt + tickNs (inMode .idle .ac0) ≤ (atTime 1000000000 (inMode .idle .ac0)).tk.now ∧
    phaseRank .ac0 < phaseRank .ac64 ∧ phaseRank .slack ≤ phaseRank .slack ∧ phaseRank .ac2560 < phaseRank .ac3584 ∧
    ((inMode .idle .ac2560).fw.down = false ∧ (inMode .idle .ac2560).fw.dark = false) ∧ tilesDone (inMode .running .work) = true ∧
    tilesDone (setTile 5 live running0) = false ∧
    (running0.plan.loaded = some plan0 ∧ running0.tk.mode = .running ∧ workPaused running0 = false ∧ running0.power.halted = false ∧
      Memory.wf (setTile 5 live running0) = true ∧ running0.plan.armed = some 2 ∧ (tileAt (setTile 5 live running0) 5).idle = false ∧
      (tileAt running0 6).idle = true) := by decide +kernel

def leaseOf (act : Activity) (obj tick : Nat) : LeaseEntry := { act := act, obj := obj, tick := tick, commanded := true }
def lent (e : LeaseEntry) (c : Chip) : Chip := { c with life := { c.life with lease := { c.life.lease with holders := [e] } } }
/-- RepairEvents: a tile with a lost sideband; a granted insertion; a complete reload; a tile held without a spare. -/
theorem test_meets_RepairEvents :
    (failureDue (setTile 5 { live with sbLost := true } {}) 5 = true ∧ (tileAt (setTile 5 { live with sbLost := true } {}) 5).held = false) ∧
    latchDue (lent (leaseOf .si 0 9) { inMode .idle .ac0 with grid := { failed := [(5, 9)] } }) = some 9 ∧
    pauseOver { inMode .running .ac0 with grid := { pauseFrom := some 5, reloaded := 3 } } = true ∧
    (let c : Chip := { inMode .idle .ac0 with grid := { noShift := [(physIndex {} 5, 9)] } }
     c.grid.noShift.find? (fun x => x.1 == physIndex c 5) = some (physIndex {} 5, 9) ∧ 9 < c.tk.tick ∧
       (retiredCols c (tileQuarter 5)).contains (tilePx c 5) = false) ∧
    retiredCols {} (3 : Fin 4) = [] := by decide +kernel

def cmdAt (code : Nat) (m : ModState) : Chip :=
  { inMode m .ac0 with plan := { loaded := some plan0, cmd := some { code := code, tick := 7 } } }
/-- PlanEvents: each command due at ac 0, a check run that finds no breach and one that does (plan0's channels have no program), a scrub, and a finite function at its DONE_POS. -/
theorem test_meets_PlanEvents :
    planCmdDue (cmdAt 2 .loaded) 10 2 = true ∧ planCmdDue (cmdAt 3 .running) 10 3 = true ∧ planCmdDue (cmdAt 4 .paused) 10 4 = true ∧
    planCmdDue (cmdAt 5 .running) 10 5 = true ∧ planCmdDue (cmdAt 6 .loaded) 10 6 = true ∧
    (let c : Chip := { inMode .idle .work with plan := { loading := some { plan := some plan0, handle := 1 } } }
     c.plan.loading = some { plan := some plan0, handle := 1 } ∧ c.tk.wake = .run ∧ c.plan.loaded = none ∧ c.plan.scrub = none ∧
       runExhausted c = false) ∧ checkRun (planOf [fnSec]) = none ∧ (checkRun plan0).isSome = true ∧
    (let c := running0
     planFn plan0 1 = some { fn := 1, kind := 1, overlay := 0, tenant := 0, finite := true, donePos := 2 } ∧ c.tk.phase = .work ∧
       c.tk.mode = .running ∧ 2 = c.tk.tick % max 1 plan0.cert.hp ∧ c.plan.aborted.contains 1 = false ∧ c.plan.shed.contains 0 = false ∧
       c.plan.completions.contains 1 = false ∧ ([1] : List Nat).contains 1 = true) := by decide +kernel

/-! HBM and the service ports. -/

/-- An HBM command entry (Table 5-9): FC, CMD, BANK, ADDR, PORT, FN. -/
def hbmBytes (fc cmd bank addr port fn : Nat) : List Byte :=
  bytesLE 8 (fc * 2 ^ 40 + cmd * 2 ^ 36 + bank * 2 ^ 30 + addr * 2 ^ 12 + port * 2 ^ 11 + fn * 2)
/-- Command entries 0-8 of pseudo-channel 31: CMD 1 to 9. -/
def hbmSec : Section := sec 0x0008 31 (List.replicate 16 0 ++ hbmBytes 300 1 47 5 1 1 ++ hbmBytes 300 2 47 15 1 1 ++ hbmBytes 300 3 47 15 1 1
  ++ hbmBytes 300 4 47 15 1 1 ++ hbmBytes 300 5 47 15 1 1 ++ hbmBytes 300 6 47 0 1 1 ++ hbmBytes 300 7 47 0 1 1 ++ hbmBytes 300 8 47 0 1 1
  ++ hbmBytes 300 9 47 0 1 1)
def hbm0 : Chip := openRow 31 47 (rowKey 31 2 15 5) (withPlan [hbmSec, fnSec] (inMode .running .work))
/-- hbm0 once its first n entries have issued. -/
def hbmAt : Nat → Chip
  | 0 => hbm0
  | n + 1 => match nextEntry 31 (hbmAt n) with
    | some (j, e) => markEntry 31 j e (hbmAt n)
    | none => hbm0
/-- HbmBankCommands, HbmAccess: entry j of the stream is command j + 1; bank 47 of pseudo-channel 31 has a row open. -/
theorem test_meets_HbmBankCommands : openedRow hbm0 31 47 = some (rowKey 31 2 15 5) ∧
    (List.range 9).all (fun j => match hbmEntry 31 j (j + 1) (hbmAt j) with | some e => e.bank == 47 && e.fc == 300 | none => false) = true := by decide +kernel
theorem test_meets_HbmAccess : idleWindow hbm0 (rowKey 31 2 15 5 * 16 + 15) = false ∧
    (let r : HbmReturn := { port := 63, fc := 8, w0 := 1, w1 := 2, poison := false }
     ({ hbm0 with hbm := { returns := [r] } } : Chip).hbm.returns[0]? = some r) ∧
    (∃ n, keyPlanLine {} 16 = some n ∧ lineMasked { hbm := { poison := [(n, n + 1)] } } 16 = true) ∧ lineMasked {} 16 = false ∧
    servedKey {} 16 ≠ servedKey {} 17 := by
  refine ⟨by decide +kernel, by decide +kernel, ⟨_, by rfl, by decide +kernel⟩, by decide +kernel, by decide +kernel⟩
/-- HbmMaintenance: the slack window, a full write-back queue, a suspect row, one copied, a lease, a revocation. -/
theorem test_meets_HbmMaintenance :
    autonomous (inMode .running .slack) 31 = true ∧
    cellsGet [] ({ wbQueue := [(31, [5])] } : HbmSt).wbQueue 31 = 5 :: [] ∧
    (let c : Chip := { inMode .running .slack with hbm := { suspects := [rowKey 31 2 15 16367] } }
     freeSpare c (rowKey 31 2 15 16367) = some (rowKey 31 2 15 16368) ∧ c.hbm.suspects.contains (rowKey 31 2 15 16367) = true) ∧
    (let c : Chip := { inMode .running .ac3584 with hbm := { copied := [(7, 16368)] } }
     c.hbm.copied.find? (fun p => p.1 == 7) = some (7, 16368)) ∧
    leaseHeld (lent (leaseOf .ppr 0 9) {}) .ppr = true ∧
    (({ revoked := [{ fn := 1, lo := 0, hi := 4, init := 0xFFFF }] } : HbmSt).revoked[0]?).isSome = true ∧
    (List.replicate 8 (105 : Int)).length = 8 := by decide +kernel

/-- An ARP reply of 192.0.2.1 (RFC 5737) to the group address. -/
def arpFrame : List Byte := List.replicate 6 0xFF ++ List.replicate 6 2 ++ [8, 6, 0, 1, 8, 0, 6, 4, 0, 2] ++ List.replicate 6 2 ++ [192, 0, 2, 1]
  ++ List.replicate 28 0
/-- An IPv4 header with more fragments to come, its checksum right. -/
def fragFrame : List Byte := List.replicate 6 0xFF ++ List.replicate 6 2 ++ [8, 0, 0x45, 0, 0, 20, 0, 0, 0x20, 0, 0x40, 0x11, 0xD6, 0xD6]
  ++ [192, 0, 2, 1, 192, 0, 2, 1] ++ List.replicate 28 0
/-- A port that owns 192.0.2.1, with one frame received. -/
def port0 (x : RxFrame) : Chip := objSet 0x1F00 0x01 0 0x010200C0 { net := { inbox := [x] } }
def own0 : Nat := mapped4 0x010200C0
def rxOf (cls : RxClass) : RxFrame := { cls := cls, port := 0, src := own0, dst := own0, mac := 2 }
theorem test_meets_NetworkEvents_frames :
    parseFrame {} 1 fragFrame = .fragment ∧ parseFrame {} 1 [] = .malformed ∧
    classify {} 1 0 (parseFrame {} 1 (List.replicate 60 0xFF)) = none ∧ parseFrame {} 1 (List.replicate 60 0xFF) = .other ∧
    (classify {} 1 0 (parseFrame {} 1 arpFrame)).isSome = true ∧
    ([RxClass.arpRequest, .solicit, .echo, .arpReply, .advert].all fun k => match takeRx (fun x => x.cls == k) (port0 (rxOf k)) with
      | some (x, d) => portOwns d x.port x.dst
      | none => false) = true := by decide +kernel

/-- A PTP message of 64 bytes: type, flags, sequence 1, domain 0. -/
def ptpBytes (type flags : Nat) : List Byte :=
  bytesLE 1 type ++ bytesLE 1 2 ++ List.replicate 4 0 ++ bytesLE 1 flags ++ List.replicate 24 0 ++ [1] ++ List.replicate 32 0
/-- A Delay_Resp that names the port asked for. -/
def delayResp : List Byte := (ptpBytes 9 0).take 44 ++ ptpIdentity {} 0 ++ List.replicate 10 0
def ptp0 (mode type flags : Nat) (p : PtpSt) : Chip :=
  objSet 0x1F10 0x01 0 mode { net := { inbox := [{ cls := .ptp, port := 0, payload := ptpBytes type flags }], ptp := p } }
def master0 : Announced := { port := 0, rank := [], source := List.replicate 10 0, t := 0 }
/-- NetworkEvents: each PTP message from the chosen master, on the slave port of each mode and the master port of the boundary clock. -/
theorem test_meets_NetworkEvents_ptp :
    ([0, 2].all fun fl => match takePtp 0 (ptpSlavePort (ptp0 1 0 fl { best := some master0 })) (ptp0 1 0 fl { best := some master0 }) with
      | some (f, d) => fromMaster d f && syncPaced f.payload && (ptpTwoStep f.payload == (fl == 2))
      | none => false) = true ∧
    (let c := ptp0 3 8 0 { best := some master0, twoStep := some (1, 5, 0) }
     match takePtp 8 (ptpSlavePort c) c with
     | some (f, d) => fromMaster d f && syncPaced f.payload && d.net.ptp.twoStep == some (ptpSeq f.payload, 5, 0)
     | none => false) = true ∧
    (match takePtp 11 (ptpSlavePort (ptp0 1 11 0 {})) (ptp0 1 11 0 {}) with
     | some (f, d) => decide (64 ≤ f.payload.length) && decide (0 ≤ ptpLog f.payload) && decide (ptpLog f.payload ≤ 3)
         && decide (numAtBE f.payload 61 2 < 255) && d.net.ptp.best == none
     | none => false) = true ∧
    (let c : Chip := { ptp0 1 9 0 { best := some master0, request := some (1, 5) } with
       net := { inbox := [{ cls := .ptp, port := 0, payload := delayResp }], ptp := { best := some master0, request := some (1, 5) } } }
     match takePtp 9 (ptpSlavePort c) c with
     | some (f, d) => fromMaster d f && d.net.ptp.request == some (ptpSeq f.payload, 5) && (bytesAt f.payload 44 10 == ptpIdentity d f.port)
     | none => false) = true ∧
    (takePtp 1 (ptpMasterPort (ptp0 4 1 0 {})) (ptp0 4 1 0 {})).isSome = true ∧
    (objGet {} 0x1F10 0x05 0 = 0 ∧ ((ptpTime {} 5 : Int) - (5 + 0 + 0)).natAbs ≤ 100) ∧
    (objGet (objSet 0x1F10 0x05 0 1 {}) 0x1F10 0x05 0 = 1 ∧ objGet (objSet 0x1F10 0x05 0 2 {}) 0x1F10 0x05 0 = 2 ∧
      0 + 4 * ({} : PtpSt).interval ≤ 4000000000) ∧
    (ptpMasterPort (ptp0 3 0 0 {}) = some 1 ∧ ptpSlavePort (ptp0 3 0 0 {}) = some 0 ∧ master0.silent 0 = false ∧ master0.silent 3000000000 = true) ∧
    ptpTime {} (1000000000 - 1) / 1000000000 < ptpTime {} 1000000000 / 1000000000 := by decide +kernel

/-! Video, engines, egress. -/

/-- A video table (Tables 6-3 to 6-5): stream 255, 16 × 16, decode core 7, Campion 3, encoder, one slice; one slot at position 2. -/
def videoSec (mode : Nat) : Section := sec 0x000A 0 (bytesLE 4 1 ++ bytesLE 4 1 ++ List.replicate 56 0
  ++ (bytesLE 2 255 ++ bytesLE 2 0 ++ bytesLE 2 1 ++ bytesLE 2 0 ++ bytesLE 2 16 ++ bytesLE 2 16 ++ bytesLE 2 30 ++ bytesLE 2 1 ++ bytesLE 1 7
    ++ bytesLE 1 mode ++ bytesLE 1 1 ++ bytesLE 1 1 ++ List.replicate 4 0 ++ bytesLE 1 3 ++ List.replicate 2 0 ++ List.replicate 37 0)
  ++ (bytesLE 2 255 ++ bytesLE 2 2 ++ List.replicate 12 0))
/-- A Campion section (Tables 6-9, 6-11) of engine 3: one all-zero program, and a last-layer job at position 2. -/
def campSec (dec : Nat) : Section := sec 0x000C 3 (bytesLE 4 1 ++ bytesLE 4 1 ++ List.replicate 8 0 ++ List.replicate 64 0
  ++ List.replicate 2 0 ++ bytesLE 2 2 ++ List.replicate 18 0 ++ bytesLE 1 dec ++ List.replicate 27 0 ++ bytesLE 2 5 ++ List.replicate 12 0)
/-- A Teasel job of engine 1 at position 2. -/
def teaselSec : Section := sec 0x000D 1 (bytesLE 4 1 ++ List.replicate 12 0 ++ List.replicate 2 0 ++ bytesLE 2 2 ++ List.replicate 60 0)
/-- Output channel 5 of function 1, from tile 5, and its egress entry at position 2: channel 1, send 0. -/
def ochSec : Section := sec 0x000F 0 (bytesLE 4 1 ++ List.replicate 12 0 ++ bytesLE 2 5 ++ bytesLE 2 0 ++ bytesLE 2 1 ++ List.replicate 2 0
  ++ bytesLE 2 5 ++ bytesLE 2 0xFFFF ++ List.replicate 2 0 ++ bytesLE 2 64 ++ List.replicate 16 0)
def egressSec : Section := sec 0x0013 0 (bytesLE 4 1 ++ List.replicate 12 0 ++ bytesLE 2 2 ++ bytesLE 2 5 ++ bytesLE 2 1 ++ List.replicate 10 0)
def video0 (mode dec : Nat) (v : StreamSt) : Chip :=
  withPlan [fnSec, videoSec mode, campSec dec, teaselSec, ochSec, egressSec, chanSec]
    { inMode .running .work with video := { streams := [(255, v)], cores := [(7, [(255, { ts := 90, payloads := [] })])] } }

def rtpFrame (b : List Byte) : RxFrame := { cls := .rtp 255, port := 0, payload := b, t := 5 }
/-- An RTP packet of payload type 0 with one H.264 byte of type 1, and one of version 0. -/
def rtp0 : List Byte := [0x80, 0, 0, 1] ++ List.replicate 8 0 ++ [1]
/-- StreamEvents: a packet that fits, one malformed, one whose type does not fit, SRTP without a key; a repeat; a gap; a held unit. -/
theorem test_meets_StreamEvents_ingest :
    rtpBody rtp0 = some (12, 1) ∧ rtpBody (List.replicate 13 0) = none ∧
    (let c := objSet 0x2301 0x09 255 0 (video0 0x10 0 {})
     numAt rtp0 1 1 % 128 = objGet c 0x2301 0x09 255 ∧ payloadOk ((vdecl c 255).map (·.codec) |>.getD 9) (bytesAt rtp0 12 1) = true) ∧
    payloadOk 0 [0] = false ∧
    (match takeRx (fun f => f.cls = .rtp 255) { net := { inbox := [rtpFrame rtp0] } } with
     | some (_, d) => objGet (objBump 0x2302 0x02 255 1 d) 0x2301 0x07 255 == 0
     | none => false) = true ∧
    (let c := objSet 0x2301 0x07 255 1 {}
     objGet c 0x2301 0x07 255 = 1 ∧ srtpPacket c 255 [0x80] = none) ∧
    32768 ≤ seqAhead 5 3 ∧ (0 : Nat) + objGet {} 0x2301 0x08 255 * 1000000 ≤ 10000000000 ∧
    (∃ v, vdecl (video0 0 0 { held := [{ ts := 1, payloads := [] }] }) 255 = some v ∧ engineHeld {} .decode v.dcore = false ∧
      (none : Option Nat) = ({} : StreamSt).released) := by
  refine ⟨by decide +kernel, by decide +kernel, by decide +kernel, by decide +kernel, by decide +kernel, by decide +kernel,
    by decide +kernel, by decide +kernel, ⟨_, rfl, by decide +kernel, rfl⟩⟩
/-- A picture of the stream's declaration, and one of another size. -/
def fits0 : CodedParams := { profile := .main, level := 0, highTier := false, refusedTool := false, bits := 8, chroma := .c420, w := 16, h := 16 }
def idrUnit : CodedUnit := { ts := 90, payloads := [[0x65, 0]] }
/-- StreamEvents: a unit at the front of core 7 within its budget and past it, before the first IRAP picture and at one; parameters that fit
the declaration and that do not. -/
theorem test_meets_StreamEvents_decode :
    cellsGet [] (video0 0 0 {}).video.cores 7 = (255, { ts := 90, payloads := [] }) :: [] ∧
    budgetEnd (video0 0 0 {}) 7 = some 20160 ∧
    (match vdecl (video0 0 0 {}) 255 with
     | some w => !unitTaken w {} { ts := 90, payloads := [] } && unitTaken w {} idrUnit && paramsFit w fits0 && !paramsFit w { fits0 with w := 32 }
     | none => false) = true := by decide +kernel
/-- SlotHandover: slot 0 of the base plan, due and taken, and not taken once its function is aborted. -/
theorem test_meets_SlotHandover :
    (match slotDecl (video0 0 0 {}) 0 0 with
     | some (sl, v) => (video0 0 0 {}).plan.armed == some sl.pos && decide (0 < vSlices v) && slotTaken (video0 0 0 {}) 0 sl v
         && !slotTaken { video0 0 0 {} with plan := { (video0 0 0 {}).plan with aborted := [1] } } 0 sl v && !follows (video0 0 0 {})
     | none => false) = true := by decide +kernel
def use0 : SlotUse := { ovl := 0, idx := 0, tick := 10, fc0 := 0, pic := some 4, slices := [(0, .ready)] }
def pic0 : Picture := { id := 4, ts := 90, complete := true, ready := [0] }
/-- EngineJobs: the last slice of a slot; a last-layer job with and without boxes, and a Teasel job, due and at their ends. -/
theorem test_meets_EngineJobs :
    (let c := video0 0 0 { slots := [use0], pictures := [pic0] }
     match slotDecl c 0 0, c.plan.loaded with
     | some (sl, v), some p => slotUse (streamAt c sl.stream) 0 0 c.tk.tick == some use0 && (planProgram p v.campion v.program).isSome
         && !engineHeld c .campion v.campion && use0.slices.find? (fun x => x.1 == 0) == some (0, .ready) && decide (0 + 1 = vSlices v)
     | _, _ => false) = true ∧
    ([0, 1].all fun dec => match (video0 0 dec {}).plan.loaded with
     | some p => (match (planCJobs p 3)[0]? with
       | some jb => jobDue (video0 0 dec {}) .campion 3 jb.pos jb.ovl jb.disp && jb.dec == dec && campionLive (video0 0 dec {}) p 3 jb
       | none => false) && (match (planTJobs p 1)[0]? with
       | some jb => jobDue (video0 0 dec {}) .teasel 1 jb.pos jb.ovl jb.disp && teaselLive (video0 0 dec {}) p 1 jb
       | none => false)
     | none => false) = true ∧
    (campionAt { video := { campion := [(3, { job := some (0, [], []) })] } } 3).job = some (0, [], []) ∧ engineHeld {} .campion 3 = false ∧
    (teaselAt { video := { teasel := [(1, { job := some (0, []) })] } } 1).job = some (0, []) ∧ engineHeld {} .teasel 1 = false := by decide +kernel
/-- SendingEvents: an ended slot of a stream that encodes, with room and without and on a held core; a picture that its core codes, and one
that is not its turn; a clip's end. -/
theorem test_meets_SendingEvents_encoder :
    (let c := objSet 0x2303 0x01 255 1 (video0 0x10 0 { slots := [{ use0 with ended := true }], pictures := [pic0] })
     match vdecl c 255 with
     | some w => vEncoder w && encOn c 255 && !engineHeld c .encode w.ecore
         && (streamAt c 255).slots.find? (fun u => u.ended && !u.passed) == some { use0 with ended := true }
         && use0.pic.bind (fun i => (streamAt c 255).pictures.find? (fun p => p.id == i)) == some pic0
     | none => false) = true ∧
    ({} : EncSt).queue.length < 2 ∧ ({ clip := some 0 } : EncSt).clip = some 0 ∧
    engineHeld { life := { heldEngines := [engineCode .encode * 16] } } .encode 0 = true := by decide +kernel
/-- An RFC 2435 payload of type 1 at quality 75 (the default of 2303.09). -/
def jpeg0 : List Byte := [0, 0, 0, 0, 1, 75, 2, 2]
/-- A JPEG picture of one block row at the front of its core's order. -/
def coded0 : Passed := { ts := 90, tenBit := false, samples := [], grey := [], idr := true, codec := 2, w := 16, h := 16 }
def coding0 (ecores : Cells (List Nat)) : Chip :=
  objSet 0x2303 0x11 255 9000 (let c := video0 0x10 0 { enc := { queue := [coded0] } }
                               { c with video := { c.video with ecores := ecores } })
theorem test_meets_SendingEvents_slices :
    (match vdecl (coding0 [(0, [255])]) 255 with
     | some w => (streamAt (coding0 [(0, [255])]) 255).enc.queue == [coded0] && codesNow (coding0 [(w.ecore, [255])]) 255 w.ecore
         && !codesNow (coding0 []) 255 w.ecore && !engineHeld (coding0 []) .encode w.ecore
         && sliceOk (coding0 [(w.ecore, [255])]) 255 9 0 0 1 coded0 {} { packets := [jpeg0], qps := [], preds := [] }
     | none => false) = true := by decide +kernel

/-- The words of a record of len bytes for output channel och on channel 1 of chanSec. -/
def recordOf (len och : Nat) (bad : Bool) : List EdgeWord :=
  match (planChannels plan0)[1]? with
  | none => []
  | some ch => [{ port := ch.dst, fc := ejectFc ch (sendAc ch 0) 0, data := BitVec.ofNat 256 (len * 2 ^ 16 + och), poison := false, invalid := bad },
                { port := ch.dst, fc := ejectFc ch (sendAc ch 1) 0, data := 7, poison := false, invalid := false }]
def egress0 (ws : List EdgeWord) : Chip := { video0 0 1 {} with grid := { edge := ws } }
/-- SendingEvents: a record of channel 5, one of an unknown channel, an invalid header with and without an egress entry, a header too long
for its channel, and a repair pause. -/
theorem test_meets_SendingEvents_records :
    (match nextEgress (egress0 (recordOf 32 5 false)) 1 with
     | some (.record o _ _ _) => o.och == 5 && !(servingOchs (egress0 [])).contains 5 && fnLive (egress0 []) o.fn o.tenant && ochFree (egress0 []) 5
         && !ochFree { egress0 [] with net := { emitted := [5] } } 5 && !fnLive { egress0 [] with plan := { (egress0 []).plan with aborted := [1] } } o.fn o.tenant
     | _ => false) = true ∧
    nextEgress (egress0 (recordOf 32 9 false)) 1 = some .refused ∧
    nextEgress (egress0 (recordOf 32 5 true)) 1 = some (.lost 0 (some 5)) ∧
    (match planOch (planOf [ochSec]) 5 with | some o => decide (o.maxlen < 65) | none => false) = true ∧
    (let c : Chip := { video0 0 1 {} with grid := { pauseFrom := some 9 } }
     workPaused c && (match c.plan.loaded with
       | some p => (match (planEgress p)[0]?, (planCJobs p 3)[0]? with
         | some x, some jb => x.pos == 2 && jb.pos == 2 && jb.dec == 1 && (planOch p x.och).isSome && (planOch p jb.och).isSome
             && (match egressChannel p x with | some ch => channelActive c.plan.active 2 ch | none => false)
         | _, _ => false)
       | none => false)) = true := by decide +kernel
/-- A header with no egress entry is counted. -/
theorem test_meets_SendingEvents_unnamed :
    nextEgress { withPlan [fnSec, ochSec, chanSec] (inMode .running .work) with grid := { edge := recordOf 32 5 true } } 1 = some (.lost 0 none) := by
  decide +kernel
/-! Serving and intake. -/

/-- A serving section (Tables 7-1 to 7-3): pool 0 of function 1; slot 255 with a tree of 4 nodes, every channel the first of wideSec. -/
def servSec : Section := sec 0x000B 0 (bytesLE 4 1 ++ bytesLE 4 1 ++ List.replicate 56 0
  ++ ([0, 0] ++ bytesLE 2 1 ++ List.replicate 20 0 ++ bytesLE 4 0 ++ List.replicate 36 0)
  ++ ([255, 0, 0, 0] ++ List.replicate 4 0 ++ bytesLE 2 0 ++ bytesLE 2 512 ++ bytesLE 2 512 ++ [1, 4, 4, 16, 16, 0, 0, 0] ++ bytesLE 2 5
    ++ List.replicate 14 0 ++ bytesLE 2 1 ++ bytesLE 2 3 ++ List.replicate 22 0))
/-- A channel of 8 sends of 4 words from tile 5 to egress port S61. -/
def wideSec : Section := sec 0x0005 0 (chanBytes 2 5 (64 + 61) 3 0 4 0 8 0)
/-- The section of a model function: function 1 of KIND 1, tenant 7. -/
def lmFn : Section := sec 0x0009 0 (fnBytes 1 1 0 7 0 0)
/-- The words of every send of wideSec, the first as given. -/
def wideWords (w0 : W256) : List EdgeWord :=
  match (planChannels (planOf [wideSec]))[0]? with
  | none => []
  | some ch => (List.range 8).flatMap fun j => (List.range 4).map fun i =>
      { port := ch.dst, fc := ejectFc ch (sendAc ch j) i, data := if j = 0 ∧ i = 0 then w0 else 0, poison := false, invalid := false }
def gen0 : LmReq := { tenant := 7, fn := 1, id := 3, conv := 9, flags := 0, adapter := 0, p := 4, g := 2, stop := [], params := [], parts := 1
                      got := [], st := .generating, slot := 255 }
def serv0 (q : List LmReq) (sl : ServSlot) (w0 : W256) : Chip :=
  withPlan [lmFn, servSec, wideSec, ochSec]
    { inMode .running .work with serv := { reqs := q, slots := [(255, sl)] }, grid := { edge := wideWords w0 } }
/-- A serving datagram of tenant 0, not encrypted: OP and 72 header bytes. -/
def reqFrame (op : Nat) : RxFrame := { cls := .request, port := 0, payload := [1, 0] ++ bytesLE 1 op ++ List.replicate 69 0, t := 5 }
/-- Part 0 of request 3 of tenant 7. -/
def repeatPart : List Byte := [1, 0, 1, 0] ++ bytesLE 2 7 ++ bytesLE 2 1 ++ bytesLE 4 3 ++ List.replicate 60 0
/-- ServingRequests: a submit, a cancel and a release taken; a part that arrived before; a part 1 s old; a request that has waited its slots' longest time. -/
theorem test_meets_ServingRequests :
    (match takeRequest (fun op => op != 2 && op != 3) { net := { inbox := [reqFrame 1] } } with | (some _, _) => true | _ => false) = true ∧
    (match takeRequest (· == 2) { net := { inbox := [reqFrame 2] } } with | (some _, _) => true | _ => false) = true ∧
    (match takeRequest (· == 3) { net := { inbox := [reqFrame 3] } } with | (some _, _) => true | _ => false) = true ∧
    (findAsm (serv0 [{ gen0 with st := .assembling }] {} 0) 7 3 = some { gen0 with st := .assembling } ∧ gen0.first + 1000000000 ≤ 1000000000) ∧
    (let q : LmReq := { gen0 with st := .waiting, taken := true, waited := 3 }
     let c := serv0 [q] {} 0
     findReq c 7 3 = some q ∧ (match c.plan.loaded with
       | some p => ((planRSlots p).filter (fun s => slotFn p s == q.fn)).foldl (fun m s => max m s.maxWait) 0
       | none => 0) = 3 ∧ served c = true) ∧
    (match findAsm (serv0 [{ gen0 with st := .assembling, parts := 2, got := [(0, [1])] }] {} 0) (numAt repeatPart 4 2) (numAt repeatPart 8 4) with
     | some q => decide (q.got.length < q.parts) && q.got.any (fun g => g.1 == numAt repeatPart 0x16 2 / 256)
     | none => false) = true ∧
    submitCheck {} { gen0 with p := 0 } = some stRange ∧ submitCheck {} { gen0 with got := [(0, [1, 2, 3, 4])] } = some stRights := by
  decide +kernel
theorem test_meets_ServingRequests_accepted :
    (let q : LmReq := { gen0 with got := [(0, [1, 2, 3, 4])] }
     submitCheck (objSet 0x2421 0x02 7 4096 (serv0 [] {} 0)) q = some stOk ∧
     submitCheck (objSet 0x2421 0x02 7 4096 (serv0 [{ q with st := .waiting }] {} 0)) q = none) := by decide +kernel
/-- SlotWork: slot 255 served: idle and generating, with its tree awaited and formed, its path awaited and all its words arrived. -/
theorem test_meets_SlotWork :
    (match servedSlot (serv0 [gen0] {} 3) 255 with
     | some sl => sl.treeN == 4 && sl.sumKib == 1
         && (match slotChan (serv0 [gen0] {} 3) sl sl.ctl with
             | some ch => decide (3 ≤ ((arrivedWords (serv0 [gen0] {} 3) ch).filter (fun w => w.1 == 0)).length)
                 && decide (32 * sl.sumKib ≤ (arrivedWords (serv0 [gen0] {} 3) ch).length)
             | none => false)
         && sl.tree == sl.ctl && sl.mask == sl.ctl && sl.accept == sl.ctl && sl.sumOut == sl.ctl
     | none => false) = true ∧
    slotReq (serv0 [] {} 3) 255 = none ∧ slotReq (serv0 [gen0] {} 3) 255 = some gen0 ∧ gen0.prefill ≤ gen0.ticks ∧
    (servSlot (serv0 [gen0] {} 3) 255).tree = none ∧
    (let tr : TreeStep := { l := 4, nEff := 1, parents := [255] }
     (servSlot (serv0 [gen0] { tree := some tr } 3) 255).tree = some tr ∧ tr.path = none) ∧ 1 < gen0.g := by decide +kernel
/-- TokenRecord: a record of one token on the slot's output channel, good and poisoned, its request generating and cancelled, its output
channel free and taken. -/
theorem test_meets_TokenRecord :
    ([ReqState.generating, .cancelled].all fun st => [false, true].all fun lost =>
      let c := serv0 [{ gen0 with st := st }] {} (BitVec.ofNat 256 (8 * 2 ^ 16 + 5))
      let c : Chip := if lost then { c with grid := { edge := c.grid.edge.map (fun w => if w.data = 0 then { w with poison := true } else w) } } else c
      match nextEgress c 0 with
      | some (.record o _ _ bad) => bad == lost && ochFree c o.och && (match ochSlot c o.och with
          | some sl => slotReq c sl.slot == some { gen0 with st := st }
          | none => false)
      | _ => false) = true ∧ gen0.over_ = false ∧ gen0.prefill ≤ gen0.ticks ∧ ochFree { net := { emitted := [5] } } 5 = false := by decide +kernel

def conv0 : Conv := { tenant := 7, conv := 9, fn := 1, home := some (0, 0, 32), idle := some 0 }
def sum0 : Summary := { tenant := 7, conv := 9, sealed := [], since := 0, entry := 0 }
/-- ConversationEvents: an idle conversation, one past its lifetime, a summary past its own, a re-seal. -/
theorem test_meets_ConversationEvents_store :
    (let c : Chip := { serv0 [] {} 0 with serv := { convs := [conv0], sums := [sum0] } }
     findConv c 7 9 = some conv0 ∧ conv0.leaving = false ∧ served c = true ∧ findSummary c 7 9 = some sum0 ∧
       (match c.plan.loaded with | some p => (planPool p 0).map (·.hotHold) | none => none) = some 0) ∧
    0 + ttlTicks (objSet 0x2431 0x03 0 0 {}) 0 ≤ 10 ∧ objGet (objSet 0x2201 0x08 7 1 {}) 0x2201 0x08 7 = 1 := by decide +kernel
def hand0 (st : HandleState) (kind : Nat) : Handle := { kind := kind, aslot := 0, size := 1, tenant := 0, st := st }
/-- An intake datagram of 1 byte for unit 0 of handle 4, with its CRC (Table 8-4). -/
def intakeBytes : List Byte :=
  let a : List Byte := [1, 0, 1, 0] ++ bytesLE 4 4 ++ List.replicate 8 0
  let z : List Byte := List.replicate 12 0 ++ [0x55]
  a ++ bytesLE 4 (crc32c (a ++ bytesLE 4 0 ++ z)) ++ z
def intake0 (hs : Cells Handle) : Chip :=
  { inMode .idle .slack with intake := { handles := hs }, net := { inbox := [{ cls := .intake, port := 0, payload := intakeBytes, t := 5 }] } }
/-- ConversationEvents: a datagram for no handle and for an open one; a drain; an idle handle; a placement that fails. -/
theorem test_meets_ConversationEvents_intake :
    (match takeRx (fun f => f.cls = .intake) (intake0 []) with | some (_, d) => (handleAt d 4).isNone | none => false) = true ∧
    (match takeRx (fun f => f.cls = .intake) (intake0 [(4, hand0 .opened 0)]) with
     | some (f, d) => (match handleAt d 4 with
       | some hd => hd.st == .opened && f.payload.length == 33 && !hd.units.contains 0
           && numAt f.payload 0x10 4 == crc32c (f.payload.take 0x10 ++ bytesLE 4 0 ++ (f.payload.drop 0x14).take 13)
       | none => false)
     | none => false) = true ∧
    (let c : Chip := { intake0 [(4, { hand0 .opened 0 with area := [(256 * 5, 64)] })] with
       intake := { handles := [(4, { hand0 .opened 0 with area := [(256 * 5, 64)] })], buffer := [(4, 0, [0x55])] } }
     (handleAt c 4).map (fun h => areaLine h.area 0 / 256 % 32) = some 5 ∧ c.tk.mode = .idle) ∧
    (hand0 .opened 0).lastRecv + 600000000000 ≤ 600000000000 ∧
    (let c : Chip := { serv0 [] {} 0 with intake := { handles := [(4, hand0 .placing 1)] } }
     handleAt c 4 = some (hand0 .placing 1) ∧
       (match adapterImage c 4 (hand0 .placing 1) with | .error st => st == stRange | .ok _ => false) = true) := by decide +kernel

/-! Links, domains, pairs. -/

def withPort (p : Nat) (v : PortSt) (c : Chip) : Chip := setPort p v c
def msg0 (kind : Nat) (body : List Byte) : CtlMsg := { kind := kind, dst := 0, src := 1, body := body, keyed := true }
/-- A control word heard on port p. -/
def heard (p kind : Nat) (body : List Byte) (c : Chip) : Chip := withPort p { inbox := [msg0 kind body] } c
/-- A frame header (Table 9-1): magic, version, GEN, FCNT, no NAK. -/
def frameBytes (gen fcnt nak : Nat) : List Byte :=
  bytesLE 2 0x4D53 ++ [1] ++ bytesLE 1 gen ++ bytesLE 8 fcnt ++ List.replicate 8 0 ++ bytesLE 8 nak ++ List.replicate 1257 0
/-- LinkEvents: a port past training with a frame to repeat and none; a header of the expected form, its count behind, as expected and
ahead. Whether a frame authenticates rests on a free value. -/
theorem test_meets_LinkEvents_frames :
    (portAt (withPort 7 { stage := .up, resend := [{ fcnt := 4, bytes := [] }] } {}) 7).stage ≠ .down ∧
    LinkStage.up ≠ .training ∧ ({} : PortSt).resend = [] ∧ ({} : PortSt).replay.length ≤ 512 ∧
    (let f := frameBytes 0 5 allOnes64
     f.length = 1285 ∧ numAt (f.take 53) 0 2 = 0x4D53 ∧ numAt (f.take 53) 2 1 = 1 ∧ bitOf (numAt (f.take 53) 3 1) 0 = ({} : PortSt).rxGen ∧
       numAt (f.take 53) 4 8 = 5 ∧ numAt (f.take 53) 0x14 8 = allOnes64 ∧ headerReserved (f.take 53) = false ∧
       headerReserved ((f.take 53).set 3 0x80) = true) := by decide +kernel
/-- A key exchange message (R334): step, fragment 0 of n. -/
def kexBytes (step n : Nat) : List Byte := bytesLE 1 step ++ [0] ++ bytesLE 1 n ++ [0] ++ List.replicate 1088 7
/-- LinkEvents: a key due for replacement and one past its end; each step of the exchange at its stage, whole and in part. -/
theorem test_meets_LinkEvents_keys :
    ({ stage := .up, txKey := some 1, txCnt := 2 ^ 31 } : PortSt).txSince + 2 ^ 31 ≤ 2 ^ 31 ∧ fwPause {} 3 = false ∧
    ({} : PortSt).txSince + (2 ^ 32 - 2 ^ 24) ≤ 2 ^ 32 - 2 ^ 24 ∧
    ([1, 2, 3].all fun st => match takeMsg 7 3 (heard 7 3 (kexBytes st 1) {}) with
      | some (m, _) => numAt m.body 0 1 == st && decide (numAt m.body 2 1 ≠ 0) && numAt m.body 3 1 == 0 && m.keyed
          && (List.range (numAt m.body 2 1)).all (fun i => cellsHas (cellsPut ([] : Cells (List Byte)) (st * 256 + numAt m.body 1 1) (m.body.drop 4)) (st * 256 + i))
      | none => false) = true ∧
    (match takeMsg 7 3 (heard 7 3 (kexBytes 1 2) {}) with
     | some (m, _) => (List.range (numAt m.body 2 1)).all (fun i => cellsHas (cellsPut ([] : Cells (List Byte)) 256 (m.body.drop 4)) (256 + i))
     | none => true) = false ∧
    peerOk {} 7 [] = false ∧ ({ digest := [1] } : KexSt).digest ≠ [] := by decide +kernel

/-- LinkUp: training, a retry timer that has run out, lanes 0 and 4, a beacon of 64 bytes, a port without one, a retrain. -/
theorem test_meets_LinkUp :
    linkState {} 7 = 0 ∧ ({ downAt := some 0 } : PortSt).downAt = some 0 ∧ 0 + ({} : PortSt).wait ≤ 0 ∧ ({} : PortSt).excluded = false ∧
    (let c := objSet 0x2601 0x02 7 0x0F {}
     bitOf (objGet c 0x2601 0x02 7) 0 = true ∧ objGet c 0x2601 0x03 7 = 0 ∧ fwPause c 3 = false) ∧
    (bitOf (objGet (objSet 0x2601 0x02 7 0x1F {}) 0x2601 0x02 7) 4 = true ∧ 4 ≤ 4 ∧ 10000 ≤ 10000) ∧
    (takeMsg 7 2 (heard 7 2 [] {})).isSome = true ∧
    (match takeMsg 7 1 (heard 7 1 (1 :: List.replicate 63 0) {}) with
     | some (m, _) => m.body.length == 64 && numAt m.body 0 1 == 1 && decide (numAt m.body 3 1 < 16) && numAt m.body 0x39 7 == 0 && m.keyed
     | none => false) = true ∧
    (({ keyedAt := some 0 } : PortSt).keyedAt = some 0 ∧ ({} : PortSt).beacon = false) ∧
    (let c : Chip := objSet 0x2601 0x01 7 3 { lent (leaseOf .lr 7 9) {} with life := { (lent (leaseOf .lr 7 9) {}).life with retrain := [(7, 5)] } }
     c.life.lease.holders.find? (fun e => e.act = .lr && e.obj == 7) = some (leaseOf .lr 7 9) ∧ cellsFind c.life.retrain 7 = some 5 ∧
       inService c 7 = true) := by decide +kernel

/-- A Stomar schedule of port 6 (Table 9-4): two words out at fc 20 and two in, on its even edge port. -/
def stomarSec : Section := sec 0x000E 6 (List.replicate 16 0 ++ bytesLE 8 (20 * 2 ^ 40 + 2 * 2 ^ 24 + 3 * 2 ^ 11) ++ bytesLE 8 (20 * 2 ^ 40 + 2 * 2 ^ 24 + 2 ^ 23 + 3 * 2 ^ 11))
def timed0 (v : PortSt) (ws : List EdgeWord) : Chip :=
  objSet 0x2601 0x01 6 3 (withPort 6 v { withPlan [stomarSec] (inMode .running .work) with grid := { edge := ws } })
/-- A word of the schedule's function 3 aborted, or in a repair pause. -/
def timedOff (aborted : Bool) (c : Chip) : Chip :=
  if aborted then { c with plan := { c.plan with aborted := [3] } } else { c with grid := { c.grid with pauseFrom := some 9 } }
/-- Port 6's peer shows the hash of the module's plan. -/
def hashed (c : Chip) : Chip := blobSet 0x2601 0x07 6 (List.replicate 32 0) c
/-- TimedTransfers: the last word of an entry waiting at its edge port, also in a repair pause and for an aborted function; one to release
that arrived, one that did not, and one of an aborted function; a probe. -/
theorem test_meets_TimedTransfers :
    (let w : EdgeWord := { port := stomarEdge 6 0, fc := 21, data := 9, poison := false, invalid := false }
     let c := timed0 {} [w]
     match armedEntry c 6 0 false with
     | some en => decide (1 < en.count) && inService c 6 && hashAt (hashed c) 6 && !hashAt c 6 && !slotMuted c en
         && armedEntry (hashed c) 6 0 false == some en && inService (hashed c) 6
         && c.grid.edge.find? (fun x => x.port == stomarEdge 6 (wordPlace en 1).2 && x.fc == (wordPlace en 1).1) == some w
         && slotMuted (timedOff true c) en && slotMuted (timedOff false c) en && inService (timedOff true c) 6
         && armedEntry (timedOff false c) 6 0 false == some en && armedEntry (timedOff true c) 6 0 false == some en
     | none => false) = true ∧
    (let x : TimedWord := { tick := 10, idx := 1, data := 9, poison := false, invalid := false }
     let c := timed0 { timedIn := [x] } []
     match armedEntry c 6 0 true with
     | some en => decide (1 < en.count) && !entryStopped c en && entryStopped (timedOff true c) en && armedEntry (timedOff true c) 6 0 true == some en
         && (portAt c 6).timedIn.find? (fun w => w.tick == 10 && w.idx == wordIndex c 6 en 1) == some x
         && (portAt c 6).timedIn.find? (fun w => w.tick == 10 && w.idx == wordIndex c 6 en 0) == none
     | none => false) = true ∧
    (takeMsg 6 4 (heard 6 4 [] {})).isSome = true := by decide +kernel

/-- A domain of two whose position pos this module holds, in service, with the leader at position lead. -/
def dom0 (pos lead state : Nat) (c : Chip) : Chip :=
  objSet 0x2610 0x02 0 state (objSet 0x2610 0x03 0 lead (objSet 0x2610 0x04 0 3
    { c with plan := { c.plan with loaded := some { planOf [] with domainSize := 2, domainPos := pos } } }))
def busy0 (tick : Nat) : BusyDone := { tick := tick, step := 0, shedOvl := 0, shedTenants := [], state := 0, run := true }
/-- DomainEvents: a token while forming and in the domain; the leader's send; a busy-done; forwarded commands and their status; a ready
domain; a silent member, a silent leader; a join; the command latch. -/
theorem test_meets_DomainEvents :
    (let c := heard 6 0x10 [] (dom0 1 0 1 (inMode .loaded .slack))
     (takeMsg 6 0x10 c).isSome = true ∧ 2 ≤ domSize c ∧ c.link.dom.token = none ∧ domState c = 1) ∧
    (let c : Chip := dom0 0 0 2 { inMode .running .slack with tk := { tkIn .running .slack with busyEnded := true } }
     let c : Chip := setDom { c.link.dom with busy := [(0, busy0 10), (1, busy0 10)] } c
     isLeader c = true ∧ alone c = false ∧ tokenReady c = false ∧ c.tk.busyEnded = true ∧ allBusy c = true ∧
       fireTime (atTime 1000000000 c) ≤ (atTime 1000000000 c).tk.now + 1000) ∧
    (let c := dom0 0 0 2 (inMode .running .slack)
     (takeMsg (portToward c 1) 0x11 (heard (portToward c 1) 0x11 [] c)).isSome = true ∧ (1 : Nat) ≠ myPos c ∧ (busy0 10).tick = c.tk.tick) ∧
    ((takeMsg 7 0x12 (heard 7 0x12 [] (dom0 0 0 2 {}))).any (fun x => isLeader x.2) = true ∧
      (takeMsg 7 0x12 (heard 7 0x12 [] (dom0 1 0 2 {}))).any (fun x => !isLeader x.2) = true) ∧
    (let d : DomCmd := { idx := 0x2100, sub := 1, inst := 0, value := 2, src := 1, tick := 9 }
     match takeMsg 7 0x13 (heard 7 0x13 [] (setDom { asked := [d] } {})) with
     | some (_, e) => e.link.dom.asked.find? (fun x => x.idx == d.idx && x.sub == d.sub && x.inst == d.inst && x.value == d.value) == some d
     | none => false) = true ∧
    (match takeMsg 7 0x14 (heard 7 0x14 [] (dom0 1 0 2 (inMode .running .ac1536))) with
     | some (_, e) => !follows e
     | none => false) = true ∧ (stOk ≠ stPending) := by decide +kernel
/-- The port toward position 1 in service, its wiring check passed toward a module of this image's hash. -/
def wired0 (c : Chip) : Chip :=
  blobSet 0x2601 0x07 (portToward c 1) (List.replicate 32 0) (objSet 0x2601 0x08 (portToward c 1) 1 (objSet 0x2601 0x01 (portToward c 1) 3 c))
theorem test_meets_DomainEvents_members :
    (let c := wired0 (withPort (portToward (dom0 0 0 0 {}) 1) { peerState := modCode .loaded } (dom0 0 0 0 (inMode .loaded .slack)))
     domReady c = true ∧ inDomain c = false ∧ domState c ≠ 1) ∧
    (let c := setDom { busy := [(1, busy0 9)] } (dom0 0 0 2 (inMode .running .slack))
     isLeader c = true ∧ (1 : Nat) ≠ myPos c ∧ isPresent c 1 = true ∧ cellsFind c.link.dom.busy 1 = some (busy0 9) ∧ tokenReady c = false ∧
       lossDue (atTime 10000000000 c) = true) ∧
    (let c := dom0 1 0 2 (inMode .running .slack)
     inDomain c = true ∧ isLeader c = false ∧ tokenReady c = false ∧ lossDue (atTime 10000000000 c) = true ∧ c.tk.busyEnded = false) ∧
    (let c := setDom { joining := [1] } (wired0 (dom0 0 0 2 (inMode .running .ac0)))
     c.tk.tick % startAlign c = 0 ∧ isLeader c = true ∧ c.link.dom.joining.contains 1 = true ∧ wiredTo c (portToward c 1) = true ∧
       fireTime (atTime 10000000000 c) ≤ (atTime 10000000000 c).tk.now + 2000) := by decide +kernel

/-- A mirror set (Table 9-8) of one entry: its KIND, PERIOD 1. -/
def mirrorSec (kind : Nat) : Section := sec 0x0010 0 (bytesLE 4 1 ++ List.replicate 12 0 ++ bytesLE 1 kind ++ List.replicate 3 0 ++ bytesLE 2 1 ++ List.replicate 10 0)
/-- A module of a pair on port 7 (warm) or 6 (lockstep) with a plan that matches its peer's. -/
def pair0 (role path active kind : Nat) (v : PairSt) (p : Phase) : Chip :=
  let c := withPlan [mirrorSec kind] (inMode .running p)
  objSet 0x2620 0x01 0 role (objSet 0x2620 0x03 0 path (objSet 0x2620 0x07 0 active (setPair { v with matched := true } c)))
/-- PairEvents: a heartbeat to either role, its timeout; a takeover; a capture due of a kind above 0 and of kind 0, and one abandoned; capture
data and end; the end of convergence; a binding; the hold-off, the return request and its reply. -/
theorem test_meets_PairEvents :
    ((takePeer 0x20 (heard 7 0x20 [] (pair0 1 7 1 1 {} .work))).any (fun d => paired d) = true ∧
      pairRole (heard 7 0x20 [] (pair0 1 7 1 1 {} .work)) = 1) ∧
    (let c := pair0 2 6 0 1 { beat := some 0 } .work
     c.link.pair.beat = some 0 ∧ paired c = true ∧ c.link.pair.peerLost = false ∧ 2 * 0 + 3 * tickNs c ≤ 2 * 10000000000) ∧
    (let c := pair0 2 6 0 1 { takeover := some 9 } .ac0
     c.link.pair.takeover = some 9 ∧ lockstep c = true ∧ 9 < c.tk.tick ∧ paired c = true) ∧
    (let c := pair0 1 7 1 1 {} .ac0
     match c.plan.loaded.bind (fun p => mirrorEntry p 0) with
     | some m => captureDue c m && decide (m.kind ≠ 0) && pairActive c && paired c && !c.link.pair.sending.contains 0
     | none => false) = true ∧
    (takePeer 0x21 (heard 6 0x21 [] (pair0 2 6 0 1 {} .work))).any (fun d => (cellsFind d.link.pair.arriving 0).isNone) = true ∧
    (let x : Capture := { entry := 0, tick := 9, data := [] }
     (takePeer 0x22 (heard 6 0x22 [] (pair0 2 6 0 1 { arriving := [(0, x)] } .work))).any
       (fun d => cellsFind d.link.pair.arriving 0 == some x && paired d) = true) ∧
    ({ converge := 1 } : PairSt).converge = 1 ∧
    (takePeer 0x15 (heard 6 0x15 [] (pair0 2 6 0 1 {} .work))).isSome = true := by decide +kernel
theorem test_meets_PairEvents_return :
    (let c := objSet 0x2601 0x01 6 3 (pair0 1 6 0 1 { beat := some 0, healthySince := some 0 } .work)
     pairHealthy c = true ∧ pairActive c = false ∧ c.link.pair.inhibit = false ∧ c.link.pair.returnAt = none ∧
       0 + objGet c 0x2620 0x04 0 * 1000000000 ≤ 10 ^ 18) ∧
    (takePeer 0x23 (heard 6 0x23 [] (pair0 2 6 1 1 {} .work))).any (fun d => paired d && pairActive d && !d.link.pair.inhibit) = true ∧
    (takePeer 0x23 (heard 6 0x23 [] (pair0 1 6 0 1 {} .work))).any (fun d => paired d && !pairActive d) = true := by decide +kernel


/-! Security, power, start. -/

def key0 (st : GenState) (since : Nat) : KeyPos := { st := st, key := 1, salt := [], tenant := 0, since := since }
/-- SecurityEvents: a quote due in slot 7 and its hint; a slot 600 s after posting; an installation over a current key; a retiring key
at its deadline (KEY_RETIRE_TIME 0 h); a session's begin and end. -/
theorem test_meets_SecurityEvents :
    (let c : Chip := setQuote 7 { asked := some 6 } { inMode .running .ac3584 with sec := { seed := some 5 } }
     quoteDue 7 c = true ∧ unsettledCode c = 0 ∧ c.sec.seed = some 5) ∧
    hintDue 7 (setQuote 7 { asked := some 6 } { inMode .running .ac3584 with grid := { pauseFrom := some 5 } }) = true ∧
    (quoteSlot (setQuote 7 { posted := some 0 } {}) 7).posted = some 0 ∧
    (let k : KeyInstall := { kind := 1, scope := 3, gen := 1, key := 9, salt := [2], tenant := 0, tick := 9 }
     let c : Chip := { inMode .running .ac0 with sec := { installs := [k], keys := cellsPut [] (keyId 1 3 0) (key0 .current 0) } }
     k.tick < c.tk.tick ∧ currentKey c k.kind k.scope = some (0, key0 .current 0) ∧ (0 : Nat) ≠ k.gen ∧ k.gen < 2) ∧
    (let c : Chip := objSet 0x2712 0x01 0 0 { inMode .running .ac0 with sec := { keys := cellsPut [] (keyId 1 3 1) (key0 .retiring 0) } }
     c.tk.timer = true ∧ retiringKey c 1 3 = some (1, key0 .retiring 0) ∧ retireDeadline c 0 ≤ c.tk.boundaryAt) ∧
    objGet (objSet 0x2722 0x01 0 0 { power := { pwrGood := true } }) 0x2722 0x01 0 = 0 ∧ objGet (objSet 0x2722 0x01 0 1 {}) 0x2722 0x01 0 = 1 := by
  decide +kernel

/-- PowerEvents: a droop and its recovery; a lock expired; readings 100 ms old; a die sensor above 105 °C; keep-warm off; a deeper wake
state (Idle with a tolerance of 4 s is Sleep); a wake. -/
theorem test_meets_PowerEvents :
    (let c := inMode .running .work
     c.power.droop = none ∧ c.power.halted = false ∧ ({ droop := some 3 } : PowerSt).droop = some 3 ∧
       protects (atTime 5 c) = true ∧ (10500 : Int) < 10501 ∧ c.tk.mode ≠ .survival) ∧
    objGet (objSet 0x2505 0x03 0 0 {}) 0x2505 0x03 0 = 0 ∧
    (let c : Chip := { inMode .running .work with power := { lastFresh := some 0, fresh := 3 } }
     c.power.lastFresh = some 0 ∧ c.power.stale = false ∧ c.power.needed ≤ c.power.fresh ∧ protects (atTime 100000000 c) = true ∧
       0 + 100000000 ≤ 100000000) ∧
    objGet (objSet 0x2540 0x03 0 0 {}) 0x2540 0x03 0 ≠ 1 ∧
    (let c := objSet 0x2530 0x01 0 4000000 (inMode .idle .work)
     c.tk.mode ≠ .running ∧ c.power.waking = false ∧ c.tk.deferred = [] ∧ c.plan.cmd = none ∧ c.plan.loading = none ∧ c.life.lease.holders = [] ∧
       wakeTarget c = .sleep ∧ wakeCode c.tk.wake < wakeCode (wakeTarget c)) ∧
    ({ waking := true } : PowerSt).waking = true := by decide +kernel

/-- StartAndStop: a state each trip acts on; each restart after its time; a soft start past 20 ms; a boot held and under way. -/
theorem test_meets_StartAndStop :
    (protects (atTime 5 (inMode .loaded .work)) = true ∧ (inMode .loaded .work).tk.mode ≠ .survival ∧ (inMode .loaded .work).tk.mode ≠ .off ∧
      (inMode .loaded .work).tk.mode ≠ .stopped ∧ (inMode .loaded .work).tk.mode ≠ .softStart) ∧
    (let c (m : ModState) (k : StopCause) : Chip := { inMode m .slack with power := { offAt := some 0, stopCause := k } }
     (c .stopped .overvoltage).power.offAt = some 0 ∧ 0 + 1000000000 ≤ 1000000000 ∧ (c .stopped .overvoltage).tk.mode = .stopped ∧
       (c .off .limit).power.stopCause = .limit) ∧
    (({} : Chip).tk.mode = .off ∧ ({} : Chip).power.stopCause = .none) ∧
    (let c : Chip := { inMode .booting .slack with power := { okSince := some 0, bootHeld := true } }
     c.power.okSince = some 0 ∧ 0 + 100000000 ≤ 100000000 ∧ c.tk.mode = .booting ∧ c.power.bootHeld = true ∧ (8500 : Int) ≤ 8500 ∧ c.power.gridPassed = false ∧ c.power.fromTrip = false) ∧
    (10000 ≤ 10000 ∧ 10000 < 100000 ∧ (inMode .running .slack).tk.mode ≠ .off ∧ (inMode .running .slack).tk.mode ≠ .softStart) ∧ (({ resetAt := some 0 } : PowerSt).resetAt = some 0 ∧ 0 + 50000000 ≤ 50000000) ∧
    (let c : Chip := { inMode .softStart .slack with power := { rails := .soft 0 } }
     c.tk.mode = .softStart ∧ c.power.rails = .soft 0 ∧ 0 + 20000000 ≤ 20000000) ∧
    ((inMode .booting .slack).tk.mode = .booting ∧ (inMode .booting .slack).power.bootHeld = false) := by decide +kernel

/-! Firmware and life. -/

/-- ComplexEvents: a component with one restart in the last minute; a complex that runs and passes its self-test; a rebuild; a mirror due. -/
theorem test_meets_ComplexEvents :
    (let c : Chip := { fw := { restarts := cellsPut [] 7 [0] } }
     1 ≤ 7 ∧ c.fw.down = false ∧ ((cellsGet [] c.fw.restarts 7).filter (fun u => decide ((atTime 5 c).tk.now ≤ u + 60000000000))).length < 2) ∧
    (1 : Nat) ∈ ({ restarting := [1] } : FwSt).restarting ∧
    (let c := objSet 0x2812 0x01 0 15 (inMode .running .work)
     complexRuns c = true ∧ 4 ≤ 4 ∧ objGet c 0x2812 0x01 0 = 15) ∧
    (({ rebuilding := true } : SecSt).rebuilding = true ∧ ({} : FwSt).down = false) ∧
    (({ mirrorDue := true, mirrorAt := some 0 } : LogSt).mirrorDue = true ∧ 0 + 1000000000 ≤ 1000000000) := by decide +kernel

def fwImg (comp : Nat) : FwImage :=
  { component := comp, version := 1, sec := 2, hwMin := 0, hwMax := 0xFFFFFFFF, hovOut := 0, hovInMin := 0, hovInMax := 0, compat := [], digest := 0 }
def upd0 (comp : Nat) (p : UpdPhase) : Update := { component := comp, phase := p, slot := 1, boundary := 9 }
/-- Component comp has an unconfirmed image in slot 1, a confirmed one in slot 0, and an update in a phase. -/
def updChip (comp : Nat) (p : UpdPhase) : Chip :=
  let k : FwComp := { slot0 := { st := .confirmed, image := some (fwImg comp) }, slot1 := { st := .unconfirmed, image := some (fwImg comp) }, active := 1 }
  { inMode .running .ac0 with fw := { updates := [upd0 comp p], comps := Vector.replicate 5 k } }
/-- UpdateEvents: each phase of an update; the link image confirmed 10 s after its pause. -/
theorem test_meets_UpdateEvents :
    ([UpdPhase.programming, .granted, .pause, .confirming].all fun p => updOf (updChip 4 p) 4 == some (upd0 4 p)) = true ∧
    (let c := updChip 4 .pause
     (upd0 4 .granted).boundary ≤ c.tk.tick ∧ wakeCode c.tk.wake ≤ 1 ∧ (upd0 4 .pause).boundary < c.tk.tick ∧ (upd0 4 .pause).slot < 2 ∧
       c.tk.phase = .ac0 ∧ c.fw.down = false) ∧
    confirmTime (upd0 3 .confirming) (atTime 10000000000 (updChip 3 .confirming)) = true ∧
    (fwActive (updChip 3 .confirming) 3).image = some (fwImg 3) ∧ (upd0 3 .confirming).owed = true ∧ (upd0 3 .confirming).revert = false ∧ (upd0 3 .confirming).broken = false ∧
    (let c := updChip 4 .granted
     takesFormat (upd0 4 .granted).image (handoverOf (upd0 4 .granted) c).format = true ∧
       takesFormat (some { fwImg 4 with hovInMin := 1, hovInMax := 2 }) (handoverOf (upd0 4 .granted) c).format = false) ∧
    slotUsable (fwSlot (fwComp (updChip 3 .confirming) 3) (1 - (upd0 3 .confirming).slot)) = true := by decide +kernel

def inHb (h : HbSt) (comp : FwComp) : Chip := { inMode .harebell .slack with fw := { hb := h, comps := Vector.replicate 5 comp } }
/-- The header of an image of component 3 with one payload byte (Table 13-6), padded to 256 bytes; hardware revisions up to hw. -/
def hdr3 (hw : Nat) : List Byte :=
  bytesLE 8 0x474D495746 ++ bytesLE 2 1 ++ [3, 0] ++ bytesLE 4 1 ++ bytesLE 4 2 ++ bytesLE 4 0 ++ bytesLE 4 hw ++ bytesLE 6 0 ++ bytesLE 2 0
    ++ bytesLE 4 1 ++ bytesLE 8 (256 + 64 + 2460) ++ List.replicate 208 0
def hdrCells : List Byte → Nat → Cells Nat
  | [], _ => []
  | b :: r, i => cellsPut (hdrCells r (i + 1)) i b.toNat
/-- HarebellEvents: no record and no header; a header Harebell takes; no download, and one of slot 1; a chunk within the image; nothing
usable, and all usable. -/
theorem test_meets_HarebellEvents :
    (let c := inHb {} {}
     c.tk.mode = .harebell ∧ birthOk c.sec.birth = false ∧ fwHeader ((List.range 256).map (fun i => BitVec.ofNat 8 (cellsGet 0 c.fw.hb.header i))) = none ∧
       c.fw.hb.load = none ∧ hbNeed c ≠ 0) ∧
    (let c := inHb { header := hdrCells (hdr3 7) 0 } {}
     (fwHeader ((List.range 256).map (fun i => BitVec.ofNat 8 (cellsGet 0 c.fw.hb.header i)))).any (fun i => fwAllowed c i && decide (i.component < 5)) = true) ∧
    (let c := inHb { header := hdrCells (hdr3 7) 0, load := some (3, 1, []), len := 2780 } {}
     c.fw.hb.load = some (3, 1, []) ∧ 1 ≤ c.fw.hb.len ∧ c.fw.hb.len ≤ 65536 ∧
       c.fw.hb.offset + c.fw.hb.len ≤ (List.range 8).foldl (fun s i => s + cellsGet 0 c.fw.hb.header (0x28 + i) * 256 ^ i) 0 ∧ 3 < 5 ∧ 1 < 2) ∧
    (let c := inHb {} { slot0 := { st := .valid, image := some (fwImg 0) } }
     hbNeed c = 0 ∧ compatFails c = none) ∧ ({} : Chip).tk.mode ≠ .harebell := by decide +kernel

/-- LifeEvents: a first calendar; 60 s of power-on time; a suspect word of tile 2047 and its copy; an engine, its spare's lease and its
insertion; a spare's self-test; the last partition. -/
theorem test_meets_LifeEvents :
    (let c : Chip := objSet 0x1F10 0x05 0 0 (objSet 0x2901 0x04 0 allOnes64 { life := { calendar := some 3 } })
     c.life.calendar = some 3 ∧ c.life.tray = none ∧ ({ tray := some 3 } : LifeSt).tray = some 3 ∧ objGet c 0x1F10 0x05 0 = 0 ∧ objGet c 0x2901 0x04 0 = allOnes64) ∧
    (countTime (atTime 60000000000 {})).life.recordAt + 60 ≤ objGet (countTime (atTime 60000000000 {})) 0x2900 0x01 0 ∧
    ((setTile 2047 { suspects := [16383] } (inMode .running .slack)).tk.phase = .slack ∧ (tileAt (setTile 2047 { suspects := [16383] } {}) 2047).held = false ∧
      (tileAt (setTile 2047 { suspects := [16383] } {}) 2047).suspects.contains 16383 = true ∧
      bankUsed (tileAt (setTile 2047 { suspects := [16383] } {}) 2047) (sramBank 16383) < 8) ∧
    (tileAt (setTile 2047 { copied := [16383] } (inMode .running .ac0)) 2047).copied.contains 16383 = true ∧
    (engineExists 0x31 = true ∧ kindOf 0x31 = some .teasel ∧ ({} : LifeSt).heldEngines.contains 0x31 = false) ∧
    (let c := lent (leaseOf .es 0x31 9) (inMode .running .ac0)
     c.life.inserting = none ∧ c.life.lease.holders.find? (fun e => e.act = .es && decide (e.tick < c.tk.tick)) = some (leaseOf .es 0x31 9)) ∧
    (({ inserting := some (0x31, 9) } : LifeSt).inserting = some (0x31, 9) ∧ 9 < (inMode .running .ac0).tk.tick) ∧
    ((List.range 4).all fun k => (kindOf (16 * k)).any fun e => spareState {} e == 0) = true ∧
    (17 < 18 ∧ 80000 ≤ 80000 ∧ 0 < objGet (objSet 0x2910 0x08 0 4 {}) 0x2910 0x08 0) := by decide +kernel

/-- LeaseEvents: a scan with nothing queued, with an SRAM insertion queued; a scrub that holds its lease; a class that ends. -/
theorem test_meets_LeaseEvents :
    (let c : Chip := { inMode .idle .ac0 with life := { lease := { queue := [leaseOf .es 0 9] } } }
     c.tk.phase = .ac0 ∧ c.fw.down = false ∧ leaseOpen c = true ∧ c.life.lease.holders = [] ∧ c.life.lease.queue = [leaseOf .es 0 9] ∧
       (inMode .idle .ac0).life.lease.queue = []) ∧
    (let c : Chip := { lent (leaseOf .ds 0 9) {} with life := { (lent (leaseOf .ds 0 9) {}).life with
       scrubbing := true, scrubWindows := 256, scrubLines := (List.range 32).map (fun pc => (pc, linesInUse)) } }
     leaseHeld c .ds = true ∧ c.life.scrubbing = true ∧ scrubFull c = true) ∧
    (17 ≠ 0x10 ∧ 17 ≠ 0x01 ∧ cellsFind ({ classUntil := cellsPut [] 17 5 } : LifeSt).classUntil 17 = some 5) := by decide +kernel

/-! The dictionary: states that a role's writes are granted in. -/

def grantedB (s : State) (r : Role) (idx sub inst v : Nat) : Bool :=
  dictServes s.chip && instOf idx (ctxVal s.chip r) == inst && !commandWaits s.chip idx sub inst v &&
    (match findRow (dictImage s) s.chip r idx sub true with
     | .ok row => mayReach (dictImage s) s.chip r row idx inst true
     | .error _ => false)
def writableB (s : State) (r : Role) (idx sub inst : Nat) (b : List Byte) (row : ObjRow) : Bool :=
  dictServes s.chip && instOf idx (ctxVal s.chip r) == inst && lengthOk row idx b.length &&
    (match findRow (dictImage s) s.chip r idx sub true with
     | .ok x => x == row && mayReach (dictImage s) s.chip r row idx inst true
     | .error _ => false)
theorem test_granted_check (s : State) (r : Role) (idx sub inst v : Nat) : Granted s r idx sub inst v ↔ grantedB s r idx sub inst v = true := by
  unfold Granted grantedB
  cases findRow (dictImage s) s.chip r idx sub true <;> simp [and_assoc]
theorem test_writable_check (s : State) (r : Role) (idx sub inst : Nat) (b : List Byte) (row : ObjRow) :
    Writable s r idx sub inst b row ↔ writableB s r idx sub inst b row = true := by
  unfold Writable writableB
  cases h : findRow (dictImage s) s.chip r idx sub true <;> simp
  constructor
  · rintro ⟨a, b, rfl, c, d⟩; exact ⟨⟨⟨a, b⟩, d⟩, rfl, c⟩
  · rintro ⟨⟨⟨a, b⟩, d⟩, rfl, c⟩; exact ⟨a, b, rfl, c, d⟩

/-- The operator's selectors and parameters as given: index, sub-index, value. -/
def sel : List (Nat × Nat × Nat) → Chip → Chip
  | [], c => c
  | (i, k, v) :: r, c => setCtxVal .operator i k v (sel r c)
def holding (h : Nat) (hd : Handle) (c : Chip) : Chip := { c with intake := { c.intake with handles := [(h, hd)] } }

/-- PlanCommands: a staged plan image in Loaded; each plan command in the state it needs; a mask of the base plan alone, wanted and not;
a function running, and one aborted. -/
theorem test_meets_PlanCommands :
    (let c := sel [(0x2100, 4, 4)] (holding 4 (hand0 .complete 0) (inMode .loaded .work))
     Granted (blk c) .operator 0x2100 0x01 0 1 ∧ judgedMode c c = .loaded ∧ anyUnconfirmed c = false ∧ leaseHeld c .ppr = false ∧ beyondReduced c = false ∧
       cellsFind c.intake.handles (ctxVal c .operator 0x2100 0x04) = some (hand0 .complete 0)) ∧
    (∀ e ∈ [(2, ModState.loaded), (3, .running), (4, .paused), (5, .running), (6, .loaded)], let c := withPlan [] (inMode e.2 .work)
      Granted (blk c) .operator 0x2100 0x01 0 e.1 ∧ forwards c = false ∧ planAllowed c c e.1 = true ∧ domSize c < 2) ∧
    (∀ want ∈ [0, 1], let c : Chip := { running0 with plan := { running0.plan with want := want } }
      Granted (blk c) .operator 0x2102 0x01 0 (1#16).toNat ∧ c.plan.loaded = some plan0 ∧ bitOf (1#16).toNat 0 = true ∧
        (requestable plan0).contains (1#16).toNat = true ∧ forwards c = false) ∧
    (Granted (blk running0) .operator 0x2410 0x01 0 (1#16).toNat ∧ fnInPlan running0 1 = true ∧ ownsFn running0 .operator 1 = true ∧
      forwards running0 = false ∧ judgedMode running0 running0 = .running ∧ abortState .running 1 running0 = none) ∧
    (let c : Chip := sel [(0x2411, 0, 1)] { running0 with plan := { running0.plan with aborted := [1] } }
     Granted (blk c) .operator 0x2413 0x00 1 1 ∧ ownsFn c .operator 1 = true ∧ forwards c = false ∧ restartAllowed .running 1 c = true) := by
  simp only [test_granted_check]
  decide +kernel

/-- RepairCommands: tile 2,047 in a quarter with a spare; an encoding stream of 255; an engine; the lease free for each activity, and held
against a demand scrub; a scrub that runs; a queued entry. -/
theorem test_meets_RepairCommands :
    (let c : Chip := { inMode .running .work with grid := { spareOk := Vector.replicate 4 true } }
     Granted (blk c) .operator 0x2931 0x00 0 (2047#16).toNat ∧ judgedMode c c = .running ∧ c.tk.wake = .run ∧ spareFree c (tileQuarter 2047) = true ∧ c.grid.failed = [] ∧
       c.grid.pauseFrom = none ∧ (tileAt c 2047).held = false) ∧
    (let c := sel [(0x2300, 0, 255)] (video0 0x10 0 {})
     (∀ v ∈ [1, 2, 3], Granted (blk c) .operator 0x2305 0x01 255 v) ∧ (vdecl c 255).any vEncoder = true) ∧
    (Granted (blk running0) .operator 0x2911 0x01 0 (0x31#8).toNat ∧ engineExists (0x31#8).toNat = true ∧
      running0.life.heldEngines.contains (0x31#8).toNat = false) ∧
    (let c := inMode .idle .work
     Granted (blk c) .operator 0x2B31 0x00 0 1 ∧ c.tk.wake = .run ∧ judgedMode c c = .idle ∧ LeaseFree c (leaseOf .ppr 0 10) ∧ Granted (blk (sel [(0x2600, 0, 7)] c)) .operator 0x2601 0x11 7 1 ∧
       LeaseFree (sel [(0x2600, 0, 7)] c) (leaseOf .lr 7 10) ∧ Granted (blk c) .operator 0x2903 0x01 0 1 ∧ LeaseFree c (leaseOf .ds 0 10)) ∧
    (let c := lent (leaseOf .ppr 0 9) (inMode .idle .work)
     Granted (blk c) .operator 0x2903 0x01 0 1 ∧ ¬ LeaseFree c (leaseOf .ds 0 10) ∧ (c.life.lease.queue.filter (·.commanded)).length < 16) ∧
    (let c := lent (leaseOf .ds 0 9) (inMode .idle .work)
     Granted (blk c) .operator 0x2903 0x01 0 2 ∧ leaseHeld c .ds = true) ∧
    (let c : Chip := { inMode .idle .work with life := { lease := { queue := List.replicate 24 (leaseOf .lr 7 9) } } }
     Granted (blk c) .operator 0x2902 0x04 0 (24#8).toNat ∧ (24#8).toNat ≤ 24 ∧ c.life.lease.queue[(24#8).toNat - 1]? = some (leaseOf .lr 7 9) ∧
       c.life.lease.queue.contains (leaseOf .lr 7 9) = true ∧ (leaseOf .lr 7 9).commanded = true) := by
  simp only [test_granted_check, LeaseFree]
  decide +kernel

/-- IntakeAndLinkCommands: an OPEN of one byte; a complete handle closed, of an adapter and of a plan; a RELEASE; port and pair commands. -/
theorem test_meets_IntakeAndLinkCommands :
    (let c := sel [(0x2B40, 3, 1), (0x2B40, 4, 2)] (inMode .idle .work)
     Granted (blk c) .operator 0x2B40 0x02 0 1 ∧ isTenant .operator = false ∧ 0 < ctxVal c .operator 0x2B40 3 ∧ ctxVal c .operator 0x2B40 4 ≤ 2 ∧
       ctxVal c .operator 0x2B40 3 ≤ stagingFree c ∧ c.intake.handles.length < 16 ∧ c.tk.wake = .run) ∧
    (∀ kind ∈ [0, 1], let hd : Handle := { hand0 .opened kind with units := [0] }
      let c := sel [(0x2B40, 7, 4)] (holding 4 hd (inMode .idle .work))
      Granted (blk c) .operator 0x2B40 0x02 0 2 ∧ handleAt c (ctxVal c .operator 0x2B40 7) = some hd ∧ missingUnit hd = none ∧
        Granted (blk c) .operator 0x2B40 0x02 0 3 ∧ hd.st ≠ .inUse) ∧
    (∀ v ∈ [2, 3], Granted (blk (sel [(0x2600, 0, 7)] (inMode .idle .work))) .operator 0x2601 0x11 7 v) ∧
    (∀ v ∈ [1, 2, 3], let c := pair0 2 6 0 1 {} .work
      Granted (blk c) .operator 0x2620 0x0B 0 v ∧ forwards c = false ∧ pairAllowed c v = true) := by
  simp only [test_granted_check]
  decide +kernel

/-- An adapter declaration (Table 7-7): slot 3 of tenant 7, function 1, versions 0 and 1. -/
def adSec : Section := sec 0x0011 0 (bytesLE 4 1 ++ List.replicate 12 0
  ++ ([3, 0] ++ bytesLE 2 7 ++ bytesLE 2 1 ++ bytesLE 2 0 ++ bytesLE 2 1 ++ bytesLE 2 0 ++ bytesLE 4 0 ++ bytesLE 4 1 ++ List.replicate 12 0))
/-- A staged image of slot 3 of tenant 7, of no tile, in the intake buffer. -/
def adHandle : Handle := { hand0 .placed 1 with aslot := 3, size := 80, units := [0], placed := some (1, 5) }
def adImage (words : Nat) : List Byte := [3] ++ bytesLE 2 7 ++ bytesLE 4 0 ++ bytesLE 4 words ++ List.replicate 69 0
def pickConv (c : Chip) : Chip := sel [(0x2432, 1, 7), (0x2432, 2, 9)] c
/-- ServingCommands: a cancel; a conversation of tenant 7, its summary kept and exported; an import's write (its decryption is a free value);
an adapter slot with a version placed, and one current. -/
theorem test_meets_ServingCommands :
    Granted (blk running0) .operator 0x2403 0x01 0 (5#32).toNat ∧
    (let c : Chip := pickConv { serv0 [] {} 0 with serv := { convs := [conv0], sums := [sum0] } }
     Granted (blk c) .operator 0x2433 0x06 (7 * 2 ^ 32 + 9) 1 ∧ Granted (blk c) .operator 0x2433 0x06 (7 * 2 ^ 32 + 9) 2 ∧
       findSummary c ((7 * 2 ^ 32 + 9) / 2 ^ 32) ((7 * 2 ^ 32 + 9) % 2 ^ 32) = some sum0 ∧ dictServes c = true ∧
       (match findRow c c .operator 0x2436 0x00 false with | .ok row => mayReach c c .operator row 0x2436 (7 * 2 ^ 32 + 9) false | .error _ => false) = true ∧
       instOf 0x2436 (ctxVal c .operator) = 7 * 2 ^ 32 + 9 ∧
       Granted (blk c) .operator 0x2436 0x00 (7 * 2 ^ 32 + 9) (natLE (List.replicate 28 1)) ∧ (List.replicate 28 (1 : Byte)).length ≤ 262172) ∧
    (let hd := adHandle
     let c := sel [(0x2440, 0, 3), (0x2441, 2, 4)] (holding 4 hd (withPlan [fnSec, adSec] (inMode .running .work)))
     let c : Chip := { c with intake := { c.intake with buffer := [(4, 0, adImage 1)] } }
     (planAdapter (planOf [fnSec, adSec]) 3).any (fun d => adapterFits c 4 d hd) = true ∧
     Granted (blk c) .operator 0x2441 0x01 3 1 ∧ (planAdapter (planOf [fnSec, adSec]) 3).any (fun d => d.aslot == 3) = true ∧
       cellsFind c.intake.handles (ctxVal c .operator 0x2441 0x02) = some hd ∧ hd.kind = 1 ∧ hd.st = .placed ∧ (adSlot c 3).live.length < 2) ∧
    (let c : Chip := sel [(0x2440, 0, 3)] { withPlan [fnSec, adSec] (inMode .running .work) with serv := { adapters := [(3, { cur := some 1 })] } }
     Granted (blk c) .operator 0x2441 0x01 3 2 ∧ (adSlot c 3).cur.isSome = true) := by
  simp only [test_granted_check]
  decide +kernel

def planFile : Handle := { hand0 .complete 2 with size := 1 }
/-- SecurityCommands: a quote slot of the operator's; a record's write (its checks rest on free values but for the first); a retiring key of a
tenant and of a stream; tenants; EXTEND of register 15; a plan-signing key. -/
theorem test_meets_SecurityCommands :
    (let c := objSet 0x2700 0x01 0 1 (sel [(0x2703, 0, 7)] (setQuote 7 { owner := some 0 } (inMode .running .work)))
     (quoteSlot c 7).owner = some (roleKey .operator) ∧ Granted (blk c) .operator 0x2704 0x02 7 1 ∧ (quoteSlot c 7).asked = none ∧ identityValid c = true ∧
       Granted (blk c) .operator 0x2704 0x02 7 2) ∧
    (Granted (blk running0) .operator 0x2710 0x01 0 (natLE (List.replicate 4960 0)) ∧ (List.replicate 4960 (0 : Byte)).length = 4960 ∧
      (match keyRecordCheck running0 .operator (List.replicate 4960 0) with | .error (1, st) => st == stRange | _ => false) = true) ∧
    (let c : Chip := { sel [(0x2200, 0, 7), (0x2300, 0, 7)] (inMode .running .work) with
                       sec := { keys := cellsPut (cellsPut [] (keyId 2 7 1) (key0 .retiring 5)) (keyId 4 7 0) (key0 .retiring 5) } }
     (∀ k ∈ [(2, 0x2201, 7), (4, 0x2306, 3)], (retiringKey c k.1 7).isSome = true ∧ c.sec.sweeps.contains (k.1, 7) = false ∧
       Granted (blk c) .operator k.2.1 k.2.2 7 k.1)) ∧
    (let c := sel [(0x2200, 0, 7)] running0
     Granted (blk c) .operator 0x2201 0x01 7 1 ∧ Granted (blk c) .operator 0x2201 0x01 7 0 ∧ 7 ∉ planTenants (planOf [])) ∧
    (let b := (15 : Byte) :: List.replicate 32 0
     Granted (blk running0) .operator 0x2702 0x02 0 (natLE b) ∧ b.length = 33 ∧ 13 ≤ numAt b 0 1 ∧ numAt b 0 1 ≤ 15) ∧
    (let c := inMode .idle .work
     Granted (blk c) .operator 0x2720 ((7 : Fin 8).val + 1) 0 (natLE (List.replicate 1312 1)) ∧ (List.replicate 1312 (1 : Byte)).length = 1312 ∧
       blobGet c 0x2720 8 0 = [] ∧ judgedMode c c = .idle) := by
  simp only [test_granted_check]
  decide +kernel

/-- UpdateCommands: a staged firmware image (its check rests on a free value); a valid image in slot 1 of component 4, the lease free and
held; an ERASE. -/
def updReady (c : Chip) : Chip :=
  let k : FwComp := { slot0 := { st := .confirmed, image := some (fwImg 4) }, slot1 := { st := .valid, image := some (fwImg 4) } }
  sel [(0x2800, 0, 4), (0x2801, 9, 4)] { c with fw := { comps := Vector.replicate 5 k } }
theorem test_meets_UpdateCommands :
    (let c := updReady (holding 4 planFile (inMode .idle .work))
     let k := fwComp c 4
     let i := fwImg 4
     (∀ v ∈ [1, 2, 3, 4], Granted (blk c) .operator 0x2801 0x08 4 v) ∧ (fwActive c 4).st ≠ .unconfirmed ∧ updBusy c = false ∧
       cellsFind c.intake.handles (ctxVal c .operator 0x2801 0x09) = some planFile ∧
       planFile.size + 65536 * (cellsFind c.life.badBlocks (6 + 2 * 4 + otherSlot k)).getD 0 ≤ slotBytes 4 ∧
       judgedMode c c = .idle ∧ anyUnconfirmed c = false ∧ fwSlot k (otherSlot k) = { st := .valid, image := some i } ∧ compatOk c 4 i = true ∧
       k.floor ≤ i.sec ∧ (fwActive c 4).image = some i ∧ i.hovInMin ≤ i.hovOut ∧ i.hovOut ≤ i.hovInMax ∧ LeaseFree c (leaseOf .fw 4 10)) ∧
    (let c := updReady (lent (leaseOf .ppr 0 9) (inMode .idle .work))
     (∀ v ∈ [2, 3], Granted (blk c) .operator 0x2801 0x08 4 v) ∧ ¬ LeaseFree c (leaseOf .fw 4 10) ∧
       (c.life.lease.queue.filter (·.commanded)).length < 16) := by
  simp only [test_granted_check, LeaseFree]
  decide +kernel

def rowOf (i k : Nat) : ObjRow := (objRow i k).getD ⟨0, 0, 0, 0, 0, 0, false, 0, 0, 0, .plain, false⟩
/-- ServerCommands: a selector, a parameter, an at-once object, a plain one; a cap at each limit; a reading; an exit from Survival; alerts; a
snapshot group; a component; the trace; the tray's time. -/
theorem test_meets_ServerCommands :
    ((rowOf 0x2800 0).kind = .selector ∧ Writable (blk running0) .operator 0x2800 0 0 [4] (rowOf 0x2800 0) ∧ rangeOk (rowOf 0x2800 0) 0x2800 4 = true) ∧
    ((rowOf 0x2B40 4).kind = .param ∧ Writable (blk running0) .operator 0x2B40 4 0 [2] (rowOf 0x2B40 4) ∧ rangeOk (rowOf 0x2B40 4) 0x2B40 2 = true) ∧
    (∀ v ∈ [120, 420], Granted (blk running0) .operator 0x2500 0x01 0 (BitVec.ofNat 16 v).toNat) ∧
    (Granted { blk running0 with chip := atTime 5 running0 } .operator 0x2520 0x01 0 (BitVec.ofNat 64 (3 * 2 ^ 48)).toNat ∧
      fld (3 * 2 ^ 48) 63 48 ≠ running0.power.seq) ∧
    (Granted { blk running0 with chip := atTime 5 running0 } .operator 0x2520 0x01 0 (BitVec.ofNat 64 9).toNat ∧ fld 9 63 48 = running0.power.seq) ∧
    (let c : Chip := { atTime 100000000 (inMode .survival .work) with power := { okSince := some 0, flows := [900, 900, 900], die := 8500 } }
     Granted (blk c) .operator 0x2502 0x01 0 1 ∧ c.tk.mode = .survival ∧ c.power.leaving = false ∧ 0 + 100000000 ≤ c.tk.now ∧
       c.power.flows.length = 3 ∧ (∀ f ∈ c.power.flows, 900 ≤ f) ∧ c.power.die ≤ 8500) ∧
    (Granted (blk running0) .operator 0x2001 0x02 0 (7#32).toNat ∧ Granted (blk running0) .operator 0x2001 0x03 0 (7#32).toNat ∧
      reservedSet 0x2001 2 (7#32).toNat = false ∧ reservedSet 0x2001 3 (7#32).toNat = false) ∧
    (let b := List.replicate 16 (0 : Byte)
     let c := sel [(0x2010, 0, 7)] running0
     Granted (blk c) .operator 0x2011 0x01 7 (natLE b) ∧ b.length % 16 = 0 ∧ (groupAt c 7).owner = none ∧
       (∀ m ∈ entriesOf 16 (b.length / 16) b, numAt m 3 1 ≤ 1 ∧ numAt m 12 4 = 0 ∧ (numAt m 3 1 = 1 → memberSelOk m = true)) ∧ b.length ≤ 1024 ∧
       16 + ((entriesOf 16 (b.length / 16) b).map (fun m => 4 + padTo4 (maxSize (numAt m 0 2) (numAt m 2 1)))).sum ≤ 65536) ∧
    (let c : Chip := sel [(0x2010, 0, 7)] { running0 with dict := { groups := (Vector.replicate 8 {}).set 7 { owner := some 0 } } }
     (groupAt c 7).owner = some (roleKey .operator) ∧ ∀ v ∈ [1, 2, 3, 4], Granted (blk c) .operator 0x2011 0x02 7 v) ∧
    Granted (blk (objSet 0x2722 0x01 0 1 running0)) .service 0x2812 0x04 0 (7#8).toNat ∧ (∀ v ∈ [1, 2, 3], Granted (blk running0) .operator 0x2A10 0x04 0 v) ∧
    Granted (blk running0) .operator 0x2901 0x03 0 (5#64).toNat ∧ objGet running0 0x1F10 0x05 0 = 0 := by
  simp only [test_granted_check, test_writable_check]
  decide +kernel

/-- ServerCommands: a register of each kind whose write has no row of its own. -/
theorem test_meets_ServerCommands_registers :
    (∃ idx sub v, (rowOf idx sub).kind = .atOnce ∧ Writable (blk running0) .operator idx sub 0 (bytesLE (rowOf idx sub).size v) (rowOf idx sub) ∧
      ownRow idx sub = false ∧ commandOf idx sub = none ∧ reservedSet idx sub v = false ∧ rangeOk (rowOf idx sub) idx v = true ∧
      stateRefuses running0 running0 idx sub 0 v = false) ∧
    (∃ idx sub v, (rowOf idx sub).kind = .plain ∧ Writable (blk running0) .operator idx sub 0 (bytesLE (rowOf idx sub).size v) (rowOf idx sub) ∧
      ownRow idx sub = false ∧ commandOf idx sub = none ∧ reservedSet idx sub v = false ∧ rangeOk (rowOf idx sub) idx v = true ∧
      stateRefuses running0 running0 idx sub 0 v = false) := by
  simp only [test_writable_check]
  exact ⟨⟨0x2933, 0x02, 1000, by decide +kernel⟩, ⟨0x2540, 0x01, 60, by decide +kernel⟩⟩

/-! The dictionary's refusals, the card, the window. -/

def lengthRow : ObjRow := rowOf 0x2540 0x01
/-- DictionaryRefusals: each refusal in a module that passes the checks before it. -/
theorem test_meets_DictionaryRefusals :
    (2047 < (2048#16).toNat ∧ Writable (blk running0) .operator 0x2A31 0x00 0 (bytesLE 2 (2048#16).toNat) (rowOf 0x2A31 0)) ∧
    (ownRow 0x2540 0x01 = false ∧ dictServes {} = false ∧ dictServes running0 = true) ∧ (4095 < 4096 ∧ tenantAssigned running0 4095 = false) ∧
    objGet running0 0x2722 0x01 0 ≠ 1 ∧ roleRefusal running0 running0 .operator = none ∧
    (ownRow 0x3000 0 = false ∧ objIndexExists 0x3000 = false) ∧ (ownRow 0x2540 9 = false ∧ objIndexExists 0x2540 = true ∧ objRow 0x2540 9 = none) ∧
    (objRow 0x2540 0x01 = some lengthRow ∧ (inMode .booting .slack).tk.mode = .booting ∧ dictServes (inMode .booting .slack) = true) ∧
    (let c : Chip := objSet 0x2201 0x01 7 1 running0
     roleRefusal c c (.tenant 7) = none ∧ rightOf lengthRow (.tenant 7) = 0) ∧
    (objRow 0x2540 0x02 = some (rowOf 0x2540 0x02) ∧ rightOf (rowOf 0x2540 0x02) .operator = 1 ∧ ownRow 0x2540 0x02 = false) ∧
    (2 ≤ rightOf lengthRow .operator ∧ mayReach running0 running0 .operator lengthRow 0x2540 0 true = true ∧ lengthOk lengthRow 0x2540 2 = false) ∧
    (let c := objSet 0x2100 0x02 0 stPending running0
     statusBusy c 0x2100 0x02 0 = true ∧ findRow c c .operator 0x2100 0x01 true = .ok (rowOf 0x2100 0x01)) := by
  simp only [test_writable_check]
  decide +kernel
/-- DictionaryRefusals: a stream of another tenant. -/
theorem test_meets_DictionaryRefusals_other :
    (let c : Chip := objSet 0x2201 0x01 7 1 running0
     roleRefusal c c (.tenant 7) = none ∧ 2 ≤ rightOf (rowOf 0x2301 0x01) (.tenant 7) ∧ ownRow 0x2301 0x01 = false ∧ objRow 0x2301 0x01 = some (rowOf 0x2301 0x01) ∧
       mayReach c c (.tenant 7) (rowOf 0x2301 0x01) 0x2301 (instOf 0x2301 (ctxVal c (.tenant 7))) true = false) := by decide +kernel

def card0 (regs : Cells Nat) : Chip := { inMode .running .work with card := { selected := true, rca := 5, regs := regs } }
/-- CardCommands: a card that is not alive, one that is; functions ready and not; lengths in bytes, in blocks and none. -/
theorem test_meets_CardCommands :
    cardAlive {} = false ∧ cardAlive (card0 []) = true ∧ (5#16).toNat = (card0 []).card.rca ∧ (6#16).toNat ≠ (card0 []).card.rca ∧
    (card0 []).card.selected = true ∧ functionReady (card0 []) (7 : Fin 8).val = false ∧ functionReady (card0 []) (1 : Fin 8).val = true ∧
    cmd53Length (card0 []) 1 false false 4 = none ∧ cmd53Length (card0 []) 1 false true 0 = some 512 ∧
    cmd53Length (card0 (cellsPut [] 0x111 2)) 1 true true 511 = some (511 * 512) := by decide +kernel

/-- A request frame (Table 12-5): OP, ROLE, TENANT, index, sub-index, FLAGS, OFFSET, LENGTH. -/
def reqOf (op idx sub : Nat) (data : List Byte) : Request :=
  { op := op, role := 0, tenant := 0, idx := idx, sub := sub, flags := 0, offset := 0, length := data.length, tag := 1, tick := 10, data := data }
def takenIn (q : Request) (c : Chip) : Chip := { c with win := { c.win with taken := some q, busy := true } }
def asked0 (req : Cells Byte) : Chip := { running0 with win := { go := true, req := req } }
/-- WindowRequests: GO with and without a request under way; a good frame and a bad one; each operation taken; a copy of 1 s. -/
theorem test_meets_WindowRequests :
    cardAlive running0 = true ∧ (takenIn (reqOf 1 0 0 []) running0).win.busy = true ∧ running0.win.busy = false ∧
    (let c := asked0 (cellsPut [] 0 1)
     c.win.go = true ∧ c.win.busy = false ∧ dictServes c = true ∧ frameBad (frameOf c) = false ∧ (frameOf (asked0 [])).op = 0 ∧ c.dict.relatch = false) ∧
    (let c := takenIn (reqOf 1 0x2540 0x01 []) running0
     takenOp c 1 = some (reqOf 1 0x2540 0x01 []) ∧
       (match dictRead c c (roleOf (reqOf 1 0x2540 0x01 [])) 0x2540 0x01 with | .ok (_, _, v) => decide (v.length ≤ 8176) | .error _ => false) = true ∧
       (match dictRead c c (roleOf (reqOf 1 0x3000 0 [])) 0x3000 0 with | .ok _ => false | .error _ => true) = true) ∧
    takenOp (takenIn (reqOf 2 0x2540 0x01 [50]) running0) 2 = some (reqOf 2 0x2540 0x01 [50]) ∧
    (let c := takenIn { reqOf 3 0x2540 0x01 [] with length := 1 } running0
     takenOp (atTime 5 c) 3 = some { reqOf 3 0x2540 0x01 [] with length := 1 } ∧
       (match dictRead (dictImage (blk c)) (atTime 5 c) .operator 0x2540 0x01 with | .ok _ => true | .error _ => false) = true) ∧
    (let q := reqOf 4 0x2540 0x01 [50]
     let c := takenIn q running0
     takenOp (atTime 5 c) 4 = some q ∧ bitOf q.flags 0 = false ∧ (roleOf q = .operator) ∧
       (match findRow c (atTime 5 c) .operator 0x2540 0x01 true with
        | .ok row => mayReach c (atTime 5 c) .operator row 0x2540 (instOf 0x2540 (ctxVal (atTime 5 c) .operator)) true
        | .error _ => false) = true) := by decide +kernel
/-- CommandFrames: commands of each shape that answer a next state. -/
theorem test_meets_CommandFrames : running0.dict.relatch = false ∧
    (∀ i ∈ [Instr.cmd3, .go, .sdioReset, .traceFreeze .operator, .droopEvent 5], ∃ s', exec i (blk running0) = .next s') := by
  refine ⟨by decide, fun i hi => ?_⟩
  simp only [List.mem_cons, List.not_mem_nil, or_false] at hi
  rcases hi with rfl | rfl | rfl | rfl | rfl <;> exact ⟨_, rfl⟩

/-- Statements with no further hypothesis than a ready tile, a settled state or a well-formed command. -/
theorem test_meets_ScalarOps : TileReady 2047 (withT 2047 live) ∧ Slot.mem ≠ Slot.ctl := by unfold TileReady; decide +kernel
theorem test_meets_VectorOps : TileReady 2047 (withT 2047 live) ∧ (7 : Fin 8).val ≠ 0 := by unfold TileReady; decide +kernel
theorem test_meets_VectorMoves : TileReady 0 (withT 0 live) := by unfold TileReady; decide +kernel
theorem test_meets_MemoryOps : TileReady 0 (withT 0 live) ∧ (7 : Fin 8).val ≠ 0 := by unfold TileReady; decide +kernel
theorem test_meets_LaneArithmetic : 127 < laneCount true ∧ 63 < laneCount false := by decide
theorem test_meets_IssueFrame : (withT 2047 live).chip.dict.relatch = false ∧ (0 : Nat) ≠ 2047 := by decide +kernel
theorem test_meets_WellFormedAnswers : WellFormed .go = true ∧ WellFormed (.nop 2048 .ctl) = false := by decide
theorem test_meets_ResetInv : Settled State.reset := by unfold Settled; decide
/-- WindowRequests: a segment copy 1 s old. -/
theorem test_meets_WindowRequests_copy :
    (let v : SegCopy := { key := 1, data := [], t := 0 }
     (ctxOf { ({} : Chip) with dict := { ctxs := [(0, { copy := some v })] } } .operator).copy = some v ∧ v.t + 1000000000 < 1000000001) := by
  decide +kernel

/-! The spec's worked examples, and wraps and edges of single commands. -/

/-- spec/02_arithmetic.md, FP32 3.3 to FP8 E4M3. -/
theorem test_fp8_convert : fpEncode fpE4m3 true (ofFp32 0x40533333) = 0x45 := by decide +kernel
/-- spec/02_arithmetic.md, MXFP8 E4M3 output: scale code 0x7D, elements 0x7C and 0xD4. -/
theorem test_mx_block : mxBlock .mxE4m3 false (numOfInt 100 0 :: numOfInt (-3) 0 :: List.replicate 30 (numOfInt 0 0)) =
    (0x7D, 0x7C :: 0xD4 :: List.replicate 30 0) := by decide +kernel
/-- spec/02_arithmetic.md, requantising an INT8 layer. -/
theorem test_requantise : [intEncode 8 (numOfInt 15246 (-7)), intEncode 8 (numOfInt 21 (-1)), intEncode 8 (numOfInt 23 (-1))] = [0x77, 0x0A, 0x0C] := by
  decide +kernel
/-- spec/02_arithmetic.md, order independence: A ends at 2^24 in either order, and its BF16 output is 0x3B80. -/
theorem test_exact_accumulator :
    ([[0x7E, 0xFE, 0x01], [0x01, 0x7E, 0xFE]].all fun o =>
      let a := elemsOf .mxE4m3 32 (o.getD 0 0 + 256 * o.getD 1 0 + 65536 * o.getD 2 0) [0x89]
      let b := elemsOf .mxE4m3 32 (if o.getD 0 0 = 1 then 0x7E7E01 else 0x017E7E) [0x7F]
      (accDot (-32) a b).a == 2 ^ 24) = true ∧ fpEncode fpBf16 true (numOfInt (2 ^ 24) (-32)) = 0x3B80 := by decide +kernel
/-- spec/03_tile.md, reflection with h = 5, and one address of the 3 × 3 convolution. -/
theorem test_reflect : [(-1 : Int), -2, 5, 6].map (fun i => foldEdge i 5) = [1, 2, 3, 2] := by decide
def conv3 : Win := { pad := 0, base := 0x1000, rowp := 240, p := 2, sy := 2, sx := 2, dy := 2, dx := 2, kh := 3, kw := 3, pt := 2, pb := 2, pl := 2,
                     pr := 2, h := 68, w := 120, lb := 7, fill := 0, fmt := 0 }
theorem test_window_address : winHo conv3 = 34 ∧ winWo conv3 = 60 ∧
    wldSource conv3 { oy := 5, ox := 0, g := 1 } 1 2 40 = .word 4981 (4981 - 4096) ∧ bankOf 4981 = 5 ∧ wldCount conv3 0 = 34 := by decide
/-- spec/04_grid_fabric.md, the channel from (30,14) to (33,17), and Campion's through S3 into (3,20). -/
theorem test_channel_timing : (∃ ch, (planChannels (planOf [sec 0x0005 0 (chanBytes 0 (30 + 64 * 14) (33 + 64 * 17) 0 0 2 0 1 5)]))[0]? = some ch ∧
      chanHops ch = 6 ∧ chanStages ch = 2 ∧ slotFc { ch with ph := 1 } 100 0 = 405 ∧ ejectFc { ch with ph := 1 } 100 1 = 416 ∧
      dlyMin { ch with ph := 1 } = 5 ∧ dlyMax { ch with ph := 1 } = 5) ∧
    (∃ ch, (planChannels (planOf [sec 0x0005 0 (chanBytes 1 67 (3 + 64 * 20) 0 0 4 1 1 0)]))[0]? = some ch ∧
      chanHops ch = 12 ∧ chanStages ch = 1 ∧ ejectFc ch 0 0 = 18 ∧ ejectFc ch 0 3 = 21) :=
  ⟨⟨_, rfl, by decide +kernel⟩, ⟨_, rfl, by decide +kernel⟩⟩
/-- spec/08_memory.md, plan address 0x1_7FA1_5CC0 with VPC_MASK 0xFF00_0000: pseudo-channel 5, SID 1, bank 7, row 0, line 3. -/
theorem test_plan_address : planLineKey 0xFF000000 0x17FA15CC0 = some (lineKey 5 1 7 0 3) := by decide +kernel
/-- spec/07_model_serving.md, one tree step: the depths. -/
theorem test_tree_depths : treeDepths 8 [] [0xFF, 0, 0, 1, 1, 3] = [1, 2, 2, 3, 3, 4] := by decide
/-- spec/09_domains_redundancy.md: position 0 port 0 meets position 1 port 6; in the transfer, port 2 leads to position 3, port 4. -/
theorem test_ports : portToward (dom0 0 0 0 {}) 1 = 0 ∧ portToward (dom0 1 0 0 {}) 0 = 6 ∧ portToward (dom0 0 0 0 {}) 3 = 2 ∧
    portToward (dom0 3 0 0 {}) 0 = 4 := by decide +kernel
/-- spec/10_security.md, a quote during a microcode activation: RETRY_MS = 14 × 2 + 30,000. -/
theorem test_retry_hint : retryMs 14 0 { inMode .running .ac3584 with fw := { updates := [upd0 1 .pause] } } = 30028 := by decide +kernel
/-- spec/12_dictionary_host.md, a cap written across a boundary: the frame of 200 W. -/
theorem test_request_frame :
    frameOf { win := { req := cellsSetRun 0 [] 0 [0x02, 0, 0, 0, 0x00, 0x25, 0x01, 0, 0, 0, 0, 0, 0x02, 0, 0x07, 0, 0xC8, 0] } } =
      { op := 2, role := 0, tenant := 0, idx := 0x2500, sub := 1, flags := 0, offset := 0, length := 2, tag := 7, tick := 0, data := [0xC8, 0] } := by
  decide +kernel

/-- What one command at the front of the queue leaves of a tile, of the module. -/
def after (i : Instr) (c : Chip) : Chip := match step { blk c with pending := [i] } with | .next s => s.chip | _ => {}
def sregAfter (i : Instr) (r : Nat) (tl : Tile) : W32 := sregAt (tileAt (after i (withT 5 tl).chip) 5) r
/-- R72 (Table 3-5): ADDS wraps; SETH keeps the low half; R78: s14 is the module's. -/
theorem test_adds_wraps : sregAfter (.adds 5 1 2) 1 { live with sregs := live.sregs.set 1 0xFFFFFFFF } = 1 ∧
    sregAfter (.adds 5 1 0xFFFF) 1 live = 0xFFFFFFFF := by decide +kernel
theorem test_seth_keeps_low : sregAfter (.seth 5 1 0xABCD) 1 { live with sregs := live.sregs.set 1 0x12345678 } = 0xABCD5678 := by decide +kernel
theorem test_s14_kept : sregAfter (.setl 5 14 7) 14 { live with sregs := live.sregs.set 14 3 } = 3 := by decide +kernel
/-- R77: WAIT 5 makes its bundle 6 ac. -/
theorem test_wait_ac : (tileAt (after (.wait 5 5) (withT 5 live).chip) 5).ac = 6 := by decide +kernel
/-- R351: a cap of 119 W is REFUSED_RANGE. R393: a value a byte too long is refused (Table 12-9). -/
theorem test_cap_range : (after (.powerCapWrite .operator 119) running0).dict.lastRes.st = stRange ∧
    (after (.powerCapWrite .operator 120) running0).dict.lastRes = {} := by decide +kernel
theorem test_length_refused : (after (.registerWrite .operator 0x2540 0x01 [50, 0]) running0).dict.lastRes = { st := 5, detail := 3 } := by decide +kernel
/-- First in, first out. -/
theorem test_queue_order : (match step { blk running0 with pending := [.go, .discard] } with
    | .next s => s.pending == [.discard] && s.chip.win.go
    | _ => false) = true := by decide +kernel
/-- An ill-formed command stops with a fault. -/
theorem test_no_such_tile : step { blk {} with pending := [.nop 2048 .ctl] } = .fault .noSuchTile := rfl

end Sys2Proof.Tests
end

/-! SUPPORT. The outcomes of one SRAM read (R63, R64, R66). -/

namespace Sys2Proof.Machine

/-! What the burst code finds. -/

theorem errSpan_zero : errSpan 0 = 0 := by
  simp only [errSpan, BitVec.ofNat_eq_ofNat, BitVec.toNat_zero, if_true]

/-- R63: an error within 16 consecutive bits is corrected. -/
theorem burstDecode_corrected (w : W256) {e : Upset} (he : e ≠ 0) (hs : errSpan e ≤ 16) : burstDecode w e = (.corrected, w) := by
  simp only [burstDecode, he, hs, if_true, if_false]

/-- R63: an error wider than 16 bits and within 32 is detected, and the data stays as it was read. -/
theorem burstDecode_uncorrectable (w : W256) {e : Upset} (hl : 16 < errSpan e) (hu : errSpan e ≤ 32) :
    burstDecode w e = (.uncorrectable, w ^^^ e.setWidth 256) := by
  have he : e ≠ 0 := by rintro rfl; rw [errSpan_zero] at hl; omega
  simp only [burstDecode, he, Nat.not_le.mpr hl, hu, if_true, if_false]

/-! What a read of a stored word delivers. -/

theorem sramLook_poisoned (t : Tile) (wa : Nat) (hp : (sramPeek t wa).poison = true) : sramLook t wa = (.clean, sramPeek t wa) := by
  unfold sramPeek at hp ⊢
  simp only [sramLook, hp, if_true]

theorem sramLook_corrected (t : Tile) (wa : Nat) (hp : (sramPeek t wa).poison = false) (he : cellsGet 0 t.upsets (wa % 16384) ≠ 0)
    (hs : errSpan (cellsGet 0 t.upsets (wa % 16384)) ≤ 16) : sramLook t wa = (.corrected, sramPeek t wa) := by
  unfold sramPeek at hp ⊢
  simp only [sramLook, hp, burstDecode_corrected _ he hs, Bool.false_eq_true, if_false]
  rw [← hp]

theorem sramLook_uncorrectable (t : Tile) (wa : Nat) (hp : (sramPeek t wa).poison = false)
    (hl : 16 < errSpan (cellsGet 0 t.upsets (wa % 16384))) (hu : errSpan (cellsGet 0 t.upsets (wa % 16384)) ≤ 32) :
    sramLook t wa =
      (.uncorrectable, { data := (sramPeek t wa).data ^^^ (cellsGet 0 t.upsets (wa % 16384)).setWidth 256, poison := true }) := by
  unfold sramPeek at hp ⊢
  simp only [sramLook, hp, burstDecode_uncorrectable _ hl hu, Bool.false_eq_true, if_false]

/-! What a read leaves behind. -/

theorem portUse_of_lt (write : Bool) {wa : Nat} (t : Tile) (h : wa < 16384) : portUse write wa t = tileEv (.port write wa) t := by
  rw [portUse, Nat.mod_eq_of_lt h]

theorem queueWriteBack_of_room {t : Tile} (wa : Nat) (h : t.wbQueue.length < 4) :
    queueWriteBack wa t = tileEv (.queued wa) { t with wbQueue := t.wbQueue ++ [wa] } := if_pos h

/-- R64: with four addresses queued a further one is dropped. -/
theorem queueWriteBack_of_full {t : Tile} (wa : Nat) (h : 4 ≤ t.wbQueue.length) : queueWriteBack wa t = tileEv .wbDrop t :=
  if_neg (Nat.not_lt.mpr h)

/-- A delivery of a word that stands poisoned is counted each time. -/
theorem sramRead_poisoned (t : Tile) (wa : Nat) (hp : (sramPeek t wa).poison = true) :
    sramRead t wa = (sramPeek t wa,
      tileEv (.poisoned (wa % 16384)) (portUse false wa { t with poisoned := satAdd allOnes32 t.poisoned 1 })) := by
  simp only [sramRead, sramLook_poisoned t wa hp, sramNote, hp, if_true]
  rfl

/-- A corrected read delivers the stored data, counts it and offers its address to the write-back queue. -/
theorem sramRead_corrected (t : Tile) (wa : Nat) (hp : (sramPeek t wa).poison = false) (he : cellsGet 0 t.upsets (wa % 16384) ≠ 0)
    (hs : errSpan (cellsGet 0 t.upsets (wa % 16384)) ≤ 16) :
    sramRead t wa = (sramPeek t wa, queueWriteBack (wa % 16384)
      (tileEv (.corrected (wa % 16384)) (portUse false wa { t with corrected := satAdd allOnes32 t.corrected 1 }))) := by
  simp only [sramRead, sramLook_corrected t wa hp he hs, sramNote]
  rfl

/-- The tile after the read of a word found uncorrectable: the word as delivered stands poisoned in its place (R66). -/
def poisonStored (t : Tile) (wa : Nat) (w : SWord) : Tile :=
  tileEv (.badWord (wa % 16384)) <| tileEv (.poisoned (wa % 16384))
    (sramWrite (portUse false wa { t with poisoned := satAdd allOnes32 t.poisoned 1 }) wa w)

theorem sramPeek_poisonStored (t : Tile) (wa : Nat) (w : SWord) : sramPeek (poisonStored t wa w) wa = w :=
  sramPeek_write_same _ wa w

theorem sramRead_uncorrectable (t : Tile) (wa : Nat) (hp : (sramPeek t wa).poison = false)
    (hl : 16 < errSpan (cellsGet 0 t.upsets (wa % 16384))) (hu : errSpan (cellsGet 0 t.upsets (wa % 16384)) ≤ 32) :
    let w : SWord := { data := (sramPeek t wa).data ^^^ (cellsGet 0 t.upsets (wa % 16384)).setWidth 256, poison := true }
    sramRead t wa = (w, poisonStored t wa w) := by
  simp only [sramRead, sramLook_uncorrectable t wa hp hl hu, sramNote]
  rfl

/-- 2A30.04 is an UNSIGNED64 (Table 3-3). -/
theorem objMax_writeBackDrops : objMax 0x2A30 0x04 + 1 = 2 ^ 64 := by decide +kernel

/-- R64: a dropped address is counted in 2A30.04. -/
theorem objGet_wbDrop (t : Nat) (c : Chip) :
    objGet (tileEvent t c .wbDrop) 0x2A30 0x04 0 = (objGet c 0x2A30 0x04 0 + 1) % 2 ^ 64 := by
  rw [tileEvent, objGet_bump_same, objMax_writeBackDrops]

end Sys2Proof.Machine

namespace Sys2Proof.Proofs
open Sys2Proof Sys2Proof.Machine

/-- Settles O17, by the outcome of the burst code: none, a word that stands poisoned, corrected with and without room in the
write-back queue, uncorrectable. -/
theorem sramRead : Obligations.SramRead := by
  unfold Obligations.SramRead
  refine ⟨fun t c => ⟨rfl, objGet_wbDrop t c⟩, fun tl wa hwa => ?_⟩
  have hm : wa % 16384 = wa := Nat.mod_eq_of_lt hwa
  have clean := sramRead_clean tl wa
  have poisoned := sramRead_poisoned tl wa
  have corrected := sramRead_corrected tl wa
  have uncorrectable := sramRead_uncorrectable tl wa
  rw [hm] at clean poisoned corrected uncorrectable
  have port (t : Tile) : portUse false wa t = tileEv (.port false wa) t := portUse_of_lt false t hwa
  refine ⟨fun he hp => ?_, fun hp => ?_, fun hp he hs hroom => ?_, fun hp he hs hfull => ?_, fun hp hl hu => ?_⟩
  · rw [clean he hp, port]
    rfl
  · rw [poisoned hp, port]
    rfl
  · rw [corrected hp he hs, port, queueWriteBack_of_room]
    · rfl
    · exact hroom
  · rw [corrected hp he hs, port, queueWriteBack_of_full]
    · rfl
    · exact hfull
  · rw [uncorrectable hp hl hu]
    refine ⟨rfl, sramPeek_poisonStored _ _ _, rfl, ?_⟩
    rw [poisonStored, port, hm]
    rfl

end Sys2Proof.Proofs

/-! SUPPORT. The control slot: its branches (R76, R77), its ac, and what ENDT leaves (R79). -/

namespace Sys2Proof.Machine

/-! Loops and branches. -/

/-- R76: a count other than 0 pushes the next level; the body starts at the next bundle. -/
theorem loopCtl_push {level : Fin 4} {count : W32} (stop : BitVec 12) {t : Tile} (hl : level.val = t.loops.length) (hc : count ≠ 0) :
    loopCtl level count stop t =
      ({ t with pc := (t.pc + 1) % 4096
                loops := { start := (t.pc + 1) % 4096, stop := stop.toNat, remaining := count.toNat } :: t.loops }, 1) := by
  simp only [loopCtl, hl, hc, ne_eq, not_true_eq_false, if_false]

/-- R76: a count of 0 skips the body, as if its end bundle had been left, in two ac. -/
theorem loopCtl_skip {level : Fin 4} (stop : BitVec 12) {t : Tile} (hl : level.val = t.loops.length) :
    loopCtl level 0 stop t =
      ({ t with loops := (loopEnd t.loops stop.toNat).1, pc := (loopEnd t.loops stop.toNat).2 % 4096 }, 2) := by
  simp only [loopCtl, hl, ne_eq, not_true_eq_false, if_false, if_true]

/-- A branch target is a bundle of the instruction store. -/
theorem takeBranch_target (target : BitVec 12) (t : Tile) :
    takeBranch target.toNat t = acSteps 2 { t with pc := target.toNat } := by
  rw [takeBranch, branchTo, Nat.mod_eq_of_lt target.isLt]

/-! The ac count, and what completing an issued operation keeps. -/

theorem acSteps_ac (n : Nat) (t : Tile) : (acSteps n t).ac = t.ac + n :=
  congrArg (fun p => p.2.2.2.2.2.1) (seq_acSteps n t)

theorem closeBundle_ac (n : Nat) (t : Tile) : (closeBundle n t).ac = t.ac + n + 1 := by
  rw [closeBundle, acSteps_ac, nextPc, Nat.add_comm 1 n, Nat.add_assoc]

theorem acDrain_entry (n : Nat) (t : Tile) : (acDrain n t).entry = t.entry := by
  obtain ⟨k, hk⟩ := seq_acDrain n t
  exact congrArg (fun p => p.2.2.1) hk

theorem acDrain_running (n : Nat) (t : Tile) : (acDrain n t).running = t.running := by
  obtain ⟨k, hk⟩ := seq_acDrain n t
  exact congrArg (fun p => p.2.2.2.2.1) hk

/-! What each operation answers on a ready tile. -/

section Issue
variable {t : Nat} {s : State} (h : TileReady t s)
include h

theorem loop_answers (level : Fin 4) (cnt : Fin 16) (stop : BitVec 12) :
    let r := loopCtl level ((tileAt s.chip t).sregs[cnt]) stop (tileAt s.chip t)
    Answers (.loop t level cnt stop) s (issued s t (acSteps r.2 r.1)) := onTile_issued h _

theorem jump_answers (target : BitVec 12) :
    Answers (.jump t target) s (issued s t (acSteps 2 { tileAt s.chip t with pc := target.toNat })) := by
  rw [← takeBranch_target]
  exact onTile_issued h _

theorem beq_answers (a b : Fin 16) (target : BitVec 12) :
    Answers (.beq t a b target) s (issued s t
      (if (tileAt s.chip t).sregs[a] = (tileAt s.chip t).sregs[b] then acSteps 2 { tileAt s.chip t with pc := target.toNat }
       else closeBundle 0 (tileAt s.chip t))) := by
  rw [← takeBranch_target]
  exact onTile_issued h _

theorem bne_answers (a b : Fin 16) (target : BitVec 12) :
    Answers (.bne t a b target) s (issued s t
      (if (tileAt s.chip t).sregs[a] ≠ (tileAt s.chip t).sregs[b] then acSteps 2 { tileAt s.chip t with pc := target.toNat }
       else closeBundle 0 (tileAt s.chip t))) := by
  rw [← takeBranch_target]
  exact onTile_issued h _

theorem wait_answers (n : BitVec 16) : Answers (.wait t n) s (issued s t (closeBundle n.toNat (tileAt s.chip t))) :=
  onTile_issued h _

theorem endt_answers (e : BitVec 12) :
    Answers (.endt t e) s (issued s t (acDrain drainBound (opEndt e (acStep (tileAt s.chip t))))) := onTile_issued h _

end Issue

end Sys2Proof.Machine

namespace Sys2Proof.Proofs
open Sys2Proof Sys2Proof.Machine

/-- Settles O9, by what each control operation answers on a ready tile. -/
theorem controlOps : Obligations.ControlOps := by
  unfold Obligations.ControlOps
  intro t s h tl
  refine ⟨fun level cnt stop hl => ?_, jump_answers h, fun a b target => ?_, wait_answers h, fun e => ?_,
    fun n v => ⟨acSteps_ac n v, closeBundle_ac n v⟩⟩
  · have hloop := loop_answers h level cnt stop
    constructor
    · intro hc
      rwa [loopCtl_push stop hl hc] at hloop
    · intro hc
      rwa [show (tileAt s.chip t).sregs[cnt] = 0 from hc, loopCtl_skip stop hl] at hloop
  · have hbeq := beq_answers h a b target
    have hbne := bne_answers h a b target
    constructor
    · intro heq
      exact ⟨by rwa [if_pos heq] at hbeq, by rwa [if_neg (not_not_intro heq)] at hbne⟩
    · intro hne
      exact ⟨by rwa [if_pos hne] at hbne, by rwa [if_neg hne] at hbeq⟩
  · exact ⟨_, endt_answers h e, acDrain_entry _ _, acDrain_running _ _⟩

end Sys2Proof.Proofs

/-! SUPPORT. The SDIO card: what it answers while it is not alive, alive, and selected (R376-R380, R383). -/

namespace Sys2Proof.Machine

/-! How a command that acts on the module answers. -/

theorem gives_onChip {i : Instr} {s : State} {f : Chip → Chip} {P : State → Prop} (hx : exec i s = onChip f s)
    (hP : P (onto s (f s.chip))) : Gives i s P := ⟨_, hx, hP⟩

theorem answers_onChip {i : Instr} {s : State} {f : Chip → Chip} {c : Chip} (hx : exec i s = onChip f s) (hc : f s.chip = c) :
    Answers i s (onto s c) := by
  subst hc
  exact hx

/-- A command whose meaning leaves card k with answer a is answered with a. -/
theorem tells_onChip {i : Instr} {s : State} {f : Chip → Chip} {a : CardAns} {k : CardSt} (hx : exec i s = onChip f s)
    (hf : (f s.chip).card = { k with answer := a }) : Gives i s fun s' => s'.chip.card = { k with answer := a } :=
  gives_onChip hx ((settle_card _).trans hf)

/-! The card's commands (R376, R377, R380). -/

section Card
variable {c : Chip}

theorem onCard_alive (f : Chip → Chip) (h : cardAlive c = true) : onCard f c = f c := if_pos h

theorem onCard_dead (f : Chip → Chip) (h : cardAlive c = false) : onCard f c = answer .silent c := if_neg (by simp [h])

theorem onSelected_dead (f : Chip → Chip) (h : cardAlive c = false) : onSelected f c = answer .silent c := onCard_dead _ h

theorem onSelected_selected (f : Chip → Chip) (h : cardAlive c = true) (hs : c.card.selected = true) : onSelected f c = f c :=
  (onCard_alive _ h).trans (if_pos hs)

theorem cmd52_notReady (w raw : Bool) {fn : Nat} (a : Nat) (v : Byte) (h : cardAlive c = true) (hs : c.card.selected = true)
    (hr : functionReady c fn = false) : cmd52 w raw fn a v c = answer (.r5 .function []) c := by
  rw [cmd52, onSelected_selected _ h hs, hr]
  rfl

theorem cmd52_read (raw : Bool) {fn a : Nat} (v : Byte) (h : cardAlive c = true) (hs : c.card.selected = true)
    (hr : functionReady c fn = true) (ha : a < 0x20000) : cmd52 false raw fn a v c = answer (.r5 .ok [fnByte c fn a]) c := by
  rw [cmd52, onSelected_selected _ h hs, hr, Nat.mod_eq_of_lt ha]
  rfl

theorem cmd52_write {fn a : Nat} (v : Byte) (h : cardAlive c = true) (hs : c.card.selected = true)
    (hr : functionReady c fn = true) (ha : a < 0x20000) : cmd52 true false fn a v c = answer (.r5 .ok [v]) (fnWrite fn a v c) := by
  rw [cmd52, onSelected_selected _ h hs, hr, Nat.mod_eq_of_lt ha]
  rfl

theorem val_beq_one (fn : Fin 8) : (fn.val == 1) = (fn == 1) := by
  revert fn
  decide

section Cmd53
variable {fn : Nat} {block incr : Bool} {count : Nat} (a : Nat) (data : List Byte) (h : cardAlive c = true) (hs : c.card.selected = true)
include h hs

theorem cmd53_notReady (w : Bool) (hr : functionReady c fn = false) :
    cmd53 w block incr fn a count data c = answer (.r5 .function []) c := by
  rw [cmd53, onSelected_selected _ h hs, hr]
  rfl

theorem cmd53_illegal (w : Bool) (hr : functionReady c fn = true) (hl : cmd53Length c fn block incr count = none) :
    cmd53 w block incr fn a count data c = answer (.r5 .illegal []) c := by
  rw [cmd53, onSelected_selected _ h hs, hr, hl]
  rfl

variable {n : Nat} (hr : functionReady c fn = true) (hl : cmd53Length c fn block incr count = some n)
include hr hl

theorem cmd53_read : cmd53 false block incr fn a count data c =
    answer (.r5 .ok ((List.range n).map (fun i => fnByte c fn ((a + i) % 0x20000)))) { c with card := { c.card with transfer := false } } := by
  rw [cmd53, onSelected_selected _ h hs, hr, hl]
  rfl

theorem cmd53_partial (hd : data.length < n) : cmd53 true block incr fn a count data c =
    answer (.r5 .ok []) { c with card := { c.card with transfer := fn == 1 } } := by
  rw [cmd53, onSelected_selected _ h hs, hr, hl]
  exact if_pos hd

theorem cmd53_write (hd : n ≤ data.length) : cmd53 true block incr fn a count data c =
    answer (.r5 .ok []) (fnWriteRun fn a (data.take n) { c with card := { c.card with transfer := false } }) := by
  rw [cmd53, onSelected_selected _ h hs, hr, hl]
  exact if_neg hd.not_gt

end Cmd53

end Card

end Sys2Proof.Machine

namespace Sys2Proof.Proofs
open Sys2Proof Sys2Proof.Machine

/-- Settles O58, by the state of the card (not alive, alive, selected) and, for CMD52 and CMD53, by what the function and the
length allow. -/
theorem cardCommands : Obligations.CardCommands := by
  unfold Obligations.CardCommands
  intro s
  refine ⟨tells_onChip rfl rfl, fun hd i hi => ?_, fun h => ⟨tells_onChip rfl ?_, tells_onChip rfl ?_, tells_onChip rfl ?_,
    fun a => ⟨fun ha => ⟨tells_onChip rfl ?_, tells_onChip rfl ?_⟩, fun ha => ⟨tells_onChip rfl ?_, tells_onChip rfl ?_⟩⟩,
    answers_onChip rfl (if_pos h), answers_onChip rfl (if_pos h), fun _ => rfl, fun _ => rfl, fun hs => ⟨tells_onChip rfl ?_, ?_⟩⟩⟩
  · simp only [List.mem_cons, List.not_mem_nil, or_false] at hi
    rcases hi with rfl | rfl | rfl | rfl
    · exact tells_onChip rfl (by rw [cmd3, onCard_dead _ hd]; rfl)
    · exact tells_onChip rfl (by rw [cmd5, onCard_dead _ hd]; rfl)
    · exact tells_onChip rfl (by rw [onCard_dead _ hd]; rfl)
    · exact tells_onChip rfl (by rw [onSelected_dead _ hd]; rfl)
  · rw [cmd3, onCard_alive _ h]; rfl
  · rw [cmd5, onCard_alive _ h]; rfl
  · rw [onCard_alive _ h]; rfl
  · rw [cmd7, onCard_alive _ h, if_pos ha]; rfl
  · rw [cmd15, onCard_alive _ h, if_pos ha]; rfl
  · rw [cmd7, onCard_alive _ h, if_neg ha]; rfl
  · rw [cmd15, onCard_alive _ h, if_neg ha]; rfl
  · rw [onSelected_selected _ h hs]; rfl
  intro w raw fn a v block incr count data
  refine ⟨fun hr => ⟨tells_onChip rfl ?_, tells_onChip rfl ?_⟩, fun hr => ⟨tells_onChip rfl ?_, answers_onChip rfl ?_,
    fun hl => tells_onChip rfl ?_, fun n hl => ⟨tells_onChip rfl ?_, fun hd => tells_onChip rfl ?_, fun hd => answers_onChip rfl ?_⟩⟩⟩
  · rw [cmd52_notReady w raw _ v h hs hr]; rfl
  · rw [cmd53_notReady _ data h hs w hr]; rfl
  · rw [cmd52_read raw v h hs hr a.isLt]; rfl
  · exact cmd52_write v h hs hr a.isLt
  · rw [cmd53_illegal _ data h hs w hr hl]; rfl
  · rw [cmd53_read _ data h hs hr hl]; rfl
  · rw [cmd53_partial _ data h hs hr hl hd]
    exact congrArg (fun b => { s.chip.card with answer := .r5 .ok [], transfer := b }) (val_beq_one fn)
  · exact cmd53_write _ data h hs hr hl hd

end Sys2Proof.Proofs

/-! SUPPORT. The window: the take of a request, the operations of a request taken, the response (R384-R389). -/

namespace Sys2Proof.Machine

theorem onto_of_clear {s : State} {c : Chip} (h : c.dict.relatch = false) : onto s c = { s with chip := c } := settle_of_clear h

/-! What a settled state keeps of the window: all but the STATE byte. -/

theorem settle_win (s : State) : (settle s).chip.win = { s.chip.win with stateByte := (settle s).chip.win.stateByte } := by
  unfold settle
  split
  · rfl
  · rfl

@[simp] theorem settle_win_respReady (s : State) : (settle s).chip.win.respReady = s.chip.win.respReady := by rw [settle_win]
@[simp] theorem settle_win_busy (s : State) : (settle s).chip.win.busy = s.chip.win.busy := by rw [settle_win]
@[simp] theorem settle_win_resp (s : State) : (settle s).chip.win.resp = s.chip.win.resp := by rw [settle_win]
@[simp] theorem settle_win_taken (s : State) : (settle s).chip.win.taken = s.chip.win.taken := by rw [settle_win]

/-- A command whose meaning leaves window w leaves it but for the STATE byte. -/
theorem window_onChip {i : Instr} {s : State} {f : Chip → Chip} {w : WindowSt} (hx : exec i s = onChip f s) (hw : (f s.chip).win = w) :
    Gives i s fun s' => s'.chip.win = { w with stateByte := s'.chip.win.stateByte } :=
  gives_onChip hx (by subst hw; exact settle_win _)

/-! A response (R385, R387, Table 12-6): 32 bytes, STATUS and DETAIL first, then the data. -/

theorem respond_data (q : Request) (res : Res) (type : Nat) (last pend : Bool) (data : List Byte) (c : Chip) :
    (respond q res type last pend data c).win.resp.drop 32 = data := by
  dsimp only [respond]
  exact List.drop_left' (by simp)

/-! The take of a request (R387, R388). -/

/-- R388 as a list of its reserved cases. -/
theorem frameBad_of_reserved {f : Request} (h : f.op = 0 ∨ 4 < f.op ∨ 2 < f.role ∨ (f.role = 1 ∧ (f.tenant = 0 ∨ 4095 < f.tenant)) ∨
    (f.role ≠ 1 ∧ f.tenant ≠ 0) ∨ 1 < f.flags ∨ ((f.op = 1 ∨ f.op = 2) ∧ f.offset ≠ 0) ∨ 8176 < f.length) : frameBad f = true := by
  unfold frameBad
  split
  · simp only [Bool.or_eq_true, Bool.and_eq_true, decide_eq_true_eq]
    omega
  · simp only [Bool.or_eq_true, Bool.and_eq_true, decide_eq_true_eq]
    omega

/-- A request stands in the buffer and can be taken. -/
def canTake (c : Chip) : Prop := c.win.go = true ∧ c.win.busy = false ∧ dictServes c = true

/-- The module with the request in the buffer taken. -/
def withTaken (c : Chip) : Chip :=
  { c with win := { c.win with go := false, busy := true, overrun := false, respReady := false, taken := some (frameOf c) } }

theorem requestTake_of_canTake {c : Chip} (h : canTake c) :
    requestTake c = if frameBad (frameOf c) then respond (frameOf c) resReserved 0 true false [] (withTaken c) else withTaken c := by
  obtain ⟨hg, hb, hd⟩ := h
  unfold requestTake
  rw [if_neg (by simp [hg, hb, hd])]
  rfl

/-! Operations of a request taken (R387, R389). -/

theorem winRead_error {img c : Chip} {q : Request} {e : Res} (hq : takenOp c 1 = some q)
    (hr : dictRead img c (roleOf q) q.idx q.sub = .error e) : winRead img c = respond q e (typeOf q.idx q.sub) true false [] c := by
  simp only [winRead, hq, hr]

theorem winRead_ok {img c : Chip} {q : Request} {row : ObjRow} {n : Nat} {v : List Byte} (hq : takenOp c 1 = some q)
    (hr : dictRead img c (roleOf q) q.idx q.sub = .ok (row, n, v)) (hv : v.length ≤ 8176) :
    winRead img c = respond q resOk (typeOf q.idx q.sub) true (writePends c (okey q.idx q.sub n)) v c := by
  simp only [winRead, hq, hr, if_neg hv.not_gt]

theorem winRead_long {img c : Chip} {q : Request} {row : ObjRow} {n : Nat} {v : List Byte} (hq : takenOp c 1 = some q)
    (hr : dictRead img c (roleOf q) q.idx q.sub = .ok (row, n, v)) (hv : 8176 < v.length) :
    winRead img c = respond q resLength (typeOf q.idx q.sub) true false [] c := by
  simp only [winRead, hq, hr, if_pos hv]

theorem winWriteOp_taken {c : Chip} {q : Request} (img : Chip) (hq : takenOp c 2 = some q) : winWriteOp img c = answerWrite q img q.data c := by
  simp only [winWriteOp, hq]

theorem winReadSeg_first {img c : Chip} {q : Request} {row : ObjRow} {n : Nat} {v : List Byte} (hq : takenOp c 3 = some q)
    (hr : dictRead img c (roleOf q) q.idx q.sub = .ok (row, n, v)) (ho : q.offset = 0) :
    winReadSeg img c = sendSegment q (roleOf q) (okey q.idx q.sub n) v c := by
  simp only [winReadSeg, hq, hr, if_pos ho]

/-- A first segment that is not the last: what has come of the value is kept in the role's context. -/
theorem winWriteSeg_first {img c : Chip} {q : Request} {row : ObjRow} (hq : takenOp c 4 = some q)
    (hf : findRow img c (roleOf q) q.idx q.sub true = .ok row) (ho : q.offset = 0)
    (hm : mayReach img c (roleOf q) row q.idx (instOf q.idx (ctxVal c (roleOf q))) true = true) (hl : bitOf q.flags 0 = false) :
    let key := okey q.idx q.sub (instOf q.idx (ctxVal c (roleOf q)))
    winWriteSeg img c = respond q resOk (typeOf q.idx q.sub) false (writePends c key) []
      (setCtx (roleOf q) { ctxOf c (roleOf q) with wseg := some { key := key, data := q.data, t := c.tk.now } } c) := by
  simp only [winWriteSeg, hq, hf, hm, hl, ho, if_true, Bool.not_true, Bool.false_eq_true, if_false, List.nil_append]

/-! Access contexts. -/

@[simp] theorem ctxOf_setCtx (r : Role) (a : AccessCtx) (c : Chip) : ctxOf (setCtx r a c) r = a := by simp [ctxOf, setCtx]

/-- An update that keeps the access contexts keeps every role's context. -/
theorem ctxOf_of_ctxs {c c' : Chip} (h : c'.dict.ctxs = c.dict.ctxs) (r : Role) : ctxOf c' r = ctxOf c r := by rw [ctxOf, ctxOf, h]

@[simp] theorem ctxOf_settle (s : State) (r : Role) : ctxOf (settle s).chip r = ctxOf s.chip r := ctxOf_of_ctxs (settle_dict_ctxs s) r

theorem copyExpiry_past {c : Chip} {r : Role} {v : SegCopy} (hv : (ctxOf c r).copy = some v) (ht : v.t + 1000000000 < c.tk.now) :
    copyExpiry r c = setCopy r none c := by
  simp only [copyExpiry, hv, if_pos ht]

end Sys2Proof.Machine

namespace Sys2Proof.Proofs
open Sys2Proof Sys2Proof.Machine

/-- Settles O59, by the row that each operation of the window answers with. -/
theorem windowRequests : Obligations.WindowRequests := by
  unfold Obligations.WindowRequests
  intro s t
  refine ⟨fun ha => ⟨fun hb => ?_, fun hb => ?_, ?_⟩, fun hg hb hd => ⟨fun hf => ?_, fun f hf hbad hr => ?_⟩,
    fun q hq => ⟨fun e he => ?_, fun row n v hv => ⟨fun hl => ?_, fun hl => ?_⟩⟩, fun q hq => ?_, fun q row n v hq hv ho => ?_,
    fun q row hq hrow ho hm hl => ?_, fun r v hv ht => ?_⟩
  · refine window_onChip (w := { s.chip.win with overrun := true }) rfl ?_
    rw [if_pos ha, winGo, if_pos hb]
  · refine window_onChip (w := { s.chip.win with go := true }) rfl ?_
    rw [if_pos ha, winGo, if_neg (by simp [hb])]
  · refine window_onChip (w := { s.chip.win with respReady := false }) rfl ?_
    rw [if_pos ha]
    rfl
  · refine window_onChip (w := (withTaken s.chip).win) rfl ?_
    rw [requestTake_of_canTake ⟨hg, hb, hd⟩, hf]
    rfl
  · subst hf
    refine gives_onChip (f := requestTake) rfl ?_
    rw [requestTake_of_canTake ⟨hg, hb, hd⟩, if_pos (frameBad_of_reserved hbad), onto_of_clear]
    swap
    · exact hr
    exact ⟨rfl, rfl, rfl⟩
  · exact answers_onChip rfl (winRead_error hq he)
  · refine gives_onChip (f := winRead (dictImage s)) rfl ?_
    rw [winRead_ok hq hv hl]
    simp only [onto, settle_win_respReady, settle_win_busy, settle_win_resp, settle_dict_lastRes, settle_objs, respond_data]
    exact ⟨rfl, rfl, rfl, trivial, rfl, rfl⟩
  · exact answers_onChip rfl (winRead_long hq hv hl)
  · refine gives_onChip (f := winWriteOp (dictImage s)) rfl ?_
    rw [winWriteOp_taken _ hq]
    simp only [onto, settle_win_respReady, settle_win_busy, settle_dict_lastRes, settle_objs]
    exact ⟨rfl, rfl, rfl, rfl⟩
  · refine gives_onChip (f := fun c => winReadSeg (dictImage s) (atTime t c)) rfl ?_
    rw [winReadSeg_first hq hv ho]
    simp only [onto, settle_dict_lastData, settle_win_busy, settle_dict_lastRes]
    refine ⟨?_, rfl, rfl⟩
    show (v.drop q.offset).take q.length = _
    rw [ho, List.drop_zero]
  · refine gives_onChip (f := fun c => winWriteSeg (dictImage s) (atTime t c)) rfl ?_
    rw [winWriteSeg_first hq hrow ho hm hl]
    simp only [onto, settle_dict_lastRes, settle_objs, ctxOf_settle]
    refine ⟨?_, rfl, rfl⟩
    exact congrArg (·.wseg.map (·.data)) (ctxOf_setCtx _ _ _)
  · refine gives_onChip (f := fun c => copyExpiry r (atTime t c)) rfl ?_
    rw [copyExpiry_past (c := atTime t s.chip) hv (ht.trans_le (le_max_right _ _)), onto, ctxOf_settle]
    exact congrArg (·.copy) (ctxOf_setCtx _ _ _)

end Sys2Proof.Proofs

/-! SUPPORT. Restarts of a component, resets of the complex, the registers rebuilt and the log's mirror (R390, R408-R412, R458). -/

namespace Sys2Proof.Machine

/-! What an update keeps of the object store. -/

/-- The objects that p marks, by index and sub-index, read in c' as in c. -/
def KeepsObjs (p : Nat → Nat → Bool) (c c' : Chip) : Prop := ∀ i k n, p i (k % 256) = true → objGet c' i k n = objGet c i k n

section Keeps
variable {p q : Nat → Nat → Bool} {c c' c'' : Chip}

theorem KeepsObjs.of_objs (h : c'.objs = c.objs) : KeepsObjs p c c' := fun i k n _ => objGet_of_objs h i k n

theorem KeepsObjs.refl (c : Chip) : KeepsObjs p c c := .of_objs rfl

theorem KeepsObjs.trans (h : KeepsObjs p c c') (h' : KeepsObjs p c' c'') : KeepsObjs p c c'' :=
  fun i k n hp => (h' i k n hp).trans (h i k n hp)

theorem KeepsObjs.weaken (h : KeepsObjs p c c') (hq : ∀ i k, q i k = true → p i k = true) : KeepsObjs q c c' :=
  fun i k n hp => h i k n (hq _ _ hp)

theorem KeepsObjs.foldl {α : Type} (f : Chip → α → Chip) (hf : ∀ c a, KeepsObjs p c (f c a)) (l : List α) (c : Chip) :
    KeepsObjs p c (l.foldl f c) := by
  induction l generalizing c with
  | nil => exact .refl c
  | cons a l ih => exact (hf c a).trans (ih _)

/-- A marked object and an unmarked one are different entries. -/
theorem okey_ne_of_marked {i k n i' k' n' : Nat} (h : p i (k % 256) = true) (h' : p i' (k' % 256) = false) : okey i k n ≠ okey i' k' n' := by
  by_cases hi : i = i'
  · subst hi
    exact okey_ne_sub fun hk => by simp [hk, h'] at h
  · exact okey_ne_idx hi

theorem KeepsObjs.set {i k n v : Nat} (h : KeepsObjs p c c') (hp : p i (k % 256) = false) : KeepsObjs p c (objSet i k n v c') :=
  h.trans fun _ _ _ hm => objGet_set_ne c' v (okey_ne_of_marked hm hp)

theorem KeepsObjs.bump {i k n v : Nat} (h : KeepsObjs p c c') (hp : p i (k % 256) = false) : KeepsObjs p c (objBump i k n v c') := h.set hp

theorem KeepsObjs.bumpSat {i k n v : Nat} (h : KeepsObjs p c c') (hp : p i (k % 256) = false) : KeepsObjs p c (objBumpSat i k n v c') :=
  h.set hp

theorem KeepsObjs.blob {i k n : Nat} {v : List Byte} (h : KeepsObjs p c c') : KeepsObjs p c (blobSet i k n v c') := h.trans (.of_objs rfl)

theorem KeepsObjs.post {i k n v : Nat} (h : KeepsObjs p c c') (hp : p i (k % 256) = false) : KeepsObjs p c (postStatus i k n v c') :=
  h.trans fun _ _ _ hm => objGet_postStatus_ne c' v (okey_ne_of_marked hm hp)

/-- A log record writes the log's objects 2A00 and the log component's count of dropped messages 2811.06. -/
theorem KeepsObjs.log {sv sr : Nat} {e : LogEv} {ids : List Nat} (h : KeepsObjs p c c') (hlog : ∀ k, p 0x2A00 k = false)
    (hdrop : p 0x2811 6 = false) : KeepsObjs p c (logRec sv sr e ids c') :=
  h.trans fun _ _ _ hm => objGet_logRec c' sv sr e ids (okey_ne_of_marked hm (hlog _)) (okey_ne_of_marked hm (hlog _))
    (okey_ne_of_marked hm (hlog _)) (okey_ne_of_marked hm hdrop)

end Keeps

/-! The parts of the module that restarts and resets of the complex speak of. -/

/-- Time, the window, the data plane, the security state, the dictionary server's contexts, groups and waiting writes, and which
components restart. -/
structure RestartView where
  tk : TickSt
  win : WindowSt
  grid : Grid
  hbm : HbmSt
  plan : PlanSt
  sec : SecSt
  ctxs : Cells AccessCtx
  groups : Vector SnapGroup 8
  pendingW : List PendingWrite
  restarting : List Nat
  down : Bool

/-- These parts of a module. -/
def restartView (c : Chip) : RestartView :=
  { tk := c.tk, win := c.win, grid := c.grid, hbm := c.hbm, plan := c.plan, sec := c.sec, ctxs := c.dict.ctxs, groups := c.dict.groups
    pendingW := c.dict.pendingW, restarting := c.fw.restarting, down := c.fw.down }

@[simp] theorem restartView_objSet (i k n v : Nat) (c : Chip) : restartView (objSet i k n v c) = restartView c := rfl
@[simp] theorem restartView_objBump (i k n v : Nat) (c : Chip) : restartView (objBump i k n v c) = restartView c := rfl
@[simp] theorem restartView_breakUpd (n : Nat) (c : Chip) : restartView (breakUpd n c) = restartView c := rfl

@[simp] theorem restartView_postStatus (i k n v : Nat) (c : Chip) : restartView (postStatus i k n v c) = restartView c := by
  dsimp only [postStatus]
  split <;> rfl

@[simp] theorem restartView_logRec (sv sr : Nat) (e : LogEv) (ids : List Nat) (c : Chip) : restartView (logRec sv sr e ids c) = restartView c := by
  dsimp only [logRec]
  split_ifs <;> rfl

@[simp] theorem restartView_setClass (m : Nat) (on : Bool) (c : Chip) : restartView (setClass m on c) = restartView c := by
  dsimp only [setClass]
  split_ifs
  · rfl
  · exact restartView_logRec _ _ _ _ _
  · exact restartView_logRec _ _ _ _ _

/-- A fold of updates that leave these parts alone leaves them alone. -/
theorem restartView_foldl {α : Type} (f : Chip → α → Chip) (hf : ∀ c a, restartView (f c a) = restartView c) (l : List α) (c : Chip) :
    restartView (l.foldl f c) = restartView c := by
  induction l generalizing c with
  | nil => rfl
  | cons a l ih => exact (ih _).trans (hf c a)

/-! The objects that a restart or a reset of the complex leaves as its record. -/

/-- What tells of restarts: the components' objects but for the dropped messages, the complex's but for the count of its resets,
and the identity status. -/
def restartRecord (i k : Nat) : Bool := (i == 0x2811 && k != 6) || (i == 0x2812 && k != 2) || (i == 0x2700 && k == 1)
/-- The complex's own part of it: working cores and cause of the last reset. -/
def coreRecord (i k : Nat) : Bool := i == 0x2812 && k != 2

theorem KeepsObjs.core {c c' : Chip} (h : KeepsObjs restartRecord c c') : KeepsObjs coreRecord c c' :=
  h.weaken fun i k hk => by simp_all [coreRecord, restartRecord]

section Record
variable {c c' : Chip}

theorem KeepsObjs.record (h : KeepsObjs restartRecord c c') {sv sr : Nat} {e : LogEv} {ids : List Nat} :
    KeepsObjs restartRecord c (logRec sv sr e ids c') := h.log (fun _ => rfl) rfl

theorem KeepsObjs.cls {m : Nat} {on : Bool} (h : KeepsObjs restartRecord c c') : KeepsObjs restartRecord c (setClass m on c') := by
  refine h.trans ?_
  dsimp only [setClass]
  split_ifs
  · exact .refl c'
  · exact .record (.set (.set (.set (.bumpSat (.set (.set (.set (.refl c') rfl) rfl) rfl) rfl) rfl) rfl) rfl)
  · exact .record (.set (.set (.refl c') rfl) rfl)

end Record

/-! Firmware slots as the dictionary shows them, and a PROGRAM that a restart ends (R427). -/

@[simp] theorem restartView_showComp (c : Chip) (n : Nat) : restartView (showComp c n) = restartView c := rfl

theorem keepsObjs_showComp (c : Chip) (n : Nat) : KeepsObjs restartRecord c (showComp c n) :=
  .blob (.set (.set (.set (.set (.set (.set (.set (.set (.refl c) rfl) rfl) rfl) rfl) rfl) rfl) rfl) rfl)

@[simp] theorem restartView_fwShow (c : Chip) : restartView (fwShow c) = restartView c := by
  simp only [fwShow, restartView_objSet]
  exact restartView_foldl _ restartView_showComp (List.range 5) c

theorem keepsObjs_fwShow (c : Chip) : KeepsObjs restartRecord c (fwShow c) :=
  .set (.set (.foldl _ keepsObjs_showComp (List.range 5) c) rfl) rfl

@[simp] theorem restartView_useHandle (h : Nat) (use : Bool) (c : Chip) : restartView (useHandle h use c) = restartView c := by
  unfold useHandle
  split <;> rfl

theorem useHandle_objs (h : Nat) (use : Bool) (c : Chip) : (useHandle h use c).objs = c.objs := by
  unfold useHandle
  split <;> rfl

/-- The slot that a PROGRAM was writing is erased and its command posted as timed out. -/
def slotDropped (u : Update) (c : Chip) : Chip :=
  modComp u.component (fun k => setFwSlot k u.slot {}) (postStatus 0x2801 0x0A u.component stTimeout c)

/-- The same with its staging handle given back and the update gone. -/
def updateDropped (u : Update) (c : Chip) : Chip :=
  let d := (cellsFind (slotDropped u c).fw.handles u.component).elim (slotDropped u c) (fun h => useHandle h false (slotDropped u c))
  dropUpd u.component { d with fw := { d.fw with handles := cellsDrop d.fw.handles u.component } }

theorem programLost_eq (c : Chip) :
    programLost c = (c.fw.updates.find? (fun u => u.phase == .programming)).elim c (fun u => fwShow (updateDropped u c)) := by
  unfold programLost
  cases c.fw.updates.find? (fun u => u.phase == .programming) <;> rfl

theorem restartView_updateDropped (u : Update) (c : Chip) : restartView (updateDropped u c) = restartView c := by
  have hslot : restartView (slotDropped u c) = restartView c := restartView_postStatus _ _ _ _ c
  unfold updateDropped
  cases cellsFind (slotDropped u c).fw.handles u.component with
  | none => exact hslot
  | some h => exact (restartView_useHandle h false _).trans hslot

theorem keepsObjs_updateDropped (u : Update) (c : Chip) : KeepsObjs restartRecord c (updateDropped u c) := by
  have hpost : KeepsObjs restartRecord c (postStatus 0x2801 0x0A u.component stTimeout c) := .post (.refl c) rfl
  unfold updateDropped
  cases cellsFind (slotDropped u c).fw.handles u.component with
  | none => exact hpost.trans (.of_objs rfl)
  | some h => exact hpost.trans (.of_objs (useHandle_objs h false (slotDropped u c)))

@[simp] theorem restartView_programLost (c : Chip) : restartView (programLost c) = restartView c := by
  rw [programLost_eq]
  cases c.fw.updates.find? (fun u => u.phase == .programming) with
  | none => rfl
  | some u => exact (restartView_fwShow (updateDropped u c)).trans (restartView_updateDropped u c)

theorem keepsObjs_programLost (c : Chip) : KeepsObjs restartRecord c (programLost c) := by
  rw [programLost_eq]
  cases c.fw.updates.find? (fun u => u.phase == .programming) with
  | none => exact .refl c
  | some u => exact (keepsObjs_updateDropped u c).trans (keepsObjs_fwShow (updateDropped u c))

/-! Keys erased (R326). -/

theorem setKey_none (kind scope gen : Nat) (c : Chip) : ∃ o,
    setKey kind scope gen none c = { c with objs := o, sec := { c.sec with keys := cellsDrop c.sec.keys (keyId kind scope gen) } } := by
  dsimp only [setKey, showKey]
  split <;> exact ⟨_, rfl⟩

theorem keepsObjs_setKey (kind scope gen : Nat) (k : Option KeyPos) (c : Chip) : KeepsObjs restartRecord c (setKey kind scope gen k c) := by
  have hkeys (keys : Cells KeyPos) : KeepsObjs restartRecord c { c with sec := { c.sec with keys := keys } } := .of_objs rfl
  dsimp only [setKey, showKey]
  split
  · exact (hkeys _).set rfl
  · exact (hkeys _).set rfl

/-- A key's number gives back the position it was made of. -/
theorem keyId_parts (k : Nat) : keyId (k / 2 / 65536) (k / 2 % 65536) (k % 2) = k := by
  unfold keyId
  omega

theorem foldl_setKey_none (l : List Nat) (c : Chip) : ∃ o,
    l.foldl (fun c k => setKey (k / 2 / 65536) (k / 2 % 65536) (k % 2) none c) c =
      { c with objs := o, sec := { c.sec with keys := l.foldl cellsDrop c.sec.keys } } := by
  induction l generalizing c with
  | nil => exact ⟨_, rfl⟩
  | cons k l ih =>
    obtain ⟨o, ho⟩ := setKey_none (k / 2 / 65536) (k / 2 % 65536) (k % 2) c
    rw [keyId_parts] at ho
    rw [List.foldl_cons, ho]
    exact ih _

theorem mem_foldl_cellsDrop {α : Type} {l : List Nat} {m : Cells α} {e : Nat × α} (h : e ∈ l.foldl cellsDrop m) : e ∈ m ∧ e.1 ∉ l := by
  induction l generalizing m with
  | nil => exact ⟨h, List.not_mem_nil⟩
  | cons k l ih =>
    obtain ⟨hm, hl⟩ := ih h
    simp only [cellsDrop, List.mem_filter, bne_iff_ne] at hm
    exact ⟨hm.1, List.not_mem_cons_of_ne_of_not_mem hm.2 hl⟩

/-- Dropping every key of a table leaves it empty. -/
theorem foldl_cellsDrop_keys {α : Type} (m : Cells α) : (m.map (·.1)).foldl cellsDrop m = [] := by
  refine List.eq_nil_iff_forall_not_mem.2 fun e he => ?_
  obtain ⟨hm, hl⟩ := mem_foldl_cellsDrop he
  exact hl (List.mem_map_of_mem hm)

theorem eraseKeys_eq (c : Chip) : ∃ o,
    eraseKeys c = { c with objs := o, sec := { c.sec with keys := [], installs := [], sweeps := [] } } := by
  obtain ⟨o, ho⟩ := foldl_setKey_none (c.sec.keys.map (·.1)) c
  rw [foldl_cellsDrop_keys] at ho
  unfold eraseKeys
  dsimp only
  rw [ho]
  exact ⟨o, rfl⟩

theorem restartView_eraseKeys (c : Chip) :
    restartView (eraseKeys c) = { restartView c with sec := { c.sec with keys := [], installs := [], sweeps := [] } } := by
  obtain ⟨o, ho⟩ := eraseKeys_eq c
  rw [ho]
  rfl

theorem keepsObjs_eraseKeys (c : Chip) : KeepsObjs restartRecord c (eraseKeys c) :=
  .trans (.foldl _ (fun c _ => keepsObjs_setKey _ _ _ _ c) (c.sec.keys.map (·.1)) c) (.of_objs rfl)

/-! Measurement registers (R318, R319). -/

theorem restartView_setMeas (n : Nat) (v : BitVec 256) (c : Chip) : restartView (setMeas n v c) = restartView c := rfl

theorem keepsObjs_setMeas (n : Nat) (v : BitVec 256) (c : Chip) : KeepsObjs restartRecord c (setMeas n v c) := .set (.refl c) rfl

theorem restartView_zeroMeas (c : Chip) :
    restartView (zeroMeas c) = { restartView c with sec := { (restartView c).sec with mlog := [], truncated := false } } := by
  simp only [zeroMeas, restartView_objSet, restartView_objBump]
  exact restartView_foldl _ (fun c n => restartView_setMeas n 0 c) _ _

theorem keepsObjs_zeroMeas (c : Chip) : KeepsObjs restartRecord c (zeroMeas c) := by
  have hsec : KeepsObjs restartRecord c { c with sec := { c.sec with mlog := [], truncated := false } } := .of_objs rfl
  exact .set (.bump (hsec.trans (.foldl _ (fun c n => keepsObjs_setMeas n 0 c) (List.range 16) _)) rfl) rfl

/-! A reset of the complex (R410, R458) by its steps. -/

/-- The identity and the capture data of a pair go. -/
def identityLost (c : Chip) : Chip :=
  let pr := c.link.pair
  let c := objBump 0x2621 0x03 0 pr.arriving.length { c with link := { c.link with pair := { pr with sending := [], arriving := [] } } }
  { c with sec := { c.sec with seed := none, rebuilding := true, restarting := false } }

/-- The components' restarts and dropped messages are counted from zero. -/
def countsCleared (c : Chip) : Chip :=
  (List.range 8).foldl (fun c i => objSet 0x2811 0x01 i 0 (objSet 0x2811 0x02 i 0 (objSet 0x2811 0x06 i 0 c))) c

/-- The complex is down; the log, the readings and the calendar start again. -/
def complexDown (c : Chip) : Chip :=
  { c with fw := { c.fw with down := true, downAt := c.tk.now, dark := false, restarts := [], restarting := [] }
           log := { c.log with ring := [], next := 0, mirrored := 0, mirrorDue := false }
           power := { c.power with needed := 1, fresh := 0, stale := false, inRow := 0, outlets := [], flows := [] }
           life := { c.life with calendar := none, tray := none } }

/-- What a reset of the complex loses. -/
def lostInReset (c : Chip) : Chip := zeroMeas (identityLost (dictLost (programLost (eraseKeys c))))

/-- The complex as it starts again. -/
def startedAfresh (c : Chip) : Chip :=
  showUnsettled (objSet 0x2901 0x04 0 allOnes64 (objSet 0x2A00 0x02 0 0 (complexDown (countsCleared c))))

theorem complexReset_eq (cause : Nat) (c : Chip) :
    complexReset cause c = startedAfresh (objBump 0x2812 0x02 0 1 (objSet 0x2812 0x03 0 cause (lostInReset c))) := rfl

theorem restartView_dictLost (c : Chip) : restartView (dictLost c) =
    { restartView c with win := { (restartView c).win with taken := none, busy := false }, ctxs := [], groups := Vector.replicate 8 {} } := rfl

theorem restartView_identityLost (c : Chip) : restartView (identityLost c) =
    { restartView c with sec := { (restartView c).sec with seed := none, rebuilding := true, restarting := false } } := rfl

theorem restartView_countsCleared (c : Chip) : restartView (countsCleared c) = restartView c := by
  unfold countsCleared
  exact restartView_foldl _ (by intros; rfl) _ c

theorem restartView_complexDown (c : Chip) : restartView (complexDown c) = { restartView c with restarting := [], down := true } := rfl

theorem restartView_complexReset (cause : Nat) (c : Chip) : restartView (complexReset cause c) =
    { restartView c with
      win := { c.win with taken := none, busy := false }, ctxs := [], groups := Vector.replicate 8 {}, restarting := [], down := true
      sec := { c.sec with keys := [], installs := [], sweeps := [], seed := none, rebuilding := true, restarting := false, mlog := []
                          truncated := false } } := by
  simp only [complexReset_eq, startedAfresh, showUnsettled, lostInReset, restartView_objSet, restartView_objBump, restartView_complexDown,
    restartView_countsCleared, restartView_zeroMeas, restartView_identityLost, restartView_dictLost, restartView_programLost,
    restartView_eraseKeys]
  rfl

theorem keepsObjs_lostInReset (c : Chip) : KeepsObjs restartRecord c (lostInReset c) := by
  have hkeys := (keepsObjs_eraseKeys c).trans (keepsObjs_programLost (eraseKeys c))
  have hdict (c : Chip) : KeepsObjs restartRecord c (dictLost c) := .of_objs rfl
  have hid (c : Chip) : KeepsObjs restartRecord c (identityLost c) :=
    KeepsObjs.bump (c' := { c with link := { c.link with pair := { c.link.pair with sending := [], arriving := [] } } }) (.of_objs rfl) rfl
  exact ((hkeys.trans (hdict _)).trans (hid _)).trans (keepsObjs_zeroMeas _)

theorem keepsObjs_startedAfresh (c : Chip) : KeepsObjs coreRecord c (startedAfresh c) := by
  have hcounts : KeepsObjs coreRecord c (countsCleared c) := by
    unfold countsCleared
    refine KeepsObjs.foldl _ (fun c i => ?_) _ c
    exact .set (.set (.set (.refl c) rfl) rfl) rfl
  have hdown (c : Chip) : KeepsObjs coreRecord c (complexDown c) := .of_objs rfl
  exact .set (.set (.set (hcounts.trans (hdown _)) rfl) rfl) rfl

/-- A reset of the complex leaves the cores that work as they are (R408). -/
theorem complexReset_cores (cause : Nat) (c : Chip) : objGet (complexReset cause c) 0x2812 0x01 0 = objGet c 0x2812 0x01 0 := by
  have hlost : KeepsObjs coreRecord c (lostInReset c) := (keepsObjs_lostInReset c).core
  rw [complexReset_eq, keepsObjs_startedAfresh _ 0x2812 0x01 0 rfl, objGet_bump_ne _ _ (okey_ne_sub (by decide)),
    objGet_set_ne _ _ (okey_ne_sub (by decide)), hlost 0x2812 0x01 0 rfl]

theorem complexReset_cause (cause : Nat) (c : Chip) : objGet (complexReset cause c) 0x2812 0x03 0 = cause := by
  rw [complexReset_eq, keepsObjs_startedAfresh _ 0x2812 0x03 0 rfl, objGet_bump_ne _ _ (okey_ne_sub (by decide)), objGet_set_same]

/-! A restart of one component (R409). -/

theorem setUnattainable_false (c : Chip) :
    setUnattainable false c = if objGet c 0x2500 0x02 0 = stOk then c else objSet 0x2500 0x02 0 stOk c := rfl

theorem clearShed_kept (c : Chip) : (clearShed c).fw = c.fw ∧ KeepsObjs restartRecord c (clearShed c) := by
  have hshed (d : Chip) : KeepsObjs restartRecord d (showShed (objSet 0x2503 0x02 0 0xFFFF d)) := .set (.set (.set (.refl d) rfl) rfl) rfl
  have hset (d : Chip) (hf : d.fw = c.fw) (hk : KeepsObjs restartRecord c d) :
      (setUnattainable false d).fw = c.fw ∧ KeepsObjs restartRecord c (setUnattainable false d) := by
    rw [setUnattainable_false]
    split
    · exact ⟨hf, hk⟩
    · exact ⟨hf, hk.set rfl⟩
  exact hset _ rfl (.trans (.of_objs rfl) (hshed _))

theorem keepsObjs_clearLearner (c : Chip) : KeepsObjs restartRecord c (clearLearner c) :=
  .set (c' := { c with power := { c.power with learner := [] } }) (.of_objs rfl) rfl

theorem eraseKeys_fw (c : Chip) : (eraseKeys c).fw = c.fw := by
  obtain ⟨o, ho⟩ := eraseKeys_eq c
  rw [ho]

/-- The first-use state of a component keeps the firmware state and the record of restarts. -/
theorem firstUse_kept (id : Nat) (c : Chip) : (firstUse id c).fw = c.fw ∧ KeepsObjs restartRecord c (firstUse id c) := by
  have hport (c : Chip) (p : Nat) : KeepsObjs restartRecord c (objSet 0x2601 0x0F p 0 c) := .set (.refl c) rfl
  have hfold (l : List Nat) (c : Chip) : (l.foldl (fun c p => objSet 0x2601 0x0F p 0 c) c).fw = c.fw := by
    induction l generalizing c with
    | nil => rfl
    | cons p l ih => exact ih _
  unfold firstUse
  split
  · obtain ⟨hf, hk⟩ := clearShed_kept (clearLearner { c with power := { c.power with
      gain := 1, clampRun := 0, fresh := 0, stale := false, inRow := 0, lockStep := 6 } })
    exact ⟨hf, .trans (.of_objs rfl) ((keepsObjs_clearLearner _).trans hk)⟩
  · exact ⟨hfold _ _, .foldl _ hport _ _⟩
  · exact ⟨rfl, .of_objs rfl⟩
  · exact ⟨eraseKeys_fw _, .trans (.of_objs rfl) (keepsObjs_eraseKeys _)⟩
  · exact ⟨rfl, .set (c' := { c with log := { c.log with ring := [], next := 0, mirrored := 0 } }) (.of_objs rfl) rfl⟩
  · exact ⟨rfl, .refl c⟩

/-- What a component's data region held goes: which components restart, whether the complex is down and the record stay. -/
theorem dataLost_kept (id : Nat) (c : Chip) : (dataLost id c).fw.restarting = c.fw.restarting ∧ (dataLost id c).fw.down = c.fw.down ∧
    KeepsObjs restartRecord c (dataLost id c) := by
  have hprog := restartView_programLost c
  unfold dataLost
  split
  · exact ⟨rfl, rfl, .of_objs rfl⟩
  · exact ⟨rfl, rfl, .of_objs rfl⟩
  · exact ⟨congrArg (·.restarting) hprog, congrArg (·.down) hprog, keepsObjs_programLost c⟩
  · exact ⟨rfl, rfl, .refl c⟩

/-- The restarts of a component within the last minute, this one included. -/
def recentRestarts (id : Nat) (c : Chip) : List Nat :=
  (cellsGet [] c.fw.restarts id).filter (fun u => decide (c.tk.now ≤ u + 60000000000)) ++ [c.tk.now]

/-- The restart is entered in the component's objects and among those that run. -/
def restartNoted (id cause msgs : Nat) (c : Chip) : Chip :=
  let d := objBump 0x2811 0x02 id 1 (objSet 0x2811 0x03 id c.tk.tick (objSet 0x2811 0x04 id cause (objSet 0x2811 0x01 id 1 c)))
  let d := objBump 0x2811 0x06 id (msgs - 64) d
  { d with fw := { d.fw with restarts := cellsSet [] d.fw.restarts id (recentRestarts id c), restarting := d.fw.restarting ++ [id] } }

/-- No record waits for the log component. -/
def heldCleared (c : Chip) : Chip := { c with log := { c.log with held := 0 } }

/-- A component starts from its retained block or, where that does not check, from its first-use state. -/
def startState (id : Nat) (retained : Bool) (c : Chip) : Chip := if retained then c else firstUse id c

theorem startState_kept (id : Nat) (retained : Bool) (c : Chip) :
    (startState id retained c).fw = c.fw ∧ KeepsObjs restartRecord c (startState id retained c) := by
  cases retained with
  | true => exact ⟨rfl, .refl c⟩
  | false => exact firstUse_kept id c

/-- What the component's data region held is gone, and the log tells of its restart. -/
def componentRestarted (id cause msgs : Nat) (retained : Bool) (c : Chip) : Chip :=
  breakUpd 0 (logRec 2 0 .componentRestart [id, cause] (heldCleared (dataLost id
    (startState id retained (restartNoted id cause msgs c)))))

theorem componentRestart_eq {id : Nat} (cause msgs : Nat) (retained : Bool) {c : Chip} (h1 : 1 ≤ id) (h7 : id ≤ 7) (hd : c.fw.down = false) :
    componentRestart id cause msgs retained c = if 3 ≤ (recentRestarts id c).length then complexReset 3 (componentRestarted id cause msgs retained c)
      else componentRestarted id cause msgs retained c := by
  unfold componentRestart
  rw [if_neg (by simp [hd]; omega)]
  rfl

/-- What follows the note of a restart keeps the record that the note made, and which components restart. -/
theorem componentRestarted_kept (id cause msgs : Nat) (retained : Bool) (c : Chip) :
    (componentRestarted id cause msgs retained c).fw.restarting = c.fw.restarting ++ [id] ∧
    (componentRestarted id cause msgs retained c).fw.down = c.fw.down ∧
    KeepsObjs restartRecord (restartNoted id cause msgs c) (componentRestarted id cause msgs retained c) := by
  obtain ⟨hf, hk⟩ := startState_kept id retained (restartNoted id cause msgs c)
  unfold componentRestarted
  generalize startState id retained (restartNoted id cause msgs c) = d at hf hk
  obtain ⟨hr, hdown, ho⟩ := dataLost_kept id d
  have hv := restartView_logRec 2 0 .componentRestart [id, cause] (heldCleared (dataLost id d))
  have hheld : KeepsObjs restartRecord (dataLost id d) (heldCleared (dataLost id d)) := .of_objs rfl
  refine ⟨?_, ?_, .trans ((hk.trans ho).trans hheld).record (.of_objs (breakUpd_objs 0 _))⟩
  · calc _ = (dataLost id d).fw.restarting := congrArg RestartView.restarting hv
      _ = _ := by rw [hr, hf]; rfl
  · calc _ = (dataLost id d).fw.down := congrArg RestartView.down hv
      _ = _ := by rw [hdown, hf]; rfl

theorem restartNoted_count (id cause msgs : Nat) (c : Chip) :
    objGet (restartNoted id cause msgs c) 0x2811 0x02 id = objGet (objBump 0x2811 0x02 id 1 c) 0x2811 0x02 id := by
  show objGet (objBump 0x2811 0x06 id _ _) 0x2811 0x02 id = _
  rw [objGet_bump_ne _ _ (okey_ne_sub (by decide)), objGet_bump_same, objGet_set_ne _ _ (okey_ne_sub (by decide)),
    objGet_set_ne _ _ (okey_ne_sub (by decide)), objGet_set_ne _ _ (okey_ne_sub (by decide)), objGet_bump_same]

theorem restartNoted_tick (id cause msgs : Nat) (c : Chip) : objGet (restartNoted id cause msgs c) 0x2811 0x03 id = c.tk.tick := by
  show objGet (objBump 0x2811 0x06 id _ _) 0x2811 0x03 id = _
  rw [objGet_bump_ne _ _ (okey_ne_sub (by decide)), objGet_bump_ne _ _ (okey_ne_sub (by decide)), objGet_set_same]

theorem restartNoted_cause (id cause msgs : Nat) (c : Chip) : objGet (restartNoted id cause msgs c) 0x2811 0x04 id = cause := by
  show objGet (objBump 0x2811 0x06 id _ _) 0x2811 0x04 id = _
  rw [objGet_bump_ne _ _ (okey_ne_sub (by decide)), objGet_bump_ne _ _ (okey_ne_sub (by decide)), objGet_set_ne _ _ (okey_ne_sub (by decide)),
    objGet_set_same]

theorem exec_componentRestart {id : Nat} (cause : Fin 4) (msgs : Nat) (retained : Bool) (t : Nat) (s : State) (h : id < 8) :
    exec (.componentRestart id cause msgs retained t) s =
      onChip (fun c => componentRestart id cause.val msgs retained (atTime t c)) s := onUnit_of_lt h _ s

/-! The dictionary server while it restarts (R390). -/

theorem ior1_of_notServing {c : Chip} (h : dictServes c = false) : ior1 c = false := by simp [ior1, h]

theorem dictServes_of_restarting {c : Chip} (h : 1 ∈ c.fw.restarting) : dictServes c = false := by simp [dictServes, h]

theorem dictServes_of_down {c : Chip} (h : c.fw.down = true) : dictServes c = false := by simp [dictServes, guarded, h]

theorem requestTake_of_notServing {c : Chip} (h : dictServes c = false) : requestTake c = c := if_pos (by simp [h])

/-- What R390 says of a module d in which the dictionary server has restarted since c. -/
structure ServerRestarted (c d : Chip) : Prop where
  ctxs : d.dict.ctxs = []
  groups : d.dict.groups = Vector.replicate 8 {}
  taken : d.win.taken = none
  pendingW : d.dict.pendingW = c.dict.pendingW
  notReady : ior1 d = false

/-- The restart of the dictionary server alone. -/
theorem componentRestarted_server (cause msgs : Nat) (retained : Bool) (c : Chip) :
    ServerRestarted c (componentRestarted 1 cause msgs retained c) := by
  have hv : restartView (componentRestarted 1 cause msgs retained c) =
      restartView (dictLost (restartNoted 1 cause msgs c)) := by
    rw [componentRestarted, restartView_breakUpd, restartView_logRec]
    cases retained <;> rfl
  obtain ⟨hr, -, -⟩ := componentRestarted_kept 1 cause msgs retained c
  exact ⟨congrArg (·.ctxs) hv, congrArg (·.groups) hv, congrArg (·.win.taken) hv, congrArg (·.pendingW) hv,
    ior1_of_notServing (dictServes_of_restarting (by simp [hr]))⟩

/-- A reset of the complex restarts the dictionary server. -/
theorem ServerRestarted.complexReset {c d : Chip} (h : ServerRestarted c d) (cause : Nat) : ServerRestarted c (complexReset cause d) := by
  have hv := restartView_complexReset cause d
  exact ⟨congrArg (·.ctxs) hv, congrArg (·.groups) hv, congrArg (·.win.taken) hv, (congrArg (·.pendingW) hv).trans h.pendingW,
    ior1_of_notServing (dictServes_of_down (congrArg (·.down) hv))⟩

theorem ServerRestarted.onto {c d : Chip} (h : ServerRestarted c d) (s : State) : ServerRestarted c (onto s d).chip := by
  have hior : ior1 (Machine.onto s d).chip = ior1 d := by
    simp only [Machine.onto, ior1, cardReg, dictServes, guarded, darkNow, settle_card, settle_tk, settle_fw]
  exact ⟨(settle_dict_ctxs _).trans h.ctxs, (settle_dict_groups _).trans h.groups, (settle_win_taken _).trans h.taken,
    (settle_dict_pendingW _).trans h.pendingW, hior.trans h.notReady⟩

theorem componentRestart_server (cause msgs : Nat) (retained : Bool) {c : Chip} (hd : c.fw.down = false) :
    ServerRestarted c (componentRestart 1 cause msgs retained c) := by
  have h := componentRestarted_server cause msgs retained c
  rw [componentRestart_eq cause msgs retained (by decide) (by decide) hd]
  split
  · exact h.complexReset 3
  · exact h

/-! The cores after a reset of the complex (R408). -/

theorem restartView_showCores (mask : Nat) (c : Chip) : restartView (showCores mask c) = restartView c := by
  have hcore (c : Chip) (e : Nat × Nat) : restartView (objSet 0x2811 0x05 e.1 e.2 c) = restartView c := rfl
  unfold showCores
  rw [restartView_foldl _ hcore, restartView_setClass, restartView_objSet]

/-- Apart from the cores that work the complex's record stays. -/
theorem keepsObjs_showCores (mask : Nat) (c : Chip) : KeepsObjs coreRecord (objSet 0x2812 0x01 0 mask c) (showCores mask c) := by
  have hclass (c : Chip) : KeepsObjs restartRecord c (setClass 0x0E (mask != 0x0F) c) := .cls (.refl c)
  have hcore (c : Chip) (e : Nat × Nat) : KeepsObjs coreRecord c (objSet 0x2811 0x05 e.1 e.2 c) := .set (.refl c) rfl
  unfold showCores
  exact (hclass _).core.trans (.foldl _ hcore _ _)

/-- Where every core passes its self-test none is retired. -/
theorem retireCores_all {c : Chip} (h : objGet c 0x2812 0x01 0 = 15) : retireCores 15 c = showCores 15 c := by
  unfold retireCores
  rw [h]
  rfl

/-- The complex after a reset in which every core passes its self-test. -/
theorem resetCores_kept (cause : Nat) (ids : List Nat) {c : Chip} (h : objGet c 0x2812 0x01 0 = 15) :
    let d := retireCores 15 (logRec 3 0 .complexReset ids (complexReset cause c))
    restartView d = restartView (complexReset cause c) ∧ objGet d 0x2812 0x01 0 = 15 ∧ objGet d 0x2812 0x03 0 = cause := by
  have hlog : KeepsObjs restartRecord (complexReset cause c) (logRec 3 0 .complexReset ids (complexReset cause c)) := .record (.refl _)
  have hcores : objGet (logRec 3 0 .complexReset ids (complexReset cause c)) 0x2812 0x01 0 = 15 := by
    rw [hlog 0x2812 0x01 0 rfl, complexReset_cores, h]
  have hkept := keepsObjs_showCores 15 (logRec 3 0 .complexReset ids (complexReset cause c))
  dsimp only
  rw [retireCores_all hcores]
  refine ⟨?_, ?_, ?_⟩
  · rw [restartView_showCores, restartView_logRec]
  · rw [hkept 0x2812 0x01 0 rfl, objGet_set_same]
  · rw [hkept 0x2812 0x03 0 rfl, objGet_set_ne _ _ (okey_ne_sub (by decide)), hlog 0x2812 0x03 0 rfl, complexReset_cause]

/-- What a reset of a complex that runs does to the module. -/
def resetComplex (cause cores : Nat) (c : Chip) : Chip :=
  let c := retireCores cores (logRec 3 0 .complexReset [cause] (complexReset cause c))
  if (coresOf (objGet c 0x2812 0x01 0)).length < 3 then orderlyStop .orderly c else c

theorem exec_complexReset (cause cores t : Nat) (s : State) : exec (.complexReset cause cores t) s =
    onChip (fun c => if !complexRuns (atTime t c) || cause < 1 || 4 < cause then atTime t c else resetComplex cause cores (atTime t c)) s := rfl

theorem complexReset_answers {cause : Nat} (cores t : Nat) {s : State} (hr : complexRuns s.chip = true) (h1 : 1 ≤ cause) (h4 : cause ≤ 4) :
    Answers (.complexReset cause cores t) s (onto s (resetComplex cause cores (atTime t s.chip))) := by
  have hrun : complexRuns (atTime t s.chip) = true := hr
  refine answers_onChip (exec_complexReset cause cores t s) (if_neg ?_)
  simp only [hrun, Bool.or_eq_true, decide_eq_true_eq, Bool.not_true, Bool.false_eq_true, false_or]
  omega

/-- All four cores work: the module does not stop. -/
theorem resetComplex_all {cause : Nat} {c : Chip} (h : objGet c 0x2812 0x01 0 = 15) :
    resetComplex cause 15 c = retireCores 15 (logRec 3 0 .complexReset [cause] (complexReset cause c)) := by
  obtain ⟨-, hcores, -⟩ := resetCores_kept cause [cause] h
  unfold resetComplex
  dsimp only
  rw [hcores]
  exact if_neg (by decide)

/-! The registers rebuilt (R318, R458). -/

/-- An update of the measurement registers: the seed and the record of restarts and identity stay. -/
def Measures (c c' : Chip) : Prop := c'.sec.seed = c.sec.seed ∧ KeepsObjs restartRecord c c'

theorem Measures.refl (c : Chip) : Measures c c := ⟨rfl, .refl c⟩

theorem Measures.trans {c c' c'' : Chip} (h : Measures c c') (h' : Measures c' c'') : Measures c c'' := ⟨h'.1.trans h.1, h.2.trans h'.2⟩

theorem Measures.foldl {α : Type} (f : Chip → α → Chip) (hf : ∀ c a, Measures c (f c a)) (l : List α) (c : Chip) : Measures c (l.foldl f c) := by
  induction l generalizing c with
  | nil => exact .refl c
  | cons a l ih => exact (hf c a).trans (ih _)

theorem measures_measLog (reg ev : Nat) (d : BitVec 256) (c : Chip) : Measures c (measLog reg ev d c) := by
  unfold measLog
  dsimp only
  split
  · exact ⟨rfl, .of_objs rfl⟩
  · exact ⟨rfl, .of_objs rfl⟩

theorem measures_extend (reg ev : Nat) (d : BitVec 256) (c : Chip) : Measures c (extend reg ev d c) := by
  have hset (v : BitVec 256) : Measures c (setMeas reg v c) := ⟨rfl, keepsObjs_setMeas reg v c⟩
  unfold extend
  exact (hset _).trans (measures_measLog _ _ _ _)

/-- The registers of what is active: ROM, birth record, keys, components, plan and adapters. -/
theorem registerRebuild_measures {c : Chip} (flips : Nat) (hr : c.sec.rebuilding = true) (hd : c.fw.down = false) :
    ∃ e, Measures (deriveIdentity flips c) e ∧
      registerRebuild flips c = showUnsettled { e with sec := { e.sec with rebuilding := false } } := by
  unfold registerRebuild
  rw [if_neg (by simp [hr, hd])]
  refine ⟨_, ?_, rfl⟩
  refine .trans ?_ (.foldl _ (fun c e => ?_) _ _)
  · have hkeys := Measures.foldl (fun c n => extend 7 0x07 (Config.sha3 (blobGet c 0x2720 (n + 1) 0)) c) (fun c _ => measures_extend _ _ _ c)
    have hboot : Measures (deriveIdentity flips c) (measureKeys (measureBirth (measureRom (deriveIdentity flips c)))) :=
      (((measures_extend _ _ _ _).trans (measures_extend _ _ _ _)).trans ((measures_extend _ _ _ _).trans (measures_extend _ _ _ _))).trans
        (hkeys _ _)
    have hcomps := hboot.trans (.foldl _ (fun c n => measures_extend (2 + n) 0x02 (activeDigest c n) c) (List.range 5) _)
    split
    · exact hcomps.trans (measures_extend _ _ _ _)
    · exact hcomps
  · split
    · exact measures_extend _ _ _ _
    · exact .refl c

theorem deriveIdentity_seed (flips : Nat) (c : Chip) : (deriveIdentity flips c).sec.seed = pufSeed c.sec.birth c.sec.helpers flips := by
  unfold deriveIdentity replaceShow
  rw [setClass_sec]
  rfl

theorem deriveIdentity_status (flips : Nat) (c : Chip) : objGet (deriveIdentity flips c) 0x2700 0x01 0 =
    identityOf c.sec.birth c.sec.helpers (pufSeed c.sec.birth c.sec.helpers flips) := by
  unfold deriveIdentity replaceShow
  rw [objGet_setClass _ _ _ (by decide), objGet_blobSet, objGet_blobSet, objGet_set_same]

/-! The log's mirror (R412). -/

theorem logMirror_due {c : Chip} (hm : c.log.mirrorDue = true) (hd : c.fw.down = false)
    (hu : ∀ u, c.log.mirrorAt = some u → u + 1000000000 ≤ c.tk.now) :
    logMirror c = objSet 0x2A01 0x02 0 (flashLog { c with log := { c.log with mirrorAt := some c.tk.now } }).log.mirror.length
      (flashLog { c with log := { c.log with mirrorAt := some c.tk.now } }) := by
  unfold logMirror
  cases ha : c.log.mirrorAt with
  | none => simp [hm, hd]
  | some u => simp [hm, hd, hu u ha]

end Sys2Proof.Machine

namespace Sys2Proof.Proofs
open Sys2Proof Sys2Proof.Machine

/-- Settles O45, by what each event of the complex leaves: a restart of one component, of the dictionary server, a reset, the
rebuild of the registers and the log's mirror. -/
theorem complexEvents : Obligations.ComplexEvents := by
  unfold Obligations.ComplexEvents
  intro s t
  refine ⟨fun id cause msgs retained h1 h7 hd hfew => ?_, fun cause msgs retained hd => ?_, fun hr => ⟨?_, ?_⟩, fun cause hr h1 h4 hc => ?_,
    fun flips hr hd => ?_, fun hm hd hu => ?_⟩
  · have hlen : (recentRestarts id (atTime t s.chip)).length < 3 := by
      rw [recentRestarts, List.length_append]
      exact Nat.succ_lt_succ hfew
    obtain ⟨hrest, hdown, hkept⟩ := componentRestarted_kept id cause msgs retained (atTime t s.chip)
    refine gives_onChip (exec_componentRestart cause msgs retained t s (by omega)) ?_
    rw [componentRestart_eq (c := atTime t s.chip) _ _ _ h1 h7 hd, if_neg hlen.not_ge]
    simp only [onto, settle_fw, objGet_settle, hrest, hdown, hkept 0x2811 0x02 id rfl, hkept 0x2811 0x03 id rfl, hkept 0x2811 0x04 id rfl,
      restartNoted_count, restartNoted_tick, restartNoted_cause]
    exact ⟨by simp, rfl, rfl, trivial, hd⟩
  · obtain ⟨hctxs, hgroups, htaken, hpend, hior⟩ :=
      (componentRestart_server cause msgs retained (c := atTime t s.chip) hd).onto s
    exact gives_onChip (exec_componentRestart cause msgs retained t s (by decide)) ⟨hctxs, hgroups, htaken, hpend, hior⟩
  · exact ior1_of_notServing (dictServes_of_restarting hr)
  · exact answers_onChip rfl (requestTake_of_notServing (dictServes_of_restarting hr))
  · have hcores : objGet (atTime t s.chip) 0x2812 0x01 0 = 15 := hc
    obtain ⟨hv, -, hcause⟩ := resetCores_kept cause [cause] hcores
    rw [restartView_complexReset] at hv
    refine ⟨_, complexReset_answers 15 t hr h1 h4, ?_⟩
    rw [resetComplex_all hcores]
    simp only [onto, settle_fw, objGet_settle, settle_sec, settle_grid, settle_hbm, settle_plan, hcause]
    exact ⟨congrArg (·.down) hv, trivial, congrArg (·.sec.keys) hv, congrArg (·.sec.seed) hv, congrArg (·.sec.rebuilding) hv,
      congrArg (·.grid) hv, congrArg (·.hbm) hv, congrArg (·.plan) hv⟩
  · obtain ⟨e, ⟨hseed, hkept⟩, he⟩ := registerRebuild_measures flips hr hd
    refine gives_onChip (f := registerRebuild flips) rfl ?_
    rw [he]
    simp only [onto, settle_sec, objGet_settle]
    refine ⟨rfl, hseed.trans (deriveIdentity_seed flips s.chip), ?_⟩
    calc _ = objGet e 0x2700 0x01 0 := objGet_set_ne _ _ (okey_ne_sub (by decide))
      _ = _ := (hkept 0x2700 0x01 0 rfl).trans (deriveIdentity_status flips s.chip)
  · refine gives_onChip (f := fun c => logMirror (atTime t c)) rfl ?_
    rw [logMirror_due (c := atTime t s.chip) hm hd fun u h => (hu u h).trans (le_max_right _ _)]
    simp only [onto, settle_log, objGet_settle, objGet_set_same]
    exact ⟨rfl, rfl, rfl, rfl⟩

end Sys2Proof.Proofs

/-! SUPPORT. The queue and the image: a command takes nothing from the queue, and changes the image only where R396 says. -/

namespace Sys2Proof.Machine

theorem step_cons {c : Instr} {rest : List Instr} {s : State} (h : s.pending = c :: rest) :
    step s = exec c { s with pending := rest } := by
  unfold step; rw [h]

theorem step_nil {s : State} (h : s.pending = []) : step s = .next s := by
  unfold step; rw [h]

theorem dictionaryLatch_pending (s : State) : (dictionaryLatch s).pending = s.pending := by
  dsimp only [dictionaryLatch]; split_ifs <;> rfl

/-- No command puts another one into the queue or takes one out of it. -/
theorem exec_pending {i : Instr} {s s' : State} (h : exec i s = .next s') : s'.pending = s.pending := by
  obtain ⟨c, hc⟩ | hf | hf | rfl := exec_lifts i s
  · obtain rfl := Host.Outcome.next.inj (h.symm.trans hc)
    exact settle_pending _
  · exact nomatch h.symm.trans hf
  · exact nomatch h.symm.trans hf
  · obtain rfl := Host.Outcome.next.inj h
    exact (settle_pending _).trans (dictionaryLatch_pending s)

/-- A step takes the front of the queue. -/
theorem step_pending {s s' : State} (h : step s = .next s') : s'.pending = s.pending.drop 1 := by
  cases hp : s.pending with
  | nil =>
    obtain rfl := Host.Outcome.next.inj ((step_nil hp).symm.trans h)
    exact hp
  | cons c rest => exact exec_pending ((step_cons hp).symm.trans h)

/-- Running a step and then n is running n + 1. -/
theorem run_succ {n : Nat} {s s' : State} (h : Host.Core.run core (n + 1) s = .next s') :
    ∃ s1, step s = .next s1 ∧ Host.Core.run core n s1 = .next s' := by
  cases hs : step s with
  | next s1 => exact ⟨s1, rfl, by simpa only [Host.Core.run, show core.step s = .next s1 from hs] using h⟩
  | fault r => simp only [Host.Core.run, show core.step s = .fault r from hs, reduceCtorEq] at h
  | refused r => simp only [Host.Core.run, show core.step s = .refused r from hs, reduceCtorEq] at h

/-! The image (R396). -/

/-- Objects re-latched change the object store of the image alone, and of it the re-latched objects alone. -/
theorem foldl_relatch (g : Nat × Nat → Nat) (l : List (Nat × Nat)) (img : Chip) :
    let img' := l.foldl (fun i k => objSet k.1 k.2 0 (g k) i) img
    img' = { img with objs := img'.objs } ∧
      ∀ idx sub inst, (∀ k ∈ l, okey idx sub inst ≠ okey k.1 k.2 0) → objGet img' idx sub inst = objGet img idx sub inst := by
  induction l generalizing img with
  | nil => exact ⟨rfl, fun _ _ _ _ => rfl⟩
  | cons k t ih =>
    obtain ⟨hrest, hobj⟩ := ih (objSet k.1 k.2 0 (g k) img)
    refine ⟨hrest.trans rfl, fun idx sub inst hne => ?_⟩
    rw [List.foldl_cons, hobj idx sub inst fun k' hk' => hne k' (List.mem_cons_of_mem _ hk')]
    exact objGet_set_ne img _ (hne k List.mem_cons_self)

/-- Objects whose sub-index and entry fit their fields have keys of their own (log 92). -/
theorem okey_inj {i b n i' b' n' : Nat} (hb : b < 256) (hn : n < 2 ^ 48) (hb' : b' < 256) (hn' : n' < 2 ^ 48)
    (h : okey i b n = okey i' b' n') : (i, b, n) = (i', b', n') := by
  have hsub := Nat.mod_eq_of_lt hb
  have hsub' := Nat.mod_eq_of_lt hb'
  have hinst := Nat.mod_eq_of_lt hn
  have hinst' := Nat.mod_eq_of_lt hn'
  unfold okey at h
  simp only [Prod.mk.injEq]
  omega

theorem relatchKeys_sub_lt {k : Nat × Nat} (h : k ∈ relatchKeys) : k.2 < 256 := by
  revert k; decide

/-- A settled state's image differs from the one before in re-latched objects alone. -/
theorem settle_img (s : State) :
    (settle s).img = { s.img with objs := (settle s).img.objs } ∧
      ∀ idx sub inst, sub < 256 → inst < 2 ^ 48 → (idx, sub, inst) ∉ relatchKeys.map (fun k => (k.1, k.2, 0)) →
        objGet (settle s).img idx sub inst = objGet s.img idx sub inst := by
  by_cases hr : s.chip.dict.relatch = true
  · obtain ⟨hrest, hobj⟩ := foldl_relatch (fun k => objGet s.chip k.1 k.2 0) relatchKeys s.img
    simp only [settle, hr, if_true]
    refine ⟨hrest, fun idx sub inst hs hi hne => hobj idx sub inst fun k hk heq => hne ?_⟩
    rw [okey_inj hs hi (relatchKeys_sub_lt hk) (by decide) heq]
    exact List.mem_map_of_mem (f := fun k : Nat × Nat => (k.1, k.2, 0)) hk
  · rw [settle_of_clear (Bool.eq_false_iff.mpr hr)]
    exact ⟨rfl, fun _ _ _ _ _ _ => rfl⟩

/-! Which commands answer a next state (log 94). -/

/-- A result as a command's well-formedness asks for: a next state, or the fault of an entity that does not exist. -/
def Meets (wf : Bool) (r : Result) : Prop :=
  (wf = true → ∃ s', r = .next s') ∧ (wf = false → r = .fault .noSuchTile ∨ r = .fault .noSuchUnit)

theorem meets_next (s' : State) : Meets true (.next s') := ⟨fun _ => ⟨s', rfl⟩, nofun⟩

/-- A command that names tile t is well formed where t is a logical tile. -/
theorem meets_tile (t : Nat) (f : Tile → Tile) (s : State) : Meets (decide (t < 2048)) (onTile t f s) := by
  unfold onTile; split
  case isTrue h => rw [decide_eq_true h]; exact meets_next _
  case isFalse h => simp [Meets, h]

theorem meets_anyTile (t : Nat) (f : Chip → Chip) (s : State) : Meets (decide (t < 2048)) (onAnyTile t f s) := by
  unfold onAnyTile; split
  case isTrue h => rw [decide_eq_true h]; exact meets_next _
  case isFalse h => simp [Meets, h]

theorem meets_unit (n k : Nat) (f : Chip → Chip) (s : State) : Meets (decide (k < n)) (onUnit n k f s) := by
  unfold onUnit; split
  case isTrue h => rw [decide_eq_true h]; exact meets_next _
  case isFalse h => simp [Meets, h]

theorem meets_engine (code : Nat) (s : State) : Meets (engineExists code) (execEngineDeclaredFailed code s) := by
  unfold execEngineDeclaredFailed; split
  case isTrue h => rw [h]; exact meets_next _
  case isFalse h => simp [Meets, h]

theorem meets_ite (b : Bool) (f g : Chip → Chip) (s : State) : Meets true (if b then onChip f s else onChip g s) := by
  split <;> exact meets_next _

/-- Each command's meaning checks the very entity that its well-formedness names. -/
theorem exec_meets (i : Instr) (s : State) : Meets (WellFormed i) (exec i s) := by
  cases i
  case nop | setl | seth | adds | loop | jump | beq | bne | wait | endt | mload | mpre | mrun | mout | vadd | vsub | vmul |
      vfma | vmin | vmax | vcmp | vdiv | vsqrt | vrsqrt | vexp2 | vexp | vlog2 | vlog | vsin | vcos | vtanh | vsigm | verf | vgelu
      | vsilu | vcvt | vrsum | vrmax | vrmin | vpool | vbcast | vmov | vld | vldc | vst | wld | agstep | agrst | agld | adld | mkld
      | send | recv | instructionLineLost =>
    exact meets_tile _ _ _
  case mgmtMessageArrival | mgmtReadSram | mgmtWriteSram | mgmtReadInstr | mgmtWriteInstr | mgmtSelfTest | mgmtReadCounters |
      tileDeclaredFailed | columnRetiredNoShift | redundantRowCopy | redundantRowSwitch =>
    exact meets_anyTile _ _ _
  case hbmAct | hbmRd | hbmRdAp | hbmWr | hbmWrAp | hbmPre | hbmPreAll | hbmRefreshSlot | hbmScrubSlot | autonomousRefresh |
      patrolStep | hbmWriteback | rowSpareCopy | rowSpareSwitch | caParityRetry | frameReceived | rtpPacket | gapJitterTimeout |
      pictureDecoded | pictureRefused | decodeBudgetExpiry | sliceDecoded | campionLastLayerJob | campionJobEnd | teaselJob |
      teaselJobEnd | encoderPicturePass | encoderSliceSent | clipEnd | egressPauseDatagram | controlBlockSend | treeBlock |
      maskBlockSend | acceptedPath | summaryOut | intakeDrain | stomarFrameSend | stomarFrame | rekeyStart | linkKeyExhausted |
      keyExchange | laneSubstitution | laneControl | linkUpStart | linkRetryTimer | beaconSend | identityBeacon | beaconTimeout |
      timedWordTransmit | timedWordRelease | timingProbe | tickToken | forwardedCommand | forwardedCommandStatus | servingDecisions
      | quoteSign | quoteRetryHint | quoteSlotTimeout | componentRestart | flashBlockRetire | linkRetrainDone | autoNegotiation |
      linkDown | pictureRelease =>
    exact meets_unit _ _ _ _
  case engineDeclaredFailed =>
    exact meets_engine _ _
  case registerWrite | selectorWrite | parameterWrite =>
    exact meets_ite _ _ _ _
  all_goals exact meets_next _

end Sys2Proof.Machine

namespace Sys2Proof.Proofs
open Sys2Proof Sys2Proof.Machine

/-- Settles O1, by the definition of a step. -/
theorem stepRunsFront : Obligations.StepRunsFront := by
  unfold Obligations.StepRunsFront
  exact fun _ _ _ => step_cons

/-- Settles O2, by induction on the number of steps: each takes one command, and no command touches the queue. -/
theorem queueDrains : Obligations.QueueDrains := by
  unfold Obligations.QueueDrains
  intro n
  induction n with
  | zero =>
    intro s s' h
    obtain rfl := Host.Outcome.next.inj h
    rfl
  | succ n ih =>
    intro s s' h
    obtain ⟨s1, h1, h2⟩ := run_succ h
    rw [ih s1 s' h2, step_pending h1, List.drop_drop, Nat.add_comm]

/-- Settles O3, by the check of the entity that each command names. -/
theorem wellFormedAnswers : Obligations.WellFormedAnswers := by
  unfold Obligations.WellFormedAnswers
  exact exec_meets

/-- Settles O4. -/
theorem resetInv : Obligations.ResetInv := by
  unfold Obligations.ResetInv
  exact ⟨rfl, rfl⟩

/-- Settles O6: every command but the latch is an effect on the module, settled, and settling writes re-latched objects alone. -/
theorem imageHolds : Obligations.ImageHolds := by
  unfold Obligations.ImageHolds
  intro i s s' hi h
  obtain ⟨c, hc⟩ | hf | hf | hlatch := exec_lifts i s
  · obtain rfl := Host.Outcome.next.inj (h.symm.trans hc)
    exact settle_img { s with chip := c }
  · exact nomatch h.symm.trans hf
  · exact nomatch h.symm.trans hf
  · exact absurd hlatch hi

/-- Settles O7, by the laws of sparse storage. -/
theorem storageLaws : Obligations.StorageLaws := by
  unfold Obligations.StorageLaws
  refine ⟨fun c idx sub inst v => ⟨objGet_set_same c idx sub inst v, fun _ _ _ => objGet_set_ne c v, memWf_objSet idx sub inst v⟩,
    fun tl wa w hp => ⟨?_, fun _ => sramPeek_write_ne tl w, tileWf_sramWrite wa w⟩⟩
  have hw := sramPeek_write_same tl wa w
  have hclear : cellsGet 0 (sramWrite tl wa w).upsets (wa % 16384) = 0 := cellsGet_set_same _ _ _ _
  rw [sramRead_clean _ wa hclear (by rw [hw, hp]), hw]

end Sys2Proof.Proofs

/-! SUPPORT. The control slot's scalar operations, the time a bundle takes, and lanes of a register (R58, R72-R78). -/

namespace Sys2Proof.Machine

/-! Scalar registers and the bundle (R73, R77, R78). -/

/-- s14 and s15 are the module's; every other register takes the value. -/
theorem setScalar_eq (r : Fin 16) (v : W32) (t : Tile) :
    setScalar r v t = if r.val < 14 then { t with sregs := t.sregs.set r v } else t := by
  have hr := r.isLt
  by_cases h : r.val < 14
  · rw [setScalar, if_neg (by omega), if_pos h]
  · rw [setScalar, if_pos (by omega), if_neg h]

theorem closeBundle_seq (n : Nat) (t : Tile) : seqPart (closeBundle n t) = seqPart { nextPc t with ac := t.ac + (1 + n) } :=
  seq_acSteps (1 + n) (nextPc t)

theorem closeBundle_sregs (n : Nat) (t : Tile) : (closeBundle n t).sregs = t.sregs := congrArg (fun p => p.1) (closeBundle_seq n t)

theorem closeBundle_loops (n : Nat) (t : Tile) : (closeBundle n t).loops = (loopEnd t.loops t.pc).1 :=
  congrArg (fun p => p.2.1) (closeBundle_seq n t)

theorem closeBundle_pc (n : Nat) (t : Tile) : (closeBundle n t).pc = (loopEnd t.loops t.pc).2 % 4096 :=
  congrArg (fun p => p.2.2.2.1) (closeBundle_seq n t)

/-- With no result in flight the ac only counts. -/
theorem closeBundle_of_idle (n : Nat) {t : Tile} (h : t.pend = []) :
    closeBundle n t = { t with ac := t.ac + n + 1, pc := (loopEnd t.loops t.pc).2 % 4096, loops := (loopEnd t.loops t.pc).1 } := by
  rw [closeBundle, Nat.add_comm 1 n, acSteps, nextPc]
  exact if_pos (by rw [h]; rfl)

/-! What an operation on a ready tile answers. -/

section Ready
variable {t : Nat} {s : State} (h : TileReady t s)
include h

theorem TileReady.ev : (tileAt s.chip t).ev = [] := by
  obtain ⟨_, _, _, hev, _⟩ := h
  exact hev

/-- An operation that adds no event to the tile changes the tile alone. -/
theorem answers_quiet {i : Instr} (f : Tile → Tile) (hx : exec i s = onTile t f s) (hq : (f (tileAt s.chip t)).ev = (tileAt s.chip t).ev) :
    Answers i s (withTile s t (f (tileAt s.chip t))) :=
  hx.trans (onTile_quiet h f (hq.trans h.ev))

end Ready

/-! Lanes of a register (R58). -/

theorem laneWidth (w : Bool) : laneBits w * laneCount w = 2048 := by cases w <;> rfl

@[simp] theorem unpackLE_length (w n v : Nat) : (unpackLE w n v).length = n := by
  induction n generalizing v with
  | zero => rfl
  | succ n ih => simp [unpackLE, ih]

@[simp] theorem lanesOf_length (w : Bool) (v : V2048) : (lanesOf w v).length = laneCount w := unpackLE_length _ _ _

/-- Element i of a packed number stands in its bits from w * i on. -/
theorem unpackLE_getD {w n v i : Nat} (h : i < n) : (unpackLE w n v).getD i 0 = v / 2 ^ (w * i) % 2 ^ w := by
  induction n generalizing v i with
  | zero => omega
  | succ n ih =>
    cases i with
    | zero => simp [unpackLE]
    | succ i =>
      rw [unpackLE, List.getD_cons_succ, ih (by omega), Nat.div_div_eq_div_mul, ← pow_add, Nat.mul_succ, Nat.add_comm w]

theorem packLE_div (w : Nat) (l : List Nat) (i : Nat) : packLE w l / 2 ^ (w * i) % 2 ^ w = l.getD i 0 % 2 ^ w := by
  induction l generalizing i with
  | nil => simp [packLE]
  | cons x t ih =>
    cases i with
    | zero => simp [packLE]
    | succ i =>
      have hx : x % 2 ^ w < 2 ^ w := Nat.mod_lt _ (by positivity)
      rw [Nat.mul_succ, Nat.add_comm, pow_add, ← Nat.div_div_eq_div_mul, packLE, Nat.add_mul_div_left _ _ (by positivity),
        Nat.div_eq_of_lt hx, Nat.zero_add, ih, List.getD_cons_succ]

theorem packLE_lt (w : Nat) (l : List Nat) : packLE w l < 2 ^ (w * l.length) := by
  induction l with
  | nil => simp [packLE]
  | cons x t ih =>
    have hx : x % 2 ^ w < 2 ^ w := Nat.mod_lt _ (by positivity)
    rw [List.length_cons, Nat.mul_succ, Nat.add_comm, pow_add, packLE]
    calc x % 2 ^ w + 2 ^ w * packLE w t < 2 ^ w + 2 ^ w * packLE w t := by omega
      _ = 2 ^ w * (packLE w t + 1) := by ring
      _ ≤ 2 ^ w * 2 ^ (w * t.length) := Nat.mul_le_mul_left _ ih

/-- Lane i of a register, as a slice of its bits. -/
def laneAt (w : Bool) (v : V2048) (i : Nat) : BitVec (laneBits w) := v.extractLsb' (laneBits w * i) (laneBits w)

theorem lanesOf_getD {w : Bool} {i : Nat} (v : V2048) (h : i < laneCount w) : (lanesOf w v).getD i 0 = (laneAt w v i).toNat := by
  rw [lanesOf, unpackLE_getD h, laneAt, BitVec.extractLsb'_toNat, Nat.shiftRight_eq_div_pow]

theorem laneAt_ofLanes {w : Bool} {l : List Nat} (i : Nat) (hl : l.length ≤ laneCount w) :
    (laneAt w (ofLanes w l) i).toNat = l.getD i 0 % 2 ^ laneBits w := by
  have hfit : laneBits w * l.length ≤ 2048 := by
    rw [← laneWidth w]
    exact Nat.mul_le_mul_left _ hl
  have hlt := (packLE_lt (laneBits w) l).trans_le (Nat.pow_le_pow_right (by decide) hfit)
  rw [laneAt, ofLanes, BitVec.extractLsb'_toNat, Nat.shiftRight_eq_div_pow, BitVec.toNat_ofNat, Nat.mod_eq_of_lt hlt, packLE_div]

/-- A register made of lane codes has them as its lanes. -/
theorem lanesOf_ofLanes {w : Bool} {l : List Nat} {i : Nat} (hl : l.length ≤ laneCount w) (h : i < laneCount w) :
    (lanesOf w (ofLanes w l)).getD i 0 = l.getD i 0 % 2 ^ laneBits w := by
  rw [lanesOf_getD _ h, laneAt_ofLanes i hl]

/-- R74: the lanes that a mask selects are written whole, the others not at all. -/
theorem laneAt_laneMask {w : Bool} {i : Nat} (m : W128) (h : i < laneCount w) :
    laneAt w (laneMask w m) i = if laneOn w m i then BitVec.allOnes (laneBits w) else 0 := by
  apply BitVec.eq_of_toNat_eq
  rw [laneMask, laneAt_ofLanes i (by simp)]
  rw [List.getD_eq_getElem _ _ (by simpa using h), List.getElem_map, List.getElem_range]
  split
  · rw [BitVec.toNat_allOnes, Nat.mod_eq_of_lt (Nat.sub_lt (by positivity) one_pos)]
  · exact Nat.zero_mod _

/-- A masked write puts the new lane where the mask selects it and keeps the old one elsewhere. -/
theorem laneAt_mergeBits {w : Bool} {i : Nat} (old val : V2048) (m : W128) (h : i < laneCount w) :
    laneAt w (mergeBits old val (laneMask w m)) i = if laneOn w m i then laneAt w val i else laneAt w old i := by
  have hm := laneAt_laneMask m h
  have hfit : laneBits w * i + laneBits w ≤ 2048 := by
    rw [← laneWidth w, ← Nat.mul_succ]
    exact Nat.mul_le_mul_left _ h
  have hsplit : laneAt w (mergeBits old val (laneMask w m)) i =
      (laneAt w old i &&& ~~~laneAt w (laneMask w m) i) ||| (laneAt w val i &&& laneAt w (laneMask w m) i) := by
    ext j hj
    have : laneBits w * i + j < 2048 := by omega
    simp [laneAt, mergeBits, BitVec.getElem_extractLsb', this]
  rw [hsplit, hm]
  split <;> simp

theorem vregAt_land_same (t : Tile) (vd : Fin 32) (val lanes : V2048) (blocks : Option Nat) :
    vregAt (microStep t (.vreg vd val lanes blocks)) vd = mergeBits (vregAt t vd) val lanes := by
  simp [vregAt, microStep, List.getD_eq_getElem?_getD]

theorem vregAt_land_ne (t : Tile) {vd u : Fin 32} (val lanes : V2048) (blocks : Option Nat) (h : u ≠ vd) :
    vregAt (microStep t (.vreg vd val lanes blocks)) u = vregAt t u := by
  have hne : vd.val ≠ u.val := fun e => h (Fin.ext e.symm)
  simp [vregAt, microStep, List.getD_eq_getElem?_getD, Vector.toList_setIfInBounds, hne]

theorem zipWith_getD (f : Nat → Nat → Nat) (l l' : List Nat) (d : Nat) {i : Nat} (h : i < l.length) (h' : i < l'.length) :
    (List.zipWith f l l').getD i d = f (l.getD i 0) (l'.getD i 0) := by
  rw [List.getD_eq_getElem _ _ (by simp; omega), List.getElem_zipWith, List.getD_eq_getElem _ _ h, List.getD_eq_getElem _ _ h']

end Sys2Proof.Machine

namespace Sys2Proof.Proofs
open Sys2Proof Sys2Proof.Machine

/-- Settles O8, by what each operation makes of a ready tile. -/
theorem scalarOps : Obligations.ScalarOps := by
  unfold Obligations.ScalarOps
  intro t r imm slot s h
  simp only [← setScalar_eq]
  refine ⟨onTile_issued h _, fun hslot => ?_, onTile_issued h _, onTile_issued h _, onTile_issued h _⟩
  cases slot with
  | ctl => exact absurd rfl hslot
  | mxu => exact answers_quiet h id rfl rfl
  | vec => exact answers_quiet h id rfl rfl
  | mem => exact answers_quiet h id rfl rfl
  | fab => exact answers_quiet h id rfl rfl

/-- Settles O10: the ac of a bundle move the ac count alone, whatever lands meanwhile. -/
theorem bundleTiming : Obligations.BundleTiming := by
  unfold Obligations.BundleTiming
  exact fun tl n => ⟨closeBundle_ac n tl, closeBundle_sregs n tl, closeBundle_pc n tl, closeBundle_loops n tl, closeBundle_of_idle n⟩

/-- Settles O12: each operation reads its registers at issue and leaves a result for its latency. -/
theorem vectorOps : Obligations.VectorOps := by
  unfold Obligations.VectorOps
  refine ⟨fun t vd va vb mask w s h => ⟨
      answers_quiet h (vec2 .add 4 vd va vb mask w) rfl rfl, answers_quiet h (vec2 .sub 4 vd va vb mask w) rfl rfl,
      answers_quiet h (vec2 .mul 4 vd va vb mask w) rfl rfl, answers_quiet h (vec2 .min 4 vd va vb mask w) rfl rfl,
      answers_quiet h (vec2 .max 4 vd va vb mask w) rfl rfl, answers_quiet h (vec2 .div 14 vd va vb mask w) rfl rfl,
      answers_quiet h (opVfma vd va vb mask w) rfl rfl,
      fun cond target htarget => ?_, fun cond => answers_quiet h id rfl rfl⟩,
    fun t vd va mask w s h => ⟨
      answers_quiet h (opVsqrt vd va mask w) rfl rfl, answers_quiet h (vecFn .rsqrt 10 vd va mask w) rfl rfl,
      answers_quiet h (vecFn .exp2 10 vd va mask w) rfl rfl, answers_quiet h (vecFn .log2 10 vd va mask w) rfl rfl,
      answers_quiet h (vecFn .exp 16 vd va mask w) rfl rfl, answers_quiet h (vecFn .log 16 vd va mask w) rfl rfl,
      answers_quiet h (vecFn .tanh 16 vd va mask w) rfl rfl, answers_quiet h (vecFn .sigmoid 16 vd va mask w) rfl rfl,
      answers_quiet h (vecFn .erf 16 vd va mask w) rfl rfl, answers_quiet h (vecFn .sin 18 vd va mask w) rfl rfl,
      answers_quiet h (vecFn .cos 18 vd va mask w) rfl rfl, answers_quiet h (vecFn .gelu 20 vd va mask w) rfl rfl,
      answers_quiet h (vecFn .silu 20 vd va mask w) rfl rfl⟩⟩
  have hop : opVcmp va vb mask w cond target (tileAt s.chip t) = later 4 _ (tileAt s.chip t) := if_neg htarget
  have hans : Answers (.vcmp t va vb mask w cond target) s (withTile s t (opVcmp va vb mask w cond target (tileAt s.chip t))) :=
    answers_quiet h _ rfl (by rw [hop]; rfl)
  rwa [hop] at hans

/-- Settles O14: a masked write merges lane by lane. -/
theorem maskedLanes : Obligations.MaskedLanes := by
  unfold Obligations.MaskedLanes
  intro tl vd w m new hnew
  refine ⟨fun i hi => ?_, fun u hu => vregAt_land_ne tl _ _ _ hu⟩
  rw [vregAt_land_same, lanesOf_getD _ hi, laneAt_mergeBits _ _ m hi, lanesOf_getD _ hi]
  change (if laneOn w m i then laneAt w (ofLanes w new) i else laneAt w (vregAt tl vd) i).toNat =
    if laneOn w m i then new.getD i 0 % 2 ^ laneBits w else (laneAt w (vregAt tl vd) i).toNat
  rw [← laneAt_ofLanes i hnew.le, apply_ite BitVec.toNat]

/-- Settles O15: the lanes of a result are the operation's results lane by lane. -/
theorem laneArithmetic : Obligations.LaneArithmetic := by
  unfold Obligations.LaneArithmetic
  intro op w a b i hi
  rw [vecBin, lanesOf_ofLanes (by simp) hi, zipWith_getD _ _ _ _ (by simpa using hi) (by simpa using hi)]

end Sys2Proof.Proofs

/-! SUPPORT. What reads of tile SRAM leave alone, and the vector moves, memory, matrix and fabric slots (R80-R97, R109-R115). -/

namespace Sys2Proof.Machine

/-! Reads of SRAM. -/

/-- A tile without what its SRAM reads leave behind: upsets that strike, words found bad, counts, the write-back queue, events. -/
def unread (t : Tile) : Tile := { t with sram := [], upsets := [], corrected := 0, poisoned := 0, wbQueue := [], ev := [] }

section ReadFrame

theorem unread_queue (wa : Nat) (t : Tile) : unread (queueWriteBack wa t) = unread t := by
  unfold queueWriteBack; split <;> rfl

theorem unread_sramNote (wa : Nat) (r : CodeResult × SWord) (t : Tile) : unread (sramNote wa r t) = unread t := by
  unfold sramNote; split
  · exact (unread_queue _ _).trans rfl
  · rfl
  · split <;> rfl

@[simp] theorem unread_sramRead (t : Tile) (wa : Nat) : unread (sramRead t wa).2 = unread t :=
  (unread_sramNote _ _ _).trans rfl

theorem unread_foldl {α : Type} (f : Tile → α → Tile) (h : ∀ t a, unread (f t a) = unread t) (l : List α) (t : Tile) :
    unread (l.foldl f t) = unread t := by
  induction l generalizing t with
  | nil => rfl
  | cons a l ih => rw [List.foldl_cons, ih, h]

@[simp] theorem unread_strike (us : List (Nat × Upset)) (t : Tile) : unread (strike us t) = unread t :=
  unread_foldl _ (fun _ _ => by rfl) us t

@[simp] theorem unread_readHeld (d : W256) (ss : List WinSrc) (t : Tile) : unread (readHeld d ss t) = unread t :=
  (unread_foldl _ (fun _ _ => unread_sramNote _ _ _) _ _).trans (unread_foldl _ (fun t wa => unread_sramRead t wa) _ _)

@[simp] theorem unread_winFetch (t : Tile) (d : W256) (s : WinSrc) : unread (winFetch t d s).2 = unread t := by
  cases s with
  | zero => rfl
  | fill => rfl
  | word => exact unread_sramRead _ _

end ReadFrame

section Strike
variable (us : List (Nat × Upset)) (t : Tile)

theorem agdAt_strike (i : Nat) : agdAt (strike us t) i = agdAt t i := (congrArg (agdAt · i) (unread_strike us t) :)
theorem walkAt_strike (i : Nat) : walkAt (strike us t) i = walkAt t i := (congrArg (walkAt · i) (unread_strike us t) :)
theorem maskAt_strike (i : Nat) : maskAt (strike us t) i = maskAt t i := (congrArg (maskAt · i) (unread_strike us t) :)
theorem aodAt_strike (i : Nat) : aodAt (strike us t) i = aodAt t i := (congrArg (aodAt · i) (unread_strike us t) :)
theorem sregs_strike : (strike us t).sregs = t.sregs := (congrArg Tile.sregs (unread_strike us t) :)
theorem ac_strike : (strike us t).ac = t.ac := (congrArg Tile.ac (unread_strike us t) :)

end Strike

/-! Results scheduled. -/

/-- Scheduling a result for each item of a list adds them to what is in flight, and changes nothing else. -/
theorem foldl_later {α : Type} {f : Tile → α → Tile} {k : α → Nat} {m : α → Micro} (hf : ∀ t a, f t a = later (k a) (m a) t)
    (l : List α) (t : Tile) : l.foldl f t = { t with pend := t.pend ++ l.map fun a => (t.ac + k a, m a) } := by
  induction l generalizing t with
  | nil => simp
  | cons a l ih => rw [List.foldl_cons, ih, hf]; simp [later]

theorem mem_later {e : Nat × Micro} (k : Nat) (m : Micro) {t : Tile} (h : e ∈ t.pend) : e ∈ (later k m t).pend :=
  List.mem_append_left _ h

theorem mem_later_self {t : Tile} (k : Nat) (m : Micro) : (t.ac + k, m) ∈ (later k m t).pend :=
  List.mem_append_right _ (List.mem_singleton_self _)

/-! Takes move the walk of their descriptor alone. -/

theorem take_eq (t : Tile) (i : Nat) : ∃ w, (take t i).2 = { t with walks := w } := by
  dsimp only [take]; split
  exacts [⟨_, rfl⟩, ⟨_, rfl⟩, ⟨t.walks, rfl⟩]

theorem takes_eq (n : Nat) (t : Tile) (i : Nat) : ∃ w, (takes n t i).2 = { t with walks := w } := by
  induction n generalizing t with
  | zero => exact ⟨t.walks, rfl⟩
  | succ n ih =>
    obtain ⟨w, hw⟩ := take_eq t i
    obtain ⟨w', hw'⟩ := ih (take t i).2
    exact ⟨w', hw'.trans (by rw [hw])⟩

@[simp] theorem takes_length (n : Nat) (t : Tile) (i : Nat) : (takes n t i).1.length = n := by
  induction n generalizing t with
  | zero => rfl
  | succ n ih => simp [takes, ih]

/-! The vector moves (R96, R97). -/

/-- R97: a tap of a pooling leaves the next tap for the ac after it, the last one the result for 7 ac later. -/
theorem vpoolStep_pend (vd : Nat) (d : W256) (k : Walk) (kind : Nat) (w : Bool) (lanes : V2048) (tap inside : Nat)
    (got : List (List Nat)) (v : Tile) :
    ∃ lane n, (vpoolStep vd d k kind w lanes tap got inside v).pend = v.pend ++
      [if tap + 1 < (winOf d).kh * (winOf d).kw then (v.ac + 1, .vpool vd d k kind w lanes (tap + 1) (got ++ [lane]) n)
       else (v.ac + 7, .vreg vd (ofLanes w (poolLanes kind w (got ++ [lane]) ((winOf d).kh * (winOf d).kw) n)) lanes none)] := by
  have hread (src : WinSrc) : unread (winFetch (readHeld d [src] v) d src).2 = unread v := by simp
  have hpend (src : WinSrc) : (winFetch (readHeld d [src] v) d src).2.pend = v.pend := (congrArg Tile.pend (hread src) :)
  have hac (src : WinSrc) : (winFetch (readHeld d [src] v) d src).2.ac = v.ac := (congrArg Tile.ac (hread src) :)
  by_cases ht : tap + 1 < (winOf d).kh * (winOf d).kw
  · simp only [vpoolStep, ht, if_true, later, hpend, hac]
    exact ⟨_, _, rfl⟩
  · simp only [vpoolStep, ht, if_false, later, hpend, hac]
    exact ⟨_, _, rfl⟩

/-! Stores (R85, R96). -/

/-- Word i of a store is in flight to the address of its take, 1 + ⌊i / 4⌋ ac later. -/
theorem mem_vstIssue {vs agd n i : Nat} (sc : Bool) {t : Tile} (h : i < n) :
    (t.ac + (1 + i / 4), Micro.sram ((takes n t agd).1.getD i 0) { data := (vregAt t vs).extractLsb' (256 * i) 256 }) ∈
      (vstIssue vs agd sc n t).pend := by
  have hlen : i < (takes n t agd).1.length := by rwa [takes_length]
  obtain ⟨w, hw⟩ := takes_eq n t agd
  let word (p : Nat × Nat) : Micro := .sram p.1 { data := (vregAt t vs).extractLsb' (256 * p.2) 256 }
  have hwords := foldl_later (f := fun t p => later (1 + p.2 / 4) (word p) t) (fun _ _ => rfl) (takes n t agd).1.zipIdx (takes n t agd).2
  have hmem : (t.ac + (1 + i / 4), word ((takes n t agd).1.getD i 0, i)) ∈
      ((takes n t agd).1.zipIdx.foldl (fun t p => later (1 + p.2 / 4) (word p) t) (takes n t agd).2).pend := by
    rw [hwords, hw]
    refine List.mem_append_right _ (List.mem_map.mpr ⟨((takes n t agd).1.getD i 0, i), ?_, rfl⟩)
    rw [List.mk_mem_zipIdx_iff_getElem?, List.getElem?_eq_getElem hlen, List.getD_eq_getElem _ _ hlen]
  dsimp only [vstIssue]
  split_ifs
  · exact hmem
  · exact mem_later _ _ (mem_later _ _ hmem)
  · exact mem_later _ _ hmem

/-! The matrix slot (R80-R84). -/

/-- MPRE with PRE 0b00: every entry of the count is zeroed 2 ac later. -/
theorem mem_mpreIssue {agd aod m0 count i : Nat} {t : Tile} (hpre : (aodOf (aodAt t aod)).pre = .zero) (h : i < count) :
    (t.ac + 2, Micro.accSet (m0 + i) (List.replicate 32 accZero)) ∈ (mpreIssue agd aod m0 count t).pend := by
  have hset := foldl_later (f := fun t i => later 2 (.accSet (m0 + i) (List.replicate 32 accZero)) t) (fun _ _ => rfl) (List.range count) t
  simp only [mpreIssue, hpre, hset]
  exact List.mem_append_right _ (List.mem_map.mpr ⟨i, List.mem_range.mpr h, rfl⟩)

/-- An MRUN from the window schedules its entry's products for 6 ac later. -/
theorem mem_mrunStep_window (sel aod m left d : Nat) (half odd first : Bool) (carry : List SWord) (base : Nat) (scales : List Nat × Bool)
    (t : Tile) :
    let e : WinEntry := cellsGet {} t.window (64 * sel + (m + d) % 64)
    (t.ac + 6, if (aodOf (aodAt t aod)).fa = some .mxE3m2 ∨ (aodOf (aodAt t aod)).fa = some .mxE2m3 then looseAdd (aodAt t aod) m
      else mrunAdd t.active (aodAt t aod) m fun f k => aFromWords f k half false
        [{ data := e.data, poison := e.poison || (fmtIsMx f && e.spoison) }] [e.scale % 256, e.scale / 256]) ∈
      (mrunStep true sel aod m left d half odd first carry base scales t).pend := by
  intro e
  have hmx : (((aodOf (aodAt t aod)).fa.getD .int8 == .mxE3m2 || (aodOf (aodAt t aod)).fa.getD .int8 == .mxE2m3) = true) ↔
      (aodOf (aodAt t aod)).fa = some .mxE3m2 ∨ (aodOf (aodAt t aod)).fa = some .mxE2m3 := by
    cases (aodOf (aodAt t aod)).fa <;> simp
  simp only [mrunStep, if_true, hmx]
  split
  · exact mem_later_self 6 _
  · exact mem_later _ _ (mem_later_self 6 _)

/-! The fabric slot and lines of the instruction store (R63, R68). -/

/-- The tile whose line is found uncorrectable, before what it has in flight completes. -/
def lineStopped (line : Nat) (t : Tile) : Tile :=
  { t with lineLost := true, linesLost := satAdd allOnes32 t.linesLost 1
           lostLines := if t.lostLines.contains line then t.lostLines else t.lostLines ++ [line] }

theorem loseLine_eq (line : Nat) (t : Tile) : loseLine line t = tileEv (.lineLost line) (acDrain drainBound (lineStopped line t)) := rfl

theorem mem_lineStopped (line : Nat) (t : Tile) : line ∈ (lineStopped line t).lostLines := by
  dsimp only [lineStopped]
  split
  case isTrue h => exact List.contains_iff_mem.mp h
  case isFalse => exact List.mem_append_right _ (List.mem_singleton_self _)

/-- What is left in flight when a line is lost completes; the entry address and the lost lines stay. -/
theorem loseLine_seq (line : Nat) (t : Tile) :
    (loseLine line t).lineLost = true ∧ (loseLine line t).entry = t.entry ∧ line ∈ (loseLine line t).lostLines ∧
      .lineLost line ∈ (loseLine line t).ev := by
  obtain ⟨k, hk⟩ := seq_acDrain drainBound (lineStopped line t)
  simp only [seqPart, Prod.mk.injEq] at hk
  obtain ⟨_, _, hentry, _, _, _, _, hlost, hlines⟩ := hk
  rw [loseLine_eq]
  exact ⟨hlost, hentry, (congrArg (line ∈ ·) hlines).mpr (mem_lineStopped line t), List.mem_append_right _ (List.mem_singleton_self _)⟩

section Fetch
variable {t : Tile}

/-- What a fetch makes of its line turns on the line's upset alone. -/
theorem fetchLine_clean (h : cellsGet 0 t.lineUpsets (t.pc / 2 % 2048) = 0) : fetchLine t = t := by
  simp only [fetchLine, lineLook, h, burstDecode, if_true]

theorem fetchLine_corrected (h0 : cellsGet 0 t.lineUpsets (t.pc / 2 % 2048) ≠ 0)
    (h : errSpan (cellsGet 0 t.lineUpsets (t.pc / 2 % 2048)) ≤ 16) :
    fetchLine t = tileEv (.corrected (t.pc / 2 % 2048)) { t with corrected := satAdd allOnes32 t.corrected 1 } := by
  simp only [fetchLine, lineLook, burstDecode_corrected _ h0 h]

theorem fetchLine_uncorrectable (hl : 16 < errSpan (cellsGet 0 t.lineUpsets (t.pc / 2 % 2048)))
    (hu : errSpan (cellsGet 0 t.lineUpsets (t.pc / 2 % 2048)) ≤ 32) : fetchLine t = loseLine (t.pc / 2 % 2048) t := by
  simp only [fetchLine, lineLook, burstDecode_uncorrectable _ hl hu]

end Fetch

end Sys2Proof.Machine

namespace Sys2Proof.Proofs
open Sys2Proof Sys2Proof.Machine

/-- Settles O13: the moves land at their latency; a pooling goes on tap by tap. -/
theorem vectorMoves : Obligations.VectorMoves := by
  unfold Obligations.VectorMoves
  refine ⟨fun t vd va mask w s h => ⟨fun fo ovf => ?_, answers_quiet h (opReduce redSum vd va mask w) rfl rfl,
    answers_quiet h (opReduce numMax vd va mask w) rfl rfl, answers_quiet h (opReduce numMin vd va mask w) rfl rfl,
    answers_quiet h (opVmov vd va mask w) rfl rfl, fun k => answers_quiet h (opVbcast vd va mask w k) rfl rfl,
    fun agd kind us => ?_⟩, vpoolStep_pend⟩
  · have hans : Answers (.vcvt t vd va mask w fo ovf) s (issued s t (opVcvt vd va mask w fo ovf (tileAt s.chip t))) := onTile_issued h _
    rw [opVcvt, h.ev] at hans
    exact hans
  · have hans : Answers (.vpool t vd agd mask w kind us) s (issued s t (opVpool vd agd mask w kind (strike us (tileAt s.chip t)))) :=
      onTile_issued h _
    rwa [opVpool, agdAt_strike, walkAt_strike, maskAt_strike] at hans

/-- Settles O16: each operation reads at issue and leaves its result for its latency. -/
theorem memoryOps : Obligations.MemoryOps := by
  unfold Obligations.MemoryOps
  intro t agd r us s h tl st ad here
  have hregs : st.sregs[r] = tl.sregs[r] := by simp only [st, sregs_strike]
  refine ⟨fun vd => onTile_issued h fun tl => opVld vd agd (strike us tl), fun vd fmt w => onTile_issued h fun tl => opVldc vd agd fmt w (strike us tl),
    fun vs sc n => ⟨onTile_issued h (vstIssue vs agd sc (n.val + 1)), fun i hi => mem_vstIssue sc (Nat.lt_succ_of_le hi)⟩,
    fun slot ky kx0 => ?_, fun kind => answers_quiet h (later 1 (.walkStep agd kind)) rfl rfl, answers_quiet h (later 1 (.walkReset agd)) rfl rfl,
    ?_, fun q => ?_, fun mask hmask => ?_, onTile_issued h fun tl => opMkld 0 agd (strike us tl)⟩
  · have hans : Answers (.wld t slot agd ky kx0 us) s (issued s t (opWld slot agd ky kx0 st)) := onTile_issued h fun tl => opWld slot agd ky kx0 (strike us tl)
    simp only [opWld, wldPlan, wldEntries, st, agdAt_strike, walkAt_strike] at hans
    exact hans
  · have hans : Answers (.agld t agd r us) s (issued s t (opAgld agd r st)) := onTile_issued h fun tl => opAgld agd r (strike us tl)
    rwa [opAgld, hregs] at hans
  · have hans : Answers (.adld t q r us) s (issued s t (opAdld q r st)) := onTile_issued h fun tl => opAdld q r (strike us tl)
    rwa [opAdld, hregs] at hans
  · have hans : Answers (.mkld t mask agd us) s (issued s t (opMkld mask agd st)) := onTile_issued h fun tl => opMkld mask agd (strike us tl)
    simp only [opMkld, if_neg hmask] at hans
    exact hans

/-- Settles O18: what each matrix operation starts. -/
theorem matrixOps : Obligations.MatrixOps := by
  unfold Obligations.MatrixOps
  intro t agd aod m0 count us s h tl st d
  have hd : aodOf (aodAt st aod) = d := by simp only [st, d, aodAt_strike]
  refine ⟨fun f hf => ?_, onTile_issued h fun tl => mpreIssue agd aod m0 (count.val + 1) (strike us tl), fun hpre i hi => ?_,
    fun src sw half sel dd => onTile_issued h fun tl => opMrun src sel aod m0 count sw half dd (strike us tl), fun half sel dd => mem_mrunStep_window ..,
    onTile_issued h (opMout agd aod m0 count)⟩
  · have hans : Answers (.mload t agd aod us) s (issued s t (opMload agd aod st)) := onTile_issued h fun tl => opMload agd aod (strike us tl)
    simp only [opMload, hd, hf, Option.getD_some] at hans
    exact hans
  · have hac : st.ac = tl.ac := ac_strike us tl
    rw [← hac]
    exact mem_mpreIssue (hd ▸ hpre) (Nat.lt_succ_of_le hi)

/-- Settles O19: what SEND, RECV and the fetch of a line make of a ready tile. -/
theorem fabricSlot : Obligations.FabricSlot := by
  unfold Obligations.FabricSlot
  intro t handle agd n s h tl
  refine ⟨fun us => onTile_issued h fun tl => opSend handle agd n (strike us tl), fun c ch ws hch => ?_, fun ch hch => ?_, fun e => ?_⟩
  · simp only [tileEvent, hch]
  · have hans : Answers (.recv t handle agd n) s (issued s t _) :=
      onTile_issued h fun tl => match recvChannel s.chip t handle with | none => tl | some ch => opRecv ch agd (n.val + 1) tl
    simp only [hch] at hans
    exact hans
  · intro line u hit
    have hans : Answers (.instructionLineLost t e) s (issued s t (fetchLine hit)) := onTile_issued h fun tl => fetchLine (strikeLines [(tl.pc / 2, e)] tl)
    have hu : cellsGet 0 hit.lineUpsets (hit.pc / 2 % 2048) = u := cellsGet_set_same _ _ _ _
    have hev : hit.ev = [] := h.ev
    refine ⟨fun h0 => ?_, fun h0 hs => ?_, fun hl hs => ⟨_, hans, ?_⟩⟩
    · rwa [fetchLine_clean (hu.trans h0), issued_quiet hev h.2.2.2.2] at hans
    · rw [fetchLine_corrected (hu ▸ h0) (hu ▸ hs), tileEv, hev] at hans
      exact hans
    · rw [fetchLine_uncorrectable (hu ▸ hl) (hu ▸ hs)]
      exact loseLine_seq line hit

end Sys2Proof.Proofs

/-! SUPPORT. What the card's, the window's, the dictionary's and the power commands leave alone (R361, R377, R383, R391). -/

namespace Sys2Proof.Machine

/-- A command that asks for no at-once re-latch answers with the module as its meaning leaves it. -/
theorem chip_of_onChip {i : Instr} {s s' : State} {f : Chip → Chip} (hx : exec i s = onChip f s) (h : exec i s = .next s')
    (hr : (f s.chip).dict.relatch = false) : s'.chip = f s.chip := by
  obtain rfl := Host.Outcome.next.inj (h.symm.trans (hx.trans (onChip_of_clear f s hr)))
  rfl

/-! The card (R377, R383). -/

/-- Nothing but the card, and the count of free values, is changed. -/
def CardOnly (c d : Chip) : Prop := d = { c with card := d.card, free := d.free }

theorem cardOnly_answer (a : CardAns) (c : Chip) : CardOnly c (answer a c) := rfl

theorem cardOnly_onCard {f : Chip → Chip} {c : Chip} (h : CardOnly c (f c)) : CardOnly c (onCard f c) := by
  unfold onCard; split
  · exact h
  · exact cardOnly_answer _ _

theorem cardOnly_cmd7 (rca : Nat) (c : Chip) : CardOnly c (cmd7 rca c) :=
  cardOnly_onCard (by dsimp only; split <;> rfl)

theorem cardOnly_cmd15 (rca : Nat) (c : Chip) : CardOnly c (cmd15 rca c) :=
  cardOnly_onCard (by dsimp only; split <;> rfl)

theorem cardOnly_onSelected (a : CardAns) (c : Chip) : CardOnly c (onSelected (answer a) c) :=
  cardOnly_onCard (by split <;> rfl)

theorem cardOnly_ioAbort (c : Chip) : CardOnly c (if cardAlive c then ioAbort c else c) := by
  split <;> rfl

theorem CardOnly.relatch {c d : Chip} (h : CardOnly c d) (hr : c.dict.relatch = false) : d.dict.relatch = false := by
  rw [h]; exact hr

/-- A command that changes the card alone, before anything is re-latched, changes the card alone. -/
theorem cardOnly_exec {i : Instr} {s s' : State} {f : Chip → Chip} (hx : exec i s = onChip f s) (h : exec i s = .next s')
    (hr : s.chip.dict.relatch = false) (hf : CardOnly s.chip (f s.chip)) : CardOnly s.chip s'.chip := by
  rw [chip_of_onChip hx h (hf.relatch hr)]; exact hf

/-- The commands of the card but CMD52 and CMD53 change the card alone. -/
theorem exec_cardOnly {s s' : State} {i : Instr} (hr : s.chip.dict.relatch = false) (h : exec i s = .next s') (a : BitVec 16)
    (hi : i ∈ [Instr.cmd3, .cmd5, .cmd7 a, .cmd11, .cmd15 a, .cmd19, .ioAbort, .unsupportedSdioCommand]) : CardOnly s.chip s'.chip := by
  simp only [List.mem_cons, List.not_mem_nil, or_false] at hi
  obtain rfl | rfl | rfl | rfl | rfl | rfl | rfl | rfl := hi
  · exact cardOnly_exec (f := cmd3) rfl h hr (cardOnly_onCard rfl)
  · exact cardOnly_exec (f := cmd5) rfl h hr (cardOnly_onCard rfl)
  · exact cardOnly_exec (f := cmd7 a.toNat) rfl h hr (cardOnly_cmd7 _ _)
  · exact cardOnly_exec (f := onCard (answer .accepted)) rfl h hr (cardOnly_onCard rfl)
  · exact cardOnly_exec (f := cmd15 a.toNat) rfl h hr (cardOnly_cmd15 _ _)
  · exact cardOnly_exec (f := onSelected (answer (.tuning ((List.range 64).map Config.tuningByte)))) rfl h hr (cardOnly_onSelected _ _)
  · exact cardOnly_exec (f := fun c => if cardAlive c then ioAbort c else c) rfl h hr (cardOnly_ioAbort _)
  · exact cardOnly_exec (f := answer .silent) rfl h hr (cardOnly_answer _ _)

/-! The window (R384, R387). -/

theorem winGo_only (c : Chip) : winGo c = { c with win := (winGo c).win } := by
  unfold winGo; split <;> rfl

/-- GO and DISCARD change the window alone. -/
theorem exec_winOnly {s s' : State} {i : Instr} (hr : s.chip.dict.relatch = false) (h : exec i s = .next s') (hi : i ∈ [Instr.go, .discard]) :
    s'.chip = { s.chip with win := s'.chip.win } := by
  have key (f : Chip → Chip) (hx : exec i s = onChip f s) (hf : f s.chip = { s.chip with win := (f s.chip).win }) :
      s'.chip = { s.chip with win := s'.chip.win } := by
    rw [chip_of_onChip hx h (by rw [hf]; exact hr)]; exact hf
  simp only [List.mem_cons, List.not_mem_nil, or_false] at hi
  obtain rfl | rfl := hi
  · exact key (fun c => if cardAlive c then winGo c else c) rfl (by dsimp only; split; exacts [winGo_only _, rfl])
  · exact key (fun c => if cardAlive c then winDiscard c else c) rfl (by dsimp only; split <;> rfl)

/-- A reset of the card changes the card and the window alone. -/
theorem exec_sdioReset_only {s s' : State} (hr : s.chip.dict.relatch = false) (h : exec .sdioReset s = .next s') :
    s'.chip = { s.chip with card := s'.chip.card, win := s'.chip.win } := by
  have hf : (if cardAlive s.chip then sdioReset s.chip else s.chip).dict.relatch = false := by split <;> exact hr
  rw [chip_of_onChip (f := fun c => if cardAlive c then sdioReset c else c) rfl h hf]
  dsimp only
  split <;> rfl

/-! Writes that configure the module (R391). -/

/-- The parts of the module that a write of the configuration leaves alone. -/
def unconfigured (c : Chip) : Grid × HbmSt × VideoSt × PlanSt × LinkSt × NetSt × PowerSt × TickSt × FwSt × IntakeSt × CardSt × WindowSt ×
    Bool :=
  (c.grid, c.hbm, c.video, c.plan, c.link, c.net, c.power, c.tk, c.fw, c.intake, c.card, c.win, c.dict.relatch)

@[simp] theorem unconfigured_objSet (i k n v : Nat) (c : Chip) : unconfigured (objSet i k n v c) = unconfigured c := rfl
@[simp] theorem unconfigured_objBump (i k n v : Nat) (c : Chip) : unconfigured (objBump i k n v c) = unconfigured c := rfl
@[simp] theorem unconfigured_blobSet (i k n : Nat) (v : List Byte) (c : Chip) : unconfigured (blobSet i k n v c) = unconfigured c := rfl
@[simp] theorem unconfigured_setCtxVal (r : Role) (i k v : Nat) (c : Chip) : unconfigured (setCtxVal r i k v c) = unconfigured c := rfl
@[simp] theorem unconfigured_setGroup (n : Nat) (g : SnapGroup) (c : Chip) : unconfigured (setGroup n g c) = unconfigured c := rfl
@[simp] theorem unconfigured_setServ (v : ServSt) (c : Chip) : unconfigured (setServ v c) = unconfigured c := rfl
@[simp] theorem unconfigured_setQuote (n : Nat) (q : QuoteSlot) (c : Chip) : unconfigured (setQuote n q c) = unconfigured c := rfl
@[simp] theorem unconfigured_deferWrite (i k n : Nat) (b : List Byte) (c : Chip) : unconfigured (deferWrite i k n b c) = unconfigured c := rfl
@[simp] theorem unconfigured_noteRes (p : Chip × Res) : unconfigured (noteRes p) = unconfigured p.1 := rfl

@[simp] theorem unconfigured_alertEval (c : Chip) : unconfigured (alertEval c) = unconfigured c := by
  dsimp only [alertEval]; split <;> rfl

@[simp] theorem unconfigured_extend (reg ev : Nat) (d : BitVec 256) (c : Chip) : unconfigured (extend reg ev d c) = unconfigured c := by
  dsimp only [extend, measLog]; split <;> rfl

@[simp] theorem unconfigured_noteCommand (row : ObjRow) (i n v : Nat) (res : Res) (c : Chip) :
    unconfigured (noteCommand row i n v res c) = unconfigured c := by
  obtain ⟨o, a, h⟩ := noteCommand_note row i n v res c
  rw [h]; rfl

/-- A command that configures: whatever it answers, it leaves those parts alone. -/
def Configures (f : Cmd) (b : List Byte) : Prop := ∀ img r n c, unconfigured (f img r n b c).1 = unconfigured c

theorem configures_ack (b : List Byte) : Configures cmdAck b := by
  intro img r n c
  dsimp only [cmdAck]; split <;> simp

theorem configures_enable (b : List Byte) : Configures cmdEnable b := by
  intro img r n c
  dsimp only [cmdEnable]; split <;> simp

theorem configures_members (b : List Byte) : Configures cmdMembers b := by
  intro img r n c
  dsimp only [cmdMembers]; split_ifs <;> rfl

theorem configures_latch (b : List Byte) : Configures cmdLatch b := by
  intro img r n c
  dsimp only [cmdLatch]; split_ifs
  · rfl
  · rfl
  · split <;> rfl

theorem configures_trace (b : List Byte) : Configures cmdTrace b := by
  intro img r n c
  dsimp only [cmdTrace]; split <;> rfl

theorem configures_tray (b : List Byte) : Configures cmdTray b := by
  intro img r n c
  dsimp only [cmdTray]; split_ifs <;> rfl

theorem configures_extend (b : List Byte) : Configures cmdExtend b := by
  intro img r n c
  dsimp only [cmdExtend]; split_ifs <;> simp

theorem configures_planKey (k : Nat) (b : List Byte) : Configures (cmdPlanKey k) b := by
  intro img r n c
  dsimp only [cmdPlanKey]; split_ifs <;> rfl

theorem configures_nonce (b : List Byte) : Configures cmdNonce b := by
  intro img r n c
  dsimp only [cmdNonce]; split
  · split_ifs <;> rfl
  · rfl

theorem configures_quote (b : List Byte) : Configures cmdQuote b := by
  intro img r n c
  dsimp only [cmdQuote]; split_ifs <;> rfl

theorem configures_sweep (b : List Byte) : Configures cmdSweep b := by
  intro img r n c
  dsimp only [cmdSweep]; split_ifs <;> rfl

theorem configures_tenant (b : List Byte) : Configures cmdTenant b := by
  intro img r n c
  dsimp only [cmdTenant]; split_ifs <;> rfl

theorem configures_cancel (b : List Byte) : Configures cmdCancel b := fun _ _ _ _ => rfl

theorem configures_conv (b : List Byte) : Configures cmdConv b := by
  intro img r n c
  dsimp only [cmdConv]; split
  · rfl
  · split <;> rfl
  · rfl

/-- ADAPTER_RETIRE; an install also takes its handle. -/
theorem configures_adapterRetire : Configures cmdAdapter [2] := by
  intro img r n c
  dsimp only [cmdAdapter]; split
  · rfl
  · rw [show numAt [(2 : Byte)] 0 1 = 2 from rfl]
    split_ifs <;> rfl

/-! A write of the dictionary by its object. -/

theorem objRow_sub {i k : Nat} {row : ObjRow} (h : objRow i k = some row) : row.sub = k := by
  unfold objRow at h
  split at h
  · exact beq_iff_eq.mp (List.find?_some h :)
  · exact nomatch h

theorem unconfigured_writePlain (row : ObjRow) (img : Chip) (i n : Nat) (b : List Byte) (c : Chip) :
    unconfigured (writePlain row img i n b c).1 = unconfigured c := by
  dsimp only [writePlain]; split_ifs <;> rfl

theorem unconfigured_writeCommand {f : Cmd} {b : List Byte} (hf : Configures f b) {row : ObjRow} {i : Nat}
    (hn : needsRun i row.sub (natLE b) = false) (img : Chip) (r : Role) (n : Nat) (c : Chip) :
    unconfigured (writeCommand f row img r i n b c).1 = unconfigured c := by
  have hrun : unconfigured (runCommand f img r i row.sub n b c).1 = unconfigured c := by
    simp only [runCommand, hn, Bool.and_false, Bool.false_and, Bool.false_eq_true, if_false]
    exact hf img r n c
  dsimp only [writeCommand]
  split_ifs <;> simp only [unconfigured_noteCommand, hrun]

/-- A write to an object without a command that needs the module awake, and whose command configures, leaves those parts alone. -/
theorem unconfigured_dictWrite {i k : Nat} {b : List Byte} (hf : ∀ f, commandOf i k = some f → Configures f b)
    (hn : needsRun i k (natLE b) = false) (img : Chip) (r : Role) (c : Chip) :
    unconfigured (dictWrite img r i k b c).1 = unconfigured c := by
  unfold dictWrite
  split
  · rfl
  · rename_i row hrow
    have hsub := objRow_sub (findRow_row hrow)
    dsimp only
    split_ifs
    · rfl
    · rfl
    · rfl
    · rfl
    · rfl
    · split
      · rename_i f hcmd
        exact unconfigured_writeCommand (hf f hcmd) (hsub ▸ hn) img r _ c
      · exact unconfigured_writePlain ..

/-- A write command that configures leaves those parts alone. -/
theorem unconfigured_exec {s s' : State} {inst : Instr} {r : Role} {i k : Nat} {b : List Byte} (hx : exec inst s = onWrite r i k b s)
    (h : exec inst s = .next s') (hr : s.chip.dict.relatch = false)
    (hf : unconfigured (dictWrite (dictImage s) r i k b s.chip).1 = unconfigured s.chip) : unconfigured s'.chip = unconfigured s.chip := by
  have hkeep : unconfigured (if dictServes s.chip then noteRes (dictWrite (dictImage s) r i k b s.chip) else s.chip) = unconfigured s.chip := by
    split
    · exact hf
    · rfl
  have hclear := (congrArg (fun p => p.2.2.2.2.2.2.2.2.2.2.2.2) hkeep).trans hr
  rw [chip_of_onChip (f := fun c => if dictServes c then noteRes (dictWrite (dictImage s) r i k b c) else c) hx h hclear]
  exact hkeep

/-- The same where the object has a command. -/
theorem unconfigured_command {s s' : State} {inst : Instr} {r : Role} {i k : Nat} {b : List Byte} (f : Cmd)
    (hx : exec inst s = onWrite r i k b s) (h : exec inst s = .next s') (hr : s.chip.dict.relatch = false)
    (hcmd : commandOf i k = some f) (hf : Configures f b) (hn : needsRun i k (natLE b) = false) :
    unconfigured s'.chip = unconfigured s.chip :=
  unconfigured_exec hx h hr (unconfigured_dictWrite (fun _ hg => Option.some.inj (hcmd.symm.trans hg) ▸ hf) hn _ _ _)

/-- A write of a selector or a parameter sets the role's value. -/
theorem unconfigured_dictWrite_context {i k : Nat} {row : ObjRow} (hrow : objRow i k = some row) (hk : row.kind = .selector ∨ row.kind = .param)
    (b : List Byte) (img : Chip) (r : Role) (c : Chip) : unconfigured (dictWrite img r i k b c).1 = unconfigured c := by
  unfold dictWrite
  split
  · rfl
  · rename_i row' hfound
    obtain rfl := Option.some.inj (hrow.symm.trans (findRow_row hfound))
    simp only [hk, Bool.or_eq_true, decide_eq_true_eq, if_true]
    split_ifs <;> rfl

theorem objRow_of_isKind {q : ObjKind} {i k : Nat} (h : isKind q i k = true) : ∃ row, objRow i k = some row ∧ row.kind = q := by
  unfold isKind at h
  split at h
  · exact ⟨_, ‹_›, beq_iff_eq.mp h⟩
  · exact nomatch h

/-- Of the objects that REGISTER_WRITE reaches only the nonce has a command of its own. -/
theorem command_of_not_ownRow {i k : Nat} {f : Cmd} (h : ownRow i k = false) (hf : commandOf i k = some f) : f = cmdNonce ∧ i = 0x2704 := by
  simp only [ownRow, hf, Option.isSome_some, Bool.true_and, Bool.or_eq_false_iff, Bool.not_eq_false', Bool.and_eq_true, beq_iff_eq] at h
  obtain ⟨⟨⟨rfl, rfl⟩, _⟩, _⟩ := h
  exact ⟨(Option.some.inj hf).symm, rfl⟩

theorem commandOf_of_needsRun {i k v : Nat} (h : needsRun i k v = true) : (commandOf i k).isSome = true ∧ i ≠ 0x2704 := by
  simp only [needsRun, Bool.or_eq_true, Bool.and_eq_true, beq_iff_eq] at h
  obtain (⟨rfl, rfl⟩ | ⟨rfl, rfl⟩) | ⟨⟨rfl, rfl⟩, _⟩ := h <;> exact ⟨rfl, by decide⟩

theorem unconfigured_dictWrite_register {i k : Nat} (h : ownRow i k = false) (b : List Byte) (img : Chip) (r : Role) (c : Chip) :
    unconfigured (dictWrite img r i k b c).1 = unconfigured c := by
  refine unconfigured_dictWrite (fun f hf => (command_of_not_ownRow h hf).1 ▸ configures_nonce b) ?_ img r c
  by_contra hn
  obtain ⟨hsome, hne⟩ := commandOf_of_needsRun (Bool.not_eq_false _ ▸ hn)
  obtain ⟨f, hf⟩ := Option.isSome_iff_exists.mp hsome
  exact hne (command_of_not_ownRow h hf).2

/-- A command that acts on the module with no effect. -/
theorem unconfigured_id {s s' : State} (h : onChip id s = .next s') (hr : s.chip.dict.relatch = false) :
    unconfigured s'.chip = unconfigured s.chip := by
  obtain rfl := Host.Outcome.next.inj (h.symm.trans (onChip_of_clear id s hr))
  rfl

theorem unconfigured_registerWrite {s s' : State} {r : Role} {i : BitVec 16} {k : BitVec 8} {b : List Byte}
    (h : exec (.registerWrite r i k b) s = .next s') (hr : s.chip.dict.relatch = false) : unconfigured s'.chip = unconfigured s.chip := by
  have hx : exec (.registerWrite r i k b) s = execRegisterWrite r i k b s := rfl
  unfold execRegisterWrite at hx
  split at hx
  · exact unconfigured_id (hx.symm.trans h) hr
  · rename_i hown
    exact unconfigured_exec hx h hr (unconfigured_dictWrite_register (Bool.eq_false_iff.mpr hown) _ _ _ _)

theorem unconfigured_contextWrite {s s' : State} {inst : Instr} {q : ObjKind} {r : Role} {i k : Nat} {b : List Byte}
    (hq : q = .selector ∨ q = .param) (hx : exec inst s = if isKind q i k then onWrite r i k b s else onChip id s)
    (h : exec inst s = .next s') (hr : s.chip.dict.relatch = false) : unconfigured s'.chip = unconfigured s.chip := by
  split at hx
  · rename_i hkind
    obtain ⟨row, hrow, hrk⟩ := objRow_of_isKind hkind
    exact unconfigured_exec hx h hr (unconfigured_dictWrite_context hrow (hrk ▸ hq) _ _ _ _)
  · exact unconfigured_id (hx.symm.trans h) hr

/-- A read notes its value and outcome. -/
theorem unconfigured_read {s s' : State} {inst : Instr} {r : Role} {i k : Nat} (hx : exec inst s = onRead r i k s)
    (h : exec inst s = .next s') (hr : s.chip.dict.relatch = false) : unconfigured s'.chip = unconfigured s.chip := by
  unfold onRead at hx
  have hkeep : unconfigured (if !dictServes s.chip then s.chip
      else match dictRead (dictImage s) s.chip r i k with
        | .error e => noteRes (s.chip, e)
        | .ok (_, _, v) => noteRes ({ s.chip with dict := { s.chip.dict with lastData := v } }, resOk)) = unconfigured s.chip := by
    split
    · rfl
    · split <;> rfl
  rw [chip_of_onChip hx h ((congrArg (fun p => p.2.2.2.2.2.2.2.2.2.2.2.2) hkeep).trans hr)]
  exact hkeep

/-- PLAN_KEY_WRITE of slot 0, which does not exist, is a write of 2720.01, a constant. -/
theorem commandOf_planKey (slot : Fin 8) {f : Cmd} (h : commandOf 0x2720 (slot.val + 1) = some f) : f = cmdPlanKey slot.val := by
  revert h
  fin_cases slot <;> simp [commandOf] <;> exact fun h => h.symm

/-- The commands that configure the dictionary, its snapshots, alerts, trace, keys, tenants, quotes or waiting requests. -/
theorem exec_unconfigured {s s' : State} {inst : Instr} (hr : s.chip.dict.relatch = false) (h : exec inst s = .next s')
    (r : Role) (idx : BitVec 16) (sub kind : BitVec 8) (m : BitVec 32) (ns : BitVec 64) (w : BitVec 16) (slot : Fin 8) (b : List Byte)
    (hi : inst ∈ [Instr.registerWrite r idx sub b, .selectorWrite r idx sub b, .parameterWrite r idx sub b, .powerCapWrite r w,
      .alertAcknowledge r m, .alertEnable r m, .snapshotMembers r b, .latchOnce r, .latchEvery r, .latchStop r, .groupFree r, .traceClear r,
      .traceFreeze r, .traceUnfreeze r, .trayTimeWrite r ns, .extend r b, .planKeyWrite r slot b, .quoteRequest r, .quoteFree r,
      .storeSweepDone r kind, .streamSweepDone r kind, .tenantAssign r, .tenantUnassign r, .cancelRequest r m, .conversationRelease r,
      .deleteSummary r, .summaryExport r, .adapterRetire r]) :
    unconfigured s'.chip = unconfigured s.chip := by
  simp only [List.mem_cons, List.not_mem_nil, or_false] at hi
  obtain rfl | rfl | rfl | rfl | rfl | rfl | rfl | rfl | rfl | rfl | rfl | rfl | rfl | rfl | rfl | rfl | rfl | rfl | rfl | rfl | rfl | rfl |
    rfl | rfl | rfl | rfl | rfl | rfl := hi
  · exact unconfigured_registerWrite h hr
  · exact unconfigured_contextWrite (.inl rfl) rfl h hr
  · exact unconfigured_contextWrite (.inr rfl) rfl h hr
  · exact unconfigured_exec rfl h hr (unconfigured_dictWrite (i := 0x2500) (k := 0x01) nofun rfl _ _ _)
  · exact unconfigured_command cmdAck rfl h hr rfl (configures_ack _) rfl
  · exact unconfigured_command cmdEnable rfl h hr rfl (configures_enable _) rfl
  · exact unconfigured_command cmdMembers rfl h hr rfl (configures_members _) rfl
  · exact unconfigured_command cmdLatch rfl h hr rfl (configures_latch _) rfl
  · exact unconfigured_command cmdLatch rfl h hr rfl (configures_latch _) rfl
  · exact unconfigured_command cmdLatch rfl h hr rfl (configures_latch _) rfl
  · exact unconfigured_command cmdLatch rfl h hr rfl (configures_latch _) rfl
  · exact unconfigured_command cmdTrace rfl h hr rfl (configures_trace _) rfl
  · exact unconfigured_command cmdTrace rfl h hr rfl (configures_trace _) rfl
  · exact unconfigured_command cmdTrace rfl h hr rfl (configures_trace _) rfl
  · exact unconfigured_command cmdTray rfl h hr rfl (configures_tray _) rfl
  · exact unconfigured_command cmdExtend rfl h hr rfl (configures_extend _) rfl
  · exact unconfigured_exec rfl h hr (unconfigured_dictWrite (i := 0x2720) (k := slot.val + 1)
      (fun f hf => commandOf_planKey slot hf ▸ configures_planKey _ _) rfl _ _ _)
  · exact unconfigured_command cmdQuote rfl h hr rfl (configures_quote _) rfl
  · exact unconfigured_command cmdQuote rfl h hr rfl (configures_quote _) rfl
  · exact unconfigured_command cmdSweep rfl h hr rfl (configures_sweep _) rfl
  · exact unconfigured_command cmdSweep rfl h hr rfl (configures_sweep _) rfl
  · exact unconfigured_command cmdTenant rfl h hr rfl (configures_tenant _) rfl
  · exact unconfigured_command cmdTenant rfl h hr rfl (configures_tenant _) rfl
  · exact unconfigured_command cmdCancel rfl h hr rfl (configures_cancel _) rfl
  · exact unconfigured_command cmdConv rfl h hr rfl (configures_conv _) rfl
  · exact unconfigured_command cmdConv rfl h hr rfl (configures_conv _) rfl
  · exact unconfigured_read rfl h hr
  · exact unconfigured_command cmdAdapter rfl h hr rfl configures_adapterRetire rfl

/-! Droop and power estimation (R349, R361, R370). -/

/-- Nothing but power, its objects and the time is changed. -/
def PowerOnly (c d : Chip) : Prop := d = { c with power := d.power, objs := d.objs, tk := { c.tk with now := d.tk.now } }

theorem powerOnly_droopStart (t : Nat) (c : Chip) : PowerOnly c (droopStart (atTime t c)) := by
  dsimp only [droopStart]; split <;> rfl

theorem powerOnly_droopEnd (t : Nat) (c : Chip) : PowerOnly c (droopEnd (atTime t c)) := by
  dsimp only [droopEnd]; split <;> rfl

theorem powerOnly_lockExpiry (c : Chip) :
    PowerOnly c (if objGet c 0x2505 0x03 0 = 0 then { c with power := { c.power with lockStep := 6 } } else c) := by
  split <;> rfl

/-- The commands of droop and of power estimation change only power, its objects and the time. -/
theorem exec_powerOnly {s s' : State} {i : Instr} (hr : s.chip.dict.relatch = false) (h : exec i s = .next s') (t : Nat)
    (counts : List (Nat × Nat)) (hi : i ∈ [Instr.droopEvent t, .droopRecovery t, .droopLockExpiry, .powerEstimate counts, .keepWarmAdjust]) :
    PowerOnly s.chip s'.chip := by
  have key (f : Chip → Chip) (hx : exec i s = onChip f s) (hf : PowerOnly s.chip (f s.chip)) : PowerOnly s.chip s'.chip := by
    rw [chip_of_onChip hx h (by rw [hf]; exact hr)]; exact hf
  simp only [List.mem_cons, List.not_mem_nil, or_false] at hi
  obtain rfl | rfl | rfl | rfl | rfl := hi
  · exact key (fun c => droopStart (atTime t c)) rfl (powerOnly_droopStart t _)
  · exact key (fun c => droopEnd (atTime t c)) rfl (powerOnly_droopEnd t _)
  · exact key (fun c => if objGet c 0x2505 0x03 0 = 0 then { c with power := { c.power with lockStep := 6 } } else c) rfl (powerOnly_lockExpiry _)
  · exact key (powerEstimate counts) rfl rfl
  · exact key keepWarm rfl rfl

end Sys2Proof.Machine

namespace Sys2Proof.Proofs
open Sys2Proof Sys2Proof.Machine

/-- Settles O60, by what each group of commands leaves alone. -/
theorem commandFrames : Obligations.CommandFrames := by
  unfold Obligations.CommandFrames
  intro s s' i hr h
  refine ⟨exec_cardOnly hr h, exec_winOnly hr h, ?_, ?_, exec_powerOnly hr h⟩
  · rintro rfl
    exact exec_sdioReset_only hr h
  · intro r idx sub kind m ns w slot b hi
    have hkeep := exec_unconfigured hr h r idx sub kind m ns w slot b hi
    simp only [unconfigured, Prod.mk.injEq] at hkeep
    obtain ⟨hgrid, hhbm, hvideo, hplan, hlink, hnet, hpower, htk, hfw, hintake, hcard, hwin, _⟩ := hkeep
    exact ⟨hgrid, hhbm, hvideo, hplan, hlink, hnet, hpower, htk, hfw, hintake, hcard, hwin⟩

end Sys2Proof.Proofs

/-! SUPPORT. What a write to one object, a log record or a fault class leaves of the objects of another index. -/

namespace Sys2Proof.Machine

section
variable (c : Chip) {i j : Nat} (b n k m v : Nat)

theorem objGet_set_idx (h : i ≠ j) : objGet (objSet j k m v c) i b n = objGet c i b n := objGet_set_ne c v (okey_ne_idx h)
theorem objGet_bump_idx (h : i ≠ j) : objGet (objBump j k m v c) i b n = objGet c i b n := objGet_bump_ne c v (okey_ne_idx h)
theorem objGet_bumpSat_idx (h : i ≠ j) : objGet (objBumpSat j k m v c) i b n = objGet c i b n := objGet_bumpSat_ne c v (okey_ne_idx h)
theorem objGet_post_idx (h : i ≠ j) : objGet (postStatus j k m v c) i b n = objGet c i b n := objGet_postStatus_ne c v (okey_ne_idx h)

/-- A log record writes objects of 2A00 and 2811 alone. -/
theorem objGet_log_idx (sv sr : Nat) (e : LogEv) (ids : List Nat) (h : i ≠ 0x2A00) (h' : i ≠ 0x2811) :
    objGet (logRec sv sr e ids c) i b n = objGet c i b n :=
  objGet_logRec c sv sr e ids (okey_ne_idx h) (okey_ne_idx h) (okey_ne_idx h) (okey_ne_idx h')

theorem objGet_holdClass (t : Nat) (h : i ≠ 0x1001 ∧ i ≠ 0x2A40 ∧ i ≠ 0x2A42 ∧ i ≠ 0x2A00 ∧ i ≠ 0x2811) :
    objGet (holdClass m t c) i b n = objGet c i b n := objGet_setClass _ m true h

/-- A counter of a whole 64-bit word wraps at 2^64. -/
theorem objGet_bump_wide {k : Nat} (hm : objMax j k + 1 = 2 ^ 64) :
    objGet (objBump j k m v c) j k m = (objGet c j k m + v) % 2 ^ 64 := by rw [objGet_bump_same, hm]
end

end Sys2Proof.Machine

/-! SUPPORT. The next state of a command that asks for no re-latch. -/

namespace Sys2Proof.Machine

theorem answers_clear {i : Instr} {s : State} {f : Chip → Chip} {c : Chip} (hx : exec i s = onChip f s) (hc : f s.chip = c)
    (hr : c.dict.relatch = false) : Answers i s { s with chip := c } := onto_of_clear (s := s) hr ▸ answers_onChip hx hc

end Sys2Proof.Machine

/-! SUPPORT. Checks that find nothing, and what a collision leaves (R105, R106). -/

namespace Sys2Proof.Machine

theorem sideDecode_clean (s : BitVec 16) : sideDecode s 0 = (.clean, s) := by
  simp only [sideDecode, show wrongBits 0 = 0 by decide]

theorem sideDecode_two (s : BitVec 16) {e : BitVec 24} (h : wrongBits e = 2) : sideDecode s e = (.uncorrectable, s) := by
  simp only [sideDecode, h]

@[simp] theorem withSide_self (f : Flit) : withSide f (sideOf f) = f := if_pos rfl

theorem burstDecode_clean (w : W256) : burstDecode w 0 = (.clean, w) := by
  simp only [burstDecode, if_true]

theorem checkData_clean {f : Flit} (c : Chip) (h : f.err = 0) : checkData f c = (.clean, f, c) := by
  have hf : ({ f with err := 0 } : Flit) = f := by rw [← h]
  simp only [checkData, h, burstDecode_clean, hf]

/-- R105, R107: a flit without errors leaves the fabric as it is. -/
theorem takeFlit_clean (i : Nat) {f : Flit} (c : Chip) (he : f.err = 0) (hi : f.i = false) : takeFlit i f 0 c = (f, dropFlit i c) := by
  have h0 : ({ f with err := f.err ^^^ 0 } : Flit) = f := by rw [show f.err ^^^ 0 = f.err from BitVec.xor_zero]
  dsimp only [takeFlit]
  rw [h0, checkData_clean _ he, if_neg (Bool.eq_false_iff.mp hi)]

@[simp] theorem collide_grid (x y : Int) (c : Chip) : (collide x y c).grid = c.grid := by
  dsimp only [collide]; split_ifs <;> simp

@[simp] theorem collide_relatch (x y : Int) (c : Chip) : (collide x y c).dict.relatch = c.dict.relatch := by
  dsimp only [collide]; split_ifs <;> simp

theorem objMax_collisions : objMax 0x2A34 0x05 + 1 = 2 ^ 64 := by decide +kernel
theorem objMax_sideLost : objMax 0x2A34 0x03 + 1 = 2 ^ 64 := by decide +kernel

/-- R106: a collision is counted once. -/
theorem objGet_collide (x y : Int) (c : Chip) :
    objGet (collide x y c) 0x2A34 0x05 0 = (objGet c 0x2A34 0x05 0 + 1) % 2 ^ 64 := by
  dsimp only [collide]
  rw [objGet_holdClass _ _ _ _ _ (by decide), objGet_log_idx _ _ _ _ _ _ _ (by decide) (by decide), objGet_bump_wide _ _ _ objMax_collisions]
  split_ifs <;> rfl

theorem sidebandEvent_flits (x y : Int) (l : Bool) (c : Chip) : (sidebandEvent x y l c).grid.flits = c.grid.flits := by
  dsimp only [sidebandEvent]; split_ifs <;> rfl

theorem sidebandEvent_objs (x y : Int) (l : Bool) (c : Chip) : (sidebandEvent x y l c).objs = c.objs := by
  dsimp only [sidebandEvent]; split_ifs <;> rfl

/-- R200: with no slot left empty the AGD stays where it is. -/
theorem passSkips_none (t agd fc : Nat) {c : Chip} (h : c.grid.skips = []) : passSkips t agd fc c = c := by
  have hc : ({ c with grid := { c.grid with skips := [] } } : Chip) = c := by rw [← h]
  simp only [passSkips, h, List.filter_nil, hc]
  rfl

/-- R116: taking an address moves the walk alone, so whether the tile issues does not depend on it. -/
theorem injectWrite_take (fc wa agd : Nat) (w : SWord) (t : Tile) :
    injectWrite fc wa w (take t agd).2 = if tileIssues t && decide (t.ac < fc / 4 + 1)
      then { (take t agd).2 with pend := (take t agd).2.pend ++ [(fc / 4 + 1, .sram wa w)] } else sramWrite (take t agd).2 wa w := by
  obtain ⟨walks, hw⟩ := take_eq t agd
  rw [hw]
  rfl

/-! One hop of a flit (R105, R106, R113, R119). -/

section
variable {c : Chip} {i x' y' : Nat} {f : Flit}

/-- R105: a flit whose sideband is found uncorrectable is gone and counted. -/
theorem hopFlit_sideLost {side : BitVec 24} (data : Upset) (hf : c.grid.flits[i]? = some f) (hs : wrongBits side = 2) :
    hopFlit i side data c = sidebandEvent f.x f.y true (dropFlit i (objBump 0x2A34 0x03 0 1 c)) := by
  simp only [hopFlit, hf, sideDecode_two _ hs]

/-- R113: a flit moves one position along its path. -/
theorem hopFlit_moves {x y : Int} {dir : Nat} {data : Upset} (hf : c.grid.flits[i]? = some f) (hn : flitNext f = some (x, y, dir))
    (hd : crosses f.x f.y x y = true → f.err ^^^ data = 0) (hcr : f.mg = true → mgCredit x y dir c = true)
    (hlink : f.mg = false → c.grid.flits.any (fun g => !g.mg && g.last = some (f.x, f.y, dir, f.fc)) = false) :
    hopFlit i 0 data c =
      let at_ := if f.mg then mgSlot (decide (c.tk.phase = .work)) f.x f.y dir c (c.grid.flits.length + 1) f.fc else f.fc
      putFlit i { f with x := x, y := y, fc := at_ + 1 + (if crosses f.x f.y x y then 2 else 0)
                         last := some (f.x, f.y, dir, at_), err := f.err ^^^ data } c := by
  have hn' : flitNext { f with err := f.err ^^^ data } = some (x, y, dir) := hn
  have hcheck : (if crosses f.x f.y x y then checkData { f with err := f.err ^^^ data } c else (.clean, { f with err := f.err ^^^ data }, c))
      = (.clean, { f with err := f.err ^^^ data }, c) := by
    split
    · exact checkData_clean c (hd ‹_›)
    · rfl
  have hstage : stageError .clean x y c = c := rfl
  simp only [hopFlit, hf, sideDecode_clean, withSide_self, hn', hcheck, hstage, reduceCtorEq, if_false, ite_self]
  cases hm : f.mg
  · simp only [Bool.not_false, Bool.true_and, Bool.false_and, Bool.false_eq_true, if_false, hlink hm]
  · simp only [Bool.not_true, Bool.true_and, Bool.false_and, Bool.false_eq_true, if_false, if_true, hcr hm]

/-- R119: a management flit without a credit waits where it is. -/
theorem hopFlit_waits {x y : Int} {dir : Nat} {data : Upset} (hf : c.grid.flits[i]? = some f) (hn : flitNext f = some (x, y, dir))
    (hm : f.mg = true) (hcr : mgCredit x y dir c = false) :
    hopFlit i 0 data c = putFlit i { f with err := f.err ^^^ data } c := by
  have hn' : flitNext { f with err := f.err ^^^ data } = some (x, y, dir) := hn
  simp only [hopFlit, hf, sideDecode_clean, withSide_self, hn', reduceCtorEq, if_false]
  rw [if_pos (by rw [hm, hcr]; rfl)]

/-- The link's data destroyed in the flits that entered it. -/
def destroyOn (link : Int × Int × Nat × Nat) (g : Flit) : Flit :=
  if !g.mg && g.last = some link then { g with p := true, data := 0, err := 0 } else g

theorem destroyOn_destroyed {link : Int × Int × Nat × Nat} {g : Flit} (hm : (destroyOn link g).mg = false)
    (hl : (destroyOn link g).last = some link) : (destroyOn link g).p = true ∧ (destroyOn link g).data = 0 := by
  unfold destroyOn at hm hl ⊢
  split
  · exact ⟨rfl, rfl⟩
  · rename_i h
    rw [if_neg h] at hm hl
    simp [hm, hl] at h

/-- R106: a data-plane flit that finds its link taken is gone, and the data of both with it. -/
theorem hopFlit_collides {x y : Int} {dir : Nat} (hf : c.grid.flits[i]? = some f) (hn : flitNext f = some (x, y, dir))
    (hm : f.mg = false) (hst : crosses f.x f.y x y = false)
    (hlink : c.grid.flits.any (fun g => !g.mg && g.last = some (f.x, f.y, dir, f.fc)) = true) :
    hopFlit i 0 0 c = collide x y
      (dropFlit i { c with grid := { c.grid with flits := c.grid.flits.map (destroyOn (f.x, f.y, dir, f.fc)) } }) := by
  have hn' : flitNext { f with err := f.err ^^^ 0 } = some (x, y, dir) := hn
  simp only [hopFlit, hf, sideDecode_clean, withSide_self, hn', reduceCtorEq, if_false, hst, Bool.false_eq_true,
    if_neg (Bool.eq_false_iff.mp hm)]
  rw [if_neg (by simp [hm]), if_pos (by simp [hm, hlink])]
  rfl

end

/-! An arrived flit at its ejection output (R106, R107, R114, R116). -/

section
variable {c : Chip} {i : Nat} {f : Flit} (hf : c.grid.flits[i]? = some f) (ha : flitArrived f = true) (hi : f.i = false) (he : f.err = 0)
include hf ha hi he

/-- The latch position an ejected word leaves. -/
def latched (f : Flit) (poison : Bool) (data : W256) (t : Tile) : Tile :=
  { t with latch := t.latch.setIfInBounds (f.fc % 8) { valid := true, data := data, poison := poison, fc := f.fc } }

theorem ejectFlit_latch (hm : f.mg = false) (hj : f.inj = none) (hk : f.ek = false) (hn : ejectedAt c f.dest f.fc = none) :
    ejectFlit i 0 c = noteEjected f.dest f.fc none (setTile f.dest (latched f f.p f.data (tileAt c f.dest)) (dropFlit i c)) := by
  have hn' : ejectedAt (dropFlit i c) f.dest f.fc = none := hn
  simp only [ejectFlit, hf, takeFlit_clean i c he hi, hn', hi, Bool.or_false]
  rw [if_neg (by simp [ha, hm, hj]), if_neg (by simp [hk])]
  rfl

theorem ejectFlit_clash (hm : f.mg = false) (hj : f.inj = none) (hk : f.ek = false) (hn : ejectedAt c f.dest f.fc = some none) :
    ejectFlit i 0 c = collide (tilePos f.dest).1 (tilePos f.dest).2
      (setTile f.dest (latched f true 0 (tileAt c f.dest)) (dropFlit i c)) := by
  have hn' : ejectedAt (dropFlit i c) f.dest f.fc = some none := hn
  simp only [ejectFlit, hf, takeFlit_clean i c he hi, hn']
  rw [if_neg (by simp [ha, hm, hj]), if_neg (by simp [hk])]
  rfl

theorem ejectFlit_edge (hm : f.mg = false) (hj : f.inj = none) (hk : f.ek = true) :
    ejectFlit i 0 c = { dropFlit i c with grid := { (dropFlit i c).grid with edge := c.grid.edge ++
      [{ port := f.dest, fc := f.fc, data := f.data, poison := f.p, invalid := false }] } } := by
  simp only [ejectFlit, hf, takeFlit_clean i c he hi, hi]
  rw [if_neg (by simp [ha, hm, hj]), if_pos hk]
  rfl

theorem injectFlit_writes {agd : Nat} (hj : f.inj = some agd) (hk : f.ek = false) (hn : ejectedAt c f.dest f.fc = none)
    (hs : c.grid.skips = []) :
    injectFlit i 0 c = noteEjected f.dest f.fc (some (take (tileAt c f.dest) agd).1) (setTile f.dest
      (injectWrite f.fc (take (tileAt c f.dest) agd).1 { data := f.data, poison := f.p } (take (tileAt c f.dest) agd).2) (dropFlit i c)) := by
  have hn' : ejectedAt (dropFlit i c) f.dest f.fc = none := hn
  have hs' : (dropFlit i c).grid.skips = [] := hs
  simp only [injectFlit, hf, hj, takeFlit_clean i c he hi, hn', passSkips_none _ _ _ hs', hi, Bool.or_false]
  rw [if_neg (by simp [ha, hk])]
  rfl

end

/-- R117: a due slot of a source that cannot send is filled with invalid zeros. -/
theorem invalidSlotSend_owed {s : State} {chan j pos : Nat} {ch : Channel} (hch : (channels s.chip)[chan]? = some ch)
    (hpos : s.chip.plan.armed = some pos) (hw : s.chip.tk.phase = .work) (hact : channelActive s.chip.plan.active pos ch = true)
    (hj : j < ch.k) (hp : workPaused s.chip = false) (ho : owesInvalid s.chip ch = true) :
    Answers (.invalidSlotSend chan j) s (onto s (if ch.kind = 1 then edgeInvalid ch (sendAc ch j) s.chip
      else addFlits (sendFlits ch (sendAc ch j) (List.replicate ch.w (sWordZero, true))) s.chip)) := by
  have hx : exec (.invalidSlotSend chan j) s = execInvalidSlotSend chan j s := rfl
  simp only [Answers, hx, execInvalidSlotSend, onChip_next, onto, hch, hpos, hw, hp, hact, hj, ho, decide_true, Bool.not_false, Bool.and_self,
    if_true, edgeSend, List.nil_append, List.length_nil, Nat.sub_zero, List.take_replicate, Nat.min_self]

end Sys2Proof.Machine

namespace Sys2Proof.Proofs

open Sys2Proof Sys2Proof.Machine

/-- Settles O20: the outcomes of a hop (hopFlit_moves, hopFlit_waits, hopFlit_sideLost, hopFlit_collides), of an ejection (ejectFlit_latch,
ejectFlit_clash, ejectFlit_edge, injectFlit_writes), and an owed invalid send. -/
theorem fabricMoves : Obligations.FabricMoves := by
  intro s i f hr hf c put link
  refine ⟨fun x y dir data hn hd hcr hlink => ?_, fun x y dir data hn _ hm hcr => ?_, fun side data hs => ?_, fun x y dir hn hm hst hlink => ?_,
    fun ha hm hi he => ⟨fun hj hk hn => ?_, fun hj hk hn => ?_, fun hj hk => ?_, fun agd hj hk hn hs => ?_⟩,
    fun chan j ch pos hch hpos hw hact hj hp ho => ?_⟩
  · exact answers_clear rfl (hopFlit_moves hf hn hd hcr hlink) hr
  · exact answers_clear rfl (hopFlit_waits hf hn hm hcr) hr
  · refine gives_onChip (f := hopFlit i side data) rfl ⟨?_, ?_⟩
    · rw [onto, settle_grid, hopFlit_sideLost data hf hs, sidebandEvent_flits]
      rfl
    · rw [onto, objGet_settle, hopFlit_sideLost data hf hs, objGet_of_objs (sidebandEvent_objs ..)]
      exact objGet_bump_wide c _ _ objMax_sideLost
  · refine gives_onChip (f := hopFlit i 0 0) rfl ?_
    rw [onto, settle_grid, objGet_settle, hopFlit_collides hf hn hm hst hlink, collide_grid, objGet_collide]
    refine ⟨fun g hg hm' hl => ?_, rfl⟩
    obtain ⟨g', -, rfl⟩ := List.mem_map.mp (List.mem_of_mem_eraseIdx hg)
    exact destroyOn_destroyed hm' hl
  · refine gives_onChip (f := ejectFlit i 0) rfl ?_
    simp only [onto, settle_grid, tileAt_of_grid (settle_grid _), ejectFlit_latch hf ha hi he hm hj hk hn]
    exact ⟨rfl, fun u hu => (tileAt_setTile_ne (dropFlit i c) _ hu :), (tileAt_setTile_same (dropFlit i c) ..  :)⟩
  · refine gives_onChip (f := ejectFlit i 0) rfl ?_
    simp only [onto, settle_grid, objGet_settle, tileAt_of_grid (settle_grid _), ejectFlit_clash hf ha hi he hm hj hk hn, objGet_collide,
      tileAt_of_grid (collide_grid ..), collide_grid]
    exact ⟨rfl, fun u hu => tileAt_setTile_ne _ _ hu, tileAt_setTile_same .., rfl⟩
  · refine gives_onChip (f := ejectFlit i 0) rfl ?_
    simp only [onto, settle_grid, ejectFlit_edge hf ha hi he hm hj hk]
    exact ⟨rfl, rfl, rfl⟩
  · refine gives_onChip (f := injectFlit i 0) rfl ?_
    simp only [onto, settle_grid, tileAt_of_grid (settle_grid _), injectFlit_writes hf ha hi he hj hk hn hs]
    exact ⟨rfl, fun u hu => (tileAt_setTile_ne (dropFlit i c) _ hu :), (tileAt_setTile_same (dropFlit i c) .. :).trans (injectWrite_take ..)⟩
  · exact invalidSlotSend_owed hch hpos hw hact hj hp ho

end Sys2Proof.Proofs

/-! SUPPORT. Management messages at a tile and their responses (R119, R120, R122). -/

namespace Sys2Proof.Machine

/-- What every step of a fold keeps, the fold keeps. -/
theorem foldl_keeps {σ α β : Type} (p : σ → β) {f : σ → α → σ} (h : ∀ a b, p (f a b) = p a) (l : List α) (a : σ) : p (l.foldl f a) = p a := by
  induction l generalizing a with
  | nil => rfl
  | cons x l ih => rw [List.foldl_cons, ih, h]

/-! Events of reads send nothing. -/

/-- A tile's event that hands words to a channel. -/
def TileEv.sends : TileEv → Bool
  | .send .. => true
  | _ => false

/-- What the fabric holds beside the tiles. -/
def fabricPart (c : Chip) : Grid := { c.grid with tiles := [] }

theorem fabricPart_event (t : Nat) (c : Chip) {e : TileEv} (h : e.sends = false) : fabricPart (tileEvent t c e) = fabricPart c := by
  have g {c' : Chip} (h : c'.grid = c.grid) : fabricPart c' = fabricPart c := by rw [fabricPart, h, fabricPart]
  cases e <;> dsimp only [tileEvent]
  case corrected => exact g (by rw [wearRead_grid]; rfl)
  case poisoned wa =>
    have aux (d : Chip) (hd : d.grid = c.grid) (v : Tile) (p : Prop) [Decidable p] :
        fabricPart (if p then d else logRec 1 srcGrid .poisonedDelivery [t, wa] (setTile t v d)) = fabricPart c := by
      split
      · exact g hd
      · rw [fabricPart, logRec_grid]
        exact (congrArg (fun g => { g with tiles := [] }) hd :)
    exact aux _ (by simp) _ _
  case badWord => split <;> rfl
  case highEscape => exact g (countHighEscape_grid _ _)
  case lineLost => split_ifs <;> rfl
  case send => exact nomatch h
  all_goals rfl

theorem fabricPart_flush (t : Nat) (c : Chip) (h : ∀ e ∈ (tileAt c t).ev, e.sends = false) : fabricPart (flushTile t c) = fabricPart c := by
  have key (l : List TileEv) (c : Chip) (h : ∀ e ∈ l, e.sends = false) : fabricPart (l.foldl (tileEvent t) c) = fabricPart c := by
    induction l generalizing c with
    | nil => rfl
    | cons e l ih =>
      rw [List.foldl_cons, ih _ fun e he => h e (List.mem_cons_of_mem _ he), fabricPart_event t c (h e List.mem_cons_self)]
  exact key _ _ h

/-- A tile no event of which sends. -/
def Silent (t : Tile) : Prop := ∀ e ∈ t.ev, e.sends = false

theorem silent_tileEv {t : Tile} (h : Silent t) {e : TileEv} (he : e.sends = false) : Silent (tileEv e t) := by
  intro e' h'
  rcases List.mem_append.mp h' with h' | h'
  · exact h e' h'
  · rwa [List.mem_singleton.mp h']

theorem silent_queue (wa : Nat) {t : Tile} (h : Silent t) : Silent (queueWriteBack wa t) := by
  unfold queueWriteBack
  split
  · exact silent_tileEv (t := { t with wbQueue := t.wbQueue ++ [wa] }) h rfl
  · exact silent_tileEv h rfl

theorem silent_sramRead (wa : Nat) {t : Tile} (h : Silent t) : Silent (sramRead t wa).2 := by
  have hp : Silent (portUse false wa t) := silent_tileEv h rfl
  dsimp only [sramRead, sramNote]
  split
  · exact silent_queue _ (silent_tileEv (t := { portUse false wa t with corrected := _ }) hp rfl)
  · exact silent_tileEv (silent_tileEv (t := { portUse false wa t with sram := _, upsets := _, poisoned := _ }) hp rfl) rfl
  · split
    · exact silent_tileEv (t := { portUse false wa t with poisoned := _ }) hp rfl
    · exact hp

theorem silent_sramReadRun (n wa : Nat) {t : Tile} (h : Silent t) : Silent (sramReadRun n t wa).2 := by
  induction n generalizing t wa with
  | zero => exact h
  | succ n ih => exact ih _ (silent_sramRead wa h)

theorem ev_strike (us : List (Nat × Upset)) (t : Tile) : (strike us t).ev = t.ev := foldl_keeps Tile.ev (f := fun t (u : Nat × Upset) => { t with upsets := cellsMod 0 t.upsets (u.1 % 16384) (· ^^^ u.2) }) (fun _ _ => rfl) us t

theorem inbox_sramReadRun (n wa : Nat) (t : Tile) : (sramReadRun n t wa).2.inbox = t.inbox := by
  induction n generalizing t wa with
  | zero => rfl
  | succ n ih => exact (ih _ _).trans (congrArg Tile.inbox (unread_sramRead t wa) :)

/-! Executing the oldest message. -/

section
variable {t type stat : Nat} {m : MgmtMsg} {rest : List MgmtMsg} {h : W256} {data : List W256} {c d : Chip}
  {f : W256 → List W256 → Chip → List SWord × Chip}

theorem Gives.imp {i : Instr} {s : State} {P Q : State → Prop} (hP : Gives i s P) (hPQ : ∀ s', P s' → Q s') : Gives i s Q := by
  obtain ⟨s', hx, h⟩ := hP
  exact ⟨s', hx, hPQ s' h⟩

/-- The request m stands at the front of tile t's inbox, and the fabric holds g's flits and message count. -/
def Asks (t : Nat) (m : MgmtMsg) (rest : List MgmtMsg) (g : Grid) (c : Chip) : Prop :=
  (tileAt c t).inbox = m :: rest ∧ c.grid.mgSent = g.mgSent ∧ c.grid.flits = g.flits

/-- R119: the flits of a response. -/
def responseFlit (t n : Nat) (w : SWord) : Flit :=
  { mg := true, ek := true, dest := portS60, p := w.poison, data := w.data, msg := n, x := (tilePos t).1, y := (tilePos t).2 }

/-- The request is taken from the inbox and the response set out for S60. -/
def Answered (t : Nat) (h : W256) (rest : List MgmtMsg) (g : Grid) (stat : Nat) (ws : List SWord) (c : Chip) : Prop :=
  (tileAt c t).inbox = rest ∧ c.grid.mgSent = g.mgSent + 1 ∧
  c.grid.flits = g.flits ++ ({ data := mgResponse t h stat ws.length } :: ws).map (responseFlit t g.mgSent)

theorem tileAt_mgAnswer {g : Grid} (ha : Asks t m rest g c) (r : W256) (ws : List SWord) :
    tileAt (mgAnswer t r ws c) t = { tileAt c t with inbox := rest } := by
  have htile : tileAt (mgAnswer t r ws c) t = { tileAt c t with inbox := (tileAt c t).inbox.drop 1 } :=
    (tileAt_setTile_same c t { tileAt c t with inbox := (tileAt c t).inbox.drop 1 } :)
  rw [htile, ha.1, List.drop_one, List.tail_cons]

theorem answered_mgAnswer {g : Grid} (ha : Asks t m rest g c) (ws : List SWord) :
    Answered t h rest g stat ws (mgAnswer t (mgResponse t h stat ws.length) ws c) := by
  have htile := tileAt_mgAnswer ha (mgResponse t h stat ws.length) ws
  obtain ⟨-, hsent, hflits⟩ := ha
  refine ⟨congrArg Tile.inbox htile, congrArg (· + 1) hsent, ?_⟩
  · rw [← hflits, ← hsent]
    rfl

variable (hin : (tileAt c t).inbox = m :: rest) (hm : m.flits = h :: data) (hw : c.tk.phase ≠ .work)
include hin hm hw

theorem mgExecute_runs (hok : mgOk m = true) (ht : mgType h = type) (hh : ((tileAt c t).held && (type = 1 || type = 3)) = false) :
    mgExecute t type f stat c = mgAnswer t (mgResponse t h stat (f h data c).1.length) (f h data c).1 (f h data c).2 := by
  have hwin : mgWindow c = true := by simp [mgWindow, hw]
  simp only [mgExecute, hin, hm, hwin, hok, ht, hh, Bool.not_true, Bool.false_eq_true, ne_eq, not_true_eq_false, if_false]

theorem mgExecute_held (hok : mgOk m = true) (ht : mgType h = type) (hh : (tileAt c t).held = true) (hr : type = 1 ∨ type = 3) :
    mgExecute t type f stat c = mgAnswer t (mgResponse t h stState 0) [] c := by
  have hwin : mgWindow c = true := by simp [mgWindow, hw]
  simp [mgExecute, hin, hm, hwin, hok, ht, hh, hr]

theorem mgExecute_malformed (hok : mgOk m = false) : mgExecute t type f stat c = mgAnswer t (mgResponse t h stRange 0) [] c := by
  have hwin : mgWindow c = true := by simp [mgWindow, hw]
  simp [mgExecute, hin, hm, hwin, hok]

end

/-- A well-formed request that leaves the inbox and the fabric's flits to its response is answered with what it reads. -/
theorem gives_answered {s : State} {i : Instr} {t type stat : Nat} {m : MgmtMsg} {rest : List MgmtMsg} {h : W256} {data : List W256}
    (ht : t < 2048) (hin : (tileAt s.chip t).inbox = m :: rest) (hm : m.flits = h :: data) (hw : s.chip.tk.phase ≠ .work)
    {f : W256 → List W256 → Chip → List SWord × Chip} (hx : exec i s = onAnyTile t (mgExecute t type f stat) s) (hok : mgOk m = true)
    (hty : mgType h = type) (hh : ((tileAt s.chip t).held && (type = 1 || type = 3)) = false)
    (ha : Asks t m rest s.chip.grid (f h data s.chip).2) :
    Gives i s fun s' => Answered t h rest s.chip.grid stat (f h data s.chip).1 s'.chip ∧
      tileAt s'.chip t = { tileAt (f h data s.chip).2 t with inbox := rest } := by
  refine gives_onChip (hx.trans (onAnyTile_of_lt ht _ s)) ?_
  rw [mgExecute_runs hin hm hw hok hty hh, Answered, onto, tileAt_of_grid (settle_grid _), settle_grid]
  exact ⟨answered_mgAnswer ha _, tileAt_mgAnswer ha _ _⟩

/-- A request that reads nothing is answered with its status alone. -/
theorem gives_refused {s : State} {i : Instr} {t type stat stat' : Nat} {m : MgmtMsg} {rest : List MgmtMsg} {h : W256}
    (ht : t < 2048) (hin : (tileAt s.chip t).inbox = m :: rest) {f : W256 → List W256 → Chip → List SWord × Chip}
    (hx : exec i s = onAnyTile t (mgExecute t type f stat) s)
    (he : mgExecute t type f stat s.chip = mgAnswer t (mgResponse t h stat' 0) [] s.chip) :
    Gives i s fun s' => Answered t h rest s.chip.grid stat' [] s'.chip := by
  refine gives_onChip (hx.trans (onAnyTile_of_lt ht _ s)) ?_
  rw [he, Answered, onto, tileAt_of_grid (settle_grid _), settle_grid]
  exact answered_mgAnswer ⟨hin, rfl, rfl⟩ []

/-- R119, R120: a message that the inbox holds is queued. -/
theorem mgmtMessageArrival_queues {s : State} {t : Nat} {flits : List W256} (ht : t < 2048) (hr : s.chip.dict.relatch = false)
    (hne : flits ≠ []) (hroom : ((tileAt s.chip t).inbox.map (fun m => m.flits.length)).sum + flits.length ≤ 16) :
    Answers (.mgmtMessageArrival t flits) s
      (withTile s t { tileAt s.chip t with inbox := (tileAt s.chip t).inbox ++ [{ flits := flits }] }) := by
  have hx : exec (.mgmtMessageArrival t flits) s = execMgmtMessageArrival t flits s := rfl
  rw [Answers, hx, execMgmtMessageArrival, onAnyTile_of_lt ht, onChip_next, if_neg (by simpa [hne] using hroom)]
  exact congrArg _ (onto_of_clear hr)

theorem asks_setTile {t : Nat} {m : MgmtMsg} {rest : List MgmtMsg} {c : Chip} {v : Tile} (hv : v.inbox = m :: rest) :
    Asks t m rest c.grid (setTile t v c) := ⟨(congrArg Tile.inbox (tileAt_setTile_same c t v) :).trans hv, rfl, rfl⟩

theorem asks_flush {t : Nat} {m : MgmtMsg} {rest : List MgmtMsg} {c : Chip} {v : Tile} (hv : v.inbox = m :: rest) (hs : Silent v) :
    Asks t m rest c.grid (flushTile t (setTile t v c)) := by
  have hpart := fabricPart_flush t (setTile t v c) (by rwa [tileAt_setTile_same])
  refine ⟨?_, (congrArg Grid.mgSent hpart :), (congrArg Grid.flits hpart :)⟩
  have hcore := (flushTile_tile t (setTile t v c)).1
  rw [tileAt_setTile_same] at hcore
  exact (congrArg Tile.inbox hcore :).trans hv

/-! Lines of the instruction store read clean. -/

theorem lineLook_clean {t : Tile} {n : Nat} (h : cellsGet 0 t.lineUpsets n = 0) : lineLook t n = (.clean, { data := istoreLine t n }) := by
  simp only [lineLook, h, burstDecode_clean]
  rfl

theorem readLinesOf_clean (t k n : Nat) (c : Chip) (h : ∀ i, i < k → cellsGet 0 (tileAt c t).lineUpsets ((n + i) % 2048) = 0) :
    readLinesOf t k n c = ((List.range k).map (fun i => { data := istoreLine (tileAt c t) ((n + i) % 2048) }), c) := by
  induction k generalizing n with
  | zero => rfl
  | succ k ih =>
    have h0 : readLineOf t c (n % 2048) = ({ data := istoreLine (tileAt c t) (n % 2048) }, c) := by
      simp only [readLineOf, lineLook_clean (n := n % 2048) (h 0 k.succ_pos)]
    have hrest := ih (n + 1) fun i hi => by
      rw [show n + 1 + i = n + (i + 1) by omega]
      exact h _ (Nat.succ_lt_succ hi)
    simp only [readLinesOf, h0, hrest, List.range_succ_eq_map, List.map_cons, List.map_map]
    refine congrArg (Prod.mk · c) (congrArg _ (List.map_congr_left fun i _ => ?_))
    rw [show n + 1 + i = n + (i + 1) by omega]
    rfl

/-! A response at port S60 (R105, R119). -/

theorem checkAll_clean (fs acc : List Flit) (c : Chip) (h : ∀ f ∈ fs, f.err = 0) :
    fs.foldl (fun (p : List Flit × Chip) f => let q := checkData f p.2; (p.1 ++ [q.2.1], q.2.2)) (acc, c) = (acc ++ fs, c) := by
  induction fs generalizing acc with
  | nil => rw [List.foldl_nil, List.append_nil]
  | cons f fs ih =>
    simp only [List.foldl_cons, checkData_clean c (h f List.mem_cons_self)]
    rw [ih _ fun g hg => h g (List.mem_cons_of_mem _ hg), List.append_assoc, List.singleton_append]

theorem receiveResponse_whole {n : Nat} {h : Flit} {rest : List Flit} {c : Chip} (hf : responseFlits c n = h :: rest)
    (hl : mgLen h.data = rest.length + 1) (he : ∀ f ∈ h :: rest, f.err = 0) :
    receiveResponse n c = { c with grid := { c.grid with
      flits := c.grid.flits.filter (fun f => !(f.mg && f.msg == n))
      responses := c.grid.responses ++ [{ flits := (h :: rest).map (·.data), poison := (h :: rest).map (·.p) }] } } := by
  simp only [receiveResponse, hf, checkAll_clean _ _ c he, List.nil_append]
  rw [if_neg (by simp [hl])]

end Sys2Proof.Machine

namespace Sys2Proof.Proofs

open Sys2Proof Sys2Proof.Machine

/-- Settles O21: a message is queued, executed by its type, refused, and its response received. -/
theorem managementPlane : Obligations.ManagementPlane := by
  intro t s ht hr hev tl g
  refine ⟨fun flits hne hroom => mgmtMessageArrival_queues ht hr hne hroom, ?_, fun n h rest hf hl he => ?_⟩
  · intro m rest h data hin hm hw flit done n
    have hinbox {v : Tile} (hv : v.inbox = tl.inbox) : Asks t m rest s.chip.grid (setTile t v s.chip) := asks_setTile (hv.trans hin)
    have hread {b : Bool} (hh : tl.held = false) : ((tileAt s.chip t).held && b) = false := by rw [show (tileAt s.chip t).held = false from hh]; rfl
    refine ⟨fun hok hty hh us => ?_, fun hok hty => ?_, fun hok hty hh hl => ?_, fun hok hty => ?_, fun hok hty stat hs => ?_,
      fun hok hty => ?_, fun hok hh => ⟨fun hty => ?_, fun hty => ?_⟩, fun hok => ?_⟩
    · refine (gives_answered ht hin hm hw (f := fun h _ c =>
        let r := sramReadRun (min 15 (mgCnt h)) (strike us (tileAt c t)) (mgAddr h)
        (r.1, flushTile t (setTile t r.2 c))) rfl hok hty (hread hh) (asks_flush ?_ (silent_sramReadRun _ _ ?_))).imp
        fun s' h => h.1
      · exact (inbox_sramReadRun ..).trans ((congrArg Tile.inbox (unread_strike us tl) :).trans hin)
      · rw [Silent, ev_strike]
        exact hev ▸ nofun
    · refine (gives_answered ht hin hm hw (f := fun h data c =>
        ([], setTile t (data.zipIdx.foldl (fun tl (w, i) => sramWrite tl (mgAddr h + i) { data := w }) (tileAt c t)) c)) rfl hok hty (Bool.and_false _)
        (hinbox (foldl_keeps Tile.inbox (by intros; rfl) ..))).imp fun s' h => ⟨h.1, ?_⟩
      rw [h.2, tileAt_setTile_same]
    · have hlines := readLinesOf_clean t n (mgAddr h) (setTile t (strikeLines [] tl) s.chip) (by rwa [tileAt_setTile_same])
      rw [tileAt_setTile_same] at hlines
      have hans := gives_answered ht hin hm hw (i := .mgmtReadInstr t []) (f := fun h _ c =>
        readLinesOf t (min 15 (mgCnt h)) (mgAddr h) (setTile t (strikeLines [] (tileAt c t)) c)) rfl hok hty (hread hh)
        (by rw [hlines]; exact hinbox rfl)
      rw [hlines] at hans
      exact hans.imp fun s' h => h.1
    · refine (gives_answered ht hin hm hw (f := fun h data c =>
        ([], setTile t (data.zipIdx.foldl (fun tl (w, i) => setIstoreLine ((mgAddr h + i) % 2048) w tl) (tileAt c t)) c)) rfl hok hty
        (Bool.and_false _) (hinbox (foldl_keeps Tile.inbox (by intros; rfl) ..))).imp fun s' h => ⟨h.1, ?_⟩
      rw [h.2, tileAt_setTile_same]
    · have hans := gives_answered ht hin hm hw (i := .mgmtSelfTest t stat) (f := fun _ _ c => ([], c)) rfl hok hty (Bool.and_false _)
        ⟨hin, rfl, rfl⟩
      rw [Nat.mod_eq_of_lt hs] at hans
      exact hans.imp fun s' h => h.1
    · exact (gives_answered ht hin hm hw (f := fun _ _ c =>
        let tl := tileAt c t
        ([{ data := Config.counterWord tl.corrected tl.poisoned tl.linesLost }], c)) rfl hok hty (Bool.and_false _)
        ⟨hin, rfl, rfl⟩).imp fun s' h => h.1
    · exact gives_refused ht hin rfl (mgExecute_held hin hm hw hok hty hh (.inl rfl))
    · exact gives_refused ht hin rfl (mgExecute_held hin hm hw hok hty hh (.inr rfl))
    · exact gives_refused ht hin rfl (mgExecute_malformed hin hm hw hok)
  · refine gives_onChip (f := receiveResponse n) rfl ?_
    rw [onto, settle_grid, receiveResponse_whole hf hl he]
    exact ⟨rfl, rfl⟩

end Sys2Proof.Proofs

/-! SUPPORT. What an update keeps of one object. -/

namespace Sys2Proof.Machine

section
variable {p : Nat → Nat → Bool} {c c' : Chip}

/-- The entries of object i with sub-index k. -/
def marks (i k : Nat) : Nat → Nat → Bool := fun i' k' => i' == i && k' == k

theorem KeepsObjs.get {i k : Nat} (h : KeepsObjs (marks i k) c c') (hk : k < 256) (n : Nat) : objGet c' i k n = objGet c i k n :=
  h i k n (by simp [marks, Nat.mod_eq_of_lt hk])

theorem KeepsObjs.foldl_mem {α : Type} {f : Chip → α → Chip} {l : List α} (hf : ∀ a ∈ l, ∀ c, KeepsObjs p c (f c a)) (c : Chip) :
    KeepsObjs p c (l.foldl f c) := by
  induction l generalizing c with
  | nil => exact .refl c
  | cons a l ih => exact (hf a List.mem_cons_self c).trans (ih (fun b hb => hf b (List.mem_cons_of_mem _ hb)) _)

/-- The entries that no fault class writes. -/
def Unclassed (p : Nat → Nat → Bool) : Prop :=
  ∀ k, p 0x1001 k = false ∧ p 0x2A40 k = false ∧ p 0x2A42 k = false ∧ p 0x2A00 k = false ∧ p 0x2811 k = false

theorem KeepsObjs.setClass {m : Nat} {on : Bool} (h : KeepsObjs p c c') (hp : Unclassed p) : KeepsObjs p c (setClass m on c') := by
  refine h.trans fun i k n hm => objGet_setClass c' m on ?_
  refine ⟨?_, ?_, ?_, ?_, ?_⟩ <;> rintro rfl <;> simp [hp (k % 256)] at hm

theorem KeepsObjs.event {sv sr : Nat} {e : LogEv} {ids : List Nat} (h : KeepsObjs p c c') (hp : Unclassed p) :
    KeepsObjs p c (logRec sv sr e ids c') := h.log (fun k => (hp k).2.2.2.1) (hp 6).2.2.2.2

theorem KeepsObjs.trace {q a v : Nat} (h : KeepsObjs p c c') (hp : p 0x2A10 5 = false) : KeepsObjs p c (tracePoint q a v c') :=
  h.trans fun _ _ _ hm => objGet_tracePoint c' q a v (okey_ne_of_marked hm hp)

end

end Sys2Proof.Machine

/-! SUPPORT. Failed tiles, the column repair and retired columns (R121-R132). -/

namespace Sys2Proof.Machine

@[simp] theorem gridShow_grid (c : Chip) : (gridShow c).grid = c.grid := by
  have hq (d : Chip) : ((List.range 4).foldl (fun c q => objSet 0x2930 (q + 1) 0 (quarterWord (retiredCols c q)) c) d).grid = d.grid :=
    foldl_keeps (fun c : Chip => c.grid) (by intros; rfl) ..
  dsimp only [gridShow, replaceShow]
  split_ifs <;> simp [hq]

theorem gridShow_latchTick (c : Chip) : objGet (gridShow c) 0x2930 0x06 0 = objGet c 0x2930 0x06 0 := by
  have hu : Unclassed (marks 0x2930 6) := fun k => ⟨rfl, rfl, rfl, rfl, rfl⟩
  refine KeepsObjs.get ?_ (by decide) 0
  have hq (d : Chip) : KeepsObjs (marks 0x2930 6) d
      ((List.range 4).foldl (fun c q => objSet 0x2930 (q + 1) 0 (quarterWord (retiredCols c q)) c) d) := by
    refine .foldl_mem (fun q hq c => .set (.refl c) ?_) d
    have hlt := List.mem_range.mp hq
    simp [marks]
    omega
  dsimp only [gridShow, replaceShow]
  refine .setClass (.setClass (.setClass ?_ hu) hu) hu
  split_ifs
  · exact .set (.set (hq c) rfl) rfl
  · exact .trans (.set (.set (.set (hq c) rfl) rfl) rfl) (.of_objs rfl)

/-! A tile declared failed (R121, R122). -/

theorem leaseRequest_grid (a : Activity) (o : Nat) (b : Bool) (c : Chip) : (leaseRequest a o b c).1.grid = c.grid := by
  dsimp only [leaseRequest]
  split_ifs <;> rfl

/-- A tile held, its sequencer stopped. -/
def holdTile (t : Nat) (c : Chip) : Chip := setTile t { tileAt c t with held := true, running := false } c

theorem declareFailed_tiles {t : Nat} {c : Chip} (h : (tileAt c t).held = false) :
    (declareFailed t c).grid.tiles = (holdTile t c).grid.tiles := by
  dsimp only [declareFailed]
  rw [if_neg (Bool.eq_false_iff.mp h)]
  split_ifs <;> simp only [gridShow_grid, leaseRequest_grid, tracePoint_grid, logRec_grid, holdTile]

theorem tileAt_of_tiles {c c' : Chip} (h : c'.grid.tiles = c.grid.tiles) (t : Nat) : tileAt c' t = tileAt c t := by simp [tileAt, h]

/-! The latch of a repair (R124). -/

theorem foldl_tk {α : Type} {f : Chip → α → Chip} (h : ∀ c a, (f c a).tk = c.tk) (l : List α) (c : Chip) : (l.foldl f c).tk = c.tk :=
  foldl_keeps (fun c : Chip => c.tk) h l c

theorem remapQuarter_tk (q : Nat) (cols : List Nat) (c : Chip) : (remapQuarter q cols c).tk = c.tk := by
  delta remapQuarter
  dsimp only
  apply foldl_tk
  intro d t
  split
  · rfl
  · exact setTile_tk ..

theorem poisonRegion_tk (r : Region) (c : Chip) : (poisonRegion r c).tk = c.tk := by
  unfold poisonRegion
  split
  · rfl
  · exact setTile_tk ..

/-- The records of a latched repair leave the tick it is noted with. -/
theorem latchRepair_tick (tick : Nat) (c : Chip) : objGet (latchRepair tick c) 0x2930 0x06 0 = c.tk.tick := by
  have hu : Unclassed (marks 0x2930 6) := fun k => ⟨rfl, rfl, rfl, rfl, rfl⟩
  delta latchRepair
  dsimp only
  rw [gridShow_latchTick]
  refine ((KeepsObjs.set (.trace (.trans (.event (.set (.bump (.refl _) rfl) rfl) hu) (.foldl _ (fun c a => .event (.refl c) hu) _ _)) rfl)
    rfl).get (by decide) 0).trans ?_
  rw [objGet_set_same, foldl_tk fun _ _ => setTile_tk .., foldRegions, foldl_tk fun _ _ => poisonRegion_tk ..]
  dsimp only
  apply congrArg TickSt.tick
  apply foldl_tk
  intro d t
  dsimp only
  rw [remapQuarter_tk]

/-! Retired columns (R130, R132). -/

theorem tileQuarter_lt (t : Nat) : tileQuarter t < 4 := by
  unfold tileQuarter
  split <;> split <;> omega

theorem getD_setIfInBounds {α : Type} {n i : Nat} (v : Vector α n) (x d : α) (h : i < n) : (v.setIfInBounds i x).toList.getD i d = x := by
  simp [List.getD, h]

theorem retireNoShift_grid {t : Nat} {c : Chip} (h : (retiredCols c (tileQuarter t)).contains (tilePx c t) = false) :
    (retireNoShift t c).grid = { c.grid with
      retired := c.grid.retired.setIfInBounds (tileQuarter t) (retiredCols c (tileQuarter t) ++ [tilePx c t]) } := by
  dsimp only [retireNoShift]
  rw [if_neg (Bool.eq_false_iff.mp h), gridShow_grid, logRec_grid]

theorem spareTest_grid {q : Nat} {c : Chip} (hr : retiredCols c q = []) (hf : c.grid.failed.any (fun e => tileQuarter e.1 == q) = false)
    (pass : Bool) : (spareTest q pass c).grid = if pass then { c.grid with spareOk := c.grid.spareOk.setIfInBounds q true }
      else { c.grid with retired := c.grid.retired.setIfInBounds q [32], routed := c.grid.routed.setIfInBounds q [32]
                         spareOk := c.grid.spareOk.setIfInBounds q false } := by
  simp only [spareTest, hr, hf, List.isEmpty_nil, Bool.not_true, Bool.false_or, Bool.false_eq_true, if_false]
  split <;> simp only [gridShow_grid, logRec_grid]

end Sys2Proof.Machine

namespace Sys2Proof.Proofs

open Sys2Proof Sys2Proof.Machine

/-- Settles O23: what a declaration does to the tiles, a latch to 2930.06 and a retirement to the columns. -/
theorem repairEvents : Obligations.RepairEvents := by
  intro s
  dsimp only
  refine ⟨fun t ht hd hh => ?_, fun k hk hp => ⟨?_, latchRepair_tick k s.chip⟩, fun hp ho => ?_, fun t e ht he hp hlt hn => ?_,
    fun q hr hf => ⟨?_, ?_⟩⟩
  · refine gives_onChip (onAnyTile_of_lt ht (fun c => if failureDue c t then declareFailed t c else c) s) ?_
    rw [if_pos hd]
    simp only [onto, tileAt_of_grid (settle_grid _), tileAt_of_tiles (declareFailed_tiles hh)]
    exact ⟨congrArg Tile.held (tileAt_setTile_same ..), congrArg Tile.running (tileAt_setTile_same ..), fun u hu => tileAt_setTile_ne _ _ hu⟩
  · have hx : exec .repairLatch s = execRepairLatch s := rfl
    rw [Answers, hx, execRepairLatch, onChip_next, hk]
    exact congrArg (fun d => Host.Outcome.next (onto s d)) (if_pos hp)
  · exact answers_onChip (f := fun c => if c.tk.phase = .ac0 && pauseOver c then endPause c else c) rfl (if_pos (by simp [hp, ho]))
  · have hx : exec (.columnRetiredNoShift t) s = execColumnRetiredNoShift t s := rfl
    rw [Gives, hx, execColumnRetiredNoShift, onAnyTile_of_lt ht, onChip_next, he]
    refine ⟨_, rfl, ?_⟩
    simp only [retiredCols, settle_grid, if_pos (show (decide (s.chip.tk.phase = .ac0) && decide (e.2 < s.chip.tk.tick)) = true by simp [hp, hlt])]
    rw [retireNoShift_grid hn]
    exact ⟨getD_setIfInBounds _ _ _ (tileQuarter_lt t), rfl⟩
  · refine gives_onChip (f := spareTest q true) rfl ?_
    rw [onto, settle_grid, spareTest_grid hr hf]
    exact ⟨rfl, rfl⟩
  · refine gives_onChip (f := spareTest q false) rfl ?_
    simp only [onto, retiredCols, routedCols, settle_grid]
    rw [spareTest_grid hr hf]
    exact ⟨getD_setIfInBounds _ _ _ q.2, getD_setIfInBounds _ _ _ q.2⟩

end Sys2Proof.Proofs

/-! SUPPORT. The effects of plan commands, check runs, partition scrubs and completions (R141, R152-R160, R338). -/

namespace Sys2Proof.Machine

theorem atZero_of_due {f : Chip → Chip} {c : Chip} (ht : c.tk.timer = true) (hp : c.tk.phase = .ac0) : atZero f c = f c :=
  if_pos (by simp [ht, hp])

@[simp] theorem setMode_mode (m : ModState) (c : Chip) : (setMode m c).tk.mode = m := by
  unfold setMode
  split
  · assumption
  · rfl

@[simp] theorem planDone_tk (c : Chip) : (planDone c).tk = c.tk := by
  unfold planDone
  dsimp only
  split
  · exact postStatus_tk ..
  · rfl

/-! A read of an HBM line changes the stack, its counts and its records alone. -/

/-- The parts of the module that a read of a line leaves alone. -/
def offHbm (c : Chip) : TickSt × Grid × PlanSt × IntakeSt × VideoSt × NetSt × ServSt × PowerSt × LinkSt × SecSt × CardSt × WindowSt × Bool :=
  (c.tk, c.grid, c.plan, c.intake, c.video, c.net, c.serv, c.power, c.link, c.sec, c.card, c.win, c.dict.relatch)

theorem offHbm_rowsShow (c : Chip) : offHbm (hbmRowsShow c) = offHbm c := by simp [offHbm, hbmRowsShow]

theorem offHbm_suspectRow (r : Nat) (c : Chip) : offHbm (suspectRow r c) = offHbm c := by
  unfold suspectRow
  split
  · rfl
  · exact offHbm_rowsShow _

theorem offHbm_readLine (k : Nat) (errs : List (Nat × Byte)) (c : Chip) : offHbm (readLine k errs c).2.2 = offHbm c := by
  have hput : offHbm (if errs.isEmpty then c else hbmPut k (strikeLine (hbmPeek c k) errs) c) = offHbm c := by split <;> rfl
  dsimp only [readLine]
  generalize (if errs.isEmpty then c else hbmPut k (strikeLine (hbmPeek c k) errs) c) = d at *
  split
  · rfl
  · split
    · exact hput
    · exact hput
    · exact hput
    · exact (offHbm_suspectRow ..).trans hput

theorem offHbm_dataRead (k : Nat) (errs : List (Nat × Byte)) (c : Chip) : offHbm (dataRead k errs c).2.2 = offHbm c := by
  dsimp only [dataRead, queueLine]
  split
  · split <;> exact offHbm_readLine ..
  · exact offHbm_readLine ..

theorem dataRead_tk (k : Nat) (errs : List (Nat × Byte)) (c : Chip) : (dataRead k errs c).2.2.tk = c.tk :=
  congrArg Prod.fst (offHbm_dataRead k errs c)

theorem residentWord_tk (t off : Nat) (c : Chip) : (residentWord t off c).2.tk = c.tk := by
  dsimp only [residentWord]
  exact dataRead_tk ..

theorem reloadWords_tk (t base n i : Nat) (c : Chip) : (reloadWords t base n i c).tk = c.tk := by
  induction n generalizing i c with
  | zero => rfl
  | succ n ih => rw [reloadWords, ih, setTile_tk, residentWord_tk]

theorem reloadLine_tk (t n : Nat) (c : Chip) : (reloadLine t n c).tk = c.tk := by
  rw [reloadLine, setTile_tk, residentWord_tk]

theorem reloadTile_tk (p : Plan) (t : Nat) (c : Chip) : (reloadTile p t c).tk = c.tk := by
  unfold reloadTile
  rw [foldRegions, foldl_tk fun _ _ => reloadWords_tk ..]
  split
  · rfl
  · rw [foldl_tk fun _ _ => reloadLine_tk ..]
    rfl

/-! Modes. -/

@[simp] theorem startTile_tk (p : Plan) (r : Bool) (t : Nat) (c : Chip) : (startTile p r t c).tk = c.tk := by
  unfold startTile
  split
  · rfl
  · split
    · dsimp only
      split
      · exact reloadTile_tk ..
      · rfl
    · rfl

@[simp] theorem startTiles_tk (r : Bool) (c : Chip) : (startTiles r c).tk = c.tk := by
  unfold startTiles
  split
  · rfl
  · exact foldl_tk (fun c g => startTile_tk ..) _ c

@[simp] theorem clearShed_tk (c : Chip) : (clearShed c).tk = c.tk := by
  simp only [clearShed, setUnattainable, Bool.false_eq_true, if_false]
  split <;> rfl

/-- R141, R308: RUN enters Running, a warm standby Paused. -/
theorem runPlan_mode {c : Chip} {p : Plan} (h : c.plan.loaded = some p) :
    (runPlan c).tk.mode = if pairRole (startPair (startPlan p c)) = 2 && !lockstep (startPair (startPlan p c)) then .paused else .running := by
  simp only [runPlan, h, planDone_tk]
  split
  · exact setMode_mode ..
  · rw [startTiles_tk, setMode_mode]

/-- R157: what a pause leaves. -/
theorem pausePlan_leaves (c : Chip) : (pausePlan c).tk.mode = .paused ∧ (pausePlan c).plan.armed = none ∧ (pausePlan c).plan.cmd = none ∧
    (objGet c 0x2100 0x02 0 = stPending → objGet (pausePlan c) 0x2100 0x02 0 = stOk) ∧ (pausePlan c).hbm = c.hbm ∧ (pausePlan c).serv = c.serv := by
  have hmode : (setMode .paused (haltWork c)).plan = (haltWork c).plan ∧ (setMode .paused (haltWork c)).hbm = c.hbm ∧
      (setMode .paused (haltWork c)).serv = c.serv ∧ objGet (setMode .paused (haltWork c)) 0x2100 0x02 0 = objGet c 0x2100 0x02 0 := by
    unfold setMode
    split
    · exact ⟨rfl, rfl, rfl, rfl⟩
    · exact ⟨rfl, rfl, rfl, objGet_set_idx (haltWork c) _ _ _ _ _ (by decide)⟩
  obtain ⟨hplan, hhbm, hserv, hobj⟩ := hmode
  refine ⟨by rw [pausePlan, planDone_tk, setMode_mode], ?_⟩
  unfold pausePlan planDone
  generalize setMode .paused (haltWork c) = d at *
  have hshow (e : Chip) : objGet (showUnsettled e) 0x2100 0x02 0 = objGet e 0x2100 0x02 0 := objGet_set_idx _ _ _ _ _ _ (by decide)
  have harmed : d.plan.armed = none := by rw [hplan]; rfl
  dsimp only
  split
  · exact ⟨by simpa [showUnsettled] using harmed, by simp [showUnsettled], fun _ => by rw [hshow, objGet_postStatus_same],
      by simpa [showUnsettled] using hhbm, by simpa [showUnsettled] using hserv⟩
  · rename_i hn
    exact ⟨harmed, rfl, fun hp => absurd (hobj.trans hp) hn, hhbm, hserv⟩

/-- R157: STOP enters Loaded. -/
theorem stopPlan_mode {m : PlanCmd} {c : Chip} {p : Plan} (hm : m.withdraws = false) (hl : c.plan.loaded = some p) :
    (stopPlan m c).tk.mode = .loaded := by
  simp only [stopPlan, hm, hl, Bool.false_eq_true, if_false, showUnsettled, showTimes, objSet_tk, clearShed_tk, setMode_mode]

theorem unloadPlan_mode {c : Chip} {p : Plan} (hl : c.plan.loaded = some p) : (unloadPlan c).tk.mode = .idle := by
  simp only [unloadPlan, hl, planDone_tk, setMode_mode]

theorem installPlan_mode (p : Plan) (h : Nat) (c : Chip) : (installPlan p h c).tk.mode = .loaded := by
  unfold installPlan
  dsimp only
  rw [showUnsettled, objSet_tk, postStatus_tk, setMode_mode]

/-! The end of a check run (R155). -/

section
variable {c : Chip} {ld : Loading} {p : Plan} (hl : c.plan.loading = some ld) (hw : c.tk.wake = .run) (hs : ld.scrubbing = false)
  (hp : ld.plan = some p)
include hl hw hs hp

theorem checkRunDone_installs (hc : checkRun p = none) (hn : c.plan.loaded = none) (hu : c.plan.scrub = none) (hr : runExhausted c = false) :
    checkRunDone c = installPlan p ld.handle (objSet 0x2100 0x0A 0 (p.cert.sets.length * p.cert.hp) c) := by
  rw [← show checkTicks p = p.cert.sets.length * p.cert.hp by simp only [checkTicks, hc]]
  have hr' : runExhausted (objSet 0x2100 0x0A 0 (checkTicks p) c) = false := by
    rw [runExhausted, objGet_set_idx c _ _ _ _ _ (by decide)]
    exact hr
  simp only [checkRunDone, hl, hw, hs, hp, hc, hr', objSet_plan, hn, hu, ne_eq, not_true_eq_false, decide_false, Bool.or_self,
    Bool.false_eq_true, if_false]

theorem checkRunDone_fails {set pos : Nat} (hc : checkRun p = some (set, pos)) :
    checkRunDone c = loadFails 8 stRange (set % 4096 * 4096 + pos % 4096) ld (objSet 0x2100 0x0A 0 (checkTicks p) c) := by
  simp only [checkRunDone, hl, hw, hs, hp, hc, ne_eq, not_true_eq_false, decide_false, Bool.or_self, Bool.false_eq_true, if_false]

end

theorem useHandle_plan (h : Nat) (use : Bool) (c : Chip) : (useHandle h use c).plan = c.plan := by
  unfold useHandle
  split <;> rfl

/-- R155: 2100.03 names the failure and the loaded plan stays. -/
theorem loadFails_leaves (cls st detail : Nat) (ld : Loading) (c : Chip) :
    objGet (loadFails cls st detail ld c) 0x2100 0x03 0 = cls * 2 ^ 24 + detail ∧ (loadFails cls st detail ld c).plan.loaded = c.plan.loaded := by
  have hkeep (b : Bool) (d : Chip) : (if b then d else useHandle ld.handle false d).objs = d.objs ∧
      (if b then d else useHandle ld.handle false d).plan = d.plan := by
    split
    · exact ⟨rfl, rfl⟩
    · exact ⟨useHandle_objs .., useHandle_plan ..⟩
  dsimp only [loadFails]
  refine ⟨?_, ?_⟩
  · rw [showUnsettled, objGet_set_idx _ _ _ _ _ _ (by decide), objGet_postStatus_ne _ _ (by decide), objGet_of_objs (hkeep _ _).1, objGet_set_same]
  · rw [showUnsettled, objSet_plan, postStatus_plan, (hkeep _ _).2]
    rfl

/-! The partition scrub (R338). -/

/-- What zeroing a region leaves alone of what 2700.09 counts. -/
def zeroCounts (c : Chip) : PlanSt × IntakeSt × Nat := (c.plan, c.intake, c.grid.stale)

theorem zeroCounts_zeroRegion (r : Region) (c : Chip) : zeroCounts (zeroRegion r c) = zeroCounts c := by
  unfold zeroRegion
  split
  · rfl
  · exact (congrArg (fun s => (c.plan, c.intake, s)) rfl :)

theorem scrubPlan_leaves {c : Chip} (hl : c.plan.loading = none) (hz : c.intake.unzeroed = []) :
    objGet (scrubPlan c) 0x2700 0x09 0 = 589824 * c.grid.stale ∧ (scrubPlan c).plan.scrub = none ∧ (scrubPlan c).hbm.poison = [] := by
  refine ⟨?_, rfl, rfl⟩
  unfold scrubPlan
  rw [showZero, objGet_set_same]
  split
  · simp [zeroPlan, zeroResident, hbmMaps, setPair, hl, hz, rangeSize]
  · rename_i o _
    have hcounts : zeroCounts (foldRegions (planRegions o) zeroRegion c) = zeroCounts c :=
      foldl_keeps zeroCounts (fun c r => zeroCounts_zeroRegion r c) _ c
    generalize foldRegions (planRegions o) zeroRegion c = d at hcounts
    obtain ⟨hplan, hint, hstale⟩ : d.plan = c.plan ∧ d.intake = c.intake ∧ d.grid.stale = c.grid.stale := by
      simpa [zeroCounts] using hcounts
    simp [zeroPlan, zeroResident, hbmMaps, setPair, hplan, hl, hint, hz, hstale, rangeSize]

theorem zeroFreed_leaves (c : Chip) : (zeroFreed c).plan = c.plan ∧ (zeroFreed c).intake.unzeroed = [] ∧ (zeroFreed c).grid = c.grid := by
  have hfold := foldl_keeps (fun c : Chip => (c.plan, c.grid)) (f := fun c (r : Nat × Nat) => zeroStaged r.1 r.2 c) (fun _ _ => rfl)
    c.intake.unzeroed c
  exact ⟨(congrArg Prod.fst hfold :), rfl, (congrArg Prod.snd hfold :)⟩

theorem scrubDonePlan_leaves {c : Chip} {o : Plan} (hl : c.plan.loading = none) (hs : c.plan.scrub = some o) :
    objGet (scrubDonePlan c) 0x2700 0x09 0 = 589824 * c.grid.stale ∧ (scrubDonePlan c).plan.scrub = none ∧ (scrubDonePlan c).hbm.poison = [] := by
  obtain ⟨hplan, hz, hgrid⟩ := zeroFreed_leaves c
  have hl' : (zeroFreed c).plan.loading = none := by rw [hplan, hl]
  have hs' : (zeroFreed c).plan.scrub.isSome = true := by rw [hplan, hs]; rfl
  have key := scrubPlan_leaves hl' hz
  rw [hgrid] at key
  simpa only [scrubDonePlan, hl', hs', if_true] using key

/-! Completions of finite functions (R152, R160). -/

section
variable {c : Chip} {p : Plan} {f : Nat} {e : FnEntry} (hl : c.plan.loaded = some p) (he : planFn p f = some e)
include hl he

theorem completeFn_done (hc : c.plan.completions.contains f = true) : completeFn f c = c := by
  simp [completeFn, hl, he, -List.contains_eq_mem, hc]

theorem completeFn_completes (hph : c.tk.phase = .work) (hm : c.tk.mode = .running) (hf : e.finite = true)
    (hd : e.donePos = c.tk.tick % max 1 p.cert.hp) (ha : c.plan.aborted.contains f = false) (hsh : c.plan.shed.contains e.tenant = false)
    (ho : e.overlay ≠ 0 → bitOf c.plan.active e.overlay = true) (hc : c.plan.completions.contains f = false) :
    completeFn f c = { c with plan := { c.plan with completions := c.plan.completions ++ [f] } } := by
  have hlive : (e.overlay == 0 || bitOf c.plan.active e.overlay) = true := by
    rcases eq_or_ne e.overlay 0 with h | h
    · simp [h]
    · simp [ho h]
  simp [completeFn, hl, he, -List.contains_eq_mem, hph, hm, hf, ← hd, ha, hsh, hlive, hc]

end

theorem recordCompletions_records (f : Nat) (c : Chip) :
    (recordCompletions { c with plan := { c.plan with completions := [f] } }).plan.completed.contains f = true := by
  by_cases h : f ∈ c.plan.completed <;> simp [recordCompletions, h]

end Sys2Proof.Machine

namespace Sys2Proof.Proofs

open Sys2Proof Sys2Proof.Machine

/-- Settles O24: each plan command's effect at its boundary, the end of a check run and of a partition scrub, and a completion. -/
theorem planEvents : Obligations.PlanEvents := by
  refine ⟨fun s ht => ?_, fun s p f e hr => ?_⟩
  · dsimp only
    have zero {i : Instr} {f : Chip → Chip} {d : Chip} (hp : s.chip.tk.phase = .ac0) (hx : exec i s = onChip (atZero f) s)
        (hf : f s.chip = d) : Answers i s (onto s d) := answers_onChip hx ((atZero_of_due ht hp).trans hf)
    refine ⟨fun hp => ⟨fun p hd hl => ⟨?_, runPlan_mode hl⟩, fun hd => ?_, fun hd => ⟨?_, ?_⟩, fun m p hm hd hw hl => ?_,
      fun p hd hl => ⟨?_, unloadPlan_mode hl⟩, ?_, ?_⟩, fun ld p hl hw hs hp => ⟨fun hc hn hu hr => ⟨?_, installPlan_mode _ _⟩,
      fun set pos hc => ?_⟩, fun o hl hs => ?_⟩
    · exact zero (f := fun c => if planCmdDue c c.tk.tick 2 then runPlan c else c) hp rfl (if_pos hd)
    · refine ⟨_, zero (f := fun c => if planCmdDue c c.tk.tick 3 then pausePlan c else c) hp rfl (if_pos hd), ?_⟩
      simpa only [onto, settle_tk, settle_plan, objGet_settle, settle_hbm, settle_serv] using pausePlan_leaves s.chip
    · exact zero (f := fun c => if planCmdDue c c.tk.tick 4 then planDone (resumePlan c) else c) hp rfl (if_pos hd)
    · rw [planDone_tk, resumePlan, startTiles_tk, setMode_mode]
    · refine gives_onChip (f := atZero fun c => match c.plan.cmd with
        | some m => if planCmdDue c c.tk.tick 5 then stopPlan m c else c
        | none => c) rfl ?_
      rw [atZero_of_due ht hp, hm, onto, settle_tk]
      exact (congrArg (fun c : Chip => c.tk.mode) (if_pos hd)).trans (stopPlan_mode hw hl)
    · exact zero (f := fun c => if planCmdDue c c.tk.tick 6 then unloadPlan c else c) hp rfl (if_pos hd)
    · exact zero hp rfl rfl
    · exact zero hp rfl rfl
    · exact answers_onChip rfl (checkRunDone_installs hl hw hs hp hc hn hu hr)
    · refine gives_onChip (f := checkRunDone) rfl ?_
      rw [onto, objGet_settle, settle_plan, checkRunDone_fails hl hw hs hp hc]
      exact loadFails_leaves ..
    · refine gives_onChip (f := scrubDonePlan) rfl ?_
      simpa only [onto, objGet_settle, settle_plan, settle_hbm] using scrubDonePlan_leaves hl hs
  · intro c hl he hph hm hf hd ha hsh ho
    refine ⟨fun hc => ?_, fun hc => ?_, recordCompletions_records f _⟩
    · exact answers_clear rfl (completeFn_completes hl he hph hm hf hd ha hsh ho hc) hr
    · exact answers_clear rfl (completeFn_done hl he hc) hr

end Sys2Proof.Proofs

/-! SUPPORT. The plan's commands to the HBM banks, line reads and writes, and the controller's own work (R168-R171, R262-R271). -/

namespace Sys2Proof.Machine

theorem cellsGet_clear {α : Type} (d : α) (p : Nat → Bool) {m : Cells α} {k : Nat} (h : p k = true) : cellsGet d (cellsClear p m) k = d := by
  induction m with
  | nil => rfl
  | cons e m ih =>
    obtain ⟨j, w⟩ := e
    simp only [cellsClear, List.filter_cons] at ih ⊢
    split
    · rename_i hj
      have hne : j ≠ k := fun hjk => by simp [hjk, h] at hj
      simpa only [cellsGet, hne, if_false] using ih
    · exact ih

/-! The entry that issues. -/

section
variable {pc j cmd : Nat} {e : HbmCmd} {c : Chip}

theorem hbmEntry_next (h : hbmEntry pc j cmd c = some e) : nextEntry pc c = some (j, e) := by
  unfold hbmEntry at h
  split at h
  · split at h
    · rename_i hn hc
      simp only [Bool.and_eq_true, decide_eq_true_eq] at hc
      obtain ⟨⟨-, rfl⟩, -⟩ := hc
      rwa [Option.some.inj h] at hn
    · exact nomatch h
  · exact nomatch h

/-- A fold that keeps its choice or takes the next element chooses one of the list. -/
theorem foldl_pick_mem {α : Type} {f : Option α → α → Option α} (hf : ∀ m a x, f m a = some x → a = x ∨ m = some x) (l : List α)
    (m : Option α) {x : α} (h : l.foldl f m = some x) : x ∈ l ∨ m = some x := by
  induction l generalizing m with
  | nil => exact .inr h
  | cons a l ih =>
    rcases ih _ h with hx | hx
    · exact .inl (List.mem_cons_of_mem _ hx)
    · rcases hf m a x hx with rfl | hm
      · exact .inl List.mem_cons_self
      · exact .inr hm

/-- R143: the entry that issues next is entry j of its stream and has not issued. -/
theorem nextEntry_entry (h : nextEntry pc c = some (j, e)) :
    ∃ p ovl, c.plan.loaded = some p ∧ (hbmEntries p pc)[j]? = some (ovl, e) ∧ cellsGet 0 c.hbm.issued pc < entryPlace j e := by
  unfold nextEntry at h
  split at h
  · rename_i p _ hp _
    have hpick (m : Option (Nat × HbmCmd)) (a x : Nat × HbmCmd)
        (hx : (match m with | some y => if entryPlace a.1 a.2 < entryPlace y.1 y.2 then some a else m | none => some a) = some x) :
        a = x ∨ m = some x := by
      split at hx
      · split at hx
        · exact .inl (Option.some.inj hx)
        · exact .inr hx
      · exact .inl (Option.some.inj hx)
    have hmem := (foldl_pick_mem hpick _ none h).resolve_right nofun
    obtain ⟨⟨⟨ovl, e'⟩, j'⟩, hx, hif⟩ := List.mem_filterMap.mp hmem
    split at hif
    · rename_i hc
      obtain ⟨rfl, rfl⟩ := Prod.mk.inj (Option.some.inj hif)
      simp only [Bool.and_eq_true, decide_eq_true_eq] at hc
      exact ⟨p, ovl, hp, (List.mk_mem_zipIdx_iff_getElem?).mp hx, hc.2⟩
    · exact nomatch hif
  · exact nomatch h

/-- R168: an entry issues once in a tick. -/
theorem hbmEntry_once {cmd' : Nat} (h : hbmEntry pc j cmd c = some e) : hbmEntry pc j cmd' (markEntry pc j e c) = none := by
  obtain ⟨p, ovl, hp, hj, -⟩ := nextEntry_entry (hbmEntry_next h)
  refine Option.eq_none_iff_forall_ne_some.mpr fun e' h' => ?_
  obtain ⟨p', ovl', hp', hj', hlt⟩ := nextEntry_entry (hbmEntry_next h')
  obtain rfl : p = p' := Option.some.inj (hp.symm.trans hp')
  obtain ⟨-, rfl⟩ := Prod.mk.inj (Option.some.inj (hj.symm.trans hj'))
  simp [markEntry] at hlt

/-- A plan command of the entry that issues now acts on its bank. -/
theorem planHbm_answers {i : Instr} {s : State} {f : HbmCmd → Chip → Chip} {d : Chip} (hpc : pc < 32)
    (hx : exec i s = planHbm pc j cmd f s) (he : hbmEntry pc j cmd s.chip = some e) (hd : f e (markEntry pc j e s.chip) = d) :
    Answers i s (onto s d) := by
  rw [Answers, hx, planHbm, onUnit_of_lt hpc, onChip_next, he, ← hd]
  rfl

end

/-! Open rows. -/

@[simp] theorem openedRow_openRow (pc bank row : Nat) (c : Chip) : openedRow (openRow pc bank row c) pc bank = some row := by
  simp [openedRow, openRow]

@[simp] theorem openedRow_closeBank (pc bank : Nat) (c : Chip) : openedRow (closeBank pc bank c) pc bank = none := by
  simp [openedRow, closeBank]

theorem openedRow_closeAll (pc : Nat) {bank : Nat} (c : Chip) (h : bank < 48) : openedRow (closeAll pc c) pc bank = none := by
  have hk : (bankKey pc bank / 48 == pc) = true := by
    rw [beq_iff_eq, bankKey]
    omega
  simp only [openedRow, closeAll, cellsGet_clear 0 (fun k => k / 48 == pc) hk]

theorem refreshes_refreshBank (pc bank : Nat) (c : Chip) :
    cellsGet 0 (refreshBank pc bank c).hbm.refreshes (bankKey pc bank) = cellsGet 0 c.hbm.refreshes (bankKey pc bank) + 1 := by
  simp [refreshBank, cellsMod]

theorem hbmRd_reads {pc row : Nat} {e : HbmCmd} {c : Chip} (errs : List (Nat × Byte)) (h : openedRow c pc e.bank = some row) :
    hbmRd pc e errs c =
      let d := dataRead (row * 16 + e.addr % 16) errs c
      { d.2.2 with hbm := { d.2.2.hbm with returns := d.2.2.hbm.returns ++
        [{ port := 2 * pc + e.port, fc := e.fc + (hbmCert c).1, w0 := (lineWords d.2.1).1, w1 := (lineWords d.2.1).2
           poison := decide (d.1 = .uncorrectable) || decide (d.1 = .poisoned) }] } } := by
  simp only [hbmRd, h]

theorem translatedRow_mark (pc j : Nat) (e : HbmCmd) (c : Chip) (row : Nat) : translatedRow (markEntry pc j e c) row = translatedRow c row := by
  have hmask : vpcMask (markEntry pc j e c) = vpcMask c := objGet_of_objs rfl ..
  have hbinds : (markEntry pc j e c).hbm.binds = c.hbm.binds := rfl
  simp only [translatedRow, hmask, hbinds]

theorem hbmAct_opens (pc j : Nat) (e : HbmCmd) (c : Chip) : hbmAct pc e (markEntry pc j e c) =
    openRow pc e.bank (translatedRow c (rowKey pc (e.bank / 16) (e.bank % 16) (e.addr % 16384))) (markEntry pc j e c) := by
  rw [hbmAct, translatedRow_mark]

end Sys2Proof.Machine

namespace Sys2Proof.Proofs

open Sys2Proof Sys2Proof.Machine

/-- Settles O25: each command of a stream on its bank, once a tick. -/
theorem hbmBankCommands : Obligations.HbmBankCommands := by
  intro pc j e s hpc
  dsimp only
  refine ⟨fun he => ⟨planHbm_answers (f := hbmAct pc) hpc rfl he (hbmAct_opens ..), openedRow_openRow ..⟩, fun row errs hr => ⟨fun he => ?_, fun he => ?_⟩,
    fun he => ⟨planHbm_answers (f := fun e => closeBank pc e.bank) hpc rfl he rfl, openedRow_closeBank ..⟩,
    fun he => ⟨planHbm_answers (f := fun _ => closeAll pc) hpc rfl he rfl, fun bank hb => openedRow_closeAll _ _ hb⟩,
    fun he => ⟨planHbm_answers (f := fun e => refreshBank pc e.bank) hpc rfl he rfl, refreshes_refreshBank ..⟩,
    fun errs he => planHbm_answers (f := fun e => scrubSlot pc e.bank errs) hpc rfl he rfl, fun cmd cmd' he => hbmEntry_once he⟩
  · exact planHbm_answers (f := fun e => hbmRd pc e errs) hpc rfl he (hbmRd_reads (c := markEntry pc j e s.chip) errs hr)
  · exact planHbm_answers (f := fun e c => closeBank pc e.bank (hbmRd pc e errs c)) hpc rfl he
      (congrArg (closeBank pc e.bank) (hbmRd_reads (c := markEntry pc j e s.chip) errs hr))

end Sys2Proof.Proofs

/-! SUPPORT. Lines written and read (R169, R266-R268). -/

namespace Sys2Proof.Machine

theorem inRanges_cut (n : Nat) (l : List (Nat × Nat)) : inRanges (cutRange n (n + 1) l) n = false := by
  simp only [inRanges, cutRange, List.any_eq_false, List.mem_flatMap]
  rintro x ⟨r, -, hx⟩
  split at hx
  · rename_i h
    rw [List.mem_singleton.mp hx]
    simp only [Bool.or_eq_true, decide_eq_true_eq] at h
    simp only [Bool.and_eq_true, decide_eq_true_eq]
    omega
  · rcases List.mem_append.mp hx with hx | hx
    all_goals
      split at hx
      · rw [List.mem_singleton.mp hx]
        simp
      · exact absurd hx List.not_mem_nil

@[simp] theorem hbmPeek_put_same (k : Nat) (l : Line) (c : Chip) : hbmPeek (hbmPut k l c) k = l := cellsGet_set_same ..

theorem hbmPeek_put_ne {k k' : Nat} (l : Line) {c : Chip} (h : servedKey c k' ≠ servedKey c k) : hbmPeek (hbmPut k l c) k' = hbmPeek c k' :=
  cellsGet_set_ne _ _ _ _ h

/-- What a read of HBM lines takes: the lines and the rows that serve. -/
theorem hbmPeek_of_hbm {c c' : Chip} (hl : c'.hbm.lines = c.hbm.lines) (hs : c'.hbm.spares = c.hbm.spares) (k : Nat) :
    hbmPeek c' k = hbmPeek c k := by
  simp only [hbmPeek, servedKey, servedRow, hl, hs]

section
variable (k : Nat) (l : Line) (c : Chip)

/-- R268: a write of a line writes it and clears its bit in the poison map. -/
theorem writeLine_frame : (writeLine k l c).hbm = { (hbmPut k l c).hbm with poison := (writeLine k l c).hbm.poison } ∧
    (writeLine k l c).grid = c.grid := by
  unfold writeLine
  dsimp only
  split
  · exact ⟨rfl, rfl⟩
  · split <;> exact ⟨rfl, rfl⟩

theorem hbmPeek_writeLine (k' : Nat) : hbmPeek (writeLine k l c) k' = hbmPeek (hbmPut k l c) k' :=
  hbmPeek_of_hbm (congrArg HbmSt.lines (writeLine_frame k l c).1 :) (congrArg HbmSt.spares (writeLine_frame k l c).1 :) k'

theorem writeLine_unpoisons {n : Nat} (hn : keyPlanLine c k = some n) : inRanges (writeLine k l c).hbm.poison n = false := by
  have hn' : keyPlanLine (hbmPut k l c) k = some n := hn
  unfold writeLine
  simp only [hn']
  split
  · exact inRanges_cut n _
  · exact Bool.eq_false_iff.mpr ‹_›

end

/-! A write of a plan stream. -/

/-- The words that a write takes from its port are gone. -/
def wordsTaken (port f : Nat) (c : Chip) : Chip :=
  { c with grid := { c.grid with edge := c.grid.edge.filter (fun w => !(w.port == port && (w.fc == f || w.fc == f + 1))) } }

/-- The line that two words of a port make. -/
def wordsLine (w0 w1 : SWord) : Line := if w0.poison || w1.poison then poisonLine else lineData w0.data w1.data

theorem hbmWr_writes {pc row : Nat} {e : HbmCmd} {c : Chip} (h : openedRow c pc e.bank = some row)
    (hi : idleWindow c (row * 16 + e.addr % 16) = false) :
    hbmWr pc e c = writeLine (row * 16 + e.addr % 16)
      (wordsLine (portWord c (2 * pc + e.port) (e.fc - (hbmCert c).2)) (portWord c (2 * pc + e.port) (e.fc - (hbmCert c).2 + 1)))
      (wordsTaken (2 * pc + e.port) (e.fc - (hbmCert c).2) c) := by
  simp only [hbmWr, h]
  exact if_neg (Bool.eq_false_iff.mp hi)

/-- R169, R266: line k of c is written as l, its words taken from the port. -/
def LineWritten (c : Chip) (k : Nat) (l : Line) (port f : Nat) (d : Chip) : Prop :=
  hbmPeek d k = l ∧ (∀ k', servedKey c k' ≠ servedKey c k → hbmPeek d k' = hbmPeek c k') ∧
  (∀ n, keyPlanLine c k = some n → inRanges d.hbm.poison n = false) ∧
  (∀ w ∈ d.grid.edge, ¬ (w.port = port ∧ (w.fc = f ∨ w.fc = f + 1)))

theorem lineWritten_writeLine (c : Chip) (k : Nat) (l : Line) (port f : Nat) :
    LineWritten c k l port f (writeLine k l (wordsTaken port f c)) := by
  refine ⟨?_, fun k' hk => ?_, fun n hn => writeLine_unpoisons k l _ hn, fun w hw hp => ?_⟩
  · rw [hbmPeek_writeLine, hbmPeek_put_same]
  · rw [hbmPeek_writeLine]
    exact hbmPeek_put_ne (c := wordsTaken port f c) l hk
  · rw [(writeLine_frame ..).2] at hw
    have hkept := (List.mem_filter.mp hw).2
    obtain ⟨hport, hfc⟩ := hp
    simp only [hport, beq_self_eq_true, Bool.true_and, Bool.not_eq_true', Bool.or_eq_false_iff, beq_eq_false_iff_ne] at hkept
    exact hfc.elim hkept.1 hkept.2

/-- A write is the same seen through an update of the bank state, the entries that have issued or the settled state. -/
theorem LineWritten.of_eq {c c' d d' : Chip} {k port f : Nat} {l : Line} (h : LineWritten c k l port f d)
    (hc : c'.hbm.lines = c.hbm.lines ∧ c'.hbm.spares = c.hbm.spares ∧ c'.objs = c.objs)
    (hd : d'.hbm.lines = d.hbm.lines ∧ d'.hbm.spares = d.hbm.spares ∧ d'.hbm.poison = d.hbm.poison ∧ d'.grid = d.grid) :
    LineWritten c' k l port f d' := by
  obtain ⟨hcl, hcs, hco⟩ := hc
  obtain ⟨hl, hs, hp, hg⟩ := hd
  have hkey (k : Nat) : servedKey c' k = servedKey c k := by simp only [servedKey, servedRow, hcs]
  have hplan : keyPlanLine c' k = keyPlanLine c k := by rw [keyPlanLine, keyPlanLine, vpcMask, vpcMask, objGet_of_objs hco]
  obtain ⟨h1, h2, h3, h4⟩ := h
  refine ⟨(hbmPeek_of_hbm hl hs k).trans h1, fun k' hk => ?_, fun n hn => ?_, fun w hw => h4 w (hg ▸ hw)⟩
  · rw [hkey, hkey] at hk
    rw [hbmPeek_of_hbm hl hs, hbmPeek_of_hbm hcl hcs]
    exact h2 k' hk
  · rw [hp]
    exact h3 n (hplan ▸ hn)

/-! The outcomes of a line read. -/

theorem objMax_poisonedLines : objMax 0x2B20 0x03 + 1 = 2 ^ 64 := by decide +kernel
theorem objMax_correctedLines : objMax 0x2B20 0x01 + 1 = 2 ^ 64 := by decide +kernel

section
variable {k : Nat} {errs : List (Nat × Byte)} {c : Chip}

theorem dataRead_masked (h : lineMasked c k = true) : dataRead k errs c = (.poisoned, poisonLine, objBump 0x2B20 0x03 0 1 c) := by
  simp only [dataRead, readLine, h, if_true, reduceCtorEq, if_false]

/-- The module with the symbol errors struck into a line. -/
def struckLine (k : Nat) (errs : List (Nat × Byte)) (c : Chip) : Chip := if errs.isEmpty then c else hbmPut k (strikeLine (hbmPeek c k) errs) c

theorem struckLine_objs : (struckLine k errs c).objs = c.objs ∧ (struckLine k errs c).tk = c.tk ∧ (struckLine k errs c).hbm.wbQueue = c.hbm.wbQueue := by
  unfold struckLine
  split <;> exact ⟨rfl, rfl, rfl⟩

theorem readLine_unmasked (h : lineMasked c k = false) : readLine k errs c =
    (match classLine (hbmPeek (struckLine k errs c) k) with
    | (.clean, l) => (.clean, l, struckLine k errs c)
    | (.corrected, l) => (.corrected, l, objBump 0x2B20 0x01 0 1 (struckLine k errs c))
    | (.poisoned, l) => (.poisoned, l, objBump 0x2B20 0x03 0 1 (struckLine k errs c))
    | (.uncorrectable, l) => (.uncorrectable, l, suspectRow (keyRow k) (objSet 0x2B20 0x05 0 (hbmPlace k)
        (objSet 0x2B20 0x06 0 (struckLine k errs c).tk.tick (objBump 0x2B20 0x02 0 1 (struckLine k errs c)))))) := by
  simp only [readLine, h, Bool.false_eq_true, if_false, ← struckLine.eq_1] <;> rfl

theorem dataRead_class (h : lineMasked c k = false) : (dataRead k errs c).1 = (classLine (hbmPeek (struckLine k errs c) k)).1 := by
  simp only [dataRead, readLine_unmasked h]
  generalize classLine (hbmPeek (struckLine k errs c) k) = r
  obtain ⟨cls, l⟩ := r
  cases cls <;> rfl

/-- R267: a corrected line is counted and, where the queue has room, queued for write-back. -/
theorem dataRead_corrected (h : lineMasked c k = false) (hc : (dataRead k errs c).1 = .corrected) :
    objGet (dataRead k errs c).2.2 0x2B20 0x01 0 = (objGet c 0x2B20 0x01 0 + 1) % 2 ^ 64 ∧
    ((cellsGet [] c.hbm.wbQueue (keyPc k)).length < 256 → cellsGet [] (dataRead k errs c).2.2.hbm.wbQueue (keyPc k) =
      cellsGet [] c.hbm.wbQueue (keyPc k) ++ [k]) := by
  rw [dataRead_class h] at hc
  obtain ⟨l, hl⟩ : ∃ l, classLine (hbmPeek (struckLine k errs c) k) = (.corrected, l) := ⟨_, Prod.ext hc rfl⟩
  obtain ⟨hobjs, -, hq⟩ := struckLine_objs (k := k) (errs := errs) (c := c)
  have hd : dataRead k errs c = (.corrected, l, queueLine k (objBump 0x2B20 0x01 0 1 (struckLine k errs c))) := by
    simp only [dataRead, readLine_unmasked h, hl, if_true]
  have hcount : objGet (objBump 0x2B20 0x01 0 1 (struckLine k errs c)) 0x2B20 0x01 0 = (objGet c 0x2B20 0x01 0 + 1) % 2 ^ 64 := by
    rw [objGet_bump_wide _ _ _ objMax_correctedLines, objGet_of_objs hobjs]
  have hq' : (objBump 0x2B20 0x01 0 1 (struckLine k errs c)).hbm.wbQueue = c.hbm.wbQueue := hq
  rw [hd]
  generalize objBump 0x2B20 0x01 0 1 (struckLine k errs c) = d at *
  refine ⟨?_, fun hroom => ?_⟩
  · dsimp only [queueLine]
    split
    · exact hcount
    · rw [objGet_bump_ne _ _ (by decide)]
      exact hcount
  · simp only [queueLine, hq', hroom, if_true, cellsGet_set_same]

theorem suspectRow_count {i : Nat} (row : Nat) (c : Chip) (b n : Nat) (hi : i ≠ 0x2B30 ∧ i ≠ 0x1001 ∧ i ≠ 0x2A40 ∧ i ≠ 0x2A42 ∧ i ≠ 0x2A00 ∧ i ≠ 0x2811) :
    objGet (suspectRow row c) i b n = objGet c i b n := by
  obtain ⟨hi, hc⟩ := hi
  unfold suspectRow hbmRowsShow
  split
  · rfl
  · rw [objGet_setClass _ _ _ hc]
    simp only [objGet_set_idx _ _ _ _ _ _ hi] <;> rfl

/-- R266: an uncorrectable line's place and tick are recorded. -/
theorem dataRead_uncorrectable (h : lineMasked c k = false) (hc : (dataRead k errs c).1 = .uncorrectable) :
    objGet (dataRead k errs c).2.2 0x2B20 0x05 0 = hbmPlace k ∧ objGet (dataRead k errs c).2.2 0x2B20 0x06 0 = c.tk.tick := by
  rw [dataRead_class h] at hc
  obtain ⟨l, hl⟩ : ∃ l, classLine (hbmPeek (struckLine k errs c) k) = (.uncorrectable, l) := ⟨_, Prod.ext hc rfl⟩
  simp only [dataRead, readLine_unmasked h, hl, reduceCtorEq, if_false]
  rw [suspectRow_count _ _ _ _ (by decide), suspectRow_count _ _ _ _ (by decide), objGet_set_same, objGet_set_ne _ _ (by decide), objGet_set_same,
    struckLine_objs.2.1]
  exact ⟨rfl, rfl⟩

end

end Sys2Proof.Machine

namespace Sys2Proof.Proofs

open Sys2Proof Sys2Proof.Machine

/-- Settles O26: a write as LineWritten, a return, and a read by its outcome. -/
theorem hbmAccess : Obligations.HbmAccess := by
  refine ⟨fun pc j row e s hpc hrow => ?_, fun i r s hr => answers_onChip (f := hbmReturn i) rfl ?_, fun k errs c => ?_⟩
  · dsimp only
    intro hidle
    have hwr := hbmWr_writes (c := markEntry pc j e s.chip) hrow hidle
    have hw := lineWritten_writeLine (markEntry pc j e s.chip) (row * 16 + e.addr % 16)
      (wordsLine (portWord s.chip (2 * pc + e.port) (e.fc - (hbmCert s.chip).2)) (portWord s.chip (2 * pc + e.port) (e.fc - (hbmCert s.chip).2 + 1)))
      (2 * pc + e.port) (e.fc - (hbmCert s.chip).2)
    refine ⟨fun he => ?_, fun he => ?_⟩
    · refine ⟨_, planHbm_answers (f := hbmWr pc) hpc rfl he hwr, ?_⟩
      refine hw.of_eq (c' := s.chip) ⟨rfl, rfl, rfl⟩ ?_
      simp only [onto, settle_hbm, settle_grid]
      exact ⟨rfl, rfl, rfl, rfl⟩
    · refine ⟨_, planHbm_answers (f := fun e c => closeBank pc e.bank (hbmWr pc e c)) hpc rfl he (congrArg (closeBank pc e.bank) hwr), ?_, ?_⟩
      · refine hw.of_eq (c' := s.chip) ⟨rfl, rfl, rfl⟩ ?_
        simp only [onto, settle_hbm, settle_grid]
        exact ⟨rfl, rfl, rfl, rfl⟩
      · rw [openedRow, onto, settle_hbm]
        exact openedRow_closeBank ..
  · simp only [hbmReturn, hr]
  · refine ⟨fun h => ?_, fun h => ⟨dataRead_class h, dataRead_corrected h, dataRead_uncorrectable h⟩⟩
    rw [dataRead_masked h]
    exact ⟨rfl, rfl, objGet_bump_wide _ _ _ objMax_poisonedLines⟩

end Sys2Proof.Proofs

/-! SUPPORT. The controller's own work on the stack (R262-R271, R447). -/

namespace Sys2Proof.Machine

/-! Row sparing (R270). -/

theorem copyRow_copies {row sp : Nat} {c : Chip} (hf : freeSpare c row = some sp) (hs : c.hbm.suspects.contains row = true) :
    (copyRow row c).hbm.copied = c.hbm.copied ++ [(row, sp)] ∧ row ∉ (copyRow row c).hbm.suspects := by
  have hfold (l : List Nat) (f : Chip → Nat → Cells Line) :
      (l.foldl (fun c i => { c with hbm := { c.hbm with lines := f c i } }) c).hbm.copied = c.hbm.copied :=
    foldl_keeps (fun c : Chip => c.hbm.copied) (by intros; rfl) l c
  simp only [copyRow, hf, hs, Bool.not_true, Bool.false_eq_true, if_false]
  exact ⟨congrArg (· ++ [(row, sp)]) (hfold ..), by simp⟩

theorem hbmRowsShow_hbm (c : Chip) : (hbmRowsShow c).hbm = c.hbm := by simp [hbmRowsShow]

/-- R270, R272: the copied spare serves the row, every other row is served as before. -/
theorem servedRow_switchRow {row sp : Nat} {c : Chip} (h : c.hbm.copied.find? (fun p => p.1 == row) = some (row, sp)) :
    servedRow (switchRow row c) row = sp ∧ ∀ r, r ≠ row → servedRow (switchRow row c) r = servedRow c r := by
  have hsp : (switchRow row c).hbm.spares = c.hbm.spares.filter (fun q => q.1 != row) ++ [(row, sp)] := by
    simp only [switchRow, h, tracePoint_hbm, hbmRowsShow_hbm]
  have hnone : (c.hbm.spares.filter (fun q => q.1 != row)).find? (fun p => p.1 == row) = none := by
    simp
  refine ⟨?_, fun r hr => ?_⟩
  · simp only [servedRow, hsp, List.find?_append, hnone, Option.none_or, List.find?_singleton, beq_self_eq_true, if_true]
  · have hlast : [(row, sp)].find? (fun p => p.1 == r) = none := by simp [Ne.symm hr]
    have hkeep : (c.hbm.spares.filter (fun q => q.1 != row)).find? (fun p => p.1 == r) = c.hbm.spares.find? (fun p => p.1 == r) := by
      rw [List.find?_filter]
      refine congrArg (List.find? · _) (funext fun p => ?_)
      rcases eq_or_ne p.1 r with hp | hp
      · simp [hp, hr]
      · simp [hp]
    simp only [servedRow, hsp, List.find?_append, hlast, hkeep, Option.or_none]

/-! Post-package repair (R271). -/

theorem leaseRelease_objs (a : Activity) (o : Nat) (c : Chip) : (leaseRelease a o c).objs = c.objs := by
  unfold leaseRelease
  dsimp only
  split <;> rfl

theorem objGet_hbmRowsShow (c : Chip) : objGet (hbmRowsShow c) 0x2B30 0x04 0 = objGet c 0x2B30 0x04 0 := by
  dsimp only [hbmRowsShow]
  rw [objGet_setClass _ _ _ (by decide)]
  simp only [objGet_set_ne _ _ (show okey 0x2B30 4 0 ≠ okey 0x2B30 1 0 by decide), objGet_set_ne _ _ (show okey 0x2B30 4 0 ≠ okey 0x2B30 2 0 by decide),
    objGet_set_ne _ _ (show okey 0x2B30 4 0 ≠ okey 0x2B30 5 0 by decide), objGet_set_ne _ _ (show okey 0x2B30 4 0 ≠ okey 0x2B30 3 0 by decide),
    objGet_set_ne _ _ (show okey 0x2B30 4 0 ≠ okey 0x2B30 6 0 by decide)]

/-- The end of a post-package repair posts OK and the resources left. -/
theorem pprPosted (left : Nat) (c : Chip) :
    let d := leaseRelease .ppr 0 (postStatus 0x2B31 0x00 0 stOk (hbmRowsShow (objSet 0x2B30 0x04 0 (left % 65536) c)))
    objGet d 0x2B30 0x04 0 = left % 65536 ∧ objGet d 0x2B31 0x00 0 = stOk := by
  dsimp only
  rw [objGet_of_objs (leaseRelease_objs ..), objGet_of_objs (leaseRelease_objs ..), objGet_post_idx _ _ _ _ _ _ (by decide), objGet_hbmRowsShow,
    objGet_set_same, objGet_postStatus_same]
  exact ⟨rfl, rfl⟩

/-! The end of a revocation (R268). -/

theorem writePlanData_revoked (fuel n : Nat) (d : List Byte) (c : Chip) : (writePlanData fuel n d c).hbm.revoked = c.hbm.revoked := by
  induction fuel generalizing n d c with
  | zero => rfl
  | succ fuel ih =>
    rw [writePlanData]
    split
    · rfl
    · rw [ih]
      split
      · rfl
      · exact (congrArg HbmSt.revoked (writeLine_frame ..).1 :)

/-- The range leaves the table, and with the function's last range its mark in 2412.06. -/
def rangeEnds (i : Nat) (r : Revoked) (d : Chip) : Chip :=
  let e := hbmMaps { d with hbm := { d.hbm with revoked := d.hbm.revoked.eraseIdx i } }
  if e.hbm.revoked.any (fun q => q.fn == r.fn) then e else objSet 0x2412 0x06 r.fn 0 e

theorem rangeEnds_revoked (i : Nat) (r : Revoked) (d : Chip) : (rangeEnds i r d).hbm.revoked = d.hbm.revoked.eraseIdx i := by
  dsimp only [rangeEnds]
  split <;> rfl

theorem revocationDone_ends {i : Nat} {r : Revoked} {c : Chip} (h : c.hbm.revoked[i]? = some r) :
    (revocationDone i c).hbm.revoked = c.hbm.revoked.eraseIdx i ∧
    ((c.hbm.revoked.eraseIdx i).any (fun q => q.fn == r.fn) = false → objGet (revocationDone i c) 0x2412 0x06 r.fn = 0) := by
  obtain ⟨d, hd, he⟩ : ∃ d, d.hbm.revoked = c.hbm.revoked ∧ revocationDone i c = tracePoint 100 0 r.fn (rangeEnds i r d) := by
    simp only [revocationDone, h]
    refine ⟨_, ?_, rfl⟩
    exact writePlanData_revoked _ _ _ (unpoison r.lo r.hi (zeroLines r.lo r.hi c))
  rw [he, tracePoint_hbm, rangeEnds_revoked, hd]
  refine ⟨rfl, fun hn => ?_⟩
  rw [objGet_tracePoint _ _ _ _ (okey_ne_idx (by decide))]
  dsimp only [rangeEnds]
  rw [if_neg, objGet_set_same]
  exact Bool.eq_false_iff.mp (hd ▸ hn)

/-! Readings and parity errors (R262, R263, R447). -/

theorem setClass_active (n : Nat) (c : Chip) : classActive (setClass n true c) n = true := by
  have hset (m : Nat) : bitOf (m ||| 2 ^ n) n = true := by simp [bitOf, Nat.testBit_or, Nat.testBit_two_pow_self]
  dsimp only [setClass, classActive]
  split
  · assumption
  · simp only [if_true]
    rw [objGet_logRec _ _ _ _ _ (by decide) (by decide) (by decide) (by decide)]
    simp only [objGet_set_idx _ _ _ _ _ _ (show 0x2A40 ≠ 0x2A42 by decide), objGet_bumpSat_idx _ _ _ _ _ _ (show 0x2A40 ≠ 0x2A42 by decide),
      objGet_set_idx _ _ _ _ _ _ (show 0x2A40 ≠ 0x1001 by decide), objGet_set_ne _ _ (show okey 0x2A40 1 0 ≠ okey 0x2A40 2 0 by decide),
      objGet_set_same, hset]

theorem holdClass_holds (n t : Nat) (c : Chip) : classActive (holdClass n t c) n = true ∧
    cellsFind (holdClass n t c).life.classUntil n = some (c.tk.now + t) := by
  refine ⟨setClass_active n _, ?_⟩
  rw [holdClass, setClass_life]
  exact cellsFind_put_same ..

end Sys2Proof.Machine

namespace Sys2Proof.Proofs

open Sys2Proof Sys2Proof.Machine

/-- Settles O27: each of the controller's own actions under its condition. -/
theorem hbmMaintenance : Obligations.HbmMaintenance := by
  intro s
  dsimp only
  refine ⟨fun pc hpc ha => ⟨fun bank hb => ?_, fun errs => ?_, fun errs k t hq => ?_⟩, fun row sp hrow hp hf hs => ⟨?_, copyRow_copies hf hs⟩,
    fun row sp hrow hp hc => ?_, fun done left hl => ?_, fun i r hr => ?_, fun temps ht => ?_, fun pc hpc => ?_⟩
  · exact answers_onChip (onUnit_of_lt hpc (fun c => if autonomous c pc && decide (bank < 48) then refreshBank pc bank c else c) s)
      (if_pos (by simp [ha, hb]))
  · exact answers_onChip (onUnit_of_lt hpc (fun c => if autonomous c pc then patrolStep pc errs c else c) s) (if_pos ha)
  · have hx : exec (.hbmWriteback pc errs) s = execHbmWriteback pc errs s := rfl
    rw [Answers, hx, execHbmWriteback, onUnit_of_lt hpc, onChip_next, hq]
    exact congrArg (fun d => Host.Outcome.next (onto s d)) (if_pos ha)
  · exact answers_onChip (onUnit_of_lt hrow (fun c => if c.tk.phase = .slack then copyRow row c else c) s) (if_pos hp)
  · refine gives_onChip (onUnit_of_lt hrow (fun c => if c.tk.phase = .ac3584 then switchRow row c else c) s) ?_
    rw [if_pos hp]
    simp only [servedRow, onto, settle_hbm]
    exact servedRow_switchRow hc
  · have hx : exec (.pprComplete done left) s = execPprComplete done left s := rfl
    rw [Gives, hx, execPprComplete, onChip_next]
    refine ⟨_, rfl, ?_⟩
    rw [objGet_settle, objGet_settle, if_neg (by simp [hl])]
    exact pprPosted left _
  · refine gives_onChip (f := revocationDone i) rfl ?_
    rw [onto, settle_hbm, objGet_settle]
    exact revocationDone_ends hr
  · have hx : exec (.hbmTemperatureRead temps) s = execHbmTemperatureRead temps s := rfl
    rw [Gives, hx, execHbmTemperatureRead, onChip_next]
    refine ⟨_, rfl, ?_⟩
    rw [objGet_settle]
    dsimp only
    rw [objGet_set_same, ht, Nat.sub_self, List.replicate_zero, List.append_nil, List.take_of_length_le ht.le]
  · refine gives_onChip (onUnit_of_lt hpc (holdClass 0x01 60000000000) s) ?_
    rw [classActive, onto, objGet_settle, settle_life]
    exact holdClass_holds ..

end Sys2Proof.Proofs

/-! SUPPORT. Frames received and sent by the service ports, and PTP (R175-R180, R468). -/

namespace Sys2Proof.Machine

/-- A frame taken leaves the module as it was but for the inbox. -/
theorem takeRx_inbox {p : RxFrame → Bool} {c d : Chip} {x : RxFrame} (h : takeRx p c = some (x, d)) :
    ∃ l, d = { c with net := { c.net with inbox := l } } := by
  unfold takeRx at h
  split at h
  · exact nomatch h
  · split at h
    · exact nomatch h
    · exact ⟨_, (Prod.mk.inj (Option.some.inj h)).2.symm⟩

/-! Frames received. -/

section
variable {port t : Nat} {b : List Byte} {c : Chip}

theorem receiveFrame_fragment (h : parseFrame c port b = .fragment) : receiveFrame port t b c = objBump 0x2340 0x03 0 1 c := by
  rw [receiveFrame, h]

theorem receiveFrame_malformed (h : parseFrame c port b = .malformed) : receiveFrame port t b c = objBump 0x2340 0x02 0 1 c := by
  rw [receiveFrame, h]

theorem receiveFrame_classified (hf : parseFrame c port b ≠ .fragment) (hm : parseFrame c port b ≠ .malformed) :
    receiveFrame port t b c = match classify c port t (parseFrame c port b) with
      | none => objBump 0x2340 0x01 0 1 c
      | some f => { c with net := { c.net with inbox := c.net.inbox ++ [f] } } := by
  unfold receiveFrame
  split
  · exact absurd ‹_› hf
  · exact absurd ‹_› hm
  · rfl

end

theorem answerFor_owned {cls : RxClass} {f : RxFrame → Sent} {c d : Chip} {x : RxFrame} (h : takeRx (fun x => x.cls == cls) c = some (x, d))
    (ho : portOwns d x.port x.dst = true) : answerFor cls f c = transmit (f x) d := by
  simp only [answerFor, h, ho, if_true]

/-! Next hops resolved, or not in time (R178). -/

theorem countSent_net (d : Datagram) (c : Chip) : (countSent d c).net = c.net := by unfold countSent; split <;> rfl
theorem countDropped_net (o : Origin) (c : Chip) : (countDropped o c).net = c.net := by unfold countDropped; split <;> rfl

/-- What sending datagrams leaves of the ports. -/
theorem sendAll_net (mac : Nat) (l : List Unresolved) (c : Chip) :
    let d := l.foldl (fun c w => countSent w.dgram (transmit (.datagram w.dgram mac) c)) c
    d.net.neighbors = c.net.neighbors ∧ d.net.waiting = c.net.waiting ∧
    d.net.sent = c.net.sent ++ l.map (fun w => .datagram w.dgram mac) := by
  induction l generalizing c with
  | nil => exact ⟨rfl, rfl, (List.append_nil _).symm⟩
  | cons w l ih =>
    obtain ⟨hn, hw, hs⟩ := ih (countSent w.dgram (transmit (.datagram w.dgram mac) c))
    rw [countSent_net] at hn hw hs
    refine ⟨hn, hw, hs.trans ?_⟩
    rw [transmit, List.append_assoc, List.map_cons, List.singleton_append]

/-- R178: the next hop of an answer is known, and what waited for it is sent. -/
theorem learnFrom_resolves {cls : RxClass} {c d : Chip} {x : RxFrame} (h : takeRx (fun x => x.cls == cls) c = some (x, d)) :
    { port := x.port, addr := x.src, mac := x.mac } ∈ (learnFrom cls c).net.neighbors ∧
    (∀ w ∈ (learnFrom cls c).net.waiting, w ∈ c.net.waiting ∧ ¬ (w.dgram.port = x.port ∧ w.hop = x.src)) ∧
    (learnFrom cls c).net.sent = c.net.sent ++ (c.net.waiting.filter (fun w => w.dgram.port == x.port && w.hop == x.src)).map
      (fun w => .datagram w.dgram x.mac) := by
  obtain ⟨l, rfl⟩ := takeRx_inbox h
  simp only [learnFrom, h, resolveHop]
  obtain ⟨hn, hw, hs⟩ := sendAll_net x.mac (c.net.waiting.filter (fun w => w.dgram.port == x.port && w.hop == x.src))
    { c with net := { c.net with
      inbox := l
      neighbors := c.net.neighbors.filter (fun y => !(y.port == x.port && y.addr == x.src)) ++ [{ port := x.port, addr := x.src, mac := x.mac }]
      waiting := c.net.waiting.filter (fun w => !(w.dgram.port == x.port && w.hop == x.src)) } }
  refine ⟨?_, fun w hm => ?_, hs⟩
  · rw [hn]
    exact List.mem_append_right _ (List.mem_singleton_self _)
  · rw [hw] at hm
    obtain ⟨hm, hx⟩ := List.mem_filter.mp hm
    exact ⟨hm, by simpa [imp_iff_not_or] using hx⟩

theorem dropUnresolved_net (t : Nat) (c : Chip) :
    (dropUnresolved t c).net = { c.net with waiting := c.net.waiting.filter (fun w => !decide (w.since + 1000000000 ≤ t)) } :=
  foldl_keeps (fun c : Chip => c.net) (fun c (w : Unresolved) => countDropped_net w.dgram.origin c) _ _

/-! PTP. -/

theorem objGet_setPtpState (st : Nat) (c : Chip) : objGet (setPtpState st c) 0x1F10 0x05 0 = st := by
  dsimp only [setPtpState]
  split
  · rw [objGet_set_ne _ _ (by decide), objGet_set_same]
  · rw [objGet_set_same]

/-- R180: an unlocked module locks with the sixteenth measured Sync in a row. -/
theorem measureSync_unlocked {c : Chip} {t1 t2 : Nat} {corr log : Int} (h : objGet c 0x1F10 0x05 0 = 0)
    (he : ((ptpTime c t2 : Int) - (t1 + corr + c.net.ptp.delay)).natAbs ≤ 100) :
    objGet (measureSync t1 t2 corr log c) 0x1F10 0x05 0 = if 16 ≤ c.net.ptp.inRow + 1 then 1 else 0 := by
  simp only [measureSync, objGet_setPtpState, h, he, decide_true, if_true]

section
variable {c d : Chip} {f : RxFrame}

theorem ptpSync_chosen (h : takePtp 0 (ptpSlavePort c) c = some (f, d)) (hm : fromMaster d f = true) (hp : syncPaced f.payload = true) :
    ptpSync c = if ptpTwoStep f.payload then setPtp { d.net.ptp with twoStep := some (ptpSeq f.payload, f.t, ptpCorr f.payload) } d
      else measureSync (ptpStamp f.payload) f.t (ptpCorr f.payload) (ptpLog f.payload) d := by
  simp only [ptpSync, h, hm, hp, Bool.not_true, Bool.or_self, Bool.false_eq_true, if_false]

theorem ptpFollowUp_measures {t2 : Nat} {corr : Int} (h : takePtp 8 (ptpSlavePort c) c = some (f, d)) (hm : fromMaster d f = true)
    (hp : syncPaced f.payload = true) (hs : d.net.ptp.twoStep = some (ptpSeq f.payload, t2, corr)) :
    ptpFollowUp c = measureSync (ptpStamp f.payload) t2 (corr + ptpCorr f.payload) (ptpLog f.payload)
      (setPtp { d.net.ptp with twoStep := none } d) := by
  simp only [ptpFollowUp, h, hm, hp, hs, beq_self_eq_true, Bool.and_self, if_true]

/-- R179: whether an announced master takes the chosen one's place. -/
def announceBetter (c : Chip) (a : Announced) (t : Nat) : Bool :=
  match c.net.ptp.best with
  | none => true
  | some b => b.source == a.source || b.silent t || rankLess a.rank b.rank

theorem ptpAnnounce_held (h : takePtp 11 (ptpSlavePort c) c = some (f, d)) (hl : 64 ≤ f.payload.length) (h0 : 0 ≤ ptpLog f.payload)
    (h3 : ptpLog f.payload ≤ 3) (hs : numAtBE f.payload 61 2 < 255) :
    ptpAnnounce c = if announceBetter d (announcedOf f) f.t then setPtp { d.net.ptp with best := some (announcedOf f) } d else d := by
  simp only [ptpAnnounce, h, hl, h0, h3, hs, decide_true, Bool.and_true] <;> rfl

theorem ptpDelayResp_answered {t3 : Nat} (h : takePtp 9 (ptpSlavePort c) c = some (f, d)) (hm : fromMaster d f = true)
    (hr : d.net.ptp.request = some (ptpSeq f.payload, t3)) (hi : bytesAt f.payload 44 10 = ptpIdentity d f.port) :
    ptpDelayResp c = setPtp { d.net.ptp with
      delay := (d.net.ptp.msDiff + ((ptpStamp f.payload : Int) - t3 - ptpCorr f.payload)) / 2
      request := none } d := by
  simp only [ptpDelayResp, h, hm, hr, hi, beq_self_eq_true, Bool.and_self, if_true]

end

section
variable {c : Chip} {t l : Nat} (hl : c.net.ptp.lastSync = some l)
include hl

theorem syncTimeout_due (h1 : objGet c 0x1F10 0x05 0 = 1) (hd : l + 4 * c.net.ptp.interval ≤ t) : syncTimeout t c = setPtpState 2 c := by
  simp only [syncTimeout, hl, h1, hd, decide_true, Bool.and_self, if_true]

theorem holdoverExpiry_due (h2 : objGet c 0x1F10 0x05 0 = 2) (hd : l + 10000000000 ≤ t) :
    holdoverExpiry t c = setPtpState 0 { c with net := { c.net with ptp := { c.net.ptp with inRow := 0 } } } := by
  simp only [holdoverExpiry, hl, h2, hd, decide_true, Bool.and_self, if_true]

end

end Sys2Proof.Machine

namespace Sys2Proof.Proofs

open Sys2Proof Sys2Proof.Machine

/-- Settles O28: what each frame, answer, time-out and PTP message does. -/
theorem networkEvents : Obligations.NetworkEvents := by
  refine ⟨fun s t => ?_, fun s t => ?_⟩
  · dsimp only
    refine ⟨fun port frame hp => ⟨fun hf => ?_, fun hm => ?_, fun hf hm => ⟨fun hc => ?_, fun f hc => ?_⟩⟩,
      fun x d hx ho => ?_, fun x d hx ho => ?_, fun x d hx ho => ?_, fun x d hx => ?_, fun x d hx => ?_, ?_, fun port up hp => ?_⟩
    · exact answers_onChip (onUnit_of_lt hp (fun c => receiveFrame port t frame (atTime t c)) s) (receiveFrame_fragment hf)
    · exact answers_onChip (onUnit_of_lt hp (fun c => receiveFrame port t frame (atTime t c)) s) (receiveFrame_malformed hm)
    · exact answers_onChip (onUnit_of_lt hp (fun c => receiveFrame port t frame (atTime t c)) s)
        ((receiveFrame_classified hf hm).trans (by rw [hc]))
    · exact answers_onChip (onUnit_of_lt hp (fun c => receiveFrame port t frame (atTime t c)) s)
        ((receiveFrame_classified hf hm).trans (by rw [hc]))
    · exact answers_onChip (f := answerFor .arpRequest fun x => .arpReply x.port x.src x.mac) rfl (answerFor_owned hx ho)
    · exact answers_onChip (f := answerFor .solicit fun x => .advert x.port x.src x.mac) rfl (answerFor_owned hx ho)
    · exact answers_onChip (f := answerFor .echo fun x => .echoReply x.port x.src x.payload) rfl (answerFor_owned hx ho)
    · refine gives_onChip (f := learnFrom .arpReply) rfl ?_
      rw [onto, settle_net]
      exact learnFrom_resolves hx
    · refine gives_onChip (f := learnFrom .advert) rfl ?_
      rw [onto, settle_net]
      exact learnFrom_resolves hx
    · refine gives_onChip (f := fun c => dropUnresolved t (atTime t c)) rfl ?_
      rw [onto, settle_net, dropUnresolved_net]
      exact ⟨rfl, rfl⟩
    · exact answers_onChip (onUnit_of_lt hp (fun c => { c with net := { c.net with link := c.net.link.setIfInBounds port up } }) s) rfl
  · dsimp only
    refine ⟨fun f d hx hm hp => ⟨fun h2 => ?_, fun h2 => ?_⟩, fun f d t2 corr hx hm hp hs => ?_, fun d t1 t2 corr log h0 he => measureSync_unlocked h0 he,
      fun f d hx hl h0 h3 hs => ⟨fun hb => ?_, fun b hb => ?_⟩, fun f d t3 hx hm hr hi => ?_, fun f d hx => ?_,
      fun l hl => ⟨fun h1 hd => ?_, fun h2 hd => ?_⟩, fun m hm => ⟨?_, ?_⟩, fun m b hm hb hs => ?_, fun h0 ht hs => ?_⟩
    · exact answers_onChip (f := ptpSync) rfl ((ptpSync_chosen hx hm hp).trans (if_pos h2))
    · exact answers_onChip (f := ptpSync) rfl ((ptpSync_chosen hx hm hp).trans (if_neg (by simp [h2])))
    · exact answers_onChip (f := ptpFollowUp) rfl (ptpFollowUp_measures hx hm hp hs)
    · exact answers_onChip (f := ptpAnnounce) rfl ((ptpAnnounce_held hx hl h0 h3 hs).trans (if_pos (by rw [announceBetter, hb])))
    · have hann := ptpAnnounce_held hx hl h0 h3 hs
      simp only [announceBetter, hb, Bool.or_eq_true, beq_iff_eq, or_assoc] at hann
      split
      · exact answers_onChip (f := ptpAnnounce) rfl (hann.trans (if_pos ‹_›))
      · exact answers_onChip (f := ptpAnnounce) rfl (hann.trans (if_neg ‹_›))
    · refine gives_onChip (f := ptpDelayResp) rfl ?_
      rw [onto, settle_net, ptpDelayResp_answered hx hm hr hi]
      exact ⟨rfl, rfl⟩
    · exact answers_onChip (f := ptpDelayReq) rfl (by simp only [ptpDelayReq, hx])
    · refine gives_onChip (f := fun c => syncTimeout t (atTime t c)) rfl ?_
      rw [onto, objGet_settle, syncTimeout_due (c := atTime t s.chip) hl h1 hd, objGet_setPtpState]
    · refine gives_onChip (f := fun c => holdoverExpiry t (atTime t c)) rfl ?_
      rw [onto, objGet_settle, objGet_settle, settle_net, holdoverExpiry_due (c := atTime t s.chip) hl h2 hd, objGet_setPtpState]
      exact ⟨rfl, objGet_set_same .., rfl⟩
    · refine gives_onChip (f := fun c => ptpInterval .sync (atTime t c)) rfl ?_
      have hm' : ptpMasterPort (atTime t s.chip) = some m := hm
      simp only [onto, settle_net, ptpInterval, hm', transmit, List.append_assoc, List.singleton_append] <;> rfl
    · refine gives_onChip (f := fun c => ptpInterval .announce (atTime t c)) rfl ?_
      have hm' : ptpMasterPort (atTime t s.chip) = some m := hm
      simp only [onto, settle_net, ptpInterval, hm', transmit] <;> rfl
    · refine gives_onChip (f := fun c => ptpInterval .delayReq (atTime t c)) rfl ?_
      have hm' : ptpSlavePort (atTime t s.chip) = some m := hm
      have hb' : (atTime t s.chip).net.ptp.best = some b := hb
      simp only [onto, settle_net, ptpInterval, hm', hb', Option.any_some, hs, Bool.not_false, if_true, transmit]
      exact ⟨rfl, rfl⟩
    · exact answers_onChip (f := fun c => ppsEdge t (atTime t c)) rfl
        (if_pos (by simp only [Bool.and_eq_true, decide_eq_true_eq]; exact ⟨⟨h0, ht⟩, hs⟩))

end Sys2Proof.Proofs

/-! SUPPORT. Streams: what their updates leave, packets, releases and decoded units (R186-R197). -/

namespace Sys2Proof.Machine

@[simp] theorem streamAt_setStream (s : Nat) (v : StreamSt) (c : Chip) : streamAt (setStream s v c) s = v := by
  simp [streamAt, setStream]

theorem streamAt_of_video {c c' : Chip} (h : c'.video = c.video) (s : Nat) : streamAt c' s = streamAt c s := by rw [streamAt, h, streamAt]

@[simp] theorem showStream_video (s : Nat) (c : Chip) : (showStream s c).video = c.video := rfl

theorem objGet_showStream (s : Nat) (c : Chip) {k : Nat} (h : k % 256 ≠ 1) (n : Nat) : objGet (showStream s c) 0x2302 k n = objGet c 0x2302 k n :=
  objGet_set_ne _ _ (okey_ne_sub h)

/-! A packet of a stream (R186-R190). -/

/-- R187: the highest packet index and the replay window follow an opened packet. -/
def noteIndex (st mode index : Nat) (c : Chip) : Chip :=
  if mode = 0 then c else modStream st (fun v =>
    { v with srtp := some (max index (v.srtp.getD 0)), replay := (v.replay ++ [index]).drop ((v.replay.length + 1) - 64) }) c

/-- The bytes of a packet as they stand opened, with its index (R187). -/
def openedPacket (c : Chip) (st : Nat) (payload : List Byte) : Option (List Byte × Nat) :=
  if objGet c 0x2301 0x07 st = 0 then some (payload, 0) else srtpPacket c st payload

/-- The codec that a stream's declaration gives it. -/
def codecOf (c : Chip) (st : Nat) : Nat := match vdecl c st with | some v => v.codec | none => 0

section
variable {c d : Chip} {st : Nat} {f : RxFrame} (hx : takeRx (fun f => f.cls = .rtp st) c = some (f, d))
include hx

theorem rtpPacket_failed (hm : objGet (objBump 0x2302 0x02 st 1 d) 0x2301 0x07 st ≠ 2)
    (ho : openedPacket (objBump 0x2302 0x02 st 1 d) st f.payload = none) :
    rtpPacket st c = objBump 0x2302 0x05 st 1 (objBump 0x2302 0x02 st 1 d) := by
  unfold openedPacket at ho
  simp only [rtpPacket, hx, ho, hm, decide_false, Bool.false_and, Bool.false_eq_true, if_false]

variable {b : List Byte} {index : Nat} (ho : openedPacket (objBump 0x2302 0x02 st 1 d) st f.payload = some (b, index))
include ho

theorem rtpPacket_malformed
    (hb : rtpBody b = none ∨ numAt b 1 1 % 128 ≠
      objGet (noteIndex st (objGet (objBump 0x2302 0x02 st 1 d) 0x2301 0x07 st) index (objBump 0x2302 0x02 st 1 d)) 0x2301 0x09 st) :
    rtpPacket st c = objBump 0x2302 0x06 st 1
      (noteIndex st (objGet (objBump 0x2302 0x02 st 1 d) 0x2301 0x07 st) index (objBump 0x2302 0x02 st 1 d)) := by
  unfold openedPacket at ho
  simp only [rtpPacket, hx, ho, ← noteIndex.eq_1]
  split
  · rfl
  · rename_i hbody
    exact if_pos (hb.resolve_left (by simp [hbody]))

theorem rtpPacket_placed {off len : Nat} (hb : rtpBody b = some (off, len))
    (hp : numAt b 1 1 % 128 =
      objGet (noteIndex st (objGet (objBump 0x2302 0x02 st 1 d) 0x2301 0x07 st) index (objBump 0x2302 0x02 st 1 d)) 0x2301 0x09 st) :
    rtpPacket st c =
      let c2 := noteIndex st (objGet (objBump 0x2302 0x02 st 1 d) 0x2301 0x07 st) index (objBump 0x2302 0x02 st 1 d)
      let ok := payloadOk (codecOf c2 st) (bytesAt b off len)
      placePacket st f.t { seq := numAtBE b 2 2, ts := numAtBE b 4 4, marker := decide (128 ≤ numAt b 1 1)
                           payload := if ok then bytesAt b off len else [], t := f.t, bad := !ok }
        (if ok then c2 else objBump 0x2302 0x06 st 1 c2) := by
  unfold openedPacket at ho
  simp only [rtpPacket, hx, ho, ← noteIndex.eq_1, hb, hp, ne_eq, not_true_eq_false, if_false]
  change (fun ok : Bool => placePacket st f.t { seq := numAtBE b 2 2, ts := numAtBE b 4 4, marker := decide (128 ≤ numAt b 1 1)
                                                payload := if !ok then [] else bytesAt b off len, t := f.t, bad := !ok }
    (if !ok then objBump 0x2302 0x06 st 1 (noteIndex st (objGet (objBump 0x2302 0x02 st 1 d) 0x2301 0x07 st) index (objBump 0x2302 0x02 st 1 d))
     else noteIndex st (objGet (objBump 0x2302 0x02 st 1 d) 0x2301 0x07 st) index (objBump 0x2302 0x02 st 1 d)))
    (payloadOk (codecOf (noteIndex st (objGet (objBump 0x2302 0x02 st 1 d) 0x2301 0x07 st) index (objBump 0x2302 0x02 st 1 d)) st)
      (bytesAt b off len)) = _
  dsimp only
  cases payloadOk (codecOf _ st) (bytesAt b off len) <;> rfl

end

theorem placePacket_late {d : Chip} {st t n : Nat} {p : Packet} (hn : (streamAt d st).next = some n)
    (h : 32768 ≤ seqAhead n p.seq ∨ (streamAt d st).packets.any (fun q => q.seq == p.seq) = true) :
    placePacket st t p d = objBump 0x2302 0x04 st 1 d := by
  simp only [placePacket, hn]
  exact if_pos (by simpa using h)

theorem gapTimeout_due {c : Chip} {st t g : Nat} (hg : gapSince (streamAt c st) = some g) (hd : g + objGet c 0x2301 0x08 st * 1000000 ≤ t) :
    gapTimeout st t c = declareLost st t c := by
  simp only [gapTimeout, hg, hd, if_true]

/-- R196: the oldest held picture of a stream enters its core's queue. -/
theorem releasePicture_due {c : Chip} {st t : Nat} {v : VStream} {u : CodedUnit} {rest : List CodedUnit} (hv : vdecl c st = some v)
    (hh : (streamAt c st).held = u :: rest) (he : engineHeld c .decode v.dcore = false)
    (hd : ∀ r, (streamAt c st).released = some r → r * v.fpsNum + 900000000 * v.fpsDen ≤ t * v.fpsNum) :
    streamAt (releasePicture st t c) st = { streamAt c st with held := rest, released := some t } ∧
    cellsGet [] (releasePicture st t c).video.cores v.dcore = enqueueUnit st u (cellsGet [] c.video.cores v.dcore) := by
  have hr : releasePicture st t c = { setStream st { streamAt c st with held := rest, released := some t } c with
      video := { (setStream st { streamAt c st with held := rest, released := some t } c).video with
        cores := cellsSet [] c.video.cores v.dcore (enqueueUnit st u (cellsGet [] c.video.cores v.dcore))
        since := if (cellsGet [] c.video.cores v.dcore).isEmpty then cellsSet 0 c.video.since v.dcore t else c.video.since } } := by
    simp only [releasePicture, hv, hh, he, Bool.not_false, Bool.and_true]
    cases hs : (streamAt c st).released with
    | none => rfl
    | some r => exact if_pos (decide_eq_true (hd r hs))
  rw [hr]
  exact ⟨streamAt_setStream .., cellsGet_set_same ..⟩

/-! The unit at the front of a core (R192-R197). -/

/-- What the steps that end a unit leave of its stream: its pictures but for their slices, the decoder's flags, the cores' queues and the
stream's counters of decoded pictures and of the last timestamp. -/
def UnitKept (st : Nat) (c c' : Chip) : Prop :=
  c'.video.cores = c.video.cores ∧ (streamAt c' st).waitIrap = (streamAt c st).waitIrap ∧ (streamAt c' st).refused = (streamAt c st).refused ∧
  (streamAt c' st).pictures.map (fun p => { p with ready := [], done := [] }) =
    (streamAt c st).pictures.map (fun p => { p with ready := [], done := [] }) ∧
  objGet c' 0x2302 0x07 st = objGet c 0x2302 0x07 st ∧ objGet c' 0x2302 0x0F st = objGet c 0x2302 0x0F st

section
variable {st : Nat} {c c' c'' : Chip}

theorem UnitKept.refl (st : Nat) (c : Chip) : UnitKept st c c := ⟨rfl, rfl, rfl, rfl, rfl, rfl⟩

theorem UnitKept.trans (h : UnitKept st c c') (h' : UnitKept st c' c'') : UnitKept st c c'' := by
  obtain ⟨h1, h2, h3, h4, h5, h6⟩ := h
  obtain ⟨g1, g2, g3, g4, g5, g6⟩ := h'
  exact ⟨g1.trans h1, g2.trans h2, g3.trans h3, g4.trans h4, g5.trans h5, g6.trans h6⟩

theorem UnitKept.foldl {α : Type} {f : Chip → α → Chip} (h : ∀ c a, UnitKept st c (f c a)) (l : List α) (c : Chip) :
    UnitKept st c (l.foldl f c) := by
  induction l generalizing c with
  | nil => exact .refl st c
  | cons a l ih => exact (h c a).trans (ih _)

theorem UnitKept.thenWith (h : UnitKept st c c') (p : Bool) (h' : UnitKept st c' c'') : UnitKept st c (if p then c'' else c') := by
  split
  · exact h.trans h'
  · exact h

theorem UnitKept.elseWith (h : UnitKept st c c') (p : Bool) (h' : UnitKept st c' c'') : UnitKept st c (if p then c' else c'') := by
  split
  · exact h
  · exact h.trans h'

theorem UnitKept.of_video (hv : c'.video = c.video) (h7 : objGet c' 0x2302 0x07 st = objGet c 0x2302 0x07 st)
    (hf : objGet c' 0x2302 0x0F st = objGet c 0x2302 0x0F st) : UnitKept st c c' := by
  refine ⟨by rw [hv], ?_, ?_, ?_, h7, hf⟩ <;> rw [streamAt_of_video hv]

theorem UnitKept.bump {k : Nat} (h7 : 0x07 % 256 ≠ k % 256) (hf : 0x0F % 256 ≠ k % 256) : UnitKept st c (objBump 0x2302 k st 1 c) :=
  .of_video rfl (objGet_bump_ne _ _ (okey_ne_sub h7)) (objGet_bump_ne _ _ (okey_ne_sub hf))

theorem showStream_unitKept : UnitKept st c (showStream st c) :=
  .of_video rfl (objGet_showStream _ _ (by decide) _) (objGet_showStream _ _ (by decide) _)

theorem writeFrame_unitKept (w : VStream) (id : Nat) : UnitKept st c (writeFrame w id c) := by
  unfold writeFrame
  split_ifs
  · exact .refl st c
  · exact .of_video rfl ((objGet_set_idx _ _ _ _ _ _ (by decide)).trans (objGet_set_idx _ _ _ _ _ _ (by decide)))
      ((objGet_set_idx _ _ _ _ _ _ (by decide)).trans (objGet_set_idx _ _ _ _ _ _ (by decide)))

/-- R197: a picture whose oldest waiting slice is overwritten. -/
def withoutSlice (old : Option (Nat × Nat)) (p : Picture) : Picture :=
  match old with
  | some (i, x) => if p.id = i then { p with ready := p.ready.filter (· != x) } else p
  | none => p

/-- R197: slice b of picture id has entered the quota. -/
def withSlice (id b : Nat) (p : Picture) : Picture :=
  if p.id = id then { p with ready := p.ready.filter (· != b) ++ [b], done := p.done.filter (· != b) ++ [b] } else p

/-- The slice that a full quota overwrites. -/
def oldSlice (quota : Nat) (v : StreamSt) : Option (Nat × Nat) :=
  if quota ≤ (quotaSlices v).length then (quotaSlices v).head? else none

theorem quotaPut_eq (quota id b : Nat) (c : Chip) : quotaPut st quota id b c =
    let c' := setStream st { streamAt c st with
      pictures := (streamAt c st).pictures.map (fun p => withSlice id b (withoutSlice (oldSlice quota (streamAt c st)) p)) } c
    if (oldSlice quota (streamAt c st)).isSome then objBump 0x2302 0x12 st 1 c' else c' := rfl

theorem withSlice_core (id b : Nat) (p : Picture) :
    ({ withSlice id b p with ready := [], done := [] } : Picture) = { p with ready := [], done := [] } := by
  unfold withSlice
  split <;> rfl

theorem withoutSlice_core (old : Option (Nat × Nat)) (p : Picture) :
    ({ withoutSlice old p with ready := [], done := [] } : Picture) = { p with ready := [], done := [] } := by
  unfold withoutSlice
  split
  · split <;> rfl
  · rfl

theorem streamAt_quotaPut (quota id b : Nat) : streamAt (quotaPut st quota id b c) st = { streamAt c st with
    pictures := (streamAt c st).pictures.map (fun p => withSlice id b (withoutSlice (oldSlice quota (streamAt c st)) p)) } := by
  rw [quotaPut_eq]
  dsimp only
  split
  · exact (streamAt_of_video rfl st).trans (streamAt_setStream ..)
  · exact streamAt_setStream ..

theorem quotaPut_unitKept (quota id b : Nat) : UnitKept st c (quotaPut st quota id b c) := by
  refine ⟨?_, ?_, ?_, ?_, ?_, ?_⟩
  · rw [quotaPut_eq]
    dsimp only
    split <;> rfl
  · rw [streamAt_quotaPut]
  · rw [streamAt_quotaPut]
  · rw [streamAt_quotaPut]
    simp only [List.map_map, Function.comp_def, withSlice_core, withoutSlice_core]
  all_goals
    rw [quotaPut_eq]
    dsimp only
    split
    · exact objGet_bump_ne _ _ (okey_ne_sub (by decide))
    · rfl

end

/-- A picture just completed is among those kept. -/
theorem mem_trimPictures_last {keep tick : Nat} (hk : 1 ≤ keep) (slots : List SlotUse) (ps : List Picture) (p : Picture) :
    p ∈ trimPictures keep tick slots (ps ++ [p]) := by
  refine List.mem_append_right _ ?_
  rw [List.drop_append_of_le_length (by simp; omega)]
  exact List.mem_append_right _ (List.mem_singleton_self p)

/-- R195: a unit whose packets, units or references are not all good is damaged. -/
def unitDamaged (w : VStream) (v : StreamSt) (u : CodedUnit) (d : Decoded) : Bool :=
  u.lost || !d.bad.isEmpty ||
    (if unitIrap w.codec u then [] else d.refs).any (fun r => (v.pictures.find? (fun p => p.id == r && p.complete)).isNone)

/-- R195: a damaged picture, or one with a tainted reference, is tainted. -/
def unitTainted (w : VStream) (v : StreamSt) (u : CodedUnit) (d : Decoded) : Bool :=
  unitDamaged w v u d || (if unitIrap w.codec u then [] else d.refs).any (fun r =>
    match v.pictures.find? (fun p => p.id == r && p.complete) with | some p => p.tainted | none => true)

/-- The entry of the picture that a unit becomes. -/
def unitBase (v : StreamSt) (u : CodedUnit) : Picture :=
  ((decoding u.ts v).pictures.find? (fun p => p.id == decodingId u.ts (decoding u.ts v))).getD { id := decodingId u.ts (decoding u.ts v), ts := u.ts }

theorem unitBase_id (v : StreamSt) (u : CodedUnit) : (unitBase v u).id = decodingId u.ts (decoding u.ts v) := by
  unfold unitBase
  cases h : (decoding u.ts v).pictures.find? (fun p => p.id == decodingId u.ts (decoding u.ts v)) with
  | none => rfl
  | some p => exact beq_iff_eq.1 (List.find?_some h :)

/-- The complete picture of a decoded unit (R193-R196). -/
def decodedPicture (w : VStream) (v : StreamSt) (u : CodedUnit) (d : Decoded) : Picture :=
  { unitBase v u with ts := u.ts, tenBit := decide (8 < d.params.bits), full422 := d.params.chroma == .c422
                      mono := d.params.chroma == .mono
                      samples := conceal (concealFrom w (decodingId u.ts (decoding u.ts v)) (decoding u.ts v).pictures) d
                      ready := if !vFrameBuffer w then (unitBase v u).ready else List.range (vSlices w)
                      complete := true, damaged := unitDamaged w v u d, tainted := unitTainted w v u d, isRef := d.isRef }

/-- The stream once the picture of a unit is complete. -/
def unitBooked (w : VStream) (tick : Nat) (v : StreamSt) (u : CodedUnit) (d : Decoded) : StreamSt :=
  noteSlots (decodedPicture w v u d) { decoding u.ts v with
    pictures := trimPictures (max 2 (w.fbPics + w.quota)) tick (decoding u.ts v).slots
      ((decoding u.ts v).pictures.filter (fun p => p.id != decodingId u.ts (decoding u.ts v)) ++ [decodedPicture w v u d])
    skipRasl := if unitIrap w.codec u then (decoding u.ts v).waitIrap else (decoding u.ts v).skipRasl, waitIrap := false, refused := false }

/-- What follows a complete picture: its slices in the quota, its frame, and its counts. -/
def unitClosed (st : Nat) (w : VStream) (v : StreamSt) (u : CodedUnit) (d : Decoded) (c : Chip) : Chip :=
  let id := decodingId u.ts (decoding u.ts v)
  let c := if !vFrameBuffer w then
      ((List.range (vSlices w)).filter (fun b => !(unitBase v u).done.contains b)).foldl (fun c b => quotaPut st w.quota id b c) c
    else c
  let c := if !vFrameBuffer w && !d.isRef then c else writeFrame w id c
  let c := if unitDamaged w v u d then objBump 0x2302 0x08 st 1 c else c
  showStream st (if unitTainted w v u d then objBump 0x2302 0x09 st 1 c else c)

section
variable {st : Nat} {u : CodedUnit} {w : VStream} {c : Chip}

theorem finishUnit_untaken (hw : vdecl c st = some w) (ht : unitTaken w (streamAt c st) u = false) (d : Decoded) :
    finishUnit st u d c = showStream st (setStream st (dropDecoding u.ts (streamAt c st)) c) := by
  simp only [finishUnit, hw, ht, Bool.not_false, if_true]

theorem finishUnit_unfit (hw : vdecl c st = some w) (ht : unitTaken w (streamAt c st) u = true) {d : Decoded}
    (hp : paramsFit w d.params = false) : finishUnit st u d c = refuseUnit st u c := by
  simp only [finishUnit, hw, ht, hp, Bool.not_true, Bool.not_false, Bool.false_eq_true, if_false, if_true]

theorem finishUnit_fits (hw : vdecl c st = some w) (ht : unitTaken w (streamAt c st) u = true) {d : Decoded}
    (hp : paramsFit w d.params = true) : finishUnit st u d c = unitClosed st w (streamAt c st) u d
      (objBump 0x2302 0x07 st 1 (objSet 0x2302 0x0F st u.ts (objBump 0x2302 0x10 st d.bad.length
        (setStream st (unitBooked w c.tk.tick (streamAt c st) u d) c)))) := by
  simp only [finishUnit, hw, ht, hp, Bool.not_true, Bool.false_eq_true, if_false] <;> rfl

theorem unitClosed_unitKept (v : StreamSt) (d : Decoded) : UnitKept st c (unitClosed st w v u d c) := by
  have hq : UnitKept st c (if !vFrameBuffer w then
      ((List.range (vSlices w)).filter (fun b => !(unitBase v u).done.contains b)).foldl
        (fun c b => quotaPut st w.quota (decodingId u.ts (decoding u.ts v)) b c) c
    else c) := by
    split
    · exact .foldl (fun c b => quotaPut_unitKept _ _ _) _ _
    · exact .refl ..
  have hf := hq.elseWith (!vFrameBuffer w && !d.isRef) (writeFrame_unitKept w (decodingId u.ts (decoding u.ts v)))
  have hd := hf.thenWith (unitDamaged w v u d) (.bump (k := 0x08) (by decide) (by decide))
  exact (hd.thenWith (unitTainted w v u d) (.bump (k := 0x09) (by decide) (by decide))).trans showStream_unitKept

theorem find?_isNone_eq_not_any {α : Type} (p : α → Bool) (l : List α) : (l.find? p).isNone = !l.any p := by
  rw [← Option.not_isSome, List.isSome_find?]

/-- What a unit that fits leaves: its complete picture, a decoder that no longer waits, and its counts. -/
theorem finishUnit_fits_leaves (hw : vdecl c st = some w) (ht : unitTaken w (streamAt c st) u = true) {d : Decoded}
    (hp : paramsFit w d.params = true) :
    decodedPicture w (streamAt c st) u d ∈ (streamAt (finishUnit st u d c) st).pictures.map
        (fun p => { p with ready := (decodedPicture w (streamAt c st) u d).ready, done := (decodedPicture w (streamAt c st) u d).done }) ∧
    (streamAt (finishUnit st u d c) st).waitIrap = false ∧ (streamAt (finishUnit st u d c) st).refused = false ∧
    (finishUnit st u d c).video.cores = c.video.cores ∧
    objGet (finishUnit st u d c) 0x2302 0x07 st = objGet (objBump 0x2302 0x07 st 1 c) 0x2302 0x07 st ∧
    objGet (finishUnit st u d c) 0x2302 0x0F st = u.ts := by
  rw [finishUnit_fits hw ht hp]
  obtain ⟨hcores, hwait, href, hpics, h7, hf⟩ := unitClosed_unitKept (st := st) (u := u) (w := w)
    (c := objBump 0x2302 0x07 st 1 (objSet 0x2302 0x0F st u.ts (objBump 0x2302 0x10 st d.bad.length
      (setStream st (unitBooked w c.tk.tick (streamAt c st) u d) c)))) (streamAt c st) d
  have hs : streamAt (objBump 0x2302 0x07 st 1 (objSet 0x2302 0x0F st u.ts (objBump 0x2302 0x10 st d.bad.length
      (setStream st (unitBooked w c.tk.tick (streamAt c st) u d) c)))) st = unitBooked w c.tk.tick (streamAt c st) u d :=
    (streamAt_of_video rfl st).trans (streamAt_setStream ..)
  rw [hs] at hwait href hpics
  refine ⟨?_, hwait, href, hcores, h7.trans ?_, hf.trans ?_⟩
  · have hmem : decodedPicture w (streamAt c st) u d ∈ (unitBooked w c.tk.tick (streamAt c st) u d).pictures :=
      mem_trimPictures_last (by omega) ..
    have hcore := List.mem_map_of_mem (f := fun p : Picture => { p with ready := [], done := [] }) hmem
    rw [← hpics] at hcore
    obtain ⟨p, hp, hpe⟩ := List.mem_map.1 hcore
    refine List.mem_map.2 ⟨p, hp, ?_⟩
    exact congrArg (fun q : Picture => { q with ready := (decodedPicture w (streamAt c st) u d).ready
                                                done := (decodedPicture w (streamAt c st) u d).done }) hpe
  · rw [objGet_bump_same, objGet_bump_same, objGet_set_ne _ _ (okey_ne_sub (by decide)), objGet_bump_ne _ _ (okey_ne_sub (by decide))]
    rfl
  · rw [objGet_bump_ne _ _ (okey_ne_sub (by decide)), objGet_set_same]

end

/-! The picture being decoded (R192, R193, R197, R199). -/

theorem decoding_find (ts : Nat) (v : StreamSt) :
    ∃ p ∈ (decoding ts v).pictures, p.complete = false ∧ p.ts = ts ∧ decodingId ts (decoding ts v) = p.id := by
  have hany : (decoding ts v).pictures.any (fun p => !p.complete && p.ts == ts) = true := by
    unfold decoding
    split
    · assumption
    · simp
  rw [← List.isSome_find?] at hany
  obtain ⟨p, hf⟩ := Option.isSome_iff_exists.1 hany
  have hp := List.find?_some hf
  simp only [Bool.and_eq_true, Bool.not_eq_true', beq_iff_eq] at hp
  exact ⟨p, List.mem_of_find?_eq_some hf, hp.1, hp.2, by simp only [decodingId, hf]⟩

theorem mem_ready_withSlice {id b : Nat} {p : Picture} (h : p.id = id) : b ∈ (withSlice id b p).ready := by
  simp [withSlice, h]

theorem withoutSlice_keeps (old : Option (Nat × Nat)) (p : Picture) :
    (withoutSlice old p).id = p.id ∧ (withoutSlice old p).ts = p.ts ∧ (withoutSlice old p).complete = p.complete := by
  unfold withoutSlice
  split
  · split <;> exact ⟨rfl, rfl, rfl⟩
  · exact ⟨rfl, rfl, rfl⟩

theorem withSlice_keeps (id b : Nat) (p : Picture) : (withSlice id b p).ts = p.ts ∧ (withSlice id b p).complete = p.complete := by
  unfold withSlice
  split <;> exact ⟨rfl, rfl⟩

/-- A picture that has the samples of a slice, and the slice ready in a frame buffer. -/
def sampledPicture (fb : Bool) (id b : Nat) (samples : Cells Nat) (p : Picture) : Picture :=
  if p.id = id then { p with samples := samples.foldl (fun m e => cellsSet 0 m e.1 e.2) p.samples
                             ready := if fb then p.ready.filter (· != b) ++ [b] else p.ready } else p

theorem decodeSlice_ready {c : Chip} {core b st : Nat} {u : CodedUnit} {q : List (Nat × CodedUnit)} {w : VStream}
    (hq : cellsGet [] c.video.cores core = (st, u) :: q) (hw : vdecl c st = some w) (ht : unitTaken w (streamAt c st) u = true)
    (samples : Cells Nat) :
    (∃ p ∈ (streamAt (decodeSlice core b samples c) st).pictures, p.ts = u.ts ∧ p.complete = false ∧ b ∈ p.ready) ∧
    (decodeSlice core b samples c).video.cores = c.video.cores := by
  obtain ⟨p, hp, hc, hts, hid⟩ := decoding_find u.ts (streamAt c st)
  have he : decodeSlice core b samples c =
      let c' := setStream st { decoding u.ts (streamAt c st) with 
        pictures := (decoding u.ts (streamAt c st)).pictures.map (sampledPicture (vFrameBuffer w) (decodingId u.ts (decoding u.ts (streamAt c st))) b samples) } c
      if vFrameBuffer w then c' else quotaPut st w.quota (decodingId u.ts (decoding u.ts (streamAt c st))) b c' := by
    simp only [decodeSlice, hq, hw, ht, Bool.not_true, Bool.false_eq_true, if_false] <;> rfl
  rw [he, hid]
  dsimp only
  have hs : sampledPicture (vFrameBuffer w) p.id b samples p = { p with
      samples := samples.foldl (fun m e => cellsSet 0 m e.1 e.2) p.samples
      ready := if vFrameBuffer w then p.ready.filter (· != b) ++ [b] else p.ready } := if_pos rfl
  split
  case isTrue hfb =>
    refine ⟨?_, rfl⟩
    rw [streamAt_setStream]
    exact ⟨_, List.mem_map_of_mem hp, by simp [hs, hts], by simp [hs, hc], by rw [hs, if_pos hfb]; simp⟩
  case isFalse hfb =>
    refine ⟨?_, (quotaPut_unitKept (st := st) _ _ _).1⟩
    rw [streamAt_quotaPut, streamAt_setStream]
    refine ⟨_, List.mem_map_of_mem (List.mem_map_of_mem hp), ?_, ?_, mem_ready_withSlice ?_⟩
    · rw [(withSlice_keeps ..).1, (withoutSlice_keeps ..).2.1, hs, hts]
    · rw [(withSlice_keeps ..).2, (withoutSlice_keeps ..).2.2, hs, hc]
    · rw [(withoutSlice_keeps ..).1, hs]

theorem refuseUnit_leaves (st : Nat) (u : CodedUnit) (d : Chip) :
    (streamAt (refuseUnit st u d) st).refused = true ∧
    (streamAt (refuseUnit st u d) st).pictures = (dropDecoding u.ts (streamAt d st)).pictures ∧
    objGet (refuseUnit st u d) 0x2302 0x0A st = objGet (objBump 0x2302 0x0A st 1 d) 0x2302 0x0A st := by
  have hs : streamAt (refuseUnit st u d) st = { dropDecoding u.ts (streamAt d st) with refused := true } :=
    (streamAt_of_video rfl st).trans (streamAt_setStream ..)
  rw [hs]
  exact ⟨rfl, rfl, objGet_showStream _ _ (by decide) _⟩

/-- The front unit of a core is taken at time t, and the core begins the next of q. -/
def frontTaken (core t : Nat) (q : List (Nat × CodedUnit)) (c : Chip) : Chip :=
  { c with video := { c.video with cores := cellsSet [] c.video.cores core q, since := cellsSet 0 c.video.since core t } }

section
variable {c : Chip} {core t st : Nat} {u : CodedUnit} {q : List (Nat × CodedUnit)}

theorem coreFront_cons (hq : cellsGet [] c.video.cores core = (st, u) :: q) : coreFront core t c = some (st, u, frontTaken core t q c) := by
  simp only [coreFront, hq, frontTaken]

theorem expireBudget_front (hq : cellsGet [] c.video.cores core = (st, u) :: q) (d : Decoded) : expireBudget core t d c =
    finishUnit st u { d with bad := if d.bad.isEmpty then [[]] else d.bad } (objBump 0x2302 0x11 st 1 (frontTaken core t q c)) := by
  simp only [expireBudget, coreFront_cons hq]

theorem decodePicture_inBudget {d : Decoded} (hb : ∀ b, budgetEnd c core = some b → t ≤ b)
    (hq : cellsGet [] c.video.cores core = (st, u) :: q) : decodePicture core t d c = finishUnit st u d (frontTaken core t q c) := by
  unfold decodePicture
  rw [coreFront_cons hq]
  cases h : budgetEnd c core with
  | none => rfl
  | some b => exact if_neg (by simpa using hb b h)

theorem decodePicture_overBudget {d : Decoded} {b : Nat} (hb : budgetEnd c core = some b) (h : b < t) :
    decodePicture core t d c = expireBudget core t d c := by
  simp only [decodePicture, hb, h, decide_true, if_true]

theorem budgetExpiry_due {d : Decoded} {b : Nat} (hb : budgetEnd c core = some b) (h : b ≤ t) :
    budgetExpiry core t d c = expireBudget core t d c := by
  simp only [budgetExpiry, hb, h, if_true]

theorem budgetExpiry_early {d : Decoded} {b : Nat} (hb : budgetEnd c core = some b) (h : t < b) : budgetExpiry core t d c = c := by
  simp only [budgetExpiry, hb, Nat.not_le.2 h, if_false]

variable {w : VStream} {d : CodedParams} (hq : cellsGet [] c.video.cores core = (st, u) :: q) (hw : vdecl c st = some w)
include hq hw

theorem refusePicture_fits (hp : paramsFit w d = true) : refusePicture core t d c = c := by
  simp only [refusePicture, hq, hw, coreFront_cons hq, hp, if_true]

theorem refusePicture_unfit (hp : paramsFit w d = false) (ht : unitTaken w (streamAt c st) u = true) :
    refusePicture core t d c = refuseUnit st u (frontTaken core t q c) := by
  simp only [refusePicture, hq, hw, coreFront_cons hq, hp, ht, Bool.false_eq_true, if_false, if_true]

end

end Sys2Proof.Machine

namespace Sys2Proof.Proofs
open Sys2Proof Sys2Proof.Machine

/-- Settles O29. What a unit leaves is read off the steps that end it, none of which touches the pictures but for their slices. -/
theorem streamEvents : Obligations.StreamEvents := by
  refine ⟨?_, ?_⟩
  · intro s st t hst
    dsimp only
    refine ⟨fun f d hf => ⟨fun hm ho => ?_, fun b index ho => ⟨fun hb => ?_, fun off len hb hp => ?_⟩⟩, fun d p n hn h => placePacket_late hn h,
      fun g hg hd => ?_, fun v u rest hv hh he hd => ?_⟩
    · exact answers_onChip (onUnit_of_lt hst _ s) (rtpPacket_failed hf hm ho)
    · exact answers_onChip (onUnit_of_lt hst _ s) (rtpPacket_malformed hf ho hb)
    · exact answers_onChip (onUnit_of_lt hst _ s) (rtpPacket_placed hf ho hb hp)
    · exact answers_onChip (onUnit_of_lt hst _ s) (gapTimeout_due (c := atTime t s.chip) hg hd)
    · have h := releasePicture_due (c := atTime t s.chip) hv hh he hd
      refine gives_onChip (f := fun c => releasePicture st t (atTime t c)) (onUnit_of_lt hst _ s) ?_
      simp only [onto, settle_video, streamAt_of_video (settle_video _), h.1, h.2]
      exact ⟨trivial, trivial, rfl⟩
  · intro s core t st u q w hcore hq hw
    dsimp only
    refine ⟨fun d => ⟨fun hb => ⟨fun ht => ?_, fun ht hp => ?_, fun ht hp => ?_⟩, fun b hb => ⟨fun h => ?_, fun h => ?_, fun h => ?_⟩⟩,
      fun d => ⟨fun hp ht => ?_, fun hp => ?_⟩, refuseUnit_leaves st u, fun b samples ht => ?_⟩
    · exact answers_onChip (f := fun c => decodePicture core t d (atTime t c)) (onUnit_of_lt hcore _ s)
        ((decodePicture_inBudget hb hq).trans (finishUnit_untaken (c := frontTaken core t q (atTime t s.chip)) hw ht d))
    · exact answers_onChip (f := fun c => decodePicture core t d (atTime t c)) (onUnit_of_lt hcore _ s)
        ((decodePicture_inBudget hb hq).trans (finishUnit_unfit (c := frontTaken core t q (atTime t s.chip)) hw ht hp))
    · refine gives_onChip (f := fun c => decodePicture core t d (atTime t c)) (onUnit_of_lt hcore _ s) ?_
      rw [decodePicture_inBudget (c := atTime t s.chip) hb hq]
      obtain ⟨hpic, hwait, href, hcores, h7, hf⟩ := finishUnit_fits_leaves (c := frontTaken core t q (atTime t s.chip)) hw ht hp
      obtain ⟨p, hmem, hp'⟩ := List.mem_map.1 hpic
      simp only [onto, settle_video, streamAt_of_video (settle_video _), objGet_settle]
      refine ⟨⟨p, hmem, ?_, ?_, ?_, ?_, ?_⟩, hwait, href, ?_, h7, hf⟩
      · exact (congrArg Picture.id hp').trans (unitBase_id ..)
      · exact congrArg Picture.ts hp'
      · exact congrArg Picture.complete hp'
      · refine (congrArg Picture.damaged hp').trans ?_
        simp only [← find?_isNone_eq_not_any] <;> rfl
      · exact congrArg Picture.samples hp'
      · rw [hcores]
        exact cellsGet_set_same ..
    · exact answers_onChip (f := fun c => budgetExpiry core t d (atTime t c)) (onUnit_of_lt hcore _ s)
        ((budgetExpiry_due hb h).trans (expireBudget_front (c := atTime t s.chip) hq d))
    · exact answers_onChip (f := fun c => budgetExpiry core t d (atTime t c)) (onUnit_of_lt hcore _ s) (budgetExpiry_early hb h)
    · exact answers_onChip (f := fun c => decodePicture core t d (atTime t c)) (onUnit_of_lt hcore _ s)
        ((decodePicture_overBudget hb h).trans (expireBudget_front (c := atTime t s.chip) hq d))
    · exact answers_onChip (f := fun c => refusePicture core t d (atTime t c)) (onUnit_of_lt hcore _ s)
        (refusePicture_unfit (c := atTime t s.chip) hq hw hp ht)
    · exact answers_onChip (f := fun c => refusePicture core t d (atTime t c)) (onUnit_of_lt hcore _ s)
        (refusePicture_fits (c := atTime t s.chip) hq hw hp)
    · have h := decodeSlice_ready (b := b) hq hw ht samples
      refine gives_onChip (f := decodeSlice core b samples) (onUnit_of_lt hcore _ s) ?_
      simp only [onto, settle_video, streamAt_of_video (settle_video _), h.2]
      exact ⟨h.1, hq⟩

end Sys2Proof.Proofs

/-! SUPPORT. Slots: what their reads leave, and the picture that a slot binds (R198-R201). -/

namespace Sys2Proof.Machine

theorem foldl_invariant {σ α : Type} {f : σ → α → σ} (P : σ → Prop) (h : ∀ a b, P a → P (f a b)) (l : List α) {a : σ} (ha : P a) :
    P (l.foldl f a) := by
  induction l generalizing a with
  | nil => exact ha
  | cons b l ih => exact ih (h a b ha)

/-! A read of a frame changes HBM's own entries alone (R267). -/

section
variable {p : Nat → Nat → Bool} {c c' : Chip}

/-- The entries that the stack's reads and its rows do not write. -/
def OffStack (p : Nat → Nat → Bool) : Prop := Unclassed p ∧ ∀ k, p 0x2B20 k = false ∧ p 0x2B30 k = false

theorem KeepsObjs.rows (hp : OffStack p) (h : KeepsObjs p c c') : KeepsObjs p c (hbmRowsShow c') := by
  unfold hbmRowsShow
  exact (((((h.set (hp.2 5).2).set (hp.2 2).2).set (hp.2 1).2).set (hp.2 6).2).set (hp.2 3).2).setClass hp.1

theorem KeepsObjs.suspectRow (hp : OffStack p) (r : Nat) (h : KeepsObjs p c c') : KeepsObjs p c (suspectRow r c') := by
  unfold Machine.suspectRow
  split
  · exact h
  · exact h.trans (.rows hp (.of_objs rfl))

theorem keepsObjs_readLine (hp : OffStack p) (k : Nat) (errs : List (Nat × Byte)) (c : Chip) : KeepsObjs p c (readLine k errs c).2.2 := by
  have hput : KeepsObjs p c (if errs.isEmpty then c else hbmPut k (strikeLine (hbmPeek c k) errs) c) := by split <;> exact .of_objs rfl
  dsimp only [readLine]
  generalize (if errs.isEmpty then c else hbmPut k (strikeLine (hbmPeek c k) errs) c) = d at *
  split
  · exact (KeepsObjs.refl c).bump (hp.2 _).1
  · split
    · exact hput
    · exact hput.bump (hp.2 _).1
    · exact hput.bump (hp.2 _).1
    · exact .suspectRow hp _ (((hput.bump (hp.2 _).1).set (hp.2 _).1).set (hp.2 _).1)

theorem keepsObjs_dataRead (hp : OffStack p) (k : Nat) (errs : List (Nat × Byte)) (c : Chip) : KeepsObjs p c (dataRead k errs c).2.2 := by
  dsimp only [dataRead, queueLine]
  have h := keepsObjs_readLine hp k errs c
  split
  · split
    · exact h.trans (.of_objs rfl)
    · exact h.bump (hp.2 _).1
  · exact h

theorem dataRead_video (k : Nat) (errs : List (Nat × Byte)) (c : Chip) : (dataRead k errs c).2.2.video = c.video :=
  congrArg (fun x => x.2.2.2.2.1) (offHbm_dataRead k errs c)

end

/-! What slots hold (R199, R221). -/

/-- From c to c' the records of the slots of stream s keep their pictures and slices, and the objects that p marks stand. -/
def SlotsKept (p : Nat → Nat → Bool) (s : Nat) (c c' : Chip) : Prop :=
  (∀ ovl j tick, (slotUse (streamAt c' s) ovl j tick).map (fun u => (u.pic, u.slices)) =
    (slotUse (streamAt c s) ovl j tick).map (fun u => (u.pic, u.slices))) ∧ KeepsObjs p c c'

section
variable {p : Nat → Nat → Bool} {s : Nat} {c c' c'' : Chip}

theorem SlotsKept.refl (c : Chip) : SlotsKept p s c c := ⟨fun _ _ _ => rfl, .refl c⟩

theorem SlotsKept.trans (h : SlotsKept p s c c') (h' : SlotsKept p s c' c'') : SlotsKept p s c c'' :=
  ⟨fun ovl j tick => (h'.1 ovl j tick).trans (h.1 ovl j tick), h.2.trans h'.2⟩

theorem SlotsKept.of_video (hv : c'.video = c.video) (h : KeepsObjs p c c') : SlotsKept p s c c' :=
  ⟨fun ovl j tick => by rw [streamAt_of_video hv], h⟩

theorem SlotsKept.count {k : Nat} (h : p 0x2302 (k % 256) = false) : SlotsKept p s c (objBump 0x2302 k s 1 c) :=
  .of_video rfl ((KeepsObjs.refl c).bump h)

theorem SlotsKept.elseWith (h : SlotsKept p s c c') (q : Bool) (h' : SlotsKept p s c' c'') : SlotsKept p s c (if q then c' else c'') := by
  split
  · exact h
  · exact h.trans h'

/-- A slot that carries its picture's state. -/
def noted (q : Picture) (u : SlotUse) : SlotUse :=
  if u.pic = some q.id then { u with ts := q.ts, damaged := q.damaged, tainted := q.tainted } else u

theorem noted_keeps (q : Picture) (u : SlotUse) : (noted q u).ovl = u.ovl ∧ (noted q u).idx = u.idx ∧ (noted q u).tick = u.tick ∧
    (noted q u).pic = u.pic ∧ (noted q u).slices = u.slices := by
  unfold noted
  split <;> exact ⟨rfl, rfl, rfl, rfl, rfl⟩

theorem slotUse_noteSlots (q : Picture) (st : StreamSt) (ovl j tick : Nat) :
    (slotUse (noteSlots q st) ovl j tick).map (fun u => (u.pic, u.slices)) = (slotUse st ovl j tick).map (fun u => (u.pic, u.slices)) := by
  change ((st.slots.map (noted q)).find? _).map _ = (st.slots.find? _).map _
  simp only [List.find?_map, Option.map_map, Function.comp_def, (noted_keeps q _).1, (noted_keeps q _).2.1, (noted_keeps q _).2.2.1,
    (noted_keeps q _).2.2.2.1, (noted_keeps q _).2.2.2.2]

theorem markDamaged_slotsKept (hp : ∀ k, k = 0x08 ∨ k = 0x09 → p 0x2302 k = false) (id : Nat) (bad : List Nat) (c : Chip) :
    SlotsKept p s c (markDamaged s id bad c) := by
  unfold markDamaged
  split
  · exact .refl c
  · split
    · exact .refl c
    · rename_i pic _
      dsimp only
      generalize ({ pic with badLines := (pic.badLines ++ bad).dedup, damaged := true, tainted := true } : Picture) = q
      have h : SlotsKept p s c (modStream s (fun st => noteSlots q { st with pictures := st.pictures.map (fun x => if x.id = id then q else x) }) c) :=
        ⟨fun ovl j tick => by rw [modStream, streamAt_setStream]; exact slotUse_noteSlots q _ ovl j tick, .of_objs rfl⟩
      exact (h.elseWith pic.damaged (.count (hp 8 (.inl rfl)))).elseWith pic.tainted (.count (hp 9 (.inr rfl)))

/-- What the read of each line keeps, the read of a frame keeps. -/
theorem readFrame_invariant {P : List Nat × Chip → Prop} (hstep : ∀ (a : List Nat × Chip) k bad, P a → P (bad, (dataRead k [] a.2).2.2))
    (v : VStream) (pic : Picture) (b : Nat) (c : Chip) (h : P ([], c)) : P (readFrame v pic b c) := by
  unfold readFrame
  refine foldl_invariant P (fun a n ha => ?_) _ h
  generalize planLineKey (vpcMask a.2) (64 * n) = o
  cases o with
  | none => exact ha
  | some k => exact hstep a k _ ha

theorem readFrame_slotsKept (hp : OffStack p) (v : VStream) (pic : Picture) (b : Nat) (c : Chip) : SlotsKept p s c (readFrame v pic b c).2 :=
  readFrame_invariant (P := fun a => SlotsKept p s c a.2)
    (fun a k _ h => h.trans (.of_video (dataRead_video k [] a.2) (keepsObjs_dataRead hp k [] a.2))) v pic b c (.refl c)

theorem readSlices_slotsKept (hp : OffStack p) (hq : ∀ k, k = 0x08 ∨ k = 0x09 → p 0x2302 k = false) (v : VStream) (pic : Picture)
    (bs : List Nat) (c : Chip) : SlotsKept p s c (readSlices s v pic bs c) := by
  unfold readSlices
  split
  · exact .refl c
  · induction bs generalizing c with
    | nil => exact .refl c
    | cons b bs ih => exact ((readFrame_slotsKept hp v pic b c).trans (markDamaged_slotsKept hq ..)).trans (ih _)

end

theorem slotUse_putSlotUse {u : SlotUse} {st : StreamSt} (h : st.slots.length < 260) :
    slotUse (putSlotUse u st) u.ovl u.idx u.tick = some u := by
  have h0 : st.slots.length + 1 - 260 = 0 := by omega
  simp only [slotUse, putSlotUse, h0, List.drop_zero]
  rw [List.find?_append, List.find?_eq_none.2, Option.none_or]
  · simp
  · intro x hx
    simpa [or_iff_not_imp_left] using (List.mem_filter.1 hx).2

/-! The picture that a slot binds and hands over (R199-R201). -/

/-- Whether a slice of the bound picture is handed over. -/
def sliceReady (c : Chip) (v : VStream) (b : Nat) (pic : Option Picture) : Bool :=
  !engineHeld c .decode v.dcore && (match pic with | some p => p.ready.contains b | none => false)

/-- The record of a slot with its slice b. -/
def slotSliced (v : VStream) (b : Nat) (ready : Bool) (st : StreamSt) (u0 : SlotUse) : SlotUse :=
  { u0 with slices := u0.slices ++ [(b, if ready then .ready else substOf v (st.handed.contains b))] }

/-- The stream whose slot's slice b is handed over or substituted. -/
def sliceBooked (v : VStream) (b : Nat) (ready : Bool) (st : StreamSt) (pics : List Picture) (u0 : SlotUse) : StreamSt :=
  putSlotUse (slotSliced v b ready st u0)
    { st with pictures := pics.map (fun (p : Picture) => if ready && some p.id = u0.pic then { p with taken := p.taken ++ [b] } else p)
              handed := if ready && !st.handed.contains b then st.handed ++ [b] else st.handed }

theorem slotUse_sliceBooked (v : VStream) (b : Nat) (ready : Bool) {st : StreamSt} (h : st.slots.length < 260) (pics : List Picture) (u0 : SlotUse) :
    slotUse (sliceBooked v b ready st pics u0) u0.ovl u0.idx u0.tick = some (slotSliced v b ready st u0) :=
  slotUse_putSlotUse (u := slotSliced v b ready st u0) (st := { st with pictures := _, handed := _ }) h

/-- A slice that is handed over is read from its frame. -/
def sliceRead (v : VStream) (s b : Nat) (ready : Bool) (pic : Option Picture) (c : Chip) : Chip :=
  match pic with | some p => if ready then readSlices s v p [b] c else c | none => c

/-- Slice b of a slot goes to its Campion, ready or substituted, and is counted. -/
def sliceHanded (v : VStream) (s b : Nat) (ready : Bool) (st : StreamSt) (pics : List Picture) (older : Nat) (pic : Option Picture) (u0 : SlotUse)
    (c : Chip) : Chip :=
  let c := sliceRead v s b ready pic (objBump 0x2302 (if ready then 0x0C else 0x0D) s 1 (setStream s (sliceBooked v b ready st pics u0) c))
  tracePoint 64 0 (s * 256 + b) (if older = 0 then c else objBump 0x2302 0x0B s older c)

theorem slotOf_keeps (u : SlotUse) (ps : List Picture) : (slotOf u ps).ovl = u.ovl ∧ (slotOf u ps).idx = u.idx ∧ (slotOf u ps).tick = u.tick ∧
    (slotOf u ps).pic = u.pic ∧ (slotOf u ps).slices = u.slices := by
  unfold slotOf
  split <;> exact ⟨rfl, rfl, rfl, rfl, rfl⟩

section
variable {s : Nat} {c : Chip}

theorem sliceHanded_leaves (v : VStream) (b : Nat) (ready : Bool) {st : StreamSt} (hl : st.slots.length < 260) (pics : List Picture) (older : Nat)
    (pic : Option Picture) (u0 : SlotUse) :
    (slotUse (streamAt (sliceHanded v s b ready st pics older pic u0 c) s) u0.ovl u0.idx u0.tick).map (fun u => (u.pic, u.slices)) =
      some (u0.pic, u0.slices ++ [(b, if ready then .ready else substOf v (st.handed.contains b))]) ∧
    objGet (sliceHanded v s b ready st pics older pic u0 c) 0x2302 (if ready then 0x0C else 0x0D) s =
      objGet (objBump 0x2302 (if ready then 0x0C else 0x0D) s 1 c) 0x2302 (if ready then 0x0C else 0x0D) s := by
  generalize hk : (if ready then 0x0C else 0x0D : Nat) = k
  have hk' : k = 0x0C ∨ k = 0x0D := by cases ready <;> simp_all
  have hoff : OffStack (marks 0x2302 k) := ⟨fun _ => ⟨rfl, rfl, rfl, rfl, rfl⟩, fun _ => ⟨rfl, rfl⟩⟩
  have hcount : ∀ j, j < 0x0C → marks 0x2302 k 0x2302 j = false := by rintro j hj; simp [marks]; omega
  have hkept : SlotsKept (marks 0x2302 k) s (objBump 0x2302 k s 1 (setStream s (sliceBooked v b ready st pics u0) c))
      (sliceHanded v s b ready st pics older pic u0 c) := by
    unfold sliceHanded sliceRead
    dsimp only
    rw [hk]
    generalize objBump 0x2302 k s 1 (setStream s (sliceBooked v b ready st pics u0) c) = d
    refine SlotsKept.trans ?_ (.of_video (tracePoint_video ..) ((KeepsObjs.refl _).trace rfl))
    have hread : SlotsKept (marks 0x2302 k) s d (sliceRead v s b ready pic d) := by
      unfold sliceRead
      cases pic with
      | none => exact .refl _
      | some p =>
        cases ready
        · exact .refl _
        · exact readSlices_slotsKept hoff (fun j hj => hcount j (by omega)) v p [b] _
    split
    · exact hread
    · exact hread.trans (.of_video rfl ((KeepsObjs.refl _).bump (hcount 0x0B (by omega))))
  refine ⟨?_, (hkept.2.get (by omega) s).trans ?_⟩
  · have hst : streamAt (objBump 0x2302 k s 1 (setStream s (sliceBooked v b ready st pics u0) c)) s = sliceBooked v b ready st pics u0 :=
      (streamAt_of_video rfl s).trans (streamAt_setStream ..)
    rw [hkept.1, hst, slotUse_sliceBooked v b ready hl]
    rfl
  · rw [objGet_bump_same, objGet_bump_same]
    rfl

theorem readinessPoint_untaken {ovl j b : Nat} {sl : VSlot} {v : VStream} (hs : slotDecl c ovl j = some (sl, v)) (ha : c.plan.armed = some sl.pos)
    (hb : b < vSlices v) (ht : slotTaken c ovl sl v = false) : readinessPoint ovl j b c = objBump 0x2302 0x0E sl.stream 1 c := by
  have hpos : slotPosition c = some sl.pos := by simp only [slotPosition, ha]
  simp [readinessPoint, hs, hpos, ht, Nat.not_le.2 hb]

/-- R199: the record of a slot that binds a picture. -/
def slotBound (ovl j : Nat) (sl : VSlot) (tick : Nat) (bind : Option Nat × List Picture × Nat) : SlotUse :=
  slotOf { ovl := ovl, idx := j, tick := tick, fc0 := sl.fc0, pic := bind.1 } bind.2.1

theorem readinessPoint_taken {ovl j : Nat} {sl : VSlot} {v : VStream} (hs : slotDecl c ovl j = some (sl, v)) (ha : c.plan.armed = some sl.pos)
    (hb : 0 < vSlices v) (ht : slotTaken c ovl sl v = true) (hf : follows c = false) {bind : Option Nat × List Picture × Nat}
    (hbind : bindPicture (underDecode c sl.stream v (streamAt c sl.stream)) = bind) :
    readinessPoint ovl j 0 c =
      sliceHanded v sl.stream 0 (sliceReady c v 0 (bind.1.bind fun i => bind.2.1.find? (fun p => p.id == i)))
        (underDecode c sl.stream v (streamAt c sl.stream)) bind.2.1 bind.2.2 (bind.1.bind fun i => bind.2.1.find? (fun p => p.id == i))
        (slotBound ovl j sl c.tk.tick bind) c := by
  have hpos : slotPosition c = some sl.pos := by simp only [slotPosition, ha]
  have hpic : (slotBound ovl j sl c.tk.tick bind).pic = bind.1 := (slotOf_keeps ..).2.2.2.1
  simp only [readinessPoint, hs, hpos, ht, hf, Nat.not_le.2 hb, hbind, hpic, ← slotBound.eq_1,
    if_true, if_false, ne_eq, not_true_eq_false, decide_false, Bool.or_self, Bool.not_true, Bool.false_eq_true, Bool.and_false, Bool.false_and]
  rw [← hpic]
  obtain ⟨_, _, _, _, pic, _⟩ := slotBound ovl j sl c.tk.tick bind
  cases pic with
  | none => rfl
  | some i => rfl

theorem decoding_keeps (ts : Nat) (st : StreamSt) : (decoding ts st).slots = st.slots ∧ (decoding ts st).handed = st.handed := by
  unfold decoding
  split <;> exact ⟨rfl, rfl⟩

theorem underDecode_keeps (v : VStream) (st : StreamSt) : (underDecode c s v st).slots = st.slots ∧ (underDecode c s v st).handed = st.handed := by
  unfold underDecode
  split
  · exact ⟨rfl, rfl⟩
  · split
    · exact decoding_keeps _ _
    · exact ⟨rfl, rfl⟩

/-- A message changes the links alone. -/
theorem sendMsg_link (p kind dst : Nat) (body : List Byte) (c : Chip) : sendMsg p kind dst body c = { c with link := (sendMsg p kind dst body c).link } := by
  unfold sendMsg
  dsimp only
  split <;> rfl

theorem sendBinding_link (s : Nat) (c : Chip) : sendBinding s c = { c with link := (sendBinding s c).link } := by
  unfold sendBinding sendPeer
  dsimp only
  split
  · exact sendMsg_link ..
  · rfl

theorem bindingOut_link (c n : Chip) (ovl j b : Nat) : bindingOut c ovl j b n = { n with link := (bindingOut c ovl j b n).link } := by
  unfold bindingOut
  split
  · split
    · exact sendBinding_link ..
    · rfl
  · rfl

theorem bindingOut_video (c n : Chip) (ovl j b : Nat) : (bindingOut c ovl j b n).video = n.video := by rw [bindingOut_link]

theorem bindingOut_objs (c n : Chip) (ovl j b : Nat) : (bindingOut c ovl j b n).objs = n.objs := by rw [bindingOut_link]

/-- The record of a slot at the readiness point of its slice 0. -/
theorem readinessPoint_binds {ovl j : Nat} {sl : VSlot} {v : VStream} (hs : slotDecl c ovl j = some (sl, v)) (ha : c.plan.armed = some sl.pos)
    (hb : 0 < vSlices v) (ht : slotTaken c ovl sl v = true) (hf : follows c = false) (hl : (streamAt c sl.stream).slots.length < 260) :
    let bind := bindPicture (underDecode c sl.stream v (streamAt c sl.stream))
    let ready := sliceReady c v 0 (bind.1.bind fun i => bind.2.1.find? (fun p => p.id == i))
    let c' := bindingOut c ovl j 0 (readinessPoint ovl j 0 c)
    ∃ x, (slotUse (streamAt c' sl.stream) ovl j c.tk.tick = some x ∧
      x.pic = bind.1 ∧ x.slices = [(0, if ready then .ready else substOf v ((streamAt c sl.stream).handed.contains 0))]) ∧
      objGet c' 0x2302 (if ready then 0x0C else 0x0D) sl.stream =
        objGet (objBump 0x2302 (if ready then 0x0C else 0x0D) sl.stream 1 c) 0x2302 (if ready then 0x0C else 0x0D) sl.stream := by
  dsimp only
  rw [streamAt_of_video (bindingOut_video ..), objGet_of_objs (bindingOut_objs ..), readinessPoint_taken hs ha hb ht hf rfl]
  generalize bindPicture (underDecode c sl.stream v (streamAt c sl.stream)) = bind
  generalize (bind.1.bind fun i => bind.2.1.find? (fun p => p.id == i)) = pic
  generalize sliceReady c v 0 pic = ready
  obtain ⟨hslot, hcount⟩ := sliceHanded_leaves (s := sl.stream) (c := c) v 0 ready ((underDecode_keeps (c := c) (s := sl.stream) v _).1 ▸ hl)
    bind.2.1 bind.2.2 pic (slotBound ovl j sl c.tk.tick bind)
  obtain ⟨ho, hi, ht', hp, hsl⟩ := slotOf_keeps { ovl := ovl, idx := j, tick := c.tk.tick, fc0 := sl.fc0, pic := bind.1 } bind.2.1
  rw [← slotBound.eq_1] at ho hi ht' hp hsl
  rw [ho, hi, ht', hp, hsl, (underDecode_keeps v _).2] at hslot
  obtain ⟨x, hx, he⟩ := Option.map_eq_some_iff.1 hslot
  exact ⟨x, ⟨hx, congrArg Prod.fst he, congrArg Prod.snd he⟩, hcount⟩

end

end Sys2Proof.Machine

namespace Sys2Proof.Proofs
open Sys2Proof Sys2Proof.Machine

/-- Settles O30. After the slot's record is written, only reads of the frame and counts follow, which keep it. -/
theorem slotHandover : Obligations.SlotHandover := by
  intro s ovl j sl v hs
  dsimp only
  intro ha
  refine ⟨fun b hb => rfl, fun b hb ht => readinessPoint_untaken hs ha hb ht, fun hb ht hf hl => ?_⟩
  refine gives_onChip (f := fun c => bindingOut c ovl j 0 (readinessPoint ovl j 0 c)) rfl ?_
  obtain ⟨x, hx, hcount⟩ := readinessPoint_binds hs ha hb ht hf hl
  simp only [onto, objGet_settle, streamAt_of_video (settle_video _)]
  exact ⟨x, hx.1, hx.2.1, hx.2.2, hcount⟩

end Sys2Proof.Proofs

/-! SUPPORT. Datagrams, and the engines' jobs (R178, R205-R212, R223). -/

namespace Sys2Proof.Machine

/-! A datagram that leaves changes the ports and the objects alone. -/

/-- From c to c' only the service ports and the objects change. -/
def Sends (c c' : Chip) : Prop := c' = { c with net := c'.net, objs := c'.objs }

section
variable {c c' c'' : Chip}

theorem Sends.refl (c : Chip) : Sends c c := rfl

theorem Sends.trans (h : Sends c c') (h' : Sends c' c'') : Sends c c'' := Eq.trans h' (by rw [h])

theorem Sends.video (h : Sends c c') : c'.video = c.video := by rw [h]

theorem Sends.grid (h : Sends c c') : c'.grid = c.grid := by rw [h]

theorem Sends.thenWith (h : Sends c c') (p : Prop) [Decidable p] (h' : Sends c' c'') : Sends c (if p then c'' else c') := by
  split
  · exact h.trans h'
  · exact h

theorem Sends.orElse (h : Sends c c') (h' : Sends c c'') (p : Prop) [Decidable p] : Sends c (if p then c' else c'') := by
  split
  · exact h
  · exact h'

theorem bump_sends (i k n v : Nat) (c : Chip) : Sends c (objBump i k n v c) := rfl

theorem countSent_sends (d : Datagram) (c : Chip) : Sends c (countSent d c) := by
  unfold countSent
  split <;> rfl

theorem countDropped_sends (o : Origin) (c : Chip) : Sends c (countDropped o c) := by
  unfold countDropped
  split <;> rfl

theorem transmit_sends (m : Sent) (c : Chip) : Sends c (transmit m c) := rfl

theorem emitDatagram_sends (d : Datagram) (c : Chip) : Sends c (emitDatagram d c) := by
  unfold emitDatagram
  dsimp only
  split
  · exact countDropped_sends ..
  · split
    · exact (transmit_sends ..).trans (countSent_sends ..)
    · split
      · exact (transmit_sends ..).trans (countSent_sends ..)
      · split
        · rfl
        · split <;> rfl

theorem emitResult_sends (o : OchEntry) (b : List Byte) (bad : Bool) (f ts : Nat) (c : Chip) : Sends c (emitResult o b bad f ts c) := by
  unfold emitResult
  dsimp only
  split
  · rfl
  · have hnum : Sends c (objSet 0x2332 0x05 o.och (ochNumber c o.och % 2 ^ 32) (objSet 0x2332 0x06 o.och (epochField c (ochNumber c o.och))
        { c with net := { c.net with nums := cellsSet 0 c.net.nums o.och ((ochNumber c o.och + 1) % 2 ^ 47) } })) := rfl
    have hbad := hnum.thenWith (bad = true) (bump_sends 0x2332 0x02 o.och 1 _)
    have hlate := hbad.thenWith (c.tk.edgeAt.isSome = true) (bump_sends 0x2332 0x03 o.och 1 _)
    exact hlate.trans ((countDropped_sends _ _).orElse (emitDatagram_sends _ _) _)

end

/-! Words on the engines' ports change the grid alone. -/

theorem portSend_grid (port n : Nat) (w : PortWord) (c : Chip) : portSend port n w c = { c with grid := (portSend port n w c).grid } := by
  unfold portSend
  split
  · rfl
  · cases w with
    | word x => rfl
    | invalid => rfl
    | empty =>
      dsimp only [leaveEmpty]
      split <;> rfl

theorem portSend_video (port n : Nat) (w : PortWord) (c : Chip) : (portSend port n w c).video = c.video := by rw [portSend_grid]

theorem campionWords_video (e : Nat) (key : Nat × Nat × Nat × Nat) (port0 ports : Nat) (ws : List PortWord) (c : Chip) :
    (campionWords e key port0 ports ws c).video = c.video := by
  unfold campionWords
  split
  · exact foldl_keeps (fun c : Chip => c.video) (fun c x => portSend_video ..) _ _
  · rfl

theorem countReadouts_keeps (e : Nat) (d : Aod) (fo : Fmt) (xs : List Acc) (c : Chip) :
    (countReadouts e d fo xs c).video = c.video ∧ (countReadouts e d fo xs c).grid = c.grid := by
  have hhigh : (countHighEscape (campionPlace e) c).video = c.video ∧ (countHighEscape (campionPlace e) c).grid = c.grid := by
    dsimp only [countHighEscape]
    split <;> simp
  unfold countReadouts
  dsimp only
  split <;> split
  · exact hhigh
  · exact ⟨rfl, rfl⟩
  · exact hhigh
  · exact ⟨rfl, rfl⟩

@[simp] theorem campionAt_setCampion (e : Nat) (v : CampionSt) (c : Chip) : campionAt (setCampion e v c) e = v := by
  simp [campionAt, setCampion]

@[simp] theorem teaselAt_setTeasel (e : Nat) (v : TeaselSt) (c : Chip) : teaselAt (setTeasel e v c) e = v := by
  simp [teaselAt, setTeasel]

theorem campionAt_of_video {c c' : Chip} (h : c'.video = c.video) (e : Nat) : campionAt c' e = campionAt c e := by rw [campionAt, h, campionAt]

theorem teaselAt_of_video {c c' : Chip} (h : c'.video = c.video) (e : Nat) : teaselAt c' e = teaselAt c e := by rw [teaselAt, h, teaselAt]

/-! The first layer of a slot (R205). -/

/-- The slot of a first layer ends with its last slice. -/
def firstLayerEnd (sl : VSlot) (v : VStream) (u : SlotUse) (b : Nat) (c : Chip) : Chip :=
  if b + 1 = vSlices v then modStream sl.stream (putSlotUse { u with ended := true }) c else c

section
variable {c : Chip} {ovl j b : Nat} {sl : VSlot} {v : VStream} {p : Plan} {u : SlotUse} {prog : CProgram} {use : SliceUse}
  (hs : slotDecl c ovl j = some (sl, v)) (hp : c.plan.loaded = some p) (hu : slotUse (streamAt c sl.stream) ovl j c.tk.tick = some u)
  (hg : planProgram p v.campion v.program = some prog) (hx : u.slices.find? (fun x => x.1 == b) = some (b, use))
include hs hp hu hg hx

theorem firstLayer_idle (h : (engineHeld c .campion v.campion || decide (c.tk.mode ≠ .running)) = true) :
    firstLayer ovl j b c = firstLayerEnd sl v u b c := by
  simp only [firstLayer, hs, hp, hu, hg, hx, h, if_true, firstLayerEnd]

/-- Whatever an engine that runs sends, the slot ends as firstLayerEnd says. -/
theorem firstLayer_ends : ∃ c', c'.video = c.video ∧ firstLayer ovl j b c = firstLayerEnd sl v u b c' := by
  by_cases h : (engineHeld c .campion v.campion || decide (c.tk.mode ≠ .running)) = true
  · exact ⟨c, rfl, firstLayer_idle hs hp hu hg hx h⟩
  · simp only [firstLayer, hs, hp, hu, hg, hx, h, Bool.false_eq_true, if_false]
    refine ⟨_, ?_, rfl⟩
    refine Eq.trans (foldl_keeps (fun c : Chip => c.video) (fun c o => ?_) _ _) (countReadouts_keeps ..).1
    cases use <;> exact campionWords_video ..

end

theorem slotUse_keys {st : StreamSt} {ovl j tick : Nat} {u : SlotUse} (h : slotUse st ovl j tick = some u) : u.ovl = ovl ∧ u.idx = j ∧ u.tick = tick := by
  simpa [and_assoc] using List.find?_some h

/-- What the end of a slot leaves of its record. -/
theorem slotUse_firstLayerEnd {c c' : Chip} {sl : VSlot} {v : VStream} {u : SlotUse} {ovl j b tick : Nat} (hv : c'.video = c.video)
    (hu : slotUse (streamAt c sl.stream) ovl j tick = some u) (hl : (streamAt c sl.stream).slots.length < 260) :
    ∃ u', slotUse (streamAt (firstLayerEnd sl v u b c') sl.stream) ovl j tick = some u' ∧ u'.pic = u.pic ∧ u'.slices = u.slices ∧
      (b + 1 = vSlices v → u'.ended = true) := by
  rw [← streamAt_of_video hv] at hu hl
  unfold firstLayerEnd
  split
  · obtain ⟨rfl, rfl, rfl⟩ := slotUse_keys hu
    rw [modStream, streamAt_setStream]
    exact ⟨_, slotUse_putSlotUse (u := { u with ended := true }) hl, rfl, rfl, fun _ => rfl⟩
  · exact ⟨u, hu, rfl, rfl, fun h => absurd h ‹_›⟩

/-! A last-layer job (R206-R208). -/

theorem suppress_length (nms kmax : Nat) (ranked : List Cand) : (suppress nms kmax ranked).length ≤ kmax := by
  refine foldl_invariant (fun kept : List Cand => kept.length ≤ kmax) (fun kept x h => ?_) _ (Nat.zero_le _)
  split_ifs
  · exact h
  · exact h
  · rw [List.length_append]
    simp
    omega

theorem detections_length (jb : CJob) (params : List Byte) (heads : List (List Nat)) : (detections jb params heads).1.length ≤ jb.kmax :=
  suppress_length ..

theorem takeInputs_edge (first n : Nat) (c : Chip) : ∀ w ∈ (takeInputs first n c).2.grid.edge, ¬ (first ≤ w.port ∧ w.port < first + n) := by
  intro w hw
  simpa [or_iff_not_imp_left] using (List.mem_filter.1 hw).2

theorem campionInputs_edge (e : Nat) (c : Chip) :
    ∀ w ∈ (campionInputs e c).grid.edge, ¬ (64 + 8 * e ≤ w.port ∧ w.port < 64 + 8 * e + 8) := by
  have h := takeInputs_edge (64 + 8 * e) 8 c
  unfold campionInputs
  dsimp only
  split <;> exact h

theorem teaselInputs_edge (e : Nat) (c : Chip) :
    ∀ w ∈ (teaselInputs e c).grid.edge, ¬ (96 + 4 * e ≤ w.port ∧ w.port < 96 + 4 * e + 4) := by
  have h := takeInputs_edge (96 + 4 * e) 4 c
  unfold teaselInputs
  dsimp only
  split <;> exact h

theorem startCampionJob_due {c : Chip} {p : Plan} {e n : Nat} {jb : CJob} (hp : c.plan.loaded = some p) (hj : (planCJobs p e)[n]? = some jb)
    (hd : jobDue c .campion e jb.pos jb.ovl jb.disp = true) (hl : campionLive c p e jb = true) :
    let a := campionAt (campionInputs e c) e
    let fill := fillBuffer 32768 (jb.inBase / 32) (mapWords jb.hi jb.wi jb.cin jb.ifmt) a.arrived a.inBuf a.filled
    let c' := startCampionJob e n c
    (campionAt c' e).arrived = fill.1 ∧ (campionAt c' e).inBuf = fill.2.1 ∧ (campionAt c' e).filled = fill.2.2 ∧
    c'.grid = (campionInputs e c).grid ∧
    ∃ words list, (campionAt c' e).job = some (n, words, list) ∧ (jb.dec = 0 → list = []) ∧
      (jb.dec ≠ 0 → words = [] ∧ ∃ kept q, list = detectionBytes jb kept q ∧ kept.length ≤ jb.kmax) := by
  simp only [startCampionJob, hp, hj, hd, hl, Bool.not_true, Bool.or_self, Bool.false_eq_true, if_false, campionAt_setCampion]
  refine ⟨trivial, trivial, trivial, (countReadouts_keeps ..).2, _, _, rfl, fun h => if_pos h, fun h => ⟨if_neg h, _, _, if_neg h, detections_length ..⟩⟩

/-- What becomes of a job's detection list on its output channel (R208, R220). -/
def listEmitted (o : Option OchEntry) (list : List Byte) (bad : Bool) (d : Chip) : Chip :=
  match o with
  | none => d
  | some o =>
    if !fnLive d o.fn o.tenant then d
    else if o.maxlen < list.length || !ochFree d o.och then refuseRecord d
    else emitResult o list bad (slotFlags d o).1 (slotFlags d o).2 (takeOch o.och d)

theorem listEmitted_video (o : Option OchEntry) (list : List Byte) (bad : Bool) (d : Chip) : (listEmitted o list bad d).video = d.video := by
  unfold listEmitted
  split
  · rfl
  · split_ifs
    · rfl
    · rfl
    · exact (emitResult_sends ..).video

theorem endCampionJob_ends {c : Chip} {p : Plan} {e n : Nat} {jb : CJob} {words : List SWord} {list : List Byte} (hp : c.plan.loaded = some p)
    (hj : (planCJobs p e)[n]? = some jb) (hw : (campionAt c e).job = some (n, words, list)) (hh : engineHeld c .campion e = false) :
    (endCampionJob e c).video = (setCampion e { campionAt c e with job := none, list := if jb.dec = 0 then (campionAt c e).list else list } c).video := by
  simp only [endCampionJob, hp, hj, hw, hh, Bool.false_eq_true, if_false]
  have hout : ∀ ws d, (tracePoint 65 0 (e * 65536 + n) (if jb.ports = 0 then d else campionWords e (1, 0, n, 0) jb.port0 jb.ports ws d)).video
      = d.video := by
    intro ws d
    rw [tracePoint_video]
    split
    · rfl
    · exact campionWords_video ..
  exact (listEmitted_video _ list _ _).trans (hout _ _)

/-! A Teasel job (R209-R212). -/

theorem jobBoxes_length (jb : TJob) (s : TeaselSt) (campion : List Byte) : (jobBoxes jb s campion).length ≤ jb.nbox := by
  unfold jobBoxes
  rw [List.length_map, List.length_range]
  exact Nat.min_le_right ..

theorem markDamaged_grid (s id : Nat) (bad : List Nat) (c : Chip) : (markDamaged s id bad c).grid = c.grid := by
  unfold markDamaged
  split
  · rfl
  · split
    · rfl
    · dsimp only
      split <;> split <;> rfl

theorem dataRead_grid (k : Nat) (errs : List (Nat × Byte)) (c : Chip) : (dataRead k errs c).2.2.grid = c.grid :=
  congrArg (fun x => x.2.1) (offHbm_dataRead k errs c)

theorem readSlices_grid (s : Nat) (v : VStream) (pic : Picture) (bs : List Nat) (c : Chip) : (readSlices s v pic bs c).grid = c.grid := by
  unfold readSlices
  split
  · rfl
  · exact foldl_keeps (fun c : Chip => c.grid) (fun c b => (markDamaged_grid ..).trans
      (readFrame_invariant (P := fun a => a.2.grid = c.grid) (fun a k _ h => (dataRead_grid k [] a.2).trans h) v pic b c rfl)) _ _

/-- The slices of a job's frame are read before it is sampled (R211, R267). -/
def frameRead (stream : Nat) (o : Option (VStream × Picture × List Nat)) (c : Chip) : Chip :=
  match o with
  | some (v, q, _) => readSlices stream v q (List.range (vSlices v)) c
  | none => c

theorem frameRead_grid (stream : Nat) (o : Option (VStream × Picture × List Nat)) (c : Chip) : (frameRead stream o c).grid = c.grid := by
  unfold frameRead
  split
  · exact readSlices_grid ..
  · rfl

theorem startTeaselJob_due {c : Chip} {p : Plan} {e n : Nat} {jb : TJob} (hp : c.plan.loaded = some p) (hj : (planTJobs p e)[n]? = some jb)
    (hd : jobDue c .teasel e jb.pos jb.ovl jb.disp = true) (hl : teaselLive c p e jb = true) :
    ∃ words boxes refused, (teaselAt (startTeaselJob e n c) e).job =
        some (n, { data := BitVec.ofNat 256 (boxes + 65536 * refused) } :: words) ∧ boxes ≤ jb.nbox ∧ refused ≤ boxes ∧
      (startTeaselJob e n c).grid = (teaselInputs e c).grid := by
  simp only [startTeaselJob, hp, hj, hd, hl, Bool.not_true, Bool.or_self, Bool.false_eq_true, if_false, teaselAt_setTeasel]
  refine ⟨_, _, _, rfl, ?_, List.length_filter_le .., ?_⟩
  · exact jobBoxes_length ..
  · exact (apply_ite Chip.grid (jb.src = 0) _ _).trans ((ite_self (c := jb.src = 0) _).trans (frameRead_grid jb.stream _ (teaselInputs e c)))

theorem endTeaselJob_ends {c : Chip} {p : Plan} {e n : Nat} {jb : TJob} {words : List SWord} (hp : c.plan.loaded = some p)
    (hj : (planTJobs p e)[n]? = some jb) (hw : (teaselAt c e).job = some (n, words)) (hh : engineHeld c .teasel e = false) :
    endTeaselJob e c = tracePoint 66 0 (e * 65536 + n) (teaselWords e n jb (words.map .word) (setTeasel e { teaselAt c e with job := none } c)) := by
  simp only [endTeaselJob, hp, hj, hw, hh, Bool.false_eq_true, if_false]

end Sys2Proof.Machine

namespace Sys2Proof.Proofs
open Sys2Proof Sys2Proof.Machine

/-- Settles O31. An engine's words change the grid, its readouts the counts, and neither the engine's own record. -/
theorem engineJobs : Obligations.EngineJobs := by
  intro s p hp
  dsimp only
  refine ⟨fun ovl j b sl v u prog use hs hu hg hx hl => ⟨?_, fun hh => ?_⟩,
    fun e n jb he hj => ⟨fun hd hlive => ?_, fun words list hw hh => ?_⟩,
    fun e n jb he hj => ⟨fun hd hlive => ?_, fun words hw hh => ?_⟩⟩
  · obtain ⟨c', hv, hc'⟩ := firstLayer_ends hs hp hu hg hx
    refine gives_onChip (f := firstLayer ovl j b) rfl ?_
    rw [hc', onto, streamAt_of_video (settle_video _)]
    exact slotUse_firstLayerEnd hv hu hl
  · exact answers_onChip (f := firstLayer ovl j b) rfl (firstLayer_idle hs hp hu hg hx (by rw [hh]; rfl))
  · refine gives_onChip (f := startCampionJob e n) (onUnit_of_lt he _ s) ?_
    obtain ⟨ha, hb, hf, hg, hjob⟩ := startCampionJob_due hp hj hd hlive
    rw [onto, settle_grid, campionAt_of_video (settle_video _)]
    exact ⟨ha, hb, hf, fun w hw => campionInputs_edge e s.chip w (hg ▸ hw), hjob⟩
  · refine gives_onChip (f := endCampionJob e) (onUnit_of_lt he _ s) ?_
    rw [onto, campionAt_of_video (settle_video _), campionAt_of_video (endCampionJob_ends hp hj hw hh), campionAt_setCampion]
    exact ⟨rfl, rfl⟩
  · refine gives_onChip (f := startTeaselJob e n) (onUnit_of_lt he _ s) ?_
    obtain ⟨words, boxes, refused, hjob, hb, hr, hg⟩ := startTeaselJob_due hp hj hd hlive
    rw [onto, settle_grid, teaselAt_of_video (settle_video _)]
    exact ⟨words, boxes, refused, hjob, hb, hr, fun w hw => teaselInputs_edge e s.chip w (hg ▸ hw)⟩
  · exact answers_onChip (f := endTeaselJob e) (onUnit_of_lt he _ s) (endTeaselJob_ends hp hj hw hh)

end Sys2Proof.Proofs

/-! SUPPORT. Encoders and the egress channels (R213-R223, R477). -/

namespace Sys2Proof.Machine

/-! The picture passed to an encoder (R213, R214). -/

theorem any_eq_not_isEmpty_filter_map {α β : Type} (p : α → Bool) (f : α → β) (l : List α) : l.any p = !((l.filter p).map f).isEmpty := by
  rw [List.isEmpty_map]
  induction l with
  | nil => rfl
  | cons x l ih => cases h : p x <;> simp [h, ih]

section
variable {c : Chip} {st : Nat} {w : VStream} {u : SlotUse} {p : Picture}

theorem streamAt_set (i k n v s : Nat) (c : Chip) : streamAt (objSet i k n v c) s = streamAt c s := rfl

theorem streamAt_modStream (s : Nat) (f : StreamSt → StreamSt) (c : Chip) : streamAt (modStream s f c) s = f (streamAt c s) := streamAt_setStream ..

theorem putSlotUse_pictures (u : SlotUse) (v : StreamSt) : (putSlotUse u v).pictures = v.pictures := by rw [putSlotUse]

theorem putSlotUse_enc (u : SlotUse) (v : StreamSt) : (putSlotUse u v).enc = v.enc := by rw [putSlotUse]

/-- The stream with the slot whose picture is passed. -/
def slotPassed (st : Nat) (u : SlotUse) (c : Chip) : Chip := modStream st (putSlotUse { u with passed := true }) c

theorem streamAt_slotPassed : streamAt (slotPassed st u c) st = putSlotUse { u with passed := true } (streamAt c st) := streamAt_setStream ..

theorem encOn_slotPassed : encOn (slotPassed st u c) st = encOn c st := by
  unfold encOn
  rw [streamAt_slotPassed]
  rfl

/-- The picture as the encoder takes it (R213, R214). -/
def passedPicture (c : Chip) (st : Nat) (w : VStream) (u : SlotUse) (p : Picture) : Passed :=
  let e := (streamAt c st).enc
  let grey := (u.slices.filter (fun x => x.2 ≠ .ready)).map (·.1)
  let codec := objGet c 0x2303 0x02 st
  let scale := objGet c 0x2303 0x03 st
  { ts := p.ts, tenBit := p.tenBit, samples := encFrame p grey w scale, grey := grey, codec := codec, w := w.w / 2 ^ scale, h := w.h / 2 ^ scale
    idr := codec == 2 || !e.started || e.idrAsked || (decide (0 < objGet c 0x2303 0x0A st) && decide (objGet c 0x2303 0x0A st ≤ e.sinceIdr + 1)) }

variable (hw : vdecl c st = some w) (hu : (streamAt c st).slots.find? (fun u => u.ended && !u.passed) = some u)
  (hp : u.pic.bind (fun i => (streamAt c st).pictures.find? (fun p => p.id == i)) = some p) (he : vEncoder w = true) (ho : encOn c st = true)
include hw hu hp he ho

theorem passPicture_dropped (h : (engineHeld c .encode w.ecore || decide (2 ≤ (streamAt c st).enc.queue.length)) = true) :
    passPicture st c = objBump 0x2304 0x04 st 1 (slotPassed st u c) := by
  have ho' := (encOn_slotPassed (u := u)).trans ho
  simp only [passPicture, hw, hu, ← slotPassed.eq_1, streamAt_slotPassed]
  have hp' : u.pic.bind (fun i => (putSlotUse { u with passed := true } (streamAt c st)).pictures.find? (fun p => p.id == i)) = some p := by
    rw [putSlotUse_pictures]; exact hp
  rw [hp']
  dsimp only
  rw [if_neg (by simp [he, ho'])]
  exact if_pos h

theorem passPicture_passed (h : (engineHeld c .encode w.ecore || decide (2 ≤ (streamAt c st).enc.queue.length)) = false) :
    ∃ e : EncSt, e.queue = (streamAt c st).enc.queue ++ [passedPicture c st w u p] ∧
      e.idrAsked = ((p.tainted || u.slices.any (fun x => x.2 ≠ .ready)) && objGet c 0x2303 0x14 st == 1) ∧
      passPicture st c = objSet 0x2304 0x01 st 1 (setStream st { putSlotUse { u with passed := true } (streamAt c st) with enc := e }
        { slotPassed st u c with video := { (slotPassed st u c).video with
          ecores := cellsMod [] (slotPassed st u c).video.ecores w.ecore (· ++ [st]) } }) := by
  have ho' := (encOn_slotPassed (u := u)).trans ho
  simp only [passPicture, hw, hu, ← slotPassed.eq_1, streamAt_slotPassed]
  have hp' : u.pic.bind (fun i => (putSlotUse { u with passed := true } (streamAt c st)).pictures.find? (fun p => p.id == i)) = some p := by
    rw [putSlotUse_pictures]; exact hp
  rw [hp']
  dsimp only
  rw [if_neg (by simp [he, ho'])]
  refine ⟨_, ?_, ?_, if_neg (by rw [putSlotUse_enc]; exact Bool.eq_false_iff.1 h)⟩
  · rw [putSlotUse_enc]
    rfl
  · rfl

end

/-! Coded slices and their packets (R214-R218). -/

/-- From c to c' the coding of stream st stands, but for n packets numbered, and so does the QP it shows. -/
def CodingKept (st n : Nat) (c c' : Chip) : Prop :=
  (streamAt c' st).enc.queue = (streamAt c st).enc.queue ∧ (streamAt c' st).enc.outbox = (streamAt c st).enc.outbox ∧
  (streamAt c' st).enc.index = (streamAt c st).enc.index + n ∧ objGet c' 0x2304 0x05 st = objGet c 0x2304 0x05 st

section
variable {st n m : Nat} {c c' c'' : Chip}

theorem CodingKept.refl (st : Nat) (c : Chip) : CodingKept st 0 c c := ⟨rfl, rfl, rfl, rfl⟩

theorem CodingKept.trans (h : CodingKept st n c c') (h' : CodingKept st m c' c'') : CodingKept st (n + m) c c'' := by
  obtain ⟨hq, ho, hi, hg⟩ := h
  obtain ⟨hq', ho', hi', hg'⟩ := h'
  exact ⟨hq'.trans hq, ho'.trans ho, by rw [hi', hi, Nat.add_assoc], hg'.trans hg⟩

theorem CodingKept.of_video (hv : c'.video = c.video) (hg : objGet c' 0x2304 0x05 st = objGet c 0x2304 0x05 st) : CodingKept st 0 c c' := by
  refine ⟨?_, ?_, ?_, hg⟩ <;> rw [streamAt_of_video hv]
  rfl

theorem keepsObjs_countSent (d : Datagram) (c : Chip) : KeepsObjs (marks 0x2304 0x05) c (countSent d c) := by
  unfold countSent
  split <;> exact (KeepsObjs.refl c).bump rfl

theorem keepsObjs_countDropped (o : Origin) (c : Chip) : KeepsObjs (marks 0x2304 0x05) c (countDropped o c) := by
  unfold countDropped
  split
  · exact (KeepsObjs.refl c).bump rfl
  · exact .refl c

theorem keepsObjs_emitDatagram (d : Datagram) (c : Chip) : KeepsObjs (marks 0x2304 0x05) c (emitDatagram d c) := by
  unfold emitDatagram
  dsimp only
  split
  · exact keepsObjs_countDropped d.origin c
  · split
    · exact keepsObjs_countSent d (transmit (.datagram d 0) c)
    · split
      · rename_i x _
        exact keepsObjs_countSent d (transmit (.datagram d x.mac) c)
      · split
        · exact .of_objs rfl
        · split <;> exact .of_objs rfl

/-- A packet leaves toward the encoder's destination, if it has one and the key is there (R218). -/
def encSent (st : Nat) (data : Option (List Byte)) (c : Chip) : Chip :=
  match data with
  | none => c
  | some d => if objGet c 0x2303 0x0D st = 0 then c
    else emitDatagram { port := objGet c 0x2301 0x02 st % 2, dst := objGet c 0x2303 0x0D st, sport := objGet c 0x2303 0x0E st
                        dport := objGet c 0x2303 0x0E st, payload := d, origin := .encoder st } c

theorem encSent_codingKept (data : Option (List Byte)) (h : CodingKept st n c c') : CodingKept st n c (encSent st data c') := by
  unfold encSent
  split
  · exact h
  · split
    · exact h
    · exact h.trans (.of_video (emitDatagram_sends _ c').video ((keepsObjs_emitDatagram _ c').get (by omega) st))

theorem encPacket_codingKept (ts : Nat) (last : Bool) (body : List Byte) (c : Chip) : CodingKept st 1 c (encPacket st ts last body c) := by
  have hdraw : ∀ (q : Option Nat) (n : Option Nat), CodingKept st 1 c (modStream st (fun v => { v with enc := { v.enc with
      seq := n, index := v.enc.index + 1 } }) (match q with | some _ => c | none => (takeFree c).2)) := by
    intro q n
    have hs : ∀ d : Chip, d.video = c.video → d.objs = c.objs → CodingKept st 1 c
        (modStream st (fun v => { v with enc := { v.enc with seq := n, index := v.enc.index + 1 } }) d) := by
      intro d hv ho
      refine ⟨?_, ?_, ?_, (objGet_of_objs ho ..)⟩ <;> rw [modStream, streamAt_setStream, streamAt_of_video hv]
    cases q with
    | none => exact hs (takeFree c).2 rfl rfl
    | some _ => exact hs c rfl rfl
  exact encSent_codingKept _ (hdraw _ _)

theorem sendPackets_codingKept (ts : Nat) (last : Bool) (l : List (List Byte)) (c : Chip) :
    CodingKept st l.length c (sendPackets st ts last l c) := by
  unfold sendPackets
  suffices ∀ (xs : List (List Byte × Nat)) (c : Chip), CodingKept st xs.length c
      (xs.foldl (fun c b => encPacket st ts (last && b.2 + 1 == l.length) b.1 c) c) by
    simpa using this l.zipIdx c
  intro xs
  induction xs with
  | nil => exact fun c => .refl st c
  | cons x xs ih =>
    intro c
    rw [List.length_cons, Nat.add_comm]
    exact (encPacket_codingKept ..).trans (ih _)

end

theorem or_not_or_not (a b c : Bool) : (a || !b || !c) = !(!a && b && c) := by cases a <;> cases b <;> rfl

/-- Whether a core takes what it is given of the picture p (R214-R218). -/
def takesSlice (c : Chip) (st t : Nat) (w : VStream) (p : Passed) (d : CodedSlice) : Bool :=
  let e := (streamAt c st).enc
  let per := max 1 (objGet c 0x2303 0x0B st)
  let level := if e.slice = 0 then hrdLevel (objGet c 0x2303 0x05 st) (objGet c 0x2303 0x06 st) t e else (e.hrd.map (·.1)).getD 0
  !engineHeld c .encode w.ecore && codesNow c st w.ecore &&
    sliceOk c st t level (e.slice * per) (min per (cdiv p.h 64 - e.slice * per)) p e d

/-- Whether the rows given are the picture's last. -/
def lastSlice (c : Chip) (st : Nat) (p : Passed) : Bool :=
  let per := max 1 (objGet c 0x2303 0x0B st)
  decide (cdiv p.h 64 ≤ (streamAt c st).enc.slice * per + per)

/-- The coding of a stream goes on at e: the core's turn and the QP shown. -/
def codedOn (st ecore : Nat) (last : Bool) (p : Passed) (d : CodedSlice) (e : EncSt) (c : Chip) : Chip :=
  let c := modStream st (fun v => { v with enc := e }) c
  let c := if last then { c with video := { c.video with ecores := cellsMod [] c.video.ecores ecore (·.drop 1) } } else c
  if p.codec = 2 then c else objSet 0x2304 0x05 st (d.qps.getLastD 0) c

/-- Its packets are sent, and a picture that ends is counted. -/
def codedSent (st ecore : Nat) (last now : Bool) (p : Passed) (d : CodedSlice) (out : List (List Byte)) (e : EncSt) (c : Chip) : Chip :=
  let c := codedOn st ecore last p d e c
  let c := if now || last then sendPackets st p.ts last (if now then d.packets else out) c else c
  if last then objBump 0x2304 0x02 st 1 c else c

section
variable {c : Chip} {st t : Nat} {w : VStream} {p : Passed} {rest : List Passed} {d : CodedSlice}

theorem sendCoded_refused (hw : vdecl c st = some w) (hq : (streamAt c st).enc.queue = p :: rest) (h : takesSlice c st t w p d = false) :
    sendCoded st t d c = c := by
  unfold takesSlice at h
  simp only [sendCoded, hw, hq]
  exact if_pos (by rw [or_not_or_not, h]; rfl)

theorem sendCoded_takes (hw : vdecl c st = some w) (hq : (streamAt c st).enc.queue = p :: rest) (h : takesSlice c st t w p d = true) :
    ∃ e : EncSt, e.queue = (if lastSlice c st p then rest else p :: rest) ∧
      e.outbox = (if objGet c 0x2303 0x0C st == 1 || lastSlice c st p then [] else (streamAt c st).enc.outbox ++ d.packets) ∧
      e.index = (streamAt c st).enc.index ∧
      sendCoded st t d c = codedSent st w.ecore (lastSlice c st p) (objGet c 0x2303 0x0C st == 1) p d ((streamAt c st).enc.outbox ++ d.packets) e c := by
  unfold takesSlice at h
  simp only [sendCoded, hw, hq]
  refine ⟨_, ?_, ?_, ?_, if_neg (by rw [or_not_or_not, h]; exact Bool.false_ne_true)⟩
  · rfl
  · rfl
  · rfl

theorem codedOn_leaves (ecore : Nat) (last : Bool) (e : EncSt) (c : Chip) :
    (streamAt (codedOn st ecore last p d e c) st).enc = e ∧
    (p.codec ≠ 2 → objGet (codedOn st ecore last p d e c) 0x2304 0x05 st = d.qps.getLastD 0) := by
  have hs : ∀ c' : Chip, c'.video.streams = (modStream st (fun v => { v with enc := e }) c).video.streams → (streamAt c' st).enc = e := by
    intro c' h
    have hm : (streamAt (modStream st (fun v => { v with enc := e }) c) st).enc = e := by rw [modStream, streamAt_setStream]
    rwa [streamAt, ← h] at hm
  unfold codedOn
  constructor
  · refine hs _ ?_
    dsimp only
    split <;> split <;> rfl
  · intro hc
    dsimp only
    rw [if_neg hc, objGet_set_same]

theorem codedSent_leaves (ecore : Nat) (last now : Bool) (out : List (List Byte)) (e : EncSt) (c : Chip) :
    let c' := codedSent st ecore last now p d out e c
    (streamAt c' st).enc.queue = e.queue ∧ (streamAt c' st).enc.outbox = e.outbox ∧
    (streamAt c' st).enc.index = e.index + (if now then d.packets.length else if last then out.length else 0) ∧
    (p.codec ≠ 2 → objGet c' 0x2304 0x05 st = d.qps.getLastD 0) := by
  obtain ⟨he, hg⟩ := codedOn_leaves (st := st) (p := p) (d := d) ecore last e c
  have hsent : CodingKept st (if now then d.packets.length else if last then out.length else 0) (codedOn st ecore last p d e c)
      (if now || last then sendPackets st p.ts last (if now then d.packets else out) (codedOn st ecore last p d e c)
       else codedOn st ecore last p d e c) := by
    cases now
    · cases last
      · exact .refl ..
      · exact sendPackets_codingKept ..
    · exact sendPackets_codingKept ..
  have hcount : ∀ c', CodingKept st 0 c' (if last then objBump 0x2304 0x02 st 1 c' else c') := by
    intro c'
    split
    · exact .of_video rfl (objGet_bump_ne _ _ (okey_ne_sub (by decide)))
    · exact .refl ..
  obtain ⟨hq, ho, hi, hobj⟩ := hsent.trans (hcount _)
  rw [he] at hq ho hi
  exact ⟨hq, ho, hi, fun hc => hobj.trans (hg hc)⟩

theorem endClip_ends (h : (streamAt c st).enc.clip = some 0) :
    objGet (endClip st c) 0x2304 0x01 st = 2 ∧ (streamAt (endClip st c) st).enc.clip = none := by
  have he : endClip st c = objSet 0x2304 0x01 st 2 (modStream st (fun st => { st with enc := { st.enc with clip := none, started := false } }) c) := by
    simp only [endClip, h]
  rw [he]
  exact ⟨objGet_set_same .., by rw [streamAt_set, streamAt_modStream]⟩

end

/-! The egress channels (R220-R223, R477). -/

theorem emitDatagram_nums (d : Datagram) (c : Chip) : (emitDatagram d c).net.nums = c.net.nums := by
  unfold emitDatagram
  dsimp only
  split
  · rw [countDropped_net]
  · split
    · rw [countSent_net]; rfl
    · split
      · rw [countSent_net]; rfl
      · split
        · rfl
        · split <;> rfl

/-- R223: a datagram of a channel takes its number, whatever becomes of it. -/
theorem emitResult_nums (o : OchEntry) (b : List Byte) (bad : Bool) (f ts : Nat) (c : Chip) :
    cellsGet 0 (emitResult o b bad f ts c).net.nums o.och = (ochNumber c o.och + 1) % 2 ^ 47 := by
  suffices h : (emitResult o b bad f ts c).net.nums = cellsSet 0 c.net.nums o.och ((ochNumber c o.och + 1) % 2 ^ 47) by
    rw [h, cellsGet_set_same]
  unfold emitResult
  dsimp only
  refine iteInduction (motive := fun d : Chip => d.net.nums = _) (fun _ => rfl) (fun _ => ?_)
  refine iteInduction (motive := fun d : Chip => d.net.nums = _) (fun _ => (congrArg NetSt.nums (countDropped_net ..)).trans ?_)
    (fun _ => (emitDatagram_nums ..).trans ?_)
  all_goals split <;> split <;> rfl

section
variable {c : Chip} {n : Nat} {slot : Nat → Chip → Bool × Chip} {p : Plan} {o : OchEntry}

theorem egressRecord_refused (pools : List Nat) (h : nextEgress c n = some .refused) : egressRecord n c pools = refuseRecord (egressTaken n c) := by
  simp only [egressRecord, h]

section
variable {ws : List EdgeWord} {b : List Byte} {bad : Bool} {pools : List Nat} (h : nextEgress c n = some (.record o ws b bad))
  (hp : pools.contains o.och = false)
include h hp

theorem egressRecord_emits (hl : fnLive c o.fn o.tenant = true) (hf : ochFree c o.och = true) : egressRecord n c pools =
    emitResult o b bad (slotFlags (egressTaken n c) o).1 (slotFlags (egressTaken n c) o).2 (takeOch o.och (egressTaken n c)) := by
  have hl' : fnLive (egressTaken n c) o.fn o.tenant = true := hl
  have hf' : ochFree (egressTaken n c) o.och = true := hf
  simp only [egressRecord, h, hp, hl', hf', Bool.not_true, Bool.false_eq_true, if_false]

theorem egressRecord_second (hl : fnLive c o.fn o.tenant = true) (hf : ochFree c o.och = false) :
    egressRecord n c pools = refuseRecord (egressTaken n c) := by
  have hl' : fnLive (egressTaken n c) o.fn o.tenant = true := hl
  have hf' : ochFree (egressTaken n c) o.och = false := hf
  simp only [egressRecord, h, hp, hl', hf', Bool.not_true, Bool.not_false, Bool.false_eq_true, if_false, if_true]

theorem egressRecord_stopped (hl : fnLive c o.fn o.tenant = false) : egressRecord n c pools = egressTaken n c := by
  have hl' : fnLive (egressTaken n c) o.fn o.tenant = false := hl
  simp only [egressRecord, h, hp, hl', Bool.not_false, Bool.false_eq_true, if_false, if_true]

end

theorem egressInvalid_unnamed {j : Nat} (h : nextEgress c n = some (.lost j none)) : egressInvalid slot n j c = refuseRecord (egressTaken n c) := by
  simp only [egressInvalid, h, ne_eq, not_true_eq_false, if_false]

theorem egressInvalid_named {j och : Nat} (h : nextEgress c n = some (.lost j (some och))) (hp : c.plan.loaded = some p)
    (ho : planOch p och = some o) : egressInvalid slot n j c = emitInvalid slot o (egressTaken n c) := by
  have hp' : (egressTaken n c).plan.loaded = some p := hp
  simp only [egressInvalid, h, hp', ho, ne_eq, not_true_eq_false, if_false]

theorem judgeHeader_tooLong {ch : Channel} {named : Option Nat} {w : EdgeWord}
    (h : ∀ o, planOch p (fld w.data.toNat 9 0) = some o → o.maxlen < fld w.data.toNat 31 16) : (judgeHeader p ch named w).2 = [.refused] := by
  unfold judgeHeader
  dsimp only
  split
  · rename_i o ho
    rw [if_neg]
    simp [Nat.not_le.2 (h o ho)]
  · rfl

section
variable {pos : Nat} (hp : c.plan.loaded = some p) (ha : c.plan.armed = some pos) (hw : workPaused c = true)
include hp ha hw

theorem egressPause_entry {x : EgressEntry} {ch : Channel} {e i : Nat} (hx : (planEgress p)[i]? = some x) (hpos : x.pos = pos)
    (ho : bitOf c.plan.active x.ovl = true) (hch : planOch p x.och = some o) (hc : egressChannel p x = some ch)
    (hon : channelActive c.plan.active pos ch = true) : egressPause slot false e i c = emitInvalid slot o c := by
  simp only [egressPause, hp, ha, hw, hx, hpos, ho, hch, hc, hon, Bool.false_eq_true, if_false, beq_self_eq_true, Bool.and_self, if_true]

theorem egressPause_job {jb : CJob} {e i : Nat} (hx : (planCJobs p e)[i]? = some jb) (hpos : jb.pos = pos)
    (ho : entryActive c.plan.active jb.ovl jb.disp = true) (hd : jb.dec ≠ 0) (hch : planOch p jb.och = some o) :
    egressPause slot true e i c = emitInvalid slot o c := by
  have hd' : (jb.dec != 0) = true := bne_iff_ne.2 hd
  simp only [egressPause, hp, ha, hw, hx, hpos, ho, hch, hd', beq_self_eq_true, Bool.and_self, if_true]

end

end

end Sys2Proof.Machine

namespace Sys2Proof.Proofs
open Sys2Proof Sys2Proof.Machine

/-- Settles O32. A packet of an encoder changes its stream's numbers alone, so the coding reads off the state that the slice leaves. -/
theorem sendingEvents : Obligations.SendingEvents := by
  refine ⟨?_, ?_⟩
  · intro s st hst
    dsimp only
    refine ⟨fun w u p hw he hu hp ho => ⟨fun hh hq => ?_, fun h => ?_⟩, fun t w p rest d hw hq => ⟨fun ht => ?_, fun ht => ?_⟩, fun h => ?_⟩
    · obtain ⟨e, hqueue, hidr, hr⟩ := passPicture_passed hw hu hp he ho (by simp [hh, hq])
      refine gives_onChip (f := passPicture st) (onUnit_of_lt hst _ s) ?_
      rw [hr, onto, settle_video, streamAt_of_video (settle_video _), streamAt_set, streamAt_setStream]
      refine ⟨⟨_, hqueue, rfl, rfl, rfl, rfl, rfl, rfl, rfl⟩, ?_, cellsGet_set_same ..⟩
      rw [hidr, any_eq_not_isEmpty_filter_map]
    · refine gives_onChip (f := passPicture st) (onUnit_of_lt hst _ s) ?_
      rw [passPicture_dropped hw hu hp he ho (by simpa [or_comm] using h), onto, objGet_settle, streamAt_of_video (settle_video _)]
      exact ⟨(congrArg StreamSt.enc streamAt_slotPassed).trans (putSlotUse_enc ..), by rw [objGet_bump_same, objGet_bump_same]; rfl⟩
    · exact answers_onChip (f := fun c => sendCoded st t d (atTime t c)) (onUnit_of_lt hst _ s) (sendCoded_refused (c := atTime t s.chip) hw hq ht)
    · obtain ⟨e, hqueue, hout, hi, hr⟩ := sendCoded_takes (c := atTime t s.chip) hw hq ht
      refine gives_onChip (f := fun c => sendCoded st t d (atTime t c)) (onUnit_of_lt hst _ s) ?_
      obtain ⟨hqueue', hout', hi', hg⟩ := codedSent_leaves (st := st) (p := p) (d := d) w.ecore (lastSlice (atTime t s.chip) st p)
        (objGet (atTime t s.chip) 0x2303 0x0C st == 1) ((streamAt (atTime t s.chip) st).enc.outbox ++ d.packets) e (atTime t s.chip)
      rw [hr, onto, objGet_settle, streamAt_of_video (settle_video _)]
      exact ⟨hqueue'.trans hqueue, hi'.trans (by rw [hi]; rfl), hout'.trans hout, hg⟩
    · refine gives_onChip (f := endClip st) (onUnit_of_lt hst _ s) ?_
      rw [onto, objGet_settle, streamAt_of_video (settle_video _)]
      exact endClip_ends h
  · intro s n
    dsimp only
    refine ⟨fun h => ?_, fun o ws b bad h hp => ⟨fun hl hf => ?_, fun hl hf => ?_, fun hl => ?_⟩, fun j named h => ⟨fun hn => ?_, fun och p o hn hp ho => ?_⟩,
      fun o b bad f ts d => emitResult_nums o b bad f ts d, fun p ch named w h => judgeHeader_tooLong h, fun p pos x o hp ha hw => ⟨?_, ?_⟩⟩
    · exact answers_onChip (f := fun c => egressRecord n c (servingOchs c)) rfl (egressRecord_refused _ h)
    · exact answers_onChip (f := fun c => egressRecord n c (servingOchs c)) rfl (egressRecord_emits h hp hl hf)
    · exact answers_onChip (f := fun c => egressRecord n c (servingOchs c)) rfl (egressRecord_second h hp hl hf)
    · exact answers_onChip (f := fun c => egressRecord n c (servingOchs c)) rfl (egressRecord_stopped h hp hl)
    · subst hn
      exact answers_onChip (f := egressInvalid silentRecord n j) rfl (egressInvalid_unnamed h)
    · subst hn
      exact answers_onChip (f := egressInvalid silentRecord n j) rfl (egressInvalid_named h hp ho)
    · intro i e ch he hx hpos hb hch hc hon
      exact answers_onChip (f := egressPause silentRecord false e i) (onUnit_of_lt he _ s) (egressPause_entry hp ha hw hx hpos hb hch hc hon)
    · intro i e jb he hx hpos hb hd hch
      exact answers_onChip (f := egressPause silentRecord true e i) (onUnit_of_lt he _ s) (egressPause_job hp ha hw hx hpos hb hd hch)

end Sys2Proof.Proofs
/-! SUPPORT. Requests of the serving unit (R227-R250). -/

namespace Sys2Proof.Machine

/-! Requests in assembly. -/

/-- The request in assembly of an identifier. -/
def asmIs (t i : Nat) (q : LmReq) : Bool := q.tenant == t && q.id == i && q.st = .assembling

theorem findAsm_eq (c : Chip) (t i : Nat) : findAsm c t i = c.serv.reqs.find? (asmIs t i) := rfl

theorem findAsm_none {c : Chip} {t i : Nat} (h : ∀ q ∈ c.serv.reqs, asmIs t i q = false) : findAsm c t i = none := by
  rw [findAsm_eq, List.find?_eq_none]
  intro q hq
  rw [h q hq]
  exact Bool.false_ne_true

theorem mem_dropAsm {c : Chip} {t i : Nat} {q : LmReq} (h : q ∈ (dropAsm t i c).serv.reqs) : asmIs t i q = false :=
  Eq.mp (Bool.not_eq_true' _) (List.mem_filter.1 h).2

theorem mem_addReq {c : Chip} {q x : LmReq} (h : x ∈ (addReq q c).serv.reqs) : x ∈ c.serv.reqs ∨ x = q := by
  have hput : ∀ y ∈ c.serv.reqs.filter (fun r => !reqIs q.tenant q.id r) ++ [q], y ∈ c.serv.reqs ∨ y = q := by
    intro y hy
    rcases List.mem_append.1 hy with hy | hy
    · exact .inl (List.mem_filter.1 hy).1
    · exact .inr (List.mem_singleton.1 hy)
  unfold addReq at h
  dsimp only [setServ] at h
  split at h
  · split at h
    · exact hput _ (List.mem_of_mem_erase h)
    · exact hput _ h
  · exact hput _ h

/-- The request that takes the place of the one in assembly. -/
theorem findAsm_replaced {c : Chip} {t i : Nat} {q : LmReq} (h : asmIs t i q = true) :
    findAsm (setServ { (dropAsm t i c).serv with reqs := (dropAsm t i c).serv.reqs ++ [q] } (dropAsm t i c)) t i = some q := by
  rw [findAsm_eq]
  change ((dropAsm t i c).serv.reqs ++ [q]).find? _ = _
  rw [List.find?_append, List.find?_eq_none.2 (fun x hx => by rw [mem_dropAsm hx]; exact Bool.false_ne_true), Option.none_or]
  simp [h]

/-- R228: a part that arrived before leaves its request as it stands. -/
theorem submitPart_again {t : Nat} {b d : List Byte} {e : Chip} {q : LmReq} (hf : findAsm e (numAt b 4 2) (numAt b 8 4) = some q)
    (hl : q.got.length < q.parts) (ha : q.got.any (fun g => g.1 == numAt b 0x16 2 / 256) = true) :
    findAsm (submitPart t b d e) (numAt b 4 2) (numAt b 8 4) = some q := by
  have hs : submitPart t b d e = setServ { (dropAsm (numAt b 4 2) (numAt b 8 4) e).serv with
      reqs := (dropAsm (numAt b 4 2) (numAt b 8 4) e).serv.reqs ++ [q] } (dropAsm (numAt b 4 2) (numAt b 8 4) e) := by
    simp only [submitPart, hf, ha, if_true, Bool.not_true, Bool.false_and, Bool.or_false, Nat.not_le.2 hl, if_false]
  rw [hs]
  exact findAsm_replaced (List.find?_some hf)

/-! A complete request (R229). -/

/-- A request with its parts in order. -/
def reqSorted (q : LmReq) : LmReq := { q with got := q.got.insertionSort (fun a b => a.1 ≤ b.1) }

section
variable {q : LmReq} {d : Chip}

theorem completeRequest_duplicate (h : submitCheck (objBump 0x2400 0x02 0 1 (dropAsm q.tenant q.id d)) (reqSorted q) = none) :
    completeRequest q d = objBump 0x2400 0x06 0 1 (objBump 0x2400 0x02 0 1 (dropAsm q.tenant q.id d)) := by
  unfold reqSorted at h
  simp only [completeRequest, h]

theorem completeRequest_accepted (h : submitCheck (objBump 0x2400 0x02 0 1 (dropAsm q.tenant q.id d)) (reqSorted q) = some stOk) :
    completeRequest q d = addReq { reqSorted q with st := .waiting } (objBump 0x2400 0x02 0 1 (dropAsm q.tenant q.id d)) := by
  unfold reqSorted at h
  simp only [completeRequest, h, if_true, reqSorted]

theorem completeRequest_refused {st : Nat} (h : submitCheck (objBump 0x2400 0x02 0 1 (dropAsm q.tenant q.id d)) (reqSorted q) = some st)
    (hst : st ≠ stOk) : (completeRequest q d).serv = { d.serv with
      reqs := (dropAsm q.tenant q.id d).serv.reqs, refusals := d.serv.refusals ++ [(reqSorted q, st)] } := by
  unfold reqSorted at h
  simp only [completeRequest, h, hst, if_false, reqSorted]
  rfl

end

/-! Cancels, releases and time-outs (R235, R242, R250). -/

/-- R18: a reserved field or the length of a cancel or release datagram is wrong. -/
theorem opBad_eq (b d : List Byte) :
    (decide (numAt b 0 1 ≠ 1) || decide (fld (numAt b 1 1) 6 1 ≠ 0) || decide (8 ≤ numAt b 3 1) || decide (numAt b 0x16 2 ≠ 0)
      || decide (numAt b 0x44 4 ≠ 0) || !d.isEmpty) =
    decide (numAt b 0 1 ≠ 1 ∨ fld (numAt b 1 1) 6 1 ≠ 0 ∨ 8 ≤ numAt b 3 1 ∨ numAt b 0x16 2 ≠ 0 ∨ numAt b 0x44 4 ≠ 0 ∨ d ≠ []) := by
  have hd : (!d.isEmpty) = decide (d ≠ []) := by cases d <;> simp
  rw [hd]
  simp only [Bool.decide_or, Bool.or_assoc]

theorem requestOp_cancel {c c1 : Chip} {c2 : Chip} {t : Nat} {b d : List Byte} (h : takeRequest (· == 2) c = (some ((t, b, d), c1), c2)) :
    (requestOp 2 c).serv.cancels = c1.serv.cancels ++
      [{ tenant := numAt b 4 2, key := numAt b 8 4, fn := numAt b 6 2, conv := numAt b 0xC 4, datagram := true, tick := c1.tk.tick
         bad := decide (numAt b 0 1 ≠ 1 ∨ fld (numAt b 1 1) 6 1 ≠ 0 ∨ 8 ≤ numAt b 3 1 ∨ numAt b 0x16 2 ≠ 0 ∨ numAt b 0x44 4 ≠ 0 ∨ d ≠ []) }] := by
  simp only [requestOp, h, if_true, opBad_eq]
  rfl

theorem requestOp_release {c c1 : Chip} {c2 : Chip} {t : Nat} {b d : List Byte} (h : takeRequest (· == 3) c = (some ((t, b, d), c1), c2)) :
    (requestOp 3 c).serv.releases = c1.serv.releases ++
      [{ tenant := numAt b 4 2, key := numAt b 0xC 4, fn := numAt b 6 2, conv := numAt b 0xC 4, datagram := true, tick := c1.tk.tick
         bad := decide (numAt b 0 1 ≠ 1 ∨ fld (numAt b 1 1) 6 1 ≠ 0 ∨ 8 ≤ numAt b 3 1 ∨ numAt b 0x16 2 ≠ 0 ∨ numAt b 0x44 4 ≠ 0 ∨ d ≠ []) }] := by
  simp only [requestOp, h, opBad_eq]
  rfl

theorem assemblyTimeout_due {c : Chip} {tenant id t : Nat} {q : LmReq} (hf : findAsm c tenant id = some q) (ht : q.first + 1000000000 ≤ t) :
    findAsm (assemblyTimeout tenant id t c) tenant id = none ∧
    objGet (assemblyTimeout tenant id t c) 0x2400 0x05 0 = objGet (objBump 0x2400 0x05 0 1 c) 0x2400 0x05 0 := by
  have hdrop : ∀ x ∈ (objBump 0x2400 0x05 0 1 (dropAsm tenant id c)).serv.reqs, asmIs tenant id x = false := fun x hx => mem_dropAsm hx
  have hadd : ∀ x ∈ (addReq { q with st := .dropped } (objBump 0x2400 0x05 0 1 (dropAsm tenant id c))).serv.reqs, asmIs tenant id x = false := by
    intro x hx
    rcases mem_addReq hx with hx | rfl
    · exact hdrop x hx
    · simp [asmIs]
  simp only [assemblyTimeout, hf, Nat.not_lt.2 ht, if_false]
  split
  · split
    · exact ⟨findAsm_none hdrop, rfl⟩
    · exact ⟨findAsm_none hadd, rfl⟩
  · exact ⟨findAsm_none hadd, rfl⟩

theorem waitTimeout_due {c : Chip} {tenant id : Nat} {q : LmReq} {p : Plan} (hf : findReq c tenant id = some q) (hp : c.plan.loaded = some p)
    (hq : q.st = .waiting) (ht : q.taken = true) (h0 : 0 < ((planRSlots p).filter (fun s => slotFn p s == q.fn)).foldl (fun m s => max m s.maxWait) 0)
    (hw : ((planRSlots p).filter (fun s => slotFn p s == q.fn)).foldl (fun m s => max m s.maxWait) 0 ≤ q.waited) (hs : served c = true) :
    waitTimeout tenant id c = refuseReq q stTimeout c := by
  simp only [waitTimeout, hf, hp, hs, hq, ht, decide_eq_true h0, decide_eq_true hw, decide_true, Bool.and_self, if_true]

end Sys2Proof.Machine

namespace Sys2Proof.Proofs
open Sys2Proof Sys2Proof.Machine

/-- Settles O33. A request leaves assembly by its identifier, so what is found there afterwards is what was put there last. -/
theorem servingRequests : Obligations.ServingRequests := by
  intro s
  dsimp only
  refine ⟨fun t b d c1 c2 h => ?_, fun t b d e q hf hl ha => ⟨q, submitPart_again hf hl ha, rfl, rfl⟩,
    fun q d => ⟨completeRequest_duplicate, completeRequest_accepted, fun st h hst => ?_⟩, fun t b d c1 c2 h => ?_, fun t b d c1 c2 h => ?_,
    fun tenant id t q hf ht => ?_, fun tenant id q p hf hp hq ht h0 hw hs => ?_⟩
  · exact answers_onChip (f := requestSubmit) rfl (by simp only [requestSubmit, h])
  · have hserv := completeRequest_refused (q := q) (d := d) h hst
    exact ⟨by rw [hserv]; rfl, by rw [hserv]⟩
  · refine gives_onChip (f := requestOp 2) rfl ?_
    rw [onto, settle_serv]
    exact requestOp_cancel h
  · refine gives_onChip (f := requestOp 3) rfl ?_
    rw [onto, settle_serv]
    exact requestOp_release h
  · have h := assemblyTimeout_due (c := atTime t s.chip) hf ht
    refine gives_onChip (f := fun c => assemblyTimeout tenant id t (atTime t c)) rfl ?_
    rw [onto, objGet_settle, findAsm_eq, settle_serv]
    exact h
  · exact answers_onChip (f := waitTimeout tenant id) rfl (waitTimeout_due hf hp hq ht h0 hw hs)

end Sys2Proof.Proofs

/-! SUPPORT. Slots of the serving unit and their token records (R231, R237-R248). -/

namespace Sys2Proof.Machine

@[simp] theorem servSlot_setServSlot (n : Nat) (v : ServSlot) (c : Chip) : servSlot (setServSlot n v c) n = v := by
  simp [servSlot, setServSlot, setServ]

theorem servSlot_of_serv {c c' : Chip} (h : c'.serv = c.serv) (n : Nat) : servSlot c' n = servSlot c n := by rw [servSlot, h, servSlot]

/-! What a slot sends (R238, R247). -/

section
variable {c : Chip} {n : Nat} {sl : RSlot} (hs : servedSlot c n = some sl)
include hs

theorem controlBlock_idle {ch : Channel} (hc : slotChan c sl sl.ctl = some ch) (hq : slotReq c n = none) :
    controlBlock n c = channelWords ch (plainWords [0, 0]) c := by
  simp only [controlBlock, hs, hc, hq]

theorem controlBlock_generating {ch : Channel} {q : LmReq} (hc : slotChan c sl sl.ctl = some ch) (hq : slotReq c n = some q)
    (ht : q.prefill ≤ q.ticks) : controlBlock n c = channelWords ch
      (plainWords [BitVec.ofNat 256 (controlWord q ((servSlot c n).cap.getD sl.treeN)), BitVec.ofNat 256 (natLE q.params)]) c := by
  simp only [controlBlock, hs, hc, hq, ht, if_true]

theorem maskBlock_sends {ch : Channel} {tr : TreeStep} (hc : slotChan c sl sl.mask = some ch) (ht : (servSlot c n).tree = some tr) :
    maskBlock n c = channelWords ch (plainWords (maskWords tr sl.treeD)) c := by
  simp only [maskBlock, hs, ht, hc]

end

theorem maskWords_length (t : TreeStep) (d : Nat) : (maskWords t d).length = 19 := by
  simp [maskWords]

/-! What a slot takes (R244, R246, R248). -/

theorem treeDepths_length (d : Nat) (acc ps : List Nat) : (treeDepths d acc ps).length ≤ ps.length := by
  induction ps generalizing acc with
  | nil => exact Nat.le_refl _
  | cons p ps ih =>
    unfold treeDepths
    dsimp only
    exact iteInduction (motive := fun l : List Nat => l.length ≤ ps.length + 1) (fun _ => Nat.succ_le_succ (ih _)) (fun _ => Nat.zero_le _)

/-- The tree that the nodes of a tree block make (R246). -/
def treeOf (sl : RSlot) (q : LmReq) (raw : Nat) : TreeStep :=
  let byte (i : Nat) : Nat := fld raw (8 * i + 7) (8 * i)
  let parents := (List.range (min (min (byte 0) sl.treeN) ((reqLen q / slotSeg sl + 1) * slotSeg sl - reqLen q))).map (fun i => byte (i + 1))
  { l := reqLen q, nEff := (treeDepths sl.treeD [] parents).length, parents := parents.take (treeDepths sl.treeD [] parents).length }

theorem treeOf_bounds (sl : RSlot) (q : LmReq) (raw : Nat) : (treeOf sl q raw).nEff ≤ sl.treeN ∧
    (treeOf sl q raw).parents.length = (treeOf sl q raw).nEff := by
  unfold treeOf
  dsimp only
  generalize hl : min (min (fld raw (8 * 0 + 7) (8 * 0)) sl.treeN) ((reqLen q / slotSeg sl + 1) * slotSeg sl - reqLen q) = lim
  have hd := treeDepths_length sl.treeD [] ((List.range lim).map (fun i => fld raw (8 * (i + 1) + 7) (8 * (i + 1))))
  rw [List.length_map, List.length_range] at hd
  have hlim : lim ≤ sl.treeN := hl ▸ (Nat.min_le_left _ _).trans (Nat.min_le_right _ _)
  refine ⟨hd.trans hlim, ?_⟩
  rw [List.length_take, List.length_map, List.length_range]
  exact Nat.min_eq_left hd

theorem treeBlock_takes {c : Chip} {n : Nat} {sl : RSlot} {q : LmReq} {ch : Channel} (hs : servedSlot c n = some sl)
    (hc : slotChan c sl sl.tree = some ch) (hq : slotReq c n = some q) (hn : sl.treeN ≠ 0) (ht : q.prefill ≤ q.ticks)
    (h0 : (servSlot c n).tree = none) (hl : 3 ≤ ((arrivedWords c ch).filter (fun w => w.1 == 0)).length) :
    ∃ raw, (servSlot (treeBlock n c) n).tree = some (treeOf sl q raw) := by
  simp only [treeBlock, hs, hq, hc]
  rw [if_neg (by simp [hn, h0]; omega)]
  have hcount : ∀ (p : Prop) [Decidable p] (d : Chip), servSlot (if p then tracePoint 68 0 n (objBump 0x2426 0x05 n 1 d) else d) n = servSlot d n := by
    intro p _ d
    split
    · exact servSlot_of_serv ((tracePoint_serv ..).trans (objBump_serv ..)) n
    · rfl
  exact ⟨_, (congrArg ServSlot.tree ((hcount _ _).trans (servSlot_setServSlot ..))).trans rfl⟩

theorem pathPrefix_length (t : TreeStep) (prev : Nat) (l : List Nat) : (pathPrefix t prev l).length ≤ l.length := by
  induction l generalizing prev with
  | nil => exact Nat.le_refl _
  | cons a as ih =>
    simp only [pathPrefix]
    split
    · exact Nat.succ_le_succ (ih _)
    · exact Nat.zero_le _

theorem mem_pathPrefix {t : TreeStep} {prev a : Nat} {l : List Nat} (h : a ∈ pathPrefix t prev l) : a < t.nEff := by
  induction l generalizing prev with
  | nil => simp [pathPrefix] at h
  | cons b as ih =>
    simp only [pathPrefix] at h
    split at h
    · rename_i hb
      rcases List.mem_cons.1 h with rfl | h
      · simp at hb
        exact hb.1
      · exact ih h
    · simp at h

/-- The nodes after node 0 of the path that an accepted-path word names (R248). -/
def acceptedNodes (tr : TreeStep) (w : EdgeWord) : List Nat :=
  if w.poison || w.invalid then []
  else match (List.range (min (fld w.data.toNat 7 0) 31)).map (fun i => fld w.data.toNat (8 * i + 15) (8 * i + 8)) with
    | 0 :: rest => pathPrefix tr 0 rest
    | _ => []

theorem acceptedNodes_bounds (tr : TreeStep) (w : EdgeWord) : (acceptedNodes tr w).length ≤ 30 ∧
    (w.poison = true ∨ w.invalid = true → acceptedNodes tr w = []) ∧ ∀ a ∈ acceptedNodes tr w, a < tr.nEff := by
  unfold acceptedNodes
  split
  · exact ⟨Nat.zero_le _, fun _ => rfl, fun a h => absurd h (List.not_mem_nil)⟩
  · rename_i hbad
    have hno : ¬ (w.poison = true ∨ w.invalid = true) := by simpa using hbad
    split
    · rename_i rest hr
      have hlen := congrArg List.length hr
      rw [List.length_map, List.length_range, List.length_cons] at hlen
      exact ⟨(pathPrefix_length ..).trans (by omega), fun h => absurd h hno, fun a h => mem_pathPrefix h⟩
    · exact ⟨Nat.zero_le _, fun _ => rfl, fun a h => absurd h (List.not_mem_nil)⟩

theorem acceptedPath_takes {c : Chip} {n j i : Nat} {sl : RSlot} {ch : Channel} {tr : TreeStep} {w : EdgeWord} {rest : List (Nat × Nat × EdgeWord)}
    (hs : servedSlot c n = some sl) (hc : slotChan c sl sl.accept = some ch) (ht : (servSlot c n).tree = some tr) (hp : tr.path = none)
    (ha : arrivedWords c ch = (j, i, w) :: rest) :
    (servSlot (acceptedPath n c) n).tree = some { tr with path := some (0 :: acceptedNodes tr w) } := by
  simp only [acceptedPath, hs, ht, hc, ha, hp, Option.isSome_none, Bool.false_eq_true, if_false, servSlot_setServSlot]
  refine congrArg (fun x => some { tr with path := some x }) ?_
  unfold acceptedNodes
  split
  · rfl
  · rcases (List.range (min (fld w.data.toNat 7 0) 31)).map (fun i => fld w.data.toNat (8 * i + 15) (8 * i + 8)) with _ | ⟨_ | a, rest⟩ <;> rfl

theorem summaryOut_takes {c : Chip} {n : Nat} {sl : RSlot} {q : LmReq} {ch : Channel} (hs : servedSlot c n = some sl)
    (hc : slotChan c sl sl.sumOut = some ch) (hq : slotReq c n = some q) (hk : sl.sumKib ≠ 0) (ht : q.prefill ≤ q.ticks)
    (hl : 32 * sl.sumKib ≤ (arrivedWords c ch).length) : (servSlot (summaryOut n c) n).summary =
      (((arrivedWords c ch).map (·.2.2)).take (32 * sl.sumKib)).flatMap (fun w => bytesLE 32 w.data.toNat) := by
  simp only [summaryOut, hs, hq, hc]
  rw [if_neg (by simp [hk]; omega), servSlot_setServSlot]

/-! The tokens of a record (R237). -/

theorem cutTokens_bounds (q : LmReq) (e : Nat) (l : List Nat) (h : e < q.g) : e + (cutTokens q e l).1.length ≤ q.g ∧
    ∀ t ∈ (cutTokens q e l).1.dropLast, t ∉ q.stop := by
  induction l generalizing e with
  | nil => exact ⟨h.le, fun t ht => absurd ht (List.not_mem_nil)⟩
  | cons t ts ih =>
    simp only [cutTokens]
    split
    · exact ⟨h, fun t ht => absurd ht (List.not_mem_nil)⟩
    · rename_i hstop
      split
      · exact ⟨h, fun t ht => absurd ht (List.not_mem_nil)⟩
      · rename_i hg
        obtain ⟨hlen, hmem⟩ := ih (e + 1) (by omega)
        refine ⟨by rw [List.length_cons]; omega, fun x hx => ?_⟩
        rcases hr : (cutTokens q (e + 1) ts).1 with _ | ⟨y, ys⟩
        · rw [hr] at hx
          exact absurd hx List.not_mem_nil
        · rw [hr] at hx hmem
          rcases List.mem_cons.1 hx with rfl | hx
          · simpa using hstop
          · exact hmem x hx

/-! A token record (R231, R237). -/

section
variable {c : Chip} {n : Nat} {o : OchEntry} {ws : List EdgeWord} {d : List Byte} {bad : Bool} {sl : RSlot} {q : LmReq}

/-- The tokens that a record commits to its request. -/
def recordTokens (q : LmReq) (d : List Byte) : List Nat × Nat := cutTokens q q.emitted (tokensOf ((d.drop 4).take (4 * numAt d 0 4)))

/-- The request with the record's tokens. -/
def reqCommitted (q : LmReq) (d : List Byte) : LmReq :=
  { q with emitted := q.emitted + (recordTokens q d).1.length, over_ := decide ((recordTokens q d).2 ≠ 0) }

/-- The request with the tokens that a record lost: what its count says, or what the tick gives where the count is not to be read. -/
def reqCounted (q : LmReq) (sl : RSlot) (ws : List EdgeWord) (d : List Byte) (c : Chip) : Chip :=
  countSilent q (if (ws[1]?.map (fun w => w.poison || w.invalid)).getD true = true then silentTokens c sl else numAt d 0 4) c

variable (hn : nextEgress c n = some (.record o ws d bad)) (hs : ochSlot c o.och = some sl) (hq : slotReq c sl.slot = some q) (ho : q.over_ = false)
  (ht : q.prefill ≤ q.ticks)
include hn hs hq ho ht

theorem tokenRecord_second (hf : ochFree c o.och = false) : tokenRecord n c = refuseRecord (egressTaken n c) := by
  have hq' : slotReq (egressTaken n c) sl.slot = some q := hq
  have hf' : ochFree (egressTaken n c) o.och = false := hf
  simp only [tokenRecord, hn, hs, hq', ho, hf', Nat.not_lt.2 ht, decide_false, Bool.or_self, Bool.not_false, Bool.false_eq_true, if_false, if_true]

theorem tokenRecord_commits (hf : ochFree c o.och = true) (hb : bad = false) : tokenRecord n c =
    if q.st = .cancelled then setReq (reqCommitted q d) (egressTaken n c)
    else emitResult o (bytesLE 4 q.id ++ bytesLE 4 q.conv ++ bytesLE 4 q.emitted ++ bytesLE 2 (recordTokens q d).1.length
        ++ bytesLE 1 (recordTokens q d).2 ++ bytesLE 1 0 ++ (recordTokens q d).1.flatMap (bytesLE 4)) false
      (slotFlags (egressTaken n c) o).1 (slotFlags (egressTaken n c) o).2 (takeOch o.och (setReq (reqCommitted q d) (egressTaken n c))) := by
  have hq' : slotReq (egressTaken n c) sl.slot = some q := hq
  have hf' : ochFree (egressTaken n c) o.och = true := hf
  simp only [tokenRecord, hn, hs, hq', ho, hf', hb, Nat.not_lt.2 ht, decide_false, Bool.or_self, Bool.not_true, Bool.false_eq_true, if_false,
    reqCommitted, recordTokens] <;> rfl

theorem tokenRecord_counts (hf : ochFree c o.och = true) (hb : bad = true) : tokenRecord n c =
    if q.st = .cancelled then reqCounted q sl ws d (egressTaken n c)
    else emitResult o (List.replicate (d.length + 12) 0) true (slotFlags (egressTaken n c) o).1 (slotFlags (egressTaken n c) o).2
      (takeOch o.och (reqCounted q sl ws d (egressTaken n c))) := by
  have hq' : slotReq (egressTaken n c) sl.slot = some q := hq
  have hf' : ochFree (egressTaken n c) o.och = true := hf
  simp only [tokenRecord, hn, hs, hq', ho, hf', hb, Nat.not_lt.2 ht, decide_false, Bool.or_self, Bool.not_true, Bool.false_eq_true, if_false, if_true,
    reqCounted]
  cases ws[1]? <;> rfl

end

end Sys2Proof.Machine

namespace Sys2Proof.Proofs
open Sys2Proof Sys2Proof.Machine

/-- Settles O34. The bounds are those of the lists that the blocks are cut from. -/
theorem slotWork : Obligations.SlotWork := by
  intro s n sl hn hs
  dsimp only
  refine ⟨fun ch hc => ⟨fun hq => ?_, fun q hq ht => ?_⟩, fun ch q hc hq hk ht h0 hl => ?_, fun ch tr hc ht => ⟨?_, maskWords_length ..⟩,
    fun ch tr j i w rest hc ht hp ha => ?_, fun ch q hc hq hk ht hl => ?_, fun q e l h => cutTokens_bounds q e l h⟩
  · exact answers_onChip (f := controlBlock n) (onUnit_of_lt hn _ s) (controlBlock_idle hs hc hq)
  · exact answers_onChip (f := controlBlock n) (onUnit_of_lt hn _ s) (controlBlock_generating hs hc hq ht)
  · obtain ⟨raw, hraw⟩ := treeBlock_takes hs hc hq hk ht h0 hl
    refine gives_onChip (f := treeBlock n) (onUnit_of_lt hn _ s) ?_
    rw [onto, servSlot_of_serv (settle_serv _)]
    exact ⟨treeOf sl q raw, hraw, rfl, (treeOf_bounds sl q raw).1, (treeOf_bounds sl q raw).2, rfl⟩
  · exact answers_onChip (f := maskBlock n) (onUnit_of_lt hn _ s) (maskBlock_sends hs hc ht)
  · refine gives_onChip (f := acceptedPath n) (onUnit_of_lt hn _ s) ?_
    rw [onto, servSlot_of_serv (settle_serv _)]
    exact ⟨acceptedNodes tr w, acceptedPath_takes hs hc ht hp ha, acceptedNodes_bounds tr w⟩
  · refine gives_onChip (f := summaryOut n) (onUnit_of_lt hn _ s) ?_
    rw [onto, servSlot_of_serv (settle_serv _)]
    exact summaryOut_takes hs hc hq hk ht hl

/-- Settles O35, branch by branch of the record. -/
theorem tokenRecord : Obligations.TokenRecord := by
  intro s n o ws d bad sl q
  dsimp only
  intro hn hs hq ho ht
  refine ⟨fun hf => ?_, fun hf hb hc => ?_, fun hf hb hc => ?_, fun hf hb hc => ?_, fun hf hb hc => ?_⟩
  · exact answers_onChip (f := Machine.tokenRecord n) rfl (tokenRecord_second hn hs hq ho ht hf)
  · exact answers_onChip (f := Machine.tokenRecord n) rfl ((tokenRecord_commits hn hs hq ho ht hf hb).trans (if_pos hc))
  · exact answers_onChip (f := Machine.tokenRecord n) rfl ((tokenRecord_commits hn hs hq ho ht hf hb).trans (if_neg hc))
  · exact answers_onChip (f := Machine.tokenRecord n) rfl ((tokenRecord_counts hn hs hq ho ht hf hb).trans (if_pos hc))
  · exact answers_onChip (f := Machine.tokenRecord n) rfl ((tokenRecord_counts hn hs hq ho ht hf hb).trans (if_neg hc))

end Sys2Proof.Proofs

/-! SUPPORT. Conversations, summaries and the intake engine (R241-R245, R274-R278, R332). -/

namespace Sys2Proof.Machine

/-! Conversations and summaries. -/

section
variable {c : Chip} {t i : Nat}

theorem hotHoldExpiry_due {v : Conv} {p : Plan} {k : Nat} (hf : findConv c t i = some v) (hp : c.plan.loaded = some p) (hi : v.idle = some k)
    (hl : v.leaving = false) (hs : served c = true) (hd : k + ((v.home.bind (fun h => planPool p h.1)).map Pool.hotHold).getD 0 ≤ c.tk.tick) :
    hotHoldExpiry t i c = setConv { v with leaving := true } c := by
  simp only [hotHoldExpiry, hf, hp, hi, hs, hl, Bool.true_and, Bool.not_false, Bool.and_true]
  refine if_pos (decide_eq_true ?_)
  cases hpool : v.home.bind (fun h => planPool p h.1) <;> simpa [hpool] using hd

theorem forgetConv_forgets {v : Conv} {h : Nat × Nat × Nat} (hf : findConv c t i = some v) (hh : v.home = some h) :
    findConv (forgetConv t i true c) t i = none ∧
    objGet (forgetConv t i true c) 0x2431 0x04 h.1 = objGet (objBump 0x2431 0x04 h.1 1 c) 0x2431 0x04 h.1 := by
  simp only [forgetConv, hf, hh]
  refine ⟨List.find?_eq_none.2 fun w hw => ?_, rfl⟩
  simpa [or_iff_not_imp_left] using (List.mem_filter.1 hw).2

theorem convExpiry_due {v : Conv} {k : Nat} {h : Nat × Nat × Nat} (hf : findConv c t i = some v) (hi : v.idle = some k) (hh : v.home = some h)
    (hs : served c = true) (hd : k + ttlTicks c (objGet c 0x2431 0x03 h.1) ≤ c.tk.tick) : convExpiry t i c = forgetConv t i true c := by
  simp only [convExpiry, hf, hi, hh, hs, hd, decide_true, Bool.and_self, if_true]

theorem summaryExpiry_due {v : Summary} (hf : findSummary c t i = some v) (hs : served c = true)
    (hd : v.since + ttlTicks c (objGet c 0x2435 0x01 0) ≤ c.tk.tick) : findSummary (summaryExpiry t i c) t i = none := by
  simp only [summaryExpiry, hf, hs, hd, decide_true, Bool.and_self, if_true]
  refine List.find?_eq_none.2 fun w hw => ?_
  simpa [or_iff_not_imp_left] using (List.mem_filter.1 hw).2

theorem setKey_serv (kind scope gen : Nat) (k : Option KeyPos) (c : Chip) : (setKey kind scope gen k c).serv = c.serv := by
  dsimp only [setKey, showKey]
  split <;> rfl

theorem sealSummary_serv {pt b : List Byte} {c' : Chip} (h : sealSummary t i pt c = some (b, c')) : c'.serv = c.serv := by
  unfold sealSummary at h
  split at h
  · cases h
  · cases h
    exact setKey_serv ..

/-- R332: a re-seal keeps every summary. -/
theorem resealTenant_seals (h : objGet c 0x2201 0x08 t = 1) : objGet (resealTenant t c) 0x2201 0x08 t = 2 ∧
    (resealTenant t c).serv.sums.length = c.serv.sums.length := by
  simp only [resealTenant, h, ne_eq, not_true_eq_false, if_false]
  refine ⟨objGet_set_same .., ?_⟩
  refine foldl_keeps (fun c : Chip => c.serv.sums.length) (fun c v => ?_) _ c
  split
  · rfl
  · split
    · rfl
    · rename_i hs
      rw [← sealSummary_serv hs]
      exact List.length_map ..

end

/-! The intake engine. -/

@[simp] theorem handleAt_setHandle (h : Nat) (v : Handle) (c : Chip) : handleAt (setHandle h v c) h = some v := by
  simp [handleAt, setHandle]

theorem handleAt_of_intake {c c' : Chip} (hi : c'.intake = c.intake) (h : Nat) : handleAt c' h = handleAt c h := by rw [handleAt, hi, handleAt]

/-- The units that an intake datagram brings anew (R274). -/
def freshUnits (hd : Handle) (off len : Nat) : List Nat :=
  ((List.range (cdiv len 1024)).map (fun i => off / 1024 + i)).filter (fun u => !hd.units.contains u)

section
variable {c d : Chip} {f : RxFrame}

theorem intakeDatagram_unknown (hx : takeRx (fun f => f.cls = .intake) c = some (f, d)) (hh : handleAt d (numAt f.payload 4 4) = none) :
    intakeDatagram c = intakeDrop d := by
  simp only [intakeDatagram, hx, hh]

theorem intakeDatagram_buffers {hd : Handle} {b : List Byte} {off len h : Nat} (hx : takeRx (fun f => f.cls = .intake) c = some (f, d))
    (hb : f.payload = b) (hlen : numAt b 2 2 = len) (hoff : numAt b 8 8 = off) (hn : numAt b 4 4 = h) (hh : handleAt d h = some hd)
    (ho : hd.st = .opened) (h1 : b.length = 32 + len)
    (h2 : numAt b 0x10 4 = crc32c (b.take 0x10 ++ bytesLE 4 0 ++ (b.drop 0x14).take (12 + len))) (h3 : numAt b 0 1 = 1) (h4 : numAt b 1 1 = 0)
    (h5 : numAt b 0x14 12 = 0) (h6 : 0 < len) (h7 : len ≤ 8192) (h8 : len % 1024 = 0 ∨ off + len = hd.size) (h9 : off % 1024 = 0)
    (h10 : off + len ≤ hd.size) (hf : freshUnits hd off len ≠ [])
    (hs : (d.intake.buffer.map (fun u => u.2.2.length)).sum + ((freshUnits hd off len).map (unitLen hd)).sum ≤ 16 * 2 ^ 20) :
    (intakeDatagram c).intake.buffer = d.intake.buffer ++ (freshUnits hd off len).map (fun u => (h, u, bytesAt b (32 + 1024 * u - off) (unitLen hd u))) ∧
    handleAt (intakeDatagram c) h = some { hd with units := hd.units ++ freshUnits hd off len, lastRecv := max d.tk.now f.t } := by
  have he : intakeDatagram c = { setHandle h { hd with units := hd.units ++ freshUnits hd off len, lastRecv := max d.tk.now f.t } d with
      intake := { (setHandle h { hd with units := hd.units ++ freshUnits hd off len, lastRecv := max d.tk.now f.t } d).intake with
        buffer := d.intake.buffer ++ (freshUnits hd off len).map (fun u => (h, u, bytesAt b (32 + 1024 * u - off) (unitLen hd u))) } } := by
    simp only [intakeDatagram, hx, hb, hlen, hoff, hn, hh, ← freshUnits.eq_1]
    rw [if_neg, if_neg]
    · rfl
    · rw [List.isEmpty_eq_false_iff.2 hf, decide_eq_false (Nat.not_lt.2 hs)]
      exact Bool.false_ne_true
    · rw [← h2]
      simp [ho, h1, h3, h4, h5, h9]
      omega
  rw [he]
  exact ⟨rfl, handleAt_setHandle ..⟩

end

/-- R276: the buffered unit i, which a free pseudo-channel takes to its staging lines. -/
theorem intakeDrain_stages {c : Chip} {pc i : Nat} {x : Nat × Nat × List Byte} {hd : Handle}
    (hf : (bitOf (vpcMask c) pc || c.tk.phase ≠ .work || c.tk.mode = .idle || c.tk.mode = .loaded) = true)
    (hi : c.intake.buffer.findIdx? (fun x => (handleAt c x.1).any (fun h => areaLine h.area (16 * x.2.1) / 256 % 32 == pc)) = some i)
    (hx : c.intake.buffer[i]? = some x) (hh : handleAt c x.1 = some hd) :
    intakeDrain pc c = stageUnit hd x.2.1 x.2.2 { c with intake := { c.intake with buffer := c.intake.buffer.eraseIdx i } } := by
  have hh' : handleAt { c with intake := { c.intake with buffer := c.intake.buffer.eraseIdx i } } x.1 = some hd := hh
  simp only [intakeDrain, hi, hf, hx, hh', Bool.not_true, Bool.false_eq_true, if_false]

theorem intakeDrain_none {c : Chip} {pc : Nat}
    (h : c.intake.buffer.findIdx? (fun x => (handleAt c x.1).any (fun h => areaLine h.area (16 * x.2.1) / 256 % 32 == pc)) = none ∨
      (bitOf (vpcMask c) pc || c.tk.phase ≠ .work || c.tk.mode = .idle || c.tk.mode = .loaded) = false) : intakeDrain pc c = c := by
  rcases h with h | h
  · simp only [intakeDrain, h]
  · simp only [intakeDrain, h, Bool.not_false, if_true]
    split <;> rfl

theorem handleTimeout_due {c : Chip} {h t : Nat} {hd : Handle} (hh : handleAt c h = some hd) (ho : hd.st = .opened)
    (ht : hd.lastRecv + 600000000000 ≤ t) : (∀ u ∈ (handleTimeout h t c).intake.buffer, u.1 ≠ h) ∧
    objGet (handleTimeout h t c) 0x2B40 0x09 0 = objGet (objBump 0x2B40 0x09 0 1 c) 0x2B40 0x09 0 := by
  simp only [handleTimeout, hh, ho, ht, decide_true, Bool.and_self, if_true, intakeDrop]
  refine ⟨fun u hu => by simpa using (List.mem_filter.1 hu).2, ?_⟩
  rw [objGet_bump_same, objGet_bump_same]
  exact congrArg (fun x => (x + 1) % _) (objGet_set_idx _ _ _ _ _ _ (by decide))

/-! Adapters (R278). -/

theorem handleAt_post (i k n v h : Nat) (c : Chip) : handleAt (postStatus i k n v c) h = handleAt c h :=
  handleAt_of_intake (postStatus_intake ..) h

theorem placementDone_fails {c : Chip} {h st : Nat} {hd : Handle} {p : Plan} (hh : handleAt c h = some hd) (ho : hd.st = .placing)
    (hp : c.plan.loaded = some p) (hi : adapterImage c h hd = .error st) :
    handleAt (placementDone h c) h = some { hd with st := .failed } ∧ objGet (placementDone h c) 0x2B40 0x06 0 = st := by
  simp only [placementDone, hh, hp, ho, hi, ne_eq, not_true_eq_false, if_false, handleAt_post, handleAt_setHandle, objGet_postStatus_same, and_self]

theorem placementDone_places {c : Chip} {h ver : Nat} {hd : Handle} {p : Plan} {d : AdDecl} {pt : List Byte} (hh : handleAt c h = some hd)
    (ho : hd.st = .placing) (hp : c.plan.loaded = some p) (hi : adapterImage c h hd = .ok (d, ver, pt)) :
    (∃ buf, handleAt (placementDone h c) h = some { hd with st := .placed, placed := some (buf, ver) }) ∧
    objGet (placementDone h c) 0x2B40 0x06 0 = stOk := by
  simp only [placementDone, hh, hp, ho, hi, ne_eq, not_true_eq_false, if_false, handleAt_post, handleAt_setHandle, objGet_postStatus_same, and_true]
  exact ⟨_, rfl⟩

end Sys2Proof.Machine

namespace Sys2Proof.Proofs
open Sys2Proof Sys2Proof.Machine

/-- Settles O36. What an expiry forgets is what its filter leaves out, and what the intake stages is what it put in the handle last. -/
theorem conversationEvents : Obligations.ConversationEvents := by
  refine ⟨?_, ?_⟩
  · intro s t i
    dsimp only
    refine ⟨fun v p k hf hp hi hl hs hd => ?_, fun v k h hf hi hh hs hd => ?_, fun v hf hs hd => ?_, fun h => ?_⟩
    · refine answers_onChip (f := hotHoldExpiry t i) rfl (hotHoldExpiry_due hf hp hi hl hs ?_)
      cases hpool : v.home.bind (fun h => planPool p h.1) <;> simpa [hpool] using hd
    · refine gives_onChip (f := convExpiry t i) rfl ?_
      rw [onto, objGet_settle, findConv, settle_serv, convExpiry_due hf hi hh hs hd]
      exact forgetConv_forgets hf hh
    · refine gives_onChip (f := summaryExpiry t i) rfl ?_
      rw [onto, findSummary, settle_serv]
      exact summaryExpiry_due hf hs hd
    · refine gives_onChip (f := resealTenant t) rfl ?_
      rw [onto, objGet_settle, settle_serv]
      exact resealTenant_seals h
  · intro s
    dsimp only
    refine ⟨fun f d hx => ⟨fun hh => ?_, fun hd hh ho h1 h2 h3 h4 h5 h6 h7 h8 h9 h10 hf hs => ?_⟩,
      fun pc hpc => ⟨fun i x hd hf hi hx hh => ?_, fun h => ?_⟩, fun h t hd hh ho ht => ?_,
      fun h hd p hh ho hp => ⟨fun st hi => ?_, fun d ver pt hi => ?_⟩⟩
    · exact answers_onChip (f := intakeDatagram) rfl (intakeDatagram_unknown hx hh)
    · refine gives_onChip (f := intakeDatagram) rfl ?_
      rw [onto, handleAt_of_intake (settle_intake _), settle_intake]
      exact intakeDatagram_buffers hx rfl rfl rfl rfl hh ho h1 h2 h3 h4 h5 h6 h7 h8 h9 h10 hf hs
    · exact answers_onChip (f := intakeDrain pc) (onUnit_of_lt hpc _ s) (intakeDrain_stages hf hi hx hh)
    · exact answers_onChip (f := intakeDrain pc) (onUnit_of_lt hpc _ s) (intakeDrain_none h)
    · have h' := handleTimeout_due (c := atTime t s.chip) hh ho ht
      refine gives_onChip (f := fun c => handleTimeout h t (atTime t c)) rfl ?_
      rw [onto, objGet_settle, settle_intake]
      exact h'
    · refine gives_onChip (f := placementDone h) rfl ?_
      rw [onto, objGet_settle, handleAt_of_intake (settle_intake _)]
      exact ⟨⟨_, (placementDone_fails hh ho hp hi).1, rfl⟩, (placementDone_fails hh ho hp hi).2⟩
    · obtain ⟨⟨buf, hplaced⟩, hst⟩ := placementDone_places hh ho hp hi
      refine gives_onChip (f := placementDone h) rfl ?_
      rw [onto, objGet_settle, handleAt_of_intake (settle_intake _)]
      exact ⟨⟨_, buf, hplaced, rfl, rfl⟩, hst⟩

end Sys2Proof.Proofs

/-! SUPPORT. The Stomar ports: what their operations leave of a port's state (R283-R297). -/

namespace Sys2Proof.Machine

/-! A port read after it is written, and after steps that leave the links. -/

section
variable {c c' : Chip} {p : Nat}

theorem portAt_setPort (h : p < 8) (v : PortSt) (c : Chip) : portAt (setPort p v c) p = v := getD_setIfInBounds _ _ _ h

theorem portAt_of_link (h : c'.link = c.link) (p : Nat) : portAt c' p = portAt c p := by rw [portAt, h, portAt]

theorem setLink_link (p st : Nat) (c : Chip) : (setLink p st c).link = c.link := by simp [setLink, linkClasses]

/-- The entries of the port objects 2601 that are not a link's state: setLink leaves them. -/
theorem setLink_keeps {q : Nat → Nat → Bool} (hq : Unclassed q) (h1 : q 0x2601 1 = false) (h6 : q 0x2910 6 = false) (p st : Nat) (c : Chip) :
    KeepsObjs q c (setLink p st c) := by
  unfold setLink linkClasses
  exact ((((KeepsObjs.refl c).set h1).set h6).setClass hq).setClass hq

theorem unclassed_marks {i k : Nat} (h : i ≠ 0x1001 ∧ i ≠ 0x2A40 ∧ i ≠ 0x2A42 ∧ i ≠ 0x2A00 ∧ i ≠ 0x2811) : Unclassed (marks i k) := by
  intro j
  simp [marks, h.1.symm, h.2.1.symm, h.2.2.1.symm, h.2.2.2.1.symm, h.2.2.2.2.symm]

theorem linkClasses_keeps {q : Nat → Nat → Bool} (hq : Unclassed q) (h6 : q 0x2910 6 = false) (c : Chip) : KeepsObjs q c (linkClasses c) := by
  unfold linkClasses
  exact (((KeepsObjs.refl c).set h6).setClass hq).setClass hq

theorem linkState_setLink (p st : Nat) (c : Chip) : linkState (setLink p st c) p = st := by
  have h := (linkClasses_keeps (unclassed_marks (i := 0x2601) (k := 1) (by decide)) rfl (objSet 0x2601 1 p st c)).get (by omega) p
  exact h.trans (objGet_set_same ..)

/-! A link that goes down (R289). -/

/-- A port once its link is down. -/
def droppedPort (c : Chip) (p : Nat) : PortSt :=
  let s := portAt c p
  let wait := if (match s.upAt with | some u => decide (u + 600000000000 ≤ c.tk.now) | none => false) then 1000000000 else s.retry
  { excluded := s.excluded, retry := min 60000000000 (2 * wait), wait := wait, downAt := some c.tk.now, delay := s.delay, last := s.last }

theorem linkDrop_eq (p st : Nat) (c : Chip) : linkDrop p st c =
    let d := setLink p st (setPort p (droppedPort c p) c)
    let d := if (portAt c p).stage = .up then breakUpd 3 d else d
    if (portAt c p).stage = .down then d else logRec 2 srcLinks .linkDown [p] d := rfl

theorem portAt_linkDrop (h : p < 8) (st : Nat) (c : Chip) : portAt (linkDrop p st c) p = droppedPort c p := by
  have hset : portAt (setLink p st (setPort p (droppedPort c p) c)) p = droppedPort c p :=
    (portAt_of_link (setLink_link ..) p).trans (portAt_setPort h ..)
  rw [linkDrop_eq]
  dsimp only
  split <;> split
  · exact hset
  · exact hset
  · exact (portAt_of_link (logRec_link ..) p).trans hset
  · exact (portAt_of_link (logRec_link ..) p).trans hset

theorem portAt_linkDown (h : p < 8) (c : Chip) : portAt (linkDown p c) p = droppedPort c p := portAt_linkDrop h _ c

theorem linkState_linkDrop (p st : Nat) (c : Chip) : linkState (linkDrop p st c) p = st := by
  have hset := linkState_setLink p st (setPort p (droppedPort c p) c)
  have hlog : ∀ d, linkState (logRec 2 srcLinks .linkDown [p] d) p = linkState d p := fun d =>
    ((KeepsObjs.refl d).event (unclassed_marks (i := 0x2601) (k := 1) (by decide))).get (by omega) p
  rw [linkDrop_eq]
  dsimp only
  split <;> split
  · exact hset
  · exact hset
  · exact (hlog _).trans hset
  · exact (hlog _).trans hset

/-! Control messages (R295). -/

theorem portAt_sendMsg (h : p < 8) (kind dst : Nat) (body : List Byte) (c : Chip) :
    ∃ ws, portAt (sendMsg p kind dst body c) p = { portAt c p with outWords := ws } := by
  unfold sendMsg
  dsimp only
  split
  · exact ⟨_, rfl⟩
  · exact ⟨_, portAt_setPort h ..⟩

theorem sendMsg_objs (kind dst : Nat) (body : List Byte) (c : Chip) : (sendMsg p kind dst body c).objs = c.objs := by rw [sendMsg_link]

theorem takeMsg_some {kind : Nat} {m : CtlMsg} {d : Chip} (h : takeMsg p kind c = some (m, d)) :
    d = setPort p { portAt c p with inbox := (portAt c p).inbox.erase m, freed := (portAt c p).freed + 1 + cdiv m.body.length 32 } c := by
  unfold takeMsg at h
  dsimp only at h
  split at h
  · cases h
  · cases h
    rfl

/-! Lane switches (R288). -/

theorem laneApply_link (lane : Nat) (c : Chip) : (laneApply p lane c).link = c.link := by
  unfold laneApply
  dsimp only
  split
  · rfl
  · simp [linkClasses]

theorem portAt_laneDue (h : p < 8) (c : Chip) : ∃ a b, portAt (laneDue p c) p = { portAt c p with txLane := a, rxLane := b } := by
  have htx : ∃ d : Chip, (∃ a, portAt d p = { portAt c p with txLane := a }) ∧ laneDue p c = (match (portAt d p).rxLane with
      | some (l, n) => if n ≤ (portAt d p).rxNext then laneApply p l (setPort p { portAt d p with rxLane := none } d) else d
      | none => d) := by
    refine ⟨_, ?_, rfl⟩
    cases hl : (portAt c p).txLane with
    | none => exact ⟨(portAt c p).txLane, rfl⟩
    | some e =>
      dsimp only
      split
      · exact ⟨none, (portAt_of_link (laneApply_link ..) p).trans (portAt_setPort h ..)⟩
      · exact ⟨(portAt c p).txLane, rfl⟩
  obtain ⟨d, ⟨a, ha⟩, he⟩ := htx
  rw [he]
  split
  · split
    · exact ⟨a, none, (portAt_of_link (laneApply_link ..) p).trans ((portAt_setPort h ..).trans (by rw [ha]))⟩
    · exact ⟨a, (portAt c p).rxLane, ha⟩
  · exact ⟨a, (portAt c p).rxLane, ha⟩

end

end Sys2Proof.Machine

/-! SUPPORT. Frames, replay and keys of a Stomar port (R283-R287, R334, R335). -/

namespace Sys2Proof.Machine

/-! A frame sent (R284-R286). -/

theorem keySwitch_keeps (s : PortSt) : (keySwitch s).txCnt = s.txCnt ∧ (keySwitch s).rxNext = s.rxNext ∧ (keySwitch s).credit = s.credit ∧
    (keySwitch s).replay = s.replay := by
  unfold keySwitch
  split
  · split <;> exact ⟨rfl, rfl, rfl, rfl⟩
  · exact ⟨rfl, rfl, rfl, rfl⟩

section
variable {c : Chip} {p : Nat} (hp : p < 8)
include hp

theorem frameSend_replays {f : Frame} {rest : List Frame} (h1 : (portAt c p).stage ≠ .down) (h2 : (portAt c p).stage ≠ .training)
    (hr : (portAt c p).resend = f :: rest) :
    portAt (frameSend p c) p = { portAt c p with
      resend := rest, last := some { f with bytes := f.bytes.set 3 (f.bytes.getD 3 0 ||| 2) } } ∧
    objGet (frameSend p c) 0x2601 0x0B p = objGet (objBump 0x2601 0x0B p 1 c) 0x2601 0x0B p := by
  simp only [frameSend, h1, h2, decide_false, Bool.or_self, Bool.false_eq_true, if_false, hr]
  refine ⟨(portAt_of_link (tracePoint_link ..) p).trans (portAt_setPort hp ..), ?_⟩
  rw [objGet_tracePoint _ _ _ _ (okey_ne_idx (by decide)), objGet_bump_same, objGet_bump_same]
  rfl

omit hp in
theorem frameSend_builds (h1 : (portAt c p).stage ≠ .down) (h2 : (portAt c p).stage ≠ .training) (hr : (portAt c p).resend = []) :
    frameSend p c = buildFrame p c := by
  simp only [frameSend, h1, h2, decide_false, Bool.or_self, Bool.false_eq_true, if_false, hr]

/-- The port once the exchange's finish has left (R285). -/
def switchedPort (c : Chip) (p : Nat) : PortSt :=
  let s := keySwitch (portAt c p)
  if s.stage = .finished && s.outWords.isEmpty then { s with stage := .beacons, txSince := s.txCnt } else s

omit hp in
theorem switchedPort_keeps : (switchedPort c p).txCnt = (portAt c p).txCnt ∧ (switchedPort c p).rxNext = (portAt c p).rxNext ∧
    (switchedPort c p).credit = (portAt c p).credit ∧ (switchedPort c p).replay = (portAt c p).replay := by
  unfold switchedPort
  dsimp only
  split <;> exact keySwitch_keeps _

theorem buildFrame_builds (hl : (portAt c p).replay.length ≤ 512) :
    (portAt (buildFrame p c) p).txCnt = (portAt c p).txCnt + 1 ∧
    (∃ f, (portAt (buildFrame p c) p).last = some f ∧ f.fcnt = (portAt c p).txCnt ∧ (portAt (buildFrame p c) p).replay.getLast? = some f) ∧
    (portAt (buildFrame p c) p).replay.length ≤ 512 ∧ (portAt (buildFrame p c) p).credit ≤ (portAt c p).credit ∧
    (portAt (buildFrame p c) p).rxNext = (portAt c p).rxNext := by
  have hb : ∃ v : PortSt, ∃ f : Frame, buildFrame p c = laneDue p (setPort p v c) ∧ v.txCnt = (switchedPort c p).txCnt + 1 ∧ v.last = some f ∧
      f.fcnt = (switchedPort c p).txCnt ∧ v.replay = (if decide (512 ≤ (switchedPort c p).replay.length)
        then (switchedPort c p).replay.drop 1 else (switchedPort c p).replay) ++ [f] ∧
      v.credit ≤ (switchedPort c p).credit ∧ v.rxNext = (switchedPort c p).rxNext :=
    ⟨_, _, rfl, rfl, rfl, rfl, rfl, Nat.sub_le .., rfl⟩
  obtain ⟨v, f, he, htx, hlast, hf, hrep, hcr, hrx⟩ := hb
  obtain ⟨stx, srx, scr, srep⟩ := switchedPort_keeps (c := c) (p := p)
  obtain ⟨a, b, hport⟩ := portAt_laneDue hp (setPort p v c)
  rw [portAt_setPort hp] at hport
  rw [he, hport]
  refine ⟨by rw [htx, stx], ⟨f, hlast, hf.trans stx, ?_⟩, ?_, hcr.trans scr.le, hrx.trans srx⟩
  · rw [hrep]
    exact List.getLast?_concat ..
  · rw [hrep, srep, List.length_append]
    split
    case isTrue h => simp at h ⊢; omega
    case isFalse h => simp at h ⊢; omega

end

/-! A frame received (R284-R286, R294, R295). -/

/-- From c to c' the frame that port p expects, and the loss it notes, stand. -/
def RxKept (p : Nat) (c c' : Chip) : Prop := (portAt c' p).rxNext = (portAt c p).rxNext ∧ (portAt c' p).nak = (portAt c p).nak

section
variable {c c' c'' : Chip} {p : Nat}

theorem RxKept.refl (p : Nat) (c : Chip) : RxKept p c c := ⟨rfl, rfl⟩

theorem RxKept.trans (h : RxKept p c c') (h' : RxKept p c' c'') : RxKept p c c'' := ⟨h'.1.trans h.1, h'.2.trans h.2⟩

theorem RxKept.of_port {v : PortSt} (h : portAt c' p = v) (h1 : v.rxNext = (portAt c p).rxNext) (h2 : v.nak = (portAt c p).nak) : RxKept p c c' :=
  ⟨by rw [h, h1], by rw [h, h2]⟩

theorem RxKept.foldl {α : Type} {f : Chip → α → Chip} (h : ∀ c a, RxKept p c (f c a)) (l : List α) (c : Chip) : RxKept p c (l.foldl f c) :=
  foldl_invariant (fun d => RxKept p c d) (fun d a hd => hd.trans (h d a)) l (.refl p c)

variable (hp : p < 8)
include hp

theorem takeTimed_rxKept (c : Chip) (w : TimedWord) : RxKept p c (takeTimed p c w) := by
  unfold takeTimed
  dsimp only
  split
  · exact .refl p c
  · exact .of_port (portAt_setPort hp ..) rfl rfl

theorem deliverMsg_rxKept (c : Chip) (e : Bool × CtlMsg × Nat) : RxKept p c (deliverMsg p c e) := by
  unfold deliverMsg
  dsimp only
  split
  · exact .of_port ((portAt_of_link (objBump_link ..) p).trans (portAt_setPort hp ..)) rfl rfl
  · split <;> exact .of_port (portAt_setPort hp ..) rfl rfl

theorem takeCtl_rxKept (keyed : Bool) (ws : List W256) (c : Chip) : RxKept p c (takeCtl p keyed ws c) := by
  unfold takeCtl
  dsimp only
  refine RxKept.trans ?_ (.foldl (deliverMsg_rxKept hp) _ _)
  exact .of_port (portAt_setPort hp ..) rfl rfl

theorem acceptFrame_expects (keyed : Bool) (h payload : List Byte) (marks : List (Nat × Bool × Bool)) (c : Chip) :
    (portAt (acceptFrame p keyed h payload marks c) p).rxNext = (portAt c p).rxNext + 1 ∧
    (portAt (acceptFrame p keyed h payload marks c) p).nak = none := by
  have ha : ∃ (v : PortSt) (q : Bool) (l : List TimedWord) (ws : List W256), v.rxNext = (portAt c p).rxNext + 1 ∧ v.nak = none ∧
      acceptFrame p keyed h payload marks c =
        takeCtl p keyed ws (if q then l.foldl (takeTimed p) (laneDue p (setPort p v c)) else laneDue p (setPort p v c)) := by
    refine ⟨_, _, _, _, ?_, ?_, rfl⟩
    · dsimp only
      split <;> rfl
    · rfl
  obtain ⟨v, q, l, ws, hr, hn, he⟩ := ha
  obtain ⟨a, b, hport⟩ := portAt_laneDue hp (setPort p v c)
  rw [portAt_setPort hp] at hport
  have hlane : RxKept p (setPort p v c) (laneDue p (setPort p v c)) :=
    .of_port hport (by rw [portAt_setPort hp]) (by rw [portAt_setPort hp])
  have htimed : RxKept p (setPort p v c) (if q then l.foldl (takeTimed p) (laneDue p (setPort p v c)) else laneDue p (setPort p v c)) := by
    split
    · exact hlane.trans (.foldl (takeTimed_rxKept hp) _ _)
    · exact hlane
  obtain ⟨h1, h2⟩ := htimed.trans (takeCtl_rxKept hp keyed ws _)
  rw [portAt_setPort hp] at h1 h2
  rw [he]
  exact ⟨h1.trans hr, h2.trans hn⟩

end

section
variable {c : Chip} {p : Nat} {b : List Byte} {marks : List (Nat × Bool × Bool)} {k : BitVec 256}

theorem frameArrive_broken {corrected bad : Nat} (h1 : (portAt c p).stage ≠ .down) (h2 : (portAt c p).stage ≠ .training) (hb : 0 < bad) :
    frameArrive p corrected bad b marks c = setPort p { portAt c p with nak := some (portAt c p).rxNext, nakDue := true }
      (objBump 0x2601 0x0A p bad (objBump 0x2601 0x09 p corrected c)) := by
  have h : portAt (objBump 0x2601 0x0A p bad (objBump 0x2601 0x09 p corrected c)) p = portAt c p :=
    portAt_of_link ((objBump_link ..).trans (objBump_link ..)) p
  simp only [frameArrive, h1, h2, decide_false, Bool.or_self, Bool.false_eq_true, if_false, hb, if_true, frameLost, h]

theorem frameArrive_whole {corrected : Nat} (h1 : (portAt c p).stage ≠ .down) (h2 : (portAt c p).stage ≠ .training) :
    frameArrive p corrected 0 b marks c = frameIn p b marks (objBump 0x2601 0x0A p 0 (objBump 0x2601 0x09 p corrected c)) := by
  simp only [frameArrive, h1, h2, decide_false, Bool.or_self, Bool.false_eq_true, if_false, Nat.lt_irrefl]

theorem frameLost_notes (hp : p < 8) (c : Chip) : portAt (frameLost p c) p = { portAt c p with nak := some (portAt c p).rxNext, nakDue := true } :=
  portAt_setPort hp ..

theorem frameIn_reserved (h : headerReserved (b.take 53) = true) : frameIn p b marks c = frameLost p c := by
  simp only [frameIn, h, Bool.or_true, if_true]

/-- What the key of the link makes of a frame. -/
def frameOpened (k : BitVec 256) (b : List Byte) : Option (List Byte) :=
  gcmOpen k (frameIv (numAt (b.take 53) 4 8)) ((b.take 53).set 3 ((b.take 53).getD 3 0 &&& 0xFD)) (bytesAt b 53 1216) (bytesAt b 0x4F5 16)

variable (hl : b.length = 1285) (hm : numAt (b.take 53) 0 2 = 0x4D53) (ht : numAt (b.take 53) 2 1 = 1)
  (hg : bitOf (numAt (b.take 53) 3 1) 0 = (portAt c p).rxGen) (hk : (portAt c p).rxKey = some k) (hr : headerReserved (b.take 53) = false)
include hl hm ht hg hk hr

theorem frameIn_unauthentic (ho : frameOpened k b = none) : frameIn p b marks c = frameLost p (linkRefuse p c) := by
  unfold frameOpened at ho
  simp only [frameIn, hl, hm, ht, hg, hk, hr, ne_eq, not_true_eq_false, decide_false, Bool.false_and, Bool.or_self, Bool.false_eq_true, if_false,
    beq_self_eq_true, Bool.not_true, if_true, Option.bind_some, ho]

theorem frameIn_authentic {payload : List Byte} (ho : frameOpened k b = some payload) : frameIn p b marks c =
    if numAt (b.take 53) 4 8 < (portAt c p).rxNext then c
    else
      let d := peerNak p (numAt (b.take 53) 0x14 8) c
      if (portAt d p).stage = .down then d
      else if numAt (b.take 53) 4 8 = (portAt c p).rxNext then acceptFrame p true (b.take 53) payload marks d
      else if (portAt c p).nak.isNone then frameLost p d else d := by
  unfold frameOpened at ho
  simp only [frameIn, hl, hm, ht, hg, hk, hr, ne_eq, not_true_eq_false, decide_false, Bool.false_and, Bool.or_self, Bool.false_eq_true, if_false,
    beq_self_eq_true, Bool.not_true, if_true, Option.bind_some, ho]

end

theorem peerNak_ones (p : Nat) (c : Chip) : peerNak p allOnes64 c = c := by
  simp only [peerNak, if_true]

/-! Keys (R287, R334, R335). -/

/-- R287: a fresh encapsulation leaves with the count of the first frame under its key. -/
def rekeyNamed (p : Nat) (k : BitVec 256) (c : Chip) : Chip :=
  let s := portAt c p
  let fr := takeFree c
  let kem := offerKem s.kex.peerOffer
  let at_ := s.txCnt + 1 + Config.rekeyLead
  let c := sendMsg p 3 0 ([2, 0, 1, 0] ++ (List.range 1088).map (Config.kemCipher kem fr.1) ++ Config.msgBody 3 [at_]) fr.2
  let s := portAt c p
  let k' := rekeyed k (Config.kemSecret kem fr.1) (if lowerHere s.kex then 0 else 1)
  tracePoint 98 0 p (objBump 0x2601 0x0E p 1 (setPort p { s with txSwitch := some (at_, k') } c))

section
variable {c : Chip} {p : Nat} (hp : p < 8)
include hp

theorem rekeyStart_due {k : BitVec 256} (hk : (portAt c p).txKey = some k) (hs : (portAt c p).stage = .up) (hw : (portAt c p).txSwitch = none)
    (hf : fwPause c 3 = false) (hd : (portAt c p).txSince + 2 ^ 31 ≤ (portAt c p).txCnt) :
    (∃ at_ k', (portAt (rekeyStart p c) p).txSwitch = some (at_, k') ∧ (portAt c p).txCnt < at_) ∧ (portAt (rekeyStart p c) p).txKey = some k ∧
    objGet (rekeyStart p c) 0x2601 0x0E p = objGet (objBump 0x2601 0x0E p 1 c) 0x2601 0x0E p := by
  have hr : ∃ body d k', d = sendMsg p 3 0 body (takeFree c).2 ∧ rekeyStart p c = tracePoint 98 0 p (objBump 0x2601 0x0E p 1
      (setPort p { portAt d p with txSwitch := some ((portAt c p).txCnt + 1 + Config.rekeyLead, k') } d)) := by
    have hn : rekeyStart p c = rekeyNamed p k c := by
      simp only [rekeyStart, hk, hs, hw, hf, ne_eq, not_true_eq_false, decide_false, Option.isSome_none, Nat.not_lt.2 hd, Bool.or_self,
        Bool.false_eq_true, if_false, rekeyNamed]
    exact ⟨_, _, _, rfl, hn⟩
  obtain ⟨body, d, k', hd', he⟩ := hr
  obtain ⟨ws, hws⟩ := portAt_sendMsg hp 3 0 body (takeFree c).2
  rw [← hd'] at hws
  have hport : portAt (rekeyStart p c) p = { portAt d p with txSwitch := some ((portAt c p).txCnt + 1 + Config.rekeyLead, k') } := by
    rw [he]
    exact (portAt_of_link (tracePoint_link ..) p).trans (portAt_setPort hp ..)
  refine ⟨⟨_, k', by rw [hport], by omega⟩, by rw [hport, hws]; exact hk, ?_⟩
  rw [he, objGet_tracePoint _ _ _ _ (okey_ne_idx (by decide)), objGet_bump_same, objGet_bump_same]
  have hobj : objGet d 0x2601 0x0E p = objGet c 0x2601 0x0E p := by
    rw [hd']
    exact objGet_of_objs (sendMsg_objs ..) ..
  exact congrArg (fun x => (x + 1) % _) hobj

theorem keyExhausted_due (hs : (portAt c p).stage = .up) (hd : (portAt c p).txSince + (2 ^ 32 - 2 ^ 24) ≤ (portAt c p).txCnt) :
    portAt (keyExhausted p c) p = droppedPort c p := by
  simp only [keyExhausted, hs, hd, decide_true, Bool.and_self, if_true]
  exact (portAt_of_link (logRec_link ..) p).trans (portAt_linkDown hp c)

theorem gotOffer_refused {o : List Byte} (h : peerOk c p o = false) : portAt (gotOffer p o c) p = droppedPort (linkRefuse p c) p := by
  simp only [gotOffer, h, Bool.not_false, if_true, peerRefused]
  exact portAt_linkDown hp _

theorem gotFinish_keys {sig : List Byte} (hd : (portAt c p).kex.digest ≠ [])
    (hs : Config.dsaOk (bytesAt (offerRecord (portAt c p).kex.peerOffer) 0x80 1312) (portAt c p).kex.digest sig = true) :
    portAt (gotFinish p sig c) p = { portAt c p with
      stage := .finished, txKey := some (linkKey (portAt c p).kex (if lowerHere (portAt c p).kex then 0 else 1))
      rxKey := some (linkKey (portAt c p).kex (1 - (if lowerHere (portAt c p).kex then 0 else 1))), txGen := false
      rxGen := false, keyedAt := some c.tk.now } := by
  simp only [gotFinish, List.isEmpty_eq_false_iff.2 hd, hs, Bool.not_true, Bool.or_self, Bool.false_eq_true, if_false]
  exact portAt_setPort hp ..

end

/-! The key exchange takes its steps in order (R334, R335). -/

section
variable {c d : Chip} {p fcnt : Nat} {m : CtlMsg} (hp : p < 8) (hx : takeMsg p 3 c = some (m, d)) (h1 : 1 ≤ numAt m.body 0 1) (h3 : numAt m.body 0 1 ≤ 3)
  (hn : numAt m.body 2 1 ≠ 0) (h0 : numAt m.body 3 1 = 0)

theorem takeMsg_port (hp : p < 8) {kind : Nat} (hx : takeMsg p kind c = some (m, d)) :
    ∃ a b, portAt d p = { portAt c p with inbox := a, freed := b } := by
  rw [takeMsg_some hx, portAt_setPort hp]
  exact ⟨_, _, rfl⟩

/-- The fragments received of the step's message, with this one. -/
def kexParts (c : Chip) (p : Nat) (m : CtlMsg) : Cells (List Byte) :=
  cellsPut (portAt c p).kex.parts (numAt m.body 0 1 * 256 + numAt m.body 1 1) (m.body.drop 4)

/-- Whether all fragments of the step's message are there. -/
def kexWhole (c : Chip) (p : Nat) (m : CtlMsg) : Bool :=
  (List.range (numAt m.body 2 1)).all (fun i => cellsHas (kexParts c p m) (numAt m.body 0 1 * 256 + i))

/-- The step's message. -/
def kexBody (c : Chip) (p : Nat) (m : CtlMsg) : List Byte :=
  (List.range (numAt m.body 2 1)).flatMap (fun i => (cellsFind (kexParts c p m) (numAt m.body 0 1 * 256 + i)).getD [])

/-- The port without the fragments of the step's message. -/
def kexTaken (c : Chip) (p : Nat) (m : CtlMsg) (d : Chip) : Chip :=
  setPort p { portAt d p with kex := { (portAt c p).kex with parts := (kexParts c p m).filter (fun e => e.1 / 256 != numAt m.body 0 1) } } d

include hp hx h1 h3 hn h0

omit h1 h3 in
theorem keyExchange_rekey (hs : (portAt c p).stage = .up) (h2 : numAt m.body 0 1 = 2) (hk : m.keyed = true) :
    keyExchange p fcnt c = gotRekey p fcnt (bytesAt m.body 4 1088) d := by
  obtain ⟨a, b, hd⟩ := takeMsg_port hp hx
  have hs' : (portAt d p).stage = .up := by rw [hd]; exact hs
  simp only [keyExchange, hx, hs', h2, hk, h0, hn, ne_eq, not_true_eq_false, decide_false, decide_true, Bool.or_self, Bool.true_or, Bool.and_self,
    if_true, Nat.reduceLT, Bool.false_eq_true, if_false]

variable (hu : (portAt c p).stage ≠ .up) (hb : (portAt c p).stage ≠ .beacons)
include hu hb

theorem keyExchange_collects (hw : kexWhole c p m = false) :
    keyExchange p fcnt c = setPort p { portAt d p with kex := { (portAt c p).kex with parts := kexParts c p m } } d := by
  obtain ⟨a, b, hd⟩ := takeMsg_port hp hx
  have hs : (portAt d p).stage = (portAt c p).stage := by rw [hd]
  have hk : (portAt d p).kex = (portAt c p).kex := by rw [hd]
  simp only [keyExchange, hx, hs, hk, h0, hn, hu, hb, Nat.not_lt.2 h1, Nat.not_lt.2 h3, ne_eq, not_true_eq_false, decide_false, Bool.or_self,
    Bool.false_eq_true, if_false, ← kexParts.eq_1, ← kexWhole.eq_1, hw, Bool.not_false, if_true]

variable (hw : kexWhole c p m = true)
include hw

theorem keyExchange_steps :
    (numAt m.body 0 1 = 1 → (portAt c p).stage = .plain ∨ (portAt c p).stage = .offered →
      keyExchange p fcnt c = gotOffer p (kexBody c p m) (kexTaken c p m d)) ∧
    (numAt m.body 0 1 = 2 → (portAt c p).stage = .encapsulated → keyExchange p fcnt c = gotCipher p (kexBody c p m) (kexTaken c p m d)) ∧
    (numAt m.body 0 1 = 3 → (portAt c p).stage = .encapsulated → keyExchange p fcnt c = gotFinish p (kexBody c p m) (kexTaken c p m d)) := by
  obtain ⟨a, b, hd⟩ := takeMsg_port hp hx
  have hs : (portAt c p).stage = (portAt d p).stage := by rw [hd]
  have hk : (portAt d p).kex = (portAt c p).kex := by rw [hd]
  rw [hs] at hu hb ⊢
  simp only [keyExchange, hx, hk, h0, hn, hu, hb, ne_eq, not_true_eq_false, decide_false, Bool.or_self, Nat.not_lt.2 h1, Nat.not_lt.2 h3,
    Bool.false_eq_true, if_false, ← kexParts.eq_1, ← kexWhole.eq_1, ← kexBody.eq_1, hw, Bool.not_true, kexTaken]
  refine ⟨fun h hs => ?_, fun h hs => ?_, fun h hs => ?_⟩
  · rcases hs with hs | hs <;> simp only [h, hs]
  · simp only [h, hs]
  · simp only [h, hs]

end

end Sys2Proof.Machine

namespace Sys2Proof.Proofs
open Sys2Proof Sys2Proof.Machine

/-- Settles O37. A frame's words change a port's buffers, not the count it expects; a step of the exchange is judged by the stage it
finds. -/
theorem linkEvents : Obligations.LinkEvents := by
  refine ⟨?_, ?_⟩
  · intro s p hp h1 h2
    dsimp only
    refine ⟨fun f rest hr => ?_, fun hr hl => ?_, fun corrected bad frame marks => ⟨fun hb => ?_, fun hb => ?_⟩,
      fun frame marks k payload hl hm ht hg hk => ⟨fun hr => frameIn_reserved hr, fun hr => ⟨fun ho => ?_, fun ho hlt => ?_, fun ho he ha => ?_,
        fun ho hlt hn ha => ?_⟩⟩⟩
    · refine gives_onChip (f := frameSend p) (onUnit_of_lt hp _ s) ?_
      obtain ⟨hport, hobj⟩ := frameSend_replays hp h1 h2 hr
      rw [onto, objGet_settle, portAt_of_link (settle_link _), hport]
      exact ⟨rfl, ⟨_, rfl, rfl, rfl, rfl⟩, rfl, hobj⟩
    · refine gives_onChip (f := frameSend p) (onUnit_of_lt hp _ s) ?_
      rw [onto, portAt_of_link (settle_link _), frameSend_builds h1 h2 hr]
      exact buildFrame_builds hp hl
    · exact answers_onChip (f := frameArrive p corrected bad frame marks) (onUnit_of_lt hp _ s) (frameArrive_broken h1 h2 hb)
    · subst hb
      exact answers_onChip (f := frameArrive p corrected 0 frame marks) (onUnit_of_lt hp _ s) (frameArrive_whole h1 h2)
    · exact frameIn_unauthentic hl hm ht hg hk hr ho
    · exact (frameIn_authentic hl hm ht hg hk hr ho).trans (if_pos hlt)
    · rw [frameIn_authentic hl hm ht hg hk hr ho, if_neg he.not_lt, ha, peerNak_ones]
      dsimp only
      rw [if_neg h1, if_pos he]
      exact acceptFrame_expects hp ..
    · rw [frameIn_authentic hl hm ht hg hk hr ho, if_neg hlt.le.not_gt, ha, peerNak_ones]
      dsimp only
      rw [if_neg h1, if_neg hlt.ne', hn, if_pos Option.isNone_none, frameLost_notes hp]
      exact ⟨rfl, rfl⟩
  · intro s p fcnt t hp
    dsimp only
    refine ⟨fun k hk hs hw hf hd => ?_, fun hs hd => ?_, fun m d hx h1 h3 hn h0 => ⟨fun hs h2 hk => ?_, fun hu hb => ⟨fun hw => ?_, fun hw =>
      ⟨fun h hs => ?_, fun h hs => ?_, fun h hs => ?_⟩⟩⟩, fun d o h => ?_, fun d sig hd hs => ?_⟩
    · refine gives_onChip (f := rekeyStart p) (onUnit_of_lt hp _ s) ?_
      rw [onto, objGet_settle, portAt_of_link (settle_link _)]
      exact rekeyStart_due hp hk hs hw hf hd
    · refine gives_onChip (f := keyExhausted p) (onUnit_of_lt hp _ s) ?_
      rw [onto, portAt_of_link (settle_link _), keyExhausted_due hp hs hd]
      exact ⟨rfl, rfl, rfl⟩
    · exact answers_onChip (f := fun c => keyExchange p fcnt (atTime t c)) (onUnit_of_lt hp _ s)
        (keyExchange_rekey (c := atTime t s.chip) hp hx hn h0 hs h2 hk)
    · exact answers_onChip (f := fun c => keyExchange p fcnt (atTime t c)) (onUnit_of_lt hp _ s)
        (keyExchange_collects (c := atTime t s.chip) hp hx h1 h3 hn h0 hu hb hw)
    · exact answers_onChip (f := fun c => keyExchange p fcnt (atTime t c)) (onUnit_of_lt hp _ s)
        ((keyExchange_steps (c := atTime t s.chip) hp hx h1 h3 hn h0 hu hb hw).1 h hs)
    · exact answers_onChip (f := fun c => keyExchange p fcnt (atTime t c)) (onUnit_of_lt hp _ s)
        ((keyExchange_steps (c := atTime t s.chip) hp hx h1 h3 hn h0 hu hb hw).2.1 h hs)
    · exact answers_onChip (f := fun c => keyExchange p fcnt (atTime t c)) (onUnit_of_lt hp _ s)
        ((keyExchange_steps (c := atTime t s.chip) hp hx h1 h3 hn h0 hu hb hw).2.2 h hs)
    · rw [gotOffer_refused hp h]
      exact ⟨rfl, rfl⟩
    · rw [gotFinish_keys hp hd hs]
      exact ⟨rfl, rfl, rfl, rfl⟩

end Sys2Proof.Proofs

/-! SUPPORT. Link-up, lanes, beacons and wiring results of a Stomar port (R288-R291, R442). -/

namespace Sys2Proof.Machine

section
variable {c : Chip} {p : Nat} (hp : p < 8)
include hp

omit hp in
theorem KeepsObjs.later {q : Nat → Nat → Bool} {c' : Chip} (h : KeepsObjs q c c') (b : Nat) : KeepsObjs q c (alertLater b c') :=
  h.trans (.of_objs rfl)

omit hp in
theorem KeepsObjs.port {q : Nat → Nat → Bool} {c' : Chip} (h : KeepsObjs q c c') (v : PortSt) : KeepsObjs q c (setPort p v c') :=
  h.trans (.of_objs rfl)

omit hp in
theorem le_atTime {n t : Nat} (h : n ≤ t) : n ≤ (atTime t c).tk.now := h.trans (Nat.le_max_right ..)

/-! Training and its end (R289). -/

theorem linkUpStart_locks (h : (portAt c p).stage = .training) : (portAt (linkUpStart p true c) p).stage = .plain ∧
    linkState (linkUpStart p true c) p = 2 ∧ objGet (linkUpStart p true c) 0x2601 0x02 p = 0x0F := by
  have he : ∃ (v : PortSt) (d : Chip) (m : Nat), v.stage = .plain ∧ linkUpStart p true c =
      setLink p 2 (setPort p v (objSet 0x2910 0x05 0 m (objSet 0x2601 0x02 p 0x0F d))) := by
    simp only [linkUpStart, h, ne_eq, not_true_eq_false, if_false, Bool.not_true, Bool.false_eq_true]
    exact ⟨_, _, _, rfl, rfl⟩
  obtain ⟨v, d, m, hv, he⟩ := he
  rw [he]
  refine ⟨?_, linkState_setLink .., ?_⟩
  · rw [portAt_of_link (setLink_link ..), portAt_setPort hp, hv]
  · have hk := (setLink_keeps (unclassed_marks (i := 0x2601) (k := 2) (by decide)) rfl rfl p 2
      (setPort p v (objSet 0x2910 0x05 0 m (objSet 0x2601 0x02 p 0x0F d)))).get (by omega) p
    exact hk.trans ((objGet_set_idx _ _ _ _ _ _ (by decide)).trans (objGet_set_same ..))

theorem linkUpStart_fails (h : (portAt c p).stage = .training) : (portAt (linkUpStart p false c) p).stage = .down := by
  simp only [linkUpStart, h, ne_eq, not_true_eq_false, if_false, Bool.not_false, if_true]
  exact congrArg PortSt.stage (portAt_linkDown hp c)

theorem linkTrain_trains (c : Chip) : (portAt (linkTrain p c) p).stage = .training ∧ linkState (linkTrain p c) p = 1 :=
  ⟨congrArg PortSt.stage ((portAt_of_link (setLink_link ..) p).trans (portAt_setPort hp ..)), linkState_setLink ..⟩

omit hp in
theorem linkRetry_due {d : Nat} (hs : (portAt c p).stage = .down) (hd : (portAt c p).downAt = some d) (hl : linkState c p = 0)
    (he : (portAt c p).excluded = false) (ht : d + (portAt c p).wait ≤ c.tk.now) : linkRetry p c = linkTrain p c := by
  simp only [linkRetry, hs, hd, hl, he, ht, decide_true, Bool.not_false, Bool.and_self, if_true]

omit hp in
theorem droppedPort_doubles (hu : (portAt c p).upAt = none) : (droppedPort c p).wait = (portAt c p).retry ∧
    (droppedPort c p).retry = min 60000000000 (2 * (portAt c p).retry) := by
  simp only [droppedPort, hu, Bool.false_eq_true, if_false, and_self]

/-! Lanes (R288). -/

omit hp in
theorem laneApply_substitutes {lane : Nat} (hb : bitOf (objGet c 0x2601 0x02 p) lane = true) (hs : objGet c 0x2601 0x03 p = 0) :
    objGet (laneApply p lane c) 0x2601 0x03 p = 1 ∧ objGet (laneApply p lane c) 0x2601 0x02 p = (objGet c 0x2601 0x02 p - 2 ^ lane) ||| 16 := by
  have hkeep : ∀ k, k = 2 ∨ k = 3 → objGet (laneApply p lane c) 0x2601 k p =
      objGet (objSet 0x2601 0x03 p 1 (objSet 0x2601 0x02 p ((objGet c 0x2601 0x02 p - 2 ^ lane) ||| 16) c)) 0x2601 k p := by
    intro k hk
    have hun := unclassed_marks (i := 0x2601) (k := k) (by decide)
    simp only [laneApply, hb, hs, Bool.not_true, ne_eq, not_true_eq_false, decide_false, Bool.or_self, Bool.false_eq_true, if_false]
    exact (((((KeepsObjs.refl _).set (by simp [marks])).bumpSat (by simp [marks])).trace (by simp [marks])).event hun |>.trans
      (linkClasses_keeps hun (by simp [marks]) _)).get (by omega) p
  rw [hkeep 2 (.inl rfl), hkeep 3 (.inr rfl), objGet_set_same, objGet_set_ne _ _ (okey_ne_sub (by decide)), objGet_set_same]
  exact ⟨rfl, rfl⟩

omit hp in
theorem laneFault_lost {lane : Nat} (h1 : (portAt c p).stage ≠ .down) (h2 : (portAt c p).stage ≠ .training) (hf : fwPause c 3 = false)
    (hl : lane ≤ 4) (hb : bitOf (objGet c 0x2601 0x02 p) lane = true) (hs : objGet c 0x2601 0x03 p = 0) :
    objGet (laneFault p lane true c) 0x2601 0x03 p = 1 ∧
    objGet (laneFault p lane true c) 0x2601 0x02 p = (objGet c 0x2601 0x02 p - 2 ^ lane) ||| 16 := by
  have he : ∃ body, laneFault p lane true c = laneApply p lane (breakUpd 3 (sendMsg p 2 0 body c)) := by
    simp only [laneFault, h1, h2, hf, hb, hs, Nat.not_lt.2 hl, decide_false, Bool.or_self, Bool.false_eq_true, if_false, Bool.not_true, ne_eq,
      not_true_eq_false, if_true]
    exact ⟨_, rfl⟩
  obtain ⟨body, he⟩ := he
  have ho : ∀ k, objGet (breakUpd 3 (sendMsg p 2 0 body c)) 0x2601 k p = objGet c 0x2601 k p := fun k =>
    objGet_of_objs ((breakUpd_objs ..).trans (sendMsg_objs ..)) ..
  have ha := laneApply_substitutes (c := breakUpd 3 (sendMsg p 2 0 body c)) (p := p) (lane := lane) (by rw [ho]; exact hb) (by rw [ho]; exact hs)
  rw [he]
  rw [ho] at ha
  exact ha

/-! Wiring results and beacons (R291). -/

/-- The chip once a wiring result is noted. -/
def wiringNoted (p res : Nat) (c : Chip) : Chip :=
  if decide (2 ≤ res) && objGet c 0x2601 0x08 p != res then logRec 2 srcLinks .wiring [p, res] (alertLater 5 (objSet 0x2601 0x08 p res c))
  else objSet 0x2601 0x08 p res c

omit hp in
/-- A wiring result is noted; the port then leaves service, enters it, or stays. -/
theorem wiringApply_cases (res : Nat) (c : Chip) : wiringApply p res c = wiringNoted p res c ∨ ∃ v : PortSt,
    (wiringApply p res c = setLink p 4 (setPort p v (wiringNoted p res c)) ∨
      wiringApply p res c = logRec 0 srcLinks .linkUp [p] (setLink p 3 (setPort p v (wiringNoted p res c)))) ∧
    v.beacon = (portAt c p).beacon := by
  simp only [wiringApply, ← wiringNoted.eq_1]
  split
  · exact .inr ⟨_, .inl rfl, rfl⟩
  · split
    · exact .inl rfl
    · exact .inr ⟨_, .inr rfl, rfl⟩

omit hp in
theorem portAt_wiringNoted (res : Nat) (c : Chip) : portAt (wiringNoted p res c) p = portAt c p := by
  unfold wiringNoted
  split
  · exact portAt_of_link (logRec_link ..) p
  · rfl

omit hp in
/-- What a wiring result writes beside the port's result and state is not what its beacon wrote. -/
theorem wiringApply_keeps {q : Nat → Nat → Bool} (hq : Unclassed q) (h1 : q 0x2601 1 = false) (h8 : q 0x2601 8 = false) (h6 : q 0x2910 6 = false)
    (res : Nat) (c : Chip) : KeepsObjs q c (wiringApply p res c) := by
  have hres : KeepsObjs q c (wiringNoted p res c) := by
    unfold wiringNoted
    split
    · exact (((KeepsObjs.refl c).set h8).later 5).event hq
    · exact (KeepsObjs.refl c).set h8
  have hset : ∀ st v, KeepsObjs q c (setLink p st (setPort p v (wiringNoted p res c))) := fun st v =>
    (hres.port v).trans (setLink_keeps hq h1 h6 p st _)
  rcases wiringApply_cases (p := p) res c with he | ⟨v, he | he, -⟩ <;> rw [he]
  · exact hres
  · exact hset 4 v
  · exact (hset 3 v).event hq

theorem wiringApply_beacon (res : Nat) (c : Chip) : (portAt (wiringApply p res c) p).beacon = (portAt c p).beacon := by
  have hset : ∀ st v, portAt (setLink p st (setPort p v (wiringNoted p res c))) p = v := fun st v =>
    (portAt_of_link (setLink_link ..) p).trans (portAt_setPort hp ..)
  rcases wiringApply_cases (p := p) res c with he | ⟨v, he | he, hv⟩ <;> rw [he]
  · rw [portAt_wiringNoted]
  · rw [hset, hv]
  · rw [portAt_of_link (logRec_link ..), hset, hv]

omit hp in
theorem wiringApply_result (res : Nat) (c : Chip) : objGet (wiringApply p res c) 0x2601 0x08 p = res := by
  have hun := unclassed_marks (i := 0x2601) (k := 8) (by decide)
  have hres : objGet (wiringNoted p res c) 0x2601 0x08 p = res := by
    unfold wiringNoted
    split
    · exact (((KeepsObjs.refl _).event hun).get (by omega) p).trans ((objGet_alertLater ..).trans (objGet_set_same c 0x2601 8 p res))
    · exact objGet_set_same ..
  have hset : ∀ st v, KeepsObjs (marks 0x2601 8) (setPort p v (wiringNoted p res c)) (setLink p st (setPort p v (wiringNoted p res c))) :=
    fun st v => setLink_keeps hun rfl rfl p st _
  rcases wiringApply_cases (p := p) res c with he | ⟨v, he | he, -⟩ <;> rw [he]
  · exact hres
  · exact ((hset 4 v).get (by omega) p).trans hres
  · exact (((hset 3 v).event hun).get (by omega) p).trans hres

omit hp in
theorem pairCompare_keeps {q : Nat → Nat → Bool} (h6 : q 0x2620 6 = false) (same : Bool) (c : Chip) : KeepsObjs q c (pairCompare p same c) := by
  unfold pairCompare
  dsimp only
  split
  · split
    · exact (KeepsObjs.of_objs rfl).set h6
    · split
      · split <;> exact (KeepsObjs.of_objs rfl).set h6
      · exact .of_objs rfl
  · exact .refl c

omit hp in
theorem portAt_pairCompare (same : Bool) (c : Chip) : portAt (pairCompare p same c) p = portAt c p := by
  unfold pairCompare
  dsimp only
  split
  · split
    · rfl
    · split
      · split <;> rfl
      · rfl
  · rfl

/-- The chip once an authenticated beacon is noted. -/
def beaconNoted (p : Nat) (m : CtlMsg) (c : Chip) : Chip :=
  let b := m.body
  let c := objSet 0x2601 0x04 p (numAt b 8 8) (objSet 0x2601 0x05 p (numAt b 2 1 * 256 + numAt b 1 1) c)
  let c := objSet 0x2601 0x06 p (numAt b 4 4) (blobSet 0x2601 0x07 p (bytesAt b 0x10 32) c)
  let s := portAt c p
  let c := setPort p { s with beacon := true, peerRole := numAt b 3 1, peerState := numAt b 0x38 1
                              stage := if s.stage = .beacons then .up else s.stage } c
  if s.stage = .beacons then objBump 0x2601 0x10 p 1 c else c

omit hp in
theorem beaconIn_notes {m : CtlMsg} {d : Chip} {same : Bool} (hx : takeMsg p 1 c = some (m, d)) (hl : m.body.length = 64)
    (hv : numAt m.body 0 1 = 1) (hr : numAt m.body 3 1 < 16) (hz : numAt m.body 0x39 7 = 0) (hk : m.keyed = true) :
    beaconIn p same c = pairCompare p same (wiringApply p (wiringResult (beaconNoted p m d) p m.body) (beaconNoted p m d)) := by
  simp only [beaconIn, hx, hl, hv, hz, hk, Nat.div_eq_of_lt hr, ne_eq, not_true_eq_false, decide_false, Bool.or_self, Bool.false_eq_true, if_false,
    Bool.not_true, beaconNoted]

theorem beaconNoted_beacon (m : CtlMsg) (c : Chip) : (portAt (beaconNoted p m c) p).beacon = true := by
  unfold beaconNoted
  dsimp only
  split
  · exact congrArg PortSt.beacon ((portAt_of_link (objBump_link ..) p).trans (portAt_setPort hp ..))
  · exact congrArg PortSt.beacon (portAt_setPort hp ..)

omit hp in
theorem beaconNoted_objs (m : CtlMsg) (c : Chip) : objGet (beaconNoted p m c) 0x2601 0x04 p = numAt m.body 8 8 ∧
    objGet (beaconNoted p m c) 0x2601 0x05 p = numAt m.body 2 1 * 256 + numAt m.body 1 1 ∧
    objGet (beaconNoted p m c) 0x2601 0x06 p = numAt m.body 4 4 := by
  have hkeep : ∀ k, k % 256 ≠ 16 → objGet (beaconNoted p m c) 0x2601 k p = objGet (objSet 0x2601 0x06 p (numAt m.body 4 4)
      (objSet 0x2601 0x04 p (numAt m.body 8 8) (objSet 0x2601 0x05 p (numAt m.body 2 1 * 256 + numAt m.body 1 1) c))) 0x2601 k p := by
    intro k hk
    unfold beaconNoted
    dsimp only
    split
    · exact objGet_bump_ne _ _ (okey_ne_sub hk)
    · rfl
  rw [hkeep 4 (by decide), hkeep 5 (by decide), hkeep 6 (by decide), objGet_set_ne _ _ (okey_ne_sub (by decide)), objGet_set_same,
    objGet_set_ne _ _ (okey_ne_sub (by decide)), objGet_set_ne _ _ (okey_ne_sub (by decide)), objGet_set_same, objGet_set_same]
  exact ⟨rfl, rfl, rfl⟩

theorem beaconIn_shows {m : CtlMsg} {d : Chip} {same : Bool} (hx : takeMsg p 1 c = some (m, d)) (hl : m.body.length = 64) (hv : numAt m.body 0 1 = 1)
    (hr : numAt m.body 3 1 < 16) (hz : numAt m.body 0x39 7 = 0) (hk : m.keyed = true) :
    (portAt (beaconIn p same c) p).beacon = true ∧ objGet (beaconIn p same c) 0x2601 0x04 p = numAt m.body 8 8 ∧
    objGet (beaconIn p same c) 0x2601 0x05 p = numAt m.body 2 1 * 256 + numAt m.body 1 1 ∧
    objGet (beaconIn p same c) 0x2601 0x06 p = numAt m.body 4 4 := by
  rw [beaconIn_notes hx hl hv hr hz hk]
  refine ⟨?_, ?_⟩
  · rw [portAt_pairCompare, wiringApply_beacon hp, beaconNoted_beacon hp]
  · have hkeep : ∀ k, k = 4 ∨ k = 5 ∨ k = 6 →
        objGet (pairCompare p same (wiringApply p (wiringResult (beaconNoted p m d) p m.body) (beaconNoted p m d))) 0x2601 k p =
          objGet (beaconNoted p m d) 0x2601 k p := by
      intro k hk
      have hun := unclassed_marks (i := 0x2601) (k := k) (by decide)
      exact ((wiringApply_keeps hun (by simp [marks]; omega) (by simp [marks]; omega) (by simp [marks]) _ _).trans
        (pairCompare_keeps (by simp [marks]) same _)).get (by omega) p
    rw [hkeep 4 (.inl rfl), hkeep 5 (.inr (.inl rfl)), hkeep 6 (.inr (.inr rfl))]
    exact beaconNoted_objs m d

omit hp in
theorem beaconTimeout_due {k : Nat} (hk : (portAt c p).keyedAt = some k) (hb : (portAt c p).beacon = false) (ht : k + 100000000 ≤ c.tk.now) :
    beaconTimeout p c = wiringApply p 8 c := by
  simp only [beaconTimeout, hk, hb, ht, Bool.not_false, decide_true, Bool.and_self, if_true]

/-! The end of a retrain (R442). -/

omit hp in
theorem leaseRelease_releases {act : Activity} {obj : Nat} {e : LeaseEntry}
    (h : c.life.lease.holders.find? (fun e => e.act = act && e.obj == obj) = some e) : e ∈ (leaseRelease act obj c).life.lease.releases := by
  simp only [leaseRelease, h, List.mem_append, List.mem_singleton, or_true]

omit hp in
theorem retrainDone_served {e : LeaseEntry} {u : Nat} (he : c.life.lease.holders.find? (fun e => e.act = .lr && e.obj == p) = some e)
    (hu : cellsFind c.life.retrain p = some u) (hs : inService c p = true) :
    objGet (retrainDone p c) 0x2601 0x12 p = stOk ∧ e ∈ (retrainDone p c).life.lease.releases := by
  simp only [retrainDone, he, hu, hs, if_true]
  refine ⟨(objGet_of_objs (leaseRelease_objs ..) ..).trans (objGet_postStatus_same ..), leaseRelease_releases ?_⟩
  rw [postStatus_life]
  exact he

end

end Sys2Proof.Machine

namespace Sys2Proof.Proofs
open Sys2Proof Sys2Proof.Machine

/-- Settles O38. What a link's state shows leaves the objects a beacon, a wiring result or a lane switch wrote. -/
theorem linkUp : Obligations.LinkUp := by
  intro s p t hp
  dsimp only
  refine ⟨fun h => ⟨?_, ?_⟩, fun d hs hd hl he ht => ?_, fun hs he => ?_, fun lane ratio hr => ?_, fun lane ratio h1 h2 hf hl hb hs => ?_,
    fun lane count m d hx => ?_, fun hs => ?_, fun same m d hx hl hv hr hz hk => ?_, fun k hk hb ht => ?_, fun e u he hu hs => ?_⟩
  · refine gives_onChip (f := fun c => linkUpStart p true (atTime t c)) (onUnit_of_lt hp _ s) ?_
    rw [onto, objGet_settle, linkState, objGet_settle, portAt_of_link (settle_link _)]
    exact linkUpStart_locks (c := atTime t s.chip) hp h
  · refine gives_onChip (f := fun c => linkUpStart p false (atTime t c)) (onUnit_of_lt hp _ s) ?_
    rw [onto, portAt_of_link (settle_link _)]
    exact linkUpStart_fails (c := atTime t s.chip) hp h
  · refine gives_onChip (f := fun c => linkRetry p (atTime t c)) (onUnit_of_lt hp _ s) ?_
    rw [onto, linkState, objGet_settle, portAt_of_link (settle_link _), linkRetry_due (c := atTime t s.chip) hs hd hl he (le_atTime ht)]
    exact linkTrain_trains hp _
  · refine gives_onChip (f := fun c => if (portAt c p).stage = .down then atTime t c else linkDown p (atTime t c)) (onUnit_of_lt hp _ s) ?_
    rw [onto, linkState, objGet_settle, portAt_of_link (settle_link _), if_neg hs]
    rw [show portAt (linkDown p (atTime t s.chip)) p = _ from portAt_linkDown hp _]
    refine ⟨rfl, (linkState_linkDrop ..).trans (if_neg (Bool.eq_false_iff.1 he)), rfl, rfl, fun hu => droppedPort_doubles (c := atTime t s.chip) hu⟩
  · refine answers_onChip (f := fun c => if false || decide (10000 < ratio)
      then laneFault p lane false (objSet 0x2601 0x0F p (real32 ((ratio : Rat) / 1000000000)) c)
      else objSet 0x2601 0x0F p (real32 ((ratio : Rat) / 1000000000)) c) (onUnit_of_lt hp _ s) ?_
    simp only [Nat.not_lt.2 hr, decide_false, Bool.or_self, Bool.false_eq_true, if_false]
  · refine gives_onChip (f := fun c => laneFault p lane true (objSet 0x2601 0x0F p (real32 ((ratio : Rat) / 1000000000)) c)) (onUnit_of_lt hp _ s) ?_
    have ho : ∀ k, k % 256 ≠ 15 → objGet (objSet 0x2601 0x0F p (real32 ((ratio : Rat) / 1000000000)) s.chip) 0x2601 k p = objGet s.chip 0x2601 k p :=
      fun k hk => objGet_set_ne _ _ (okey_ne_sub hk)
    rw [onto, objGet_settle, objGet_settle, ← ho 2 (by decide)]
    exact laneFault_lost h1 h2 hf hl (by rw [ho 2 (by decide)]; exact hb) (by rw [ho 3 (by decide)]; exact hs)
  · refine answers_onChip (f := fun c => match takeMsg p 2 c with
      | none => c
      | some (_, c) => laneDue p (setPort p { portAt c p with txLane := some (lane, count) } c)) (onUnit_of_lt hp _ s) ?_
    simp only [hx]
  · exact answers_onChip (f := beaconSend p) (onUnit_of_lt hp _ s) (by simp only [beaconSend, hs])
  · refine gives_onChip (f := fun c => beaconIn p same (atTime t c)) (onUnit_of_lt hp _ s) ?_
    rw [onto, objGet_settle, objGet_settle, objGet_settle, portAt_of_link (settle_link _)]
    exact beaconIn_shows (c := atTime t s.chip) hp hx hl hv hr hz hk
  · refine gives_onChip (f := fun c => beaconTimeout p (atTime t c)) (onUnit_of_lt hp _ s) ?_
    rw [onto, objGet_settle, beaconTimeout_due (c := atTime t s.chip) hk hb (le_atTime ht)]
    exact wiringApply_result ..
  · refine gives_onChip (f := fun c => retrainDone p (atTime t c)) (onUnit_of_lt hp _ s) ?_
    rw [onto, objGet_settle, settle_life]
    exact retrainDone_served (c := atTime t s.chip) he hu hs

end Sys2Proof.Proofs

/-! SUPPORT. Timed words and probes of a Stomar port (R292-R294, R297). -/

namespace Sys2Proof.Machine

section
variable {c : Chip} {p e j : Nat} {en : SchedEntry}

/-! Words that leave (R24, R292). -/

section
variable (hp : p < 7) (ha : armedEntry c p e false = some en) (hj : j < en.count)
include hp ha hj

/-- The word that has come to a transmit slot's edge port. -/
def slotArrived (c : Chip) (p : Nat) (en : SchedEntry) (j : Nat) : Option EdgeWord :=
  c.grid.edge.find? (fun w => w.port == stomarEdge p (wordPlace en j).2 && w.fc == (wordPlace en j).1)

theorem timedTransmit_sends {d : W256} {poison invalid : Bool} (hw : slotWord c en (slotArrived c p en j) = some (d, poison, invalid))
    (hs : inService c p = true) (hh : hashAt c p = true) :
    (portAt (timedTransmit p e j c) p).timedOut = (portAt c p).timedOut ++
      [{ tick := c.tk.tick, idx := wordIndex c p en j, data := d, poison := poison, invalid := invalid }] ∧
    (timedTransmit p e j c).grid.edge = (match slotArrived c p en j with | some w => c.grid.edge.erase w | none => c.grid.edge) := by
  unfold slotArrived at hw ⊢
  have hs' : ∀ g : Grid, inService { c with grid := g } p = true := fun _ => hs
  have hh' : ∀ g : Grid, hashAt { c with grid := g } p = true := fun _ => hh
  simp only [timedTransmit, ha, Nat.not_le.2 hj, if_false, hw, hs', hh', Bool.not_true, Bool.or_self, Bool.false_eq_true]
  exact ⟨congrArg PortSt.timedOut (portAt_setPort (by omega) ..), rfl⟩

omit hp in
theorem timedTransmit_foreign (hh : hashAt c p = false) : portAt (timedTransmit p e j c) p = portAt c p := by
  have hh' : ∀ g : Grid, hashAt { c with grid := g } p = false := fun _ => hh
  simp only [timedTransmit, ha, Nat.not_le.2 hj, if_false]
  split
  · rfl
  · simp only [hh', Bool.not_false, Bool.or_true, if_true]
    rfl

end

theorem slotWord_muted (h : slotMuted c en = true) (a : Option EdgeWord) : slotWord c en a = some (0, false, true) := if_pos h

theorem slotWord_arrived (h : slotMuted c en = false) (w : EdgeWord) : slotWord c en (some w) = some (w.data, w.poison, w.invalid) :=
  if_neg (Bool.eq_false_iff.1 h)

/-! Words that are released (R293, R294). -/

/-- The port once word j of a receive entry has been released. -/
def releasedPort (c : Chip) (p : Nat) (en : SchedEntry) (j : Nat) : Chip :=
  let i := wordIndex c p en j
  let v := portAt c p
  setPort p { v with timedIn := v.timedIn.filter (fun w => w.tick == c.tk.tick && w.idx != i), rxTick := c.tk.tick
                     rxIdx := max (i + 1) (if v.rxTick = c.tk.tick then v.rxIdx else 0) } c

section
variable (ha : armedEntry c p e true = some en) (hj : j < en.count)
include ha hj

theorem timedRelease_stopped (hs : entryStopped c en = true) :
    timedRelease p e j c = portDeliverI (stomarEdge p (wordPlace en j).2) (wordPlace en j).1 { data := 0 } true (releasedPort c p en j) := by
  simp only [timedRelease, ha, Nat.not_le.2 hj, if_false, hs, if_true, releasedPort]

theorem timedRelease_arrived {w : TimedWord} (hs : entryStopped c en = false)
    (hw : (portAt c p).timedIn.find? (fun w => w.tick == c.tk.tick && w.idx == wordIndex c p en j) = some w) :
    timedRelease p e j c =
      portDeliverI (stomarEdge p (wordPlace en j).2) (wordPlace en j).1 { data := w.data, poison := w.poison } w.invalid (releasedPort c p en j) := by
  simp only [timedRelease, ha, Nat.not_le.2 hj, if_false, hs, Bool.false_eq_true, hw, releasedPort]

theorem timedRelease_missing (hs : entryStopped c en = false)
    (hw : (portAt c p).timedIn.find? (fun w => w.tick == c.tk.tick && w.idx == wordIndex c p en j) = none) :
    timedRelease p e j c = portDeliverI (stomarEdge p (wordPlace en j).2) (wordPlace en j).1 { data := 0, poison := true } false
      (objBump 0x2601 0x0D p 1 (releasedPort c p en j)) := by
  simp only [timedRelease, ha, Nat.not_le.2 hj, if_false, hs, Bool.false_eq_true, hw, releasedPort]

end

end

/-- What a probe's answer leaves (R297). -/
def probeAnswered (p rtt : Nat) (c : Chip) : Chip := match takeMsg p 4 c with
  | none => c
  | some (_, c) => sendMsg p 4 0 (Config.msgBody 4 [c.tk.now]) (setPort p { portAt c p with delay := rtt / 2 } c)

theorem probeAnswered_delay {c d : Chip} {p : Nat} {m : CtlMsg} (hp : p < 8) (hx : takeMsg p 4 c = some (m, d)) (rtt : Nat) :
    (portAt (probeAnswered p rtt c) p).delay = rtt / 2 := by
  obtain ⟨ws, hws⟩ := portAt_sendMsg hp 4 0 (Config.msgBody 4 [d.tk.now]) (setPort p { portAt d p with delay := rtt / 2 } d)
  simp only [probeAnswered, hx]
  rw [hws, portAt_setPort hp]

end Sys2Proof.Machine

namespace Sys2Proof.Proofs
open Sys2Proof Sys2Proof.Machine

/-- Settles O39. A transmit slot sends the word its edge port holds, or the muted one. -/
theorem timedTransfers : Obligations.TimedTransfers := by
  intro s p e j en hp
  dsimp only
  refine ⟨fun ha hj hs hh => ⟨fun w hw hm => ?_, fun hm => ?_⟩, fun ha hj hh => ?_, fun ha hj => ⟨fun hs => ?_, fun w hs hw => ?_, fun hs hw => ?_⟩,
    fun m d rtt hx => ?_⟩
  · refine gives_onChip (f := timedTransmit p e j) (onUnit_of_lt hp _ s) ?_
    have hw' : slotArrived s.chip p en j = some w := hw
    obtain ⟨ht, he⟩ := timedTransmit_sends hp ha hj (by rw [hw']; exact slotWord_arrived hm w) hs hh
    rw [onto, portAt_of_link (settle_link _), settle_grid, he, hw']
    exact ⟨ht, rfl⟩
  · refine gives_onChip (f := timedTransmit p e j) (onUnit_of_lt hp _ s) ?_
    rw [onto, portAt_of_link (settle_link _)]
    exact (timedTransmit_sends hp ha hj (slotWord_muted hm _) hs hh).1
  · refine gives_onChip (f := timedTransmit p e j) (onUnit_of_lt hp _ s) ?_
    rw [onto, portAt_of_link (settle_link _), timedTransmit_foreign ha hj hh]
  · exact answers_onChip (f := timedRelease p e j) (onUnit_of_lt hp _ s) (timedRelease_stopped ha hj hs)
  · exact answers_onChip (f := timedRelease p e j) (onUnit_of_lt hp _ s) (timedRelease_arrived ha hj hs hw)
  · exact answers_onChip (f := timedRelease p e j) (onUnit_of_lt hp _ s) (timedRelease_missing ha hj hs hw)
  · refine gives_onChip (f := probeAnswered p rtt) (onUnit_of_lt hp _ s) ?_
    rw [onto, portAt_of_link (settle_link _)]
    exact probeAnswered_delay (by omega) hx rtt

end Sys2Proof.Proofs

/-! SUPPORT. Tokens, busy-dones, forwarded commands, loss and join of a domain (R297-R303). -/

namespace Sys2Proof.Machine

section
variable {c d : Chip} {p kind : Nat} {m : CtlMsg}

/-! A taken message leaves all but its port. -/

theorem domSize_takeMsg (h : takeMsg p kind c = some (m, d)) : domSize d = domSize c := by rw [takeMsg_some h]; rfl

theorem domState_takeMsg (h : takeMsg p kind c = some (m, d)) : domState d = domState c := by rw [takeMsg_some h]; rfl

theorem dom_takeMsg (h : takeMsg p kind c = some (m, d)) : d.link.dom = c.link.dom := by rw [takeMsg_some h]; rfl

theorem tk_takeMsg (h : takeMsg p kind c = some (m, d)) : d.tk = c.tk := by rw [takeMsg_some h]; rfl

/-! The token that comes (R297, R298, R300). -/

theorem domState_of_objs (h : d.objs = c.objs) : domState d = domState c := objGet_of_objs h ..

theorem domState_settle (s : State) : domState (settle s).chip = domState s.chip := domState_of_objs (settle_objs s)

theorem showToken_state (t : Token) (c : Chip) : domState (showToken t c) = domState c := by
  have hmem : KeepsObjs (marks 0x2610 2) c (showToken t c) := by
    unfold showToken setPresent
    dsimp only
    exact ((((KeepsObjs.refl c).set rfl).set rfl).set rfl).trans (.foldl _ (fun c q => (KeepsObjs.refl c).set rfl) _ _)
  exact hmem.get (by omega) 0

theorem showToken_link (t : Token) (c : Chip) : (showToken t c).link = c.link := by
  unfold showToken
  exact foldl_keeps (α := Nat) Chip.link (f := fun c q => objSet 0x2612 (q + 1) 0 (t.members.getD q 0xFF) c) (fun _ _ => rfl) _ _

theorem showToken_tk (t : Token) (c : Chip) : (showToken t c).tk = c.tk := by
  unfold showToken
  exact foldl_keeps (α := Nat) Chip.tk (f := fun c q => objSet 0x2612 (q + 1) 0 (t.members.getD q 0xFF) c) (fun _ _ => rfl) _ _

theorem needWake_link (c : Chip) : (needWake c).link = c.link := by unfold needWake; split <;> rfl

theorem needWake_tk (c : Chip) : (needWake c).tk = c.tk := by unfold needWake; split <;> rfl

theorem needWake_objs (c : Chip) : (needWake c).objs = c.objs := by unfold needWake; split <;> rfl

/-- A domain that forms is formed. -/
def formedNow (c : Chip) : Chip := if domState c == 1 then setDomState 2 c else c

/-- The token's wake. -/
def wokenBy (t : Token) (c : Chip) : Chip := if t.wake then needWake c else c

/-- What a token that is taken shows: a domain that forms is formed, the token's wake and its objects. -/
def tokenShown (t : Token) (c : Chip) : Chip :=
  let c := wokenBy t (formedNow c)
  if inDomain c then showToken t c else c

theorem formedNow_keeps (c : Chip) : (formedNow c).link = c.link ∧ (formedNow c).tk = c.tk := by
  unfold formedNow
  split <;> exact ⟨rfl, rfl⟩

theorem wokenBy_keeps (t : Token) (c : Chip) : (wokenBy t c).link = c.link ∧ (wokenBy t c).tk = c.tk ∧ (wokenBy t c).objs = c.objs := by
  unfold wokenBy
  split
  · exact ⟨needWake_link c, needWake_tk c, needWake_objs c⟩
  · exact ⟨rfl, rfl, rfl⟩

theorem tokenShown_keeps (t : Token) (c : Chip) : (tokenShown t c).link = c.link ∧ (tokenShown t c).tk = c.tk := by
  have hlink : (wokenBy t (formedNow c)).link = c.link := (wokenBy_keeps t _).1.trans (formedNow_keeps c).1
  have htk : (wokenBy t (formedNow c)).tk = c.tk := (wokenBy_keeps t _).2.1.trans (formedNow_keeps c).2
  unfold tokenShown
  dsimp only
  split
  · exact ⟨(showToken_link ..).trans hlink, (showToken_tk ..).trans htk⟩
  · exact ⟨hlink, htk⟩

theorem tokenShown_forms (t : Token) (h : domState c = 1) : domState (tokenShown t c) = 2 := by
  have hw : domState (wokenBy t (formedNow c)) = 2 := by
    rw [domState_of_objs (wokenBy_keeps t _).2.2, formedNow, h]
    exact objGet_set_same ..
  unfold tokenShown
  dsimp only
  split
  · exact (showToken_state ..).trans hw
  · exact hw

theorem steer_state (p n : Nat) (c : Chip) : domState (steer p n c) = domState c :=
  ((((KeepsObjs.refl c).set rfl).set rfl : KeepsObjs (marks 0x2610 2) c (objSet 0x2610 0x06 0 _ (objSet 0x2610 0x07 0 _ c)))).get (by omega) 0

/-- A token relayed on the other domain ports. -/
def tokenRelayed (port : Nat) (m : CtlMsg) (c : Chip) : Chip :=
  ((domPorts c).filter (· != port)).foldl (fun c p => sendMsg p 0x10 (serialAt c p) m.body c) c

theorem tokenRelayed_keeps (port : Nat) (m : CtlMsg) (c : Chip) : (tokenRelayed port m c).objs = c.objs ∧ (tokenRelayed port m c).tk = c.tk :=
  ⟨foldl_keeps Chip.objs (fun _ _ => by rw [sendMsg_link]) _ _, foldl_keeps Chip.tk (fun _ _ => by rw [sendMsg_link]) _ _⟩

/-- The clock on a token: a member that forms, or joins, takes the leader's tick; any other one steers to it. -/
def tokenTimed (port : Nat) (t : Token) (lead : Nat) (c : Chip) : Chip :=
  let adopt := domState c == 1 || (c.link.dom.join && !inDomain c)
  if adopt then
    let c := setDom { c.link.dom with offset := (t.fire - lead + (portAt c port).delay : Nat) - (c.tk.now : Int) } c
    { c with tk := { c.tk with tick := t.tick - 1, fresh := false } }
  else steer port (t.fire - lead) c

theorem tokenTimed_state (port : Nat) (t : Token) (lead : Nat) (c : Chip) : domState (tokenTimed port t lead c) = domState c := by
  unfold tokenTimed
  dsimp only
  split
  · rfl
  · exact steer_state ..

theorem tokenTimed_adopts (port : Nat) (t : Token) (lead : Nat) (h : domState c = 1) : (tokenTimed port t lead c).tk.tick = t.tick - 1 := by
  simp only [tokenTimed, h, beq_self_eq_true, Bool.true_or, if_true]

theorem tokenIn_takes {port lead : Nat} {t : Token} (hp : port < 7) (hx : takeMsg port 0x10 c = some (m, d)) (hs : 2 ≤ domSize c)
    (ht : c.link.dom.token = none) : tokenIn port t lead c =
      let mid := tokenTimed port t lead (tokenRelayed port m d)
      tokenShown t (setDom { mid.link.dom with token := some t, fire := localFire mid t.fire } mid) := by
  have hs' : ¬ domSize d < 2 := by rw [domSize_takeMsg hx]; omega
  have ht' : d.link.dom.token = none := by rw [dom_takeMsg hx, ht]
  unfold tokenIn
  rw [hx]
  refine (if_neg ?_).trans rfl
  simp only [ht', hs', hp.ne, decide_false, Bool.or_self, Bool.false_eq_true, not_false_eq_true]

theorem tokenIn_stands {port lead : Nat} {t : Token} (hp : port < 7) (hx : takeMsg port 0x10 c = some (m, d)) (hs : 2 ≤ domSize c)
    (ht : c.link.dom.token = none) : (tokenIn port t lead c).link.dom.token = some t ∧
      (domState c = 1 → domState (tokenIn port t lead c) = 2 ∧ (tokenIn port t lead c).tk.tick = t.tick - 1) := by
  have hrel : domState (tokenRelayed port m d) = domState c := (domState_of_objs (tokenRelayed_keeps ..).1).trans (domState_takeMsg hx)
  rw [tokenIn_takes hp hx hs ht]
  dsimp only
  refine ⟨?_, fun h => ⟨tokenShown_forms t ?_, ?_⟩⟩
  · rw [(tokenShown_keeps ..).1]
    rfl
  · exact (tokenTimed_state ..).trans (hrel.trans h)
  · rw [(tokenShown_keeps ..).2]
    exact tokenTimed_adopts _ _ _ (hrel.trans h)

theorem tokenSend_due (hl : isLeader c = true) (ha : alone c = false) (ht : tokenReady c = false) (hb : c.tk.busyEnded = true)
    (hall : allBusy c = true) (hf : fireTime c ≤ c.tk.now + 1000) : tokenSend c = sendToken (c.tk.now + 1000) c := by
  have hfire : (if c.tk.now + 1000 = fireTime c then fireTime c else c.tk.now + 1000) = c.tk.now + 1000 := by split <;> omega
  simp only [tokenSend, hl, ha, ht, hb, hall, Nat.not_lt.2 hf, Bool.not_true, decide_false, Bool.or_self, Bool.false_eq_true, if_false, hfire]

/-! Busy-dones and forwarded commands (R299, R300). -/

theorem busyIn_kept {pos : Nat} {b : BusyDone} (h8 : pos < 8) (hp : pos ≠ myPos c) (hx : takeMsg (portToward c pos) 0x11 c = some (m, d))
    (hb : b.tick = c.tk.tick) : cellsFind (busyIn pos b c).link.dom.busy pos = some b := by
  have hb' : b.tick = d.tk.tick := by rw [tk_takeMsg hx, hb]
  simp only [busyIn, hp, Nat.not_le.2 h8, decide_false, Bool.or_self, Bool.false_eq_true, if_false, hx, hb', if_true, setDom]
  exact cellsFind_put_same ..

theorem forwardedIn_judged {port : Nat} {x : DomCmd} (hx : takeMsg port 0x12 c = some (m, d)) (hl : isLeader d = true) :
    forwardedIn port x c = sendMsg port 0x13 (serialAt (showUnsettled (leaderAccept x d).1) port)
      (Config.msgBody 0x13 [x.idx, x.sub, x.inst, x.value, (leaderAccept x d).2]) (showUnsettled (leaderAccept x d).1) := by
  simp only [forwardedIn, hx, hl, Bool.not_true, Bool.false_eq_true, if_false]

theorem forwardedIn_passed {port : Nat} {x : DomCmd} (hx : takeMsg port 0x12 c = some (m, d)) (hl : isLeader d = false) :
    forwardedIn port x c = d := by
  simp only [forwardedIn, hx, hl, Bool.not_false, if_true]

theorem forwardedStatus_posts {port st : Nat} {x y : DomCmd} (hx : takeMsg port 0x13 c = some (m, d)) (hst : st ≠ stPending)
    (hf : d.link.dom.asked.find? (fun y => y.idx == x.idx && y.sub == x.sub && y.inst == x.inst && y.value == x.value) = some y) :
    objGet (forwardedStatus port x st c) (domStatus x).1 (domStatus x).2.1 (domStatus x).2.2 = st ∧
    (forwardedStatus port x st c).link.dom.asked = d.link.dom.asked.erase y := by
  simp only [forwardedStatus, hx, hf, hst, ne_eq, not_false_eq_true, if_true]
  exact ⟨objGet_postStatus_same .., by rw [postStatus_link]; rfl⟩

/-- The decisions a member takes over (R255, R307). -/
def decisionsTaken (p : Plan) (pst : List (Nat × Nat × Nat)) (moves : List LaneMove) (c : Chip) : Chip :=
  let c := pst.foldl (fun c x => if x.1 < 2048 then setPst x.1 x.2.1 x.2.2 c else c) c
  writeBinds p (setServ { c.serv with moves := c.serv.moves ++ moves } c)

theorem applyDecisions_taken {port : Nat} {adms pst : List (Nat × Nat × Nat)} {moves : List LaneMove} {p : Plan}
    (hx : takeMsg port 0x14 c = some (m, d)) (hp : c.plan.loaded = some p) (hph : c.tk.phase = .ac1536)
    (hf : follows d = false ∨ port ≠ pairPath d) : applyDecisions port adms pst moves c = decisionsTaken p pst moves d := by
  have hph' : d.tk.phase = .ac1536 := by rw [tk_takeMsg hx, hph]
  have hf' : ¬ (follows d && decide (port = pairPath d)) = true := by
    rcases hf with h | h <;> simp [h]
  unfold applyDecisions
  rw [hx, hp]
  exact (if_neg (not_not.2 hph')).trans (if_neg hf')

/-! Forming, loss and join (R298, R302, R303). -/

theorem domainFormed_ready (hr : domReady c = true) (hi : inDomain c = false) (hs : domState c ≠ 1) :
    domState (domainFormed c) = (if myPos c = 0 then 2 else 1) ∧ presentMask (domainFormed c) = 2 ^ domSize c - 1 ∧ leaderPos (domainFormed c) = 0 := by
  have hset : ∀ (st : Nat) (d : Chip), d = setDomState st (objSet 0x2610 0x03 0 0 (setPresent (2 ^ domSize c - 1) c)) ∨
      (∃ v : DomainSt, d = setDomState st (objSet 0x2610 0x03 0 0 (setPresent (2 ^ domSize c - 1) (setDom v c)))) →
      domState d = st ∧ presentMask d = 2 ^ domSize c - 1 ∧ leaderPos d = 0 := by
    intro st d hd
    rcases hd with hd | ⟨v, hd⟩ <;> rw [hd] <;>
      exact ⟨objGet_set_same .., (objGet_set_ne _ _ (okey_ne_sub (by decide))).trans ((objGet_set_ne _ _ (okey_ne_sub (by decide))).trans
        (objGet_set_same ..)), (objGet_set_ne _ _ (okey_ne_sub (by decide))).trans (objGet_set_same ..)⟩
  simp only [domainFormed, hr, hi, hs, Bool.not_true, decide_false, Bool.or_self, Bool.false_eq_true, if_false]
  by_cases h0 : myPos c = 0
  · rw [if_pos h0, if_pos h0]
    exact hset 2 _ (.inr ⟨_, rfl⟩)
  · rw [if_neg h0, if_neg h0]
    exact hset 1 _ (.inl rfl)

/-- The objects 2610 of a domain's state, which the log does not write. -/
theorem logRec_domain (sv sr : Nat) (e : LogEv) (ids : List Nat) (k : Nat) (c : Chip) : objGet (logRec sv sr e ids c) 0x2610 k 0 = objGet c 0x2610 k 0 :=
  objGet_log_idx _ _ _ _ _ _ _ (by decide) (by decide)

theorem memberLost_due {pos : Nat} {b : BusyDone} (hl : isLeader c = true) (hp : pos ≠ myPos c) (hi : isPresent c pos = true)
    (hb : cellsFind c.link.dom.busy pos = some b) (hbt : b.tick ≠ c.tk.tick) (ht : tokenReady c = false) (hd : lossDue c = true) :
    presentMask (memberLost pos c) = presentMask c - 2 ^ pos ∧ domState (memberLost pos c) = 3 ∧ pos ∈ (memberLost pos c).link.dom.lost := by
  have he : memberLost pos c = logRec 2 srcLinks .memberLost [pos] (alertLater 6 (objBump 0x2610 0x0A 0 1 (setDomState 3
      (setDom { c.link.dom with lost := c.link.dom.lost ++ [pos] } (setPresent (presentMask c - 2 ^ pos) c))))) := by
    simp only [memberLost, hl, hp, hi, hb, bne_iff_ne.2 hbt, ht, hd, Bool.not_true, decide_false, Bool.or_self, Bool.false_eq_true, if_false]
  rw [he, presentMask, domState, logRec_domain, logRec_domain, logRec_link]
  exact ⟨(objGet_bump_ne _ _ (okey_ne_sub (by decide))).trans ((objGet_set_ne _ _ (okey_ne_sub (by decide))).trans (objGet_set_same ..)),
    (objGet_bump_ne _ _ (okey_ne_sub (by decide))).trans (objGet_set_same ..), List.mem_append_right _ (List.mem_singleton.2 rfl)⟩

/-- The lowest position that a member still reaches leads. -/
def newLeader (reach : List Nat) (c : Chip) : Nat :=
  ((reach.filter (fun q => q < domSize c && q != leaderPos c)) ++ [myPos c]).foldl min (myPos c)

/-- The positions that a member still reaches are the members present. -/
def reachedMask (reach : List Nat) (c : Chip) : Nat :=
  ((reach.filter (fun q => q < domSize c && q != leaderPos c)) ++ [myPos c]).dedup.foldl (fun m q => m ||| 2 ^ q) 0

theorem leaderLost_due {reach : List Nat} (hi : inDomain c = true) (hl : isLeader c = false) (ht : tokenReady c = false) (hd : lossDue c = true)
    (hb : c.tk.busyEnded = false) : domState (leaderLost reach c) = 3 ∧ leaderPos (leaderLost reach c) = newLeader reach c := by
  have he : leaderLost reach c = logRec 2 srcLinks .leaderLost [newLeader reach c] (alertLater 6 (objBump 0x2610 0x09 0 1
      (setPresent (reachedMask reach c) (setDomState 3 (objSet 0x2610 0x03 0 (newLeader reach c) c))))) := by
    simp only [leaderLost, hi, hl, ht, hd, Bool.not_true, Bool.or_self, Bool.false_eq_true, if_false, logRec_tk, alertLater_tk, objBump_tk,
      setPresent, setDomState, objSet_tk, hb, Bool.and_false, newLeader, reachedMask]
  generalize newLeader reach c = n at he ⊢
  have hlead : leaderPos (leaderLost reach c) = n := by
    rw [he, leaderPos, logRec_domain]
    exact (objGet_bump_ne _ _ (okey_ne_sub (by decide))).trans ((objGet_set_ne _ _ (okey_ne_sub (by decide))).trans
      ((objGet_set_ne _ _ (okey_ne_sub (by decide))).trans (objGet_set_same ..)))
  refine ⟨?_, hlead⟩
  rw [he, domState, logRec_domain]
  exact (objGet_bump_ne _ _ (okey_ne_sub (by decide))).trans ((objGet_set_ne _ _ (okey_ne_sub (by decide))).trans (objGet_set_same ..))

theorem memberJoin_admits {pos : Nat} (hph : c.tk.phase = .ac0) (ha : c.tk.tick % startAlign c = 0) (hp : pos ≠ myPos c) (hl : isLeader c = true)
    (hj : c.link.dom.joining.contains pos = true) (hw : wiredTo c (portToward c pos) = true) :
    presentMask (memberJoin pos c) = (presentMask c ||| 2 ^ pos) ∧ pos ∉ (memberJoin pos c).link.dom.joining := by
  have he : ∃ (st : Nat) (v : DomainSt), v.joining = c.link.dom.joining.filter (· != pos) ∧ memberJoin pos c =
      logRec 0 srcLinks .memberJoined [pos] (setDomState st (setPresent (presentMask c ||| 2 ^ pos) (setDom v c))) := by
    simp only [memberJoin, hph, ha, hp, hl, hj, hw, ne_eq, not_true_eq_false, decide_false, Bool.or_self, Bool.false_eq_true, if_false, Bool.and_self,
      if_true]
    exact ⟨_, _, rfl, rfl⟩
  obtain ⟨st, v, hv, he⟩ := he
  rw [he, presentMask, logRec_domain, logRec_link]
  refine ⟨(objGet_set_ne _ _ (okey_ne_sub (by decide))).trans (objGet_set_same ..), ?_⟩
  show pos ∉ v.joining
  rw [hv]
  simp

theorem commandLatch_due (hi : inDomain c = true) (hf : fireTime c ≤ c.tk.now + 2000) :
    commandLatch c = setDom { c.link.dom with latched := true } c := by
  simp only [commandLatch, hi, hf, decide_true, Bool.and_self, if_true]

end

end Sys2Proof.Machine

namespace Sys2Proof.Proofs
open Sys2Proof Sys2Proof.Machine

/-- Settles O40. A message taken leaves the domain's state as it was; each clause is then the branch its hypotheses choose. -/
theorem domainEvents : Obligations.DomainEvents := by
  intro s t
  dsimp only
  refine ⟨fun port tok lead m d hp hx hs ht => ?_, fun hl ha ht hb hall hf => ?_, fun pos b m d h8 hp hx hb => ?_,
    fun port d m e hp hx => ⟨fun hl => ?_, fun hl => ?_⟩, fun port d st m e x hp hx hst hf => ?_,
    fun port adms pst moves p m e hp hx hl hph hf => ?_, fun hr hi hs => ?_, fun pos b hl hp hi hb hbt ht hd => ?_, fun reach hi hl ht hd hb => ?_,
    fun pos hph ha hp hl hj hw => ?_, fun hi hf => ?_⟩
  · refine gives_onChip (f := fun c => tokenIn port tok lead (atTime t c)) (onUnit_of_lt (by omega) _ s) ?_
    rw [onto, domState_settle, settle_link, settle_tk]
    exact tokenIn_stands (c := atTime t s.chip) hp hx hs ht
  · exact answers_onChip (f := fun c => tokenSend (atTime t c)) rfl (tokenSend_due (c := atTime t s.chip) hl ha ht hb hall hf)
  · refine gives_onChip (f := busyIn pos b) rfl ?_
    rw [onto, settle_link]
    exact busyIn_kept h8 hp hx hb
  · exact answers_onChip (f := forwardedIn port d) (onUnit_of_lt hp _ s) (forwardedIn_judged hx hl)
  · exact answers_onChip (f := forwardedIn port d) (onUnit_of_lt hp _ s) (forwardedIn_passed hx hl)
  · refine gives_onChip (f := forwardedStatus port d st) (onUnit_of_lt hp _ s) ?_
    rw [onto, objGet_settle, settle_link]
    exact forwardedStatus_posts hx hst hf
  · exact answers_onChip (f := applyDecisions port adms pst moves) (onUnit_of_lt hp _ s) (applyDecisions_taken hx hl hph hf)
  · refine gives_onChip (f := fun c => domainFormed (atTime t c)) rfl ?_
    rw [onto, domState_settle, presentMask, leaderPos, objGet_settle, objGet_settle]
    exact domainFormed_ready (c := atTime t s.chip) hr hi hs
  · refine gives_onChip (f := fun c => memberLost pos (atTime t c)) rfl ?_
    rw [onto, domState_settle, presentMask, objGet_settle, settle_link]
    exact memberLost_due (c := atTime t s.chip) hl hp hi hb hbt ht hd
  · refine gives_onChip (f := fun c => leaderLost reach (atTime t c)) rfl ?_
    rw [onto, domState_settle, leaderPos, objGet_settle]
    exact leaderLost_due (c := atTime t s.chip) hi hl ht hd hb
  · refine gives_onChip (f := fun c => memberJoin pos (atTime t c)) rfl ?_
    rw [onto, presentMask, objGet_settle, settle_link]
    exact memberJoin_admits (c := atTime t s.chip) hph ha hp hl hj hw
  · exact answers_onChip (f := fun c => commandLatch (atTime t c)) rfl (commandLatch_due (c := atTime t s.chip) hi hf)

end Sys2Proof.Proofs

/-! SUPPORT. Heartbeats, takeover, captures and return of a redundant pair (R306-R311). -/

namespace Sys2Proof.Machine

section
variable {c d : Chip} {kind : Nat}

/-! What the pair's shared operations leave. -/

theorem takePeer_some (h : takePeer kind c = some d) : ∃ v, d = setPort (pairPath c) v c := by
  unfold takePeer at h
  split at h
  · cases h
  · obtain ⟨⟨m, e⟩, he, rfl⟩ := Option.map_eq_some_iff.1 h
    exact ⟨_, takeMsg_some he⟩

theorem pairRole_takePeer (h : takePeer kind c = some d) : pairRole d = pairRole c := by
  obtain ⟨v, rfl⟩ := takePeer_some h
  rfl

theorem lockstep_takePeer (h : takePeer kind c = some d) : lockstep d = lockstep c := by
  obtain ⟨v, rfl⟩ := takePeer_some h
  rfl

theorem tk_takePeer (h : takePeer kind c = some d) : d.tk = c.tk := by
  obtain ⟨v, rfl⟩ := takePeer_some h
  rfl

theorem pair_sendMsg (p kind dst : Nat) (body : List Byte) (c : Chip) : (sendMsg p kind dst body c).link.pair = c.link.pair := by
  unfold sendMsg
  dsimp only
  split <;> rfl

theorem pairShow_cases (c : Chip) : ∃ n, pairShow c = setPairState n c := by
  unfold pairShow
  dsimp only
  split
  · exact ⟨_, rfl⟩
  · split
    · exact ⟨_, rfl⟩
    · split
      · exact ⟨_, rfl⟩
      · split
        · exact ⟨_, rfl⟩
        · split <;> exact ⟨_, rfl⟩

theorem pairShow_link (c : Chip) : (pairShow c).link = c.link := by
  obtain ⟨n, h⟩ := pairShow_cases c
  rw [h]
  rfl

theorem objGet_pairShow {k : Nat} (hk : k % 256 ≠ 6) (c : Chip) : objGet (pairShow c) 0x2620 k 0 = objGet c 0x2620 k 0 := by
  obtain ⟨n, h⟩ := pairShow_cases c
  rw [h]
  exact objGet_set_ne _ _ (okey_ne_sub hk)

theorem holdOff_cases (c : Chip) : ∃ n v, holdOff c = objSet 0x2620 0x0A 0 n (setPair { c.link.pair with healthySince := v } c) := by
  unfold holdOff
  dsimp only
  split <;> exact ⟨_, _, rfl⟩

theorem objGet_holdOff {k : Nat} (hk : k % 256 ≠ 10) (c : Chip) : objGet (holdOff c) 0x2620 k 0 = objGet c 0x2620 k 0 := by
  obtain ⟨n, v, h⟩ := holdOff_cases c
  rw [h]
  exact objGet_set_ne _ _ (okey_ne_sub hk)

theorem takeoverDue_cases (c : Chip) : ∃ w, (takeoverDue c).link.pair = { c.link.pair with takeover := w } := by
  unfold takeoverDue
  dsimp only
  split
  · exact ⟨_, rfl⟩
  · split
    · exact ⟨_, rfl⟩
    · exact ⟨_, pair_sendMsg ..⟩

/-! Heartbeats (R309). -/

/-- What a heartbeat, or its absence, shows of the peer. -/
def PeerShown (beat : Option Nat) (active lost : Bool) (v : PairSt) : Prop := v.beat = beat ∧ v.peerActive = active ∧ v.peerLost = lost

theorem peerShown_takeover {b : Option Nat} {a l q : Bool} (h : PeerShown b a l c.link.pair) :
    PeerShown b a l (if q then takeoverDue c else c).link.pair := by
  split
  · obtain ⟨w, hw⟩ := takeoverDue_cases c
    rw [hw]
    exact h
  · exact h

theorem peerShown_holdOff {b : Option Nat} {a l : Bool} (h : PeerShown b a l c.link.pair) : PeerShown b a l (holdOff (pairShow c)).link.pair := by
  obtain ⟨n, v, hv⟩ := holdOff_cases (pairShow c)
  rw [hv, pairShow_link]
  exact h

/-- A primary that sees an active standby stops emitting. -/
def primaryYields (active : Bool) (c : Chip) : Chip :=
  if pairRole c = 1 && active && pairActive c && paired c then
    setActive false (setPair { c.link.pair with synced := false, healthySince := none } c) else c

theorem peerShown_yields {b : Option Nat} {a l : Bool} (active : Bool) (h : PeerShown b a l c.link.pair) :
    PeerShown b a l (primaryYields active c).link.pair := by
  unfold primaryYields
  split <;> exact h

theorem primaryYields_inactive (h1 : pairRole c = 1) (hp : paired c = true) : pairActive (primaryYields true c) = false := by
  unfold primaryYields
  split
  · exact beq_false_of_ne ((objGet_set_same ..).trans_ne (by decide))
  case isFalse h => simpa [h1, hp] using h

theorem heartbeatIn_shows {active relinq : Bool} (h : takePeer 0x20 c = some d) :
    PeerShown (some c.tk.now) active false (heartbeatIn active relinq c).link.pair ∧
    (pairRole c = 1 → active = true → paired d = true → pairActive (heartbeatIn active relinq c) = false) := by
  have he : ∃ d1 : Chip, d1 = setPair { d.link.pair with beat := some d.tk.now, peerActive := active, peerRelinquish := relinq, peerLost := false } d ∧
      heartbeatIn active relinq c = holdOff (pairShow (primaryYields active (if pairRole d1 = 2 && relinq then takeoverDue d1 else d1))) := by
    simp only [heartbeatIn, h, primaryYields]
    exact ⟨_, rfl, rfl⟩
  obtain ⟨d1, hd1, he⟩ := he
  have hshown : PeerShown (some c.tk.now) active false d1.link.pair := by
    rw [hd1, ← tk_takePeer h]
    exact ⟨rfl, rfl, rfl⟩
  rw [he]
  refine ⟨peerShown_holdOff (peerShown_yields _ (peerShown_takeover hshown)), fun h1 ha hp => ?_⟩
  have hrole : pairRole d1 = 1 := by rw [hd1]; exact (pairRole_takePeer h).trans h1
  have hpair : paired d1 = true := by rw [hd1]; exact hp
  rw [hrole, ha, pairActive, objGet_holdOff (by decide), objGet_pairShow (by decide)]
  exact primaryYields_inactive hrole hpair

theorem heartbeatTimeout_loses {b : Nat} (hb : c.link.pair.beat = some b) (hp : paired c = true) (hl : c.link.pair.peerLost = false)
    (ht : 2 * b + 3 * tickNs c ≤ 2 * c.tk.now) : PeerShown (some b) false true (heartbeatTimeout c).link.pair := by
  have he : ∃ (d1 : Chip) (q : Bool), d1 = setPair { c.link.pair with peerLost := true, peerActive := false, peerRelinquish := false } c ∧
      heartbeatTimeout c = holdOff (pairShow (if q then takeoverDue d1 else d1)) := by
    simp only [heartbeatTimeout, hb, hp, hl, Nat.not_lt.2 ht, Bool.not_true, decide_false, Bool.or_self, Bool.false_eq_true, if_false]
    exact ⟨_, _, rfl, rfl⟩
  obtain ⟨d1, q, hd1, he⟩ := he
  rw [he]
  refine peerShown_holdOff (peerShown_takeover ?_)
  rw [hd1]
  exact ⟨hb, rfl, rfl⟩

/-! A takeover (R309, R310). -/

theorem objGet_switched {k : Nat} (h8 : k % 256 ≠ 8) (h9 : k % 256 ≠ 9) (c : Chip) : objGet (switched c) 0x2620 k 0 = objGet c 0x2620 k 0 :=
  (objGet_log_idx _ _ _ _ _ _ _ (by decide) (by decide)).trans ((objGet_bump_ne _ _ (okey_ne_sub h8)).trans (objGet_set_ne _ _ (okey_ne_sub h9)))

theorem switched_records (c : Chip) : objGet (switched c) 0x2620 0x09 0 = c.tk.tick ∧
    objGet (switched c) 0x2620 0x08 0 = objGet (objBump 0x2620 0x08 0 1 c) 0x2620 0x08 0 := by
  refine ⟨(objGet_log_idx _ _ _ _ _ _ _ (by decide) (by decide)).trans ((objGet_bump_ne _ _ (okey_ne_sub (by decide))).trans (objGet_set_same ..)), ?_⟩
  refine (objGet_log_idx _ _ _ _ _ _ _ (by decide) (by decide)).trans ((objGet_bump_same ..).trans ?_)
  rw [objGet_set_ne _ _ (okey_ne_sub (by decide)), objGet_bump_same]

theorem takeoverNow_due {w : Nat} {p : Plan} (hw : c.link.pair.takeover = some w) (hp : c.plan.loaded = some p) (hl : lockstep c = true)
    (ht : w < c.tk.tick) (hpair : paired c = true) (hph : c.tk.phase = .ac0) (hm : c.tk.mode = .running) :
    pairActive (takeoverNow c) = true ∧ (takeoverNow c).link.pair.takeover = none ∧ objGet (takeoverNow c) 0x2620 0x09 0 = c.tk.tick ∧
    objGet (takeoverNow c) 0x2620 0x08 0 = objGet (objBump 0x2620 0x08 0 1 c) 0x2620 0x08 0 := by
  have he : ∃ (d : Chip) (n : Nat), d = setPair { c.link.pair with takeover := none, cmd := none, returnAt := none, finalAt := none } c ∧
      takeoverNow c = postStatus 0x2620 0x0C 0 n (pairShow (switched (setActive true d))) := by
    have hl' : ∀ v, lockstep (setPair v c) = true := fun v => hl
    simp only [takeoverNow, hw, hp, hl, hl', ht, hpair, hph, hm, ne_eq, not_true_eq_false, decide_true, decide_false, Bool.not_true, Bool.or_self,
      Bool.false_and, Bool.false_eq_true, if_false, if_true, Bool.true_or]
    exact ⟨_, _, rfl, rfl⟩
  obtain ⟨d, n, hd, he⟩ := he
  obtain ⟨h9, h8⟩ := switched_records (setActive true d)
  have hkeep : ∀ k, k % 256 ≠ 12 → k % 256 ≠ 6 → objGet (takeoverNow c) 0x2620 k 0 = objGet (switched (setActive true d)) 0x2620 k 0 := by
    intro k h12 h6
    rw [he, objGet_postStatus_ne _ _ (okey_ne_sub h12), objGet_pairShow h6]
  refine ⟨?_, ?_, ?_, ?_⟩
  · rw [pairActive, hkeep 7 (by decide) (by decide), objGet_switched (by decide) (by decide)]
    exact beq_iff_eq.2 (objGet_set_same ..)
  · rw [he, postStatus_link, pairShow_link, switched, logRec_link, hd]
    rfl
  · rw [hkeep 9 (by decide) (by decide), h9, hd]
    rfl
  · rw [hkeep 8 (by decide) (by decide), h8, objGet_bump_same, objGet_bump_same, setActive, objGet_set_ne _ _ (okey_ne_sub (by decide)), hd]
    rfl

/-! Captures (R306, R307). -/

theorem passAdd_cases (e k : Nat) (c : Chip) : ∃ l s, passAdd e k c = setPair { c.link.pair with pass := l } c ∨
    passAdd e k c = objSet 0x2621 0x04 0 k (setPair { c.link.pair with pass := l, synced := s } c) := by
  unfold passAdd
  dsimp only
  generalize (if c.link.pair.pass.contains e = true then c.link.pair.pass else c.link.pair.pass ++ [e]) = l
  split
  · exact ⟨_, _, .inr rfl⟩
  · exact ⟨l, c.link.pair.synced, .inl rfl⟩

theorem passAdd_pair (e k : Nat) (c : Chip) : (passAdd e k c).link.pair.sending = c.link.pair.sending ∧ (passAdd e k c).link.pair.store = c.link.pair.store := by
  obtain ⟨l, s, h | h⟩ := passAdd_cases e k c <;> rw [h] <;> exact ⟨rfl, rfl⟩

theorem passAdd_units (e k : Nat) (c : Chip) : (passAdd e k c).grid = c.grid ∧ (passAdd e k c).serv = c.serv := by
  obtain ⟨l, s, h | h⟩ := passAdd_cases e k c <;> rw [h] <;> exact ⟨rfl, rfl⟩

theorem objGet_passAdd (e k : Nat) (c : Chip) : objGet (passAdd e k c) 0x2621 0x01 0 = objGet c 0x2621 0x01 0 := by
  obtain ⟨l, s, h | h⟩ := passAdd_cases e k c <;> rw [h]
  · rfl
  · exact objGet_set_ne (setPair { c.link.pair with pass := l, synced := s } c) k (okey_ne_sub (by decide))

/-- An entry's capture sent with its digest. -/
def captureSent (p : Plan) (e : Nat) (m : MirrorEntry) (c : Chip) : Chip :=
  let data := captureOf p m c
  let c := setPair { c.link.pair with sending := c.link.pair.sending ++ [e] } c
  let c := sendMsg (pairPath c) 0x21 (objGet c 0x2620 0x02 0) (Config.msgBody 0x21 [e, c.tk.tick] ++ data) c
  sendMsg (pairPath c) 0x22 (objGet c 0x2620 0x02 0) (Config.msgBody 0x22 [e, c.tk.tick] ++ sha3Bytes data) c

theorem captureSent_keeps (p : Plan) (e : Nat) (m : MirrorEntry) (c : Chip) :
    (captureSent p e m c).link.pair.sending = c.link.pair.sending ++ [e] ∧ (captureSent p e m c).grid = c.grid ∧
    (captureSent p e m c).serv = c.serv ∧ (captureSent p e m c).objs = c.objs := by
  refine ⟨?_, ?_, ?_, ?_⟩
  · exact congrArg PairSt.sending ((pair_sendMsg ..).trans (pair_sendMsg ..))
  all_goals
    unfold captureSent
    dsimp only
    rw [sendMsg_link, sendMsg_link]
    rfl

theorem mirrorCapture_due {p : Plan} {e : Nat} {m : MirrorEntry} (hp : c.plan.loaded = some p) (hm : mirrorEntry p e = some m)
    (hpair : paired c = true) (hd : captureDue c m = true) (hk : m.kind ≠ 0) (hph : c.tk.phase = .ac0) (hf : c.fw.down = false)
    (hs : e ∉ c.link.pair.sending) :
    (mirrorCapture e c).link.pair.sending = c.link.pair.sending ++ [e] ∧ (mirrorCapture e c).grid = c.grid ∧ (mirrorCapture e c).serv = c.serv ∧
    (pairActive c = true → objGet (mirrorCapture e c) 0x2621 0x01 0 = objGet (objBump 0x2621 0x01 0 1 c) 0x2621 0x01 0) := by
  have he : mirrorCapture e c = (if pairActive c || c.link.pair.finalAt == some c.tk.tick then
      passAdd e (captureSent p e m c).tk.tick (objBump 0x2621 0x01 0 1 (captureSent p e m c))
      else setPair { c.link.pair with sending := c.link.pair.sending ++ [e] } c) := by
    have hpa : ∀ v, pairActive (setPair v c) = pairActive c := fun _ => rfl
    simp only [mirrorCapture, hp, hm, hpair, hd, hk, hph, hf, hs, beq_self_eq_true, List.contains_eq_mem, decide_false, Bool.not_true, Bool.or_self,
      Bool.false_eq_true, if_false, Bool.and_false, hpa]
    rfl
  obtain ⟨h1, h2, h3, h4⟩ := captureSent_keeps p e m c
  rw [he]
  split
  · refine ⟨(passAdd_pair ..).1.trans h1, (passAdd_units ..).1.trans h2, (passAdd_units ..).2.trans h3, fun _ => ?_⟩
    rw [objGet_passAdd, objGet_bump_same, objGet_bump_same, objGet_of_objs h4]
  case isFalse h => exact ⟨rfl, rfl, rfl, fun ha => absurd (by rw [ha]; rfl) h⟩

theorem captureAbandoned_due {p : Plan} {e : Nat} {m : MirrorEntry} (hp : c.plan.loaded = some p) (hm : mirrorEntry p e = some m)
    (hpair : paired c = true) (hd : captureDue c m = true) (ha : pairActive c = true) (hph : c.tk.phase = .ac3584) (hs : e ∉ c.link.pair.sending) :
    captureAbandoned e c = objBump 0x2621 0x03 0 1 (setPair { c.link.pair with sending := c.link.pair.sending ++ [e] } c) := by
  simp only [captureAbandoned, hp, Option.bind_some, hm, hpair, hd, ha, hph, hs, decide_true, List.contains_eq_mem, decide_false, Bool.not_false,
    Bool.and_self, if_true]

theorem captureData_first {e k : Nat} {data : List Byte} (h : takePeer 0x21 c = some d) (ha : cellsFind d.link.pair.arriving e = none) :
    cellsFind (captureData e k data c).link.pair.arriving e = some { entry := e, tick := k, data := data } := by
  simp only [captureData, h, ha, List.nil_append]
  exact cellsFind_put_same ..

theorem captureEnd_stores {e k : Nat} {x : Capture} (h : takePeer 0x22 c = some d) (ha : cellsFind d.link.pair.arriving e = some x) (hk : x.tick = k)
    (hp : paired d = true) : cellsFind (captureEnd e k (sha3Bytes x.data) c).link.pair.store e = some x := by
  have hp' : ∀ v : Cells Capture, paired (setPair { d.link.pair with arriving := v } d) = true := fun _ => hp
  have he : ∃ (d2 : Chip) (q r : Bool), cellsFind d2.link.pair.store e = some x ∧ captureEnd e k (sha3Bytes x.data) c =
      (if q && r then logRec 2 srcLinks .digestDifference [e] (alertLater 7 (objBump 0x2621 0x05 0 1 (if lockstep d2 then passAdd e k d2 else d2)))
        else if lockstep d2 then passAdd e k d2 else d2) := by
    simp only [captureEnd, h, ha, hk, hp', ne_eq, not_true_eq_false, decide_false, Bool.not_true, Bool.or_self, Bool.false_eq_true, if_false]
    exact ⟨_, _, _, cellsFind_put_same .., rfl⟩
  obtain ⟨d2, q, r, hd2, he⟩ := he
  have hpass : cellsFind (if lockstep d2 then passAdd e k d2 else d2).link.pair.store e = some x := by
    split
    · rw [(passAdd_pair ..).2, hd2]
    · exact hd2
  rw [he]
  split
  · rw [logRec_link]
    exact hpass
  · exact hpass

theorem convergenceEnd_ends (h : c.link.pair.converge = 1) (hph : c.tk.phase = .ac0) : (convergenceEnd c).link.pair.converge = 0 := by
  simp only [convergenceEnd, h, hph, decide_true, Bool.and_self, if_true, pairShow_link]
  rfl

theorem streamBinding_binds {n k : Nat} {ts : Option Nat} (h : takePeer 0x15 c = some d) :
    (∀ x ∈ (streamBinding n k ts c).link.pair.binds, x.1 = n → x = (n, k, ts)) ∧ (n, k, ts) ∈ (streamBinding n k ts c).link.pair.binds := by
  have he : (streamBinding n k ts c).link.pair.binds = d.link.pair.binds.filter (fun e => e.1 != n) ++ [(n, k, ts)] := by
    simp only [streamBinding, h]
    rfl
  rw [he]
  refine ⟨fun x hx hn => ?_, List.mem_append_right _ (List.mem_singleton.2 rfl)⟩
  rcases List.mem_append.1 hx with hx | hx
  · simp [hn] at hx
  · exact List.mem_singleton.1 hx

/-! Return (R311). -/

theorem holdOff_healthy {u : Nat} (hh : pairHealthy c = true) (ha : pairActive c = false) (hu : c.link.pair.healthySince = some u) :
    (holdOff c).link.pair = c.link.pair := by
  have he : (holdOff c).link.pair = { c.link.pair with healthySince := some u } := by
    simp only [holdOff, hh, ha, hu, Bool.not_false, Bool.and_self, if_true]
    rfl
  rw [he, ← hu]

theorem holdoffExpiry_asks {u : Nat} (hh : pairHealthy c = true) (ha : pairActive c = false) (hu : c.link.pair.healthySince = some u)
    (hi : c.link.pair.inhibit = false) (hr : c.link.pair.returnAt = none) (ht : u + objGet c 0x2620 0x04 0 * 1000000000 ≤ c.tk.now) :
    objGet (holdoffExpiry c) 0x2620 0x06 0 = 5 := by
  have hp := holdOff_healthy hh ha hu
  have hnow : (holdOff c).tk = c.tk := by
    obtain ⟨n, v, h⟩ := holdOff_cases c
    rw [h]
    rfl
  have ha' : pairActive (holdOff c) = false := by rw [pairActive, objGet_holdOff (by decide)]; exact ha
  simp only [holdoffExpiry, hp, hu, ha', hi, hr, hnow, objGet_holdOff (k := 4) (by decide), Nat.not_lt.2 ht, Option.isSome_none, decide_false,
    Bool.or_self, Bool.false_eq_true, if_false]
  exact objGet_set_same ..

theorem returnRequest_names (hr : pairRole c = 2) (h : takePeer 0x23 c = some d) (hp : paired d = true) (ha : pairActive d = true)
    (hi : d.link.pair.inhibit = false) : (returnRequest c).link.pair.returnAt = some (c.tk.tick + if lockstep c then 2 else 1) := by
  simp only [returnRequest, hr, ne_eq, not_true_eq_false, if_false, h, hp, ha, hi, Bool.not_true, Bool.or_self, Bool.false_eq_true, pairShow_link,
    lockstep_takePeer h, tk_takePeer h]
  rfl

theorem returnReply_learns {b : Nat} (hr : pairRole c = 1) (h : takePeer 0x23 c = some d) (hp : paired d = true) (ha : pairActive d = false) :
    (returnReply b c).link.pair.returnAt = some b := by
  simp only [returnReply, hr, ne_eq, not_true_eq_false, if_false, h, hp, ha, Bool.not_true, Bool.or_self, Bool.false_eq_true, pairShow_link]
  rfl

end

end Sys2Proof.Machine

namespace Sys2Proof.Proofs
open Sys2Proof Sys2Proof.Machine

/-- Settles O41. What a heartbeat shows of the peer outlives the hold-off and the state shown after it. -/
theorem pairEvents : Obligations.PairEvents := by
  intro s t
  dsimp only
  refine ⟨fun d active relinq h => ?_, fun b hb hp hl ht => ?_, fun w p hw hp hl ht hpair hph hm => ?_,
    fun e p m hp hm hpair hd => ⟨fun hk hph hf hs => ?_, fun ha hph hs => ?_⟩, fun e k data d h ha => ?_, fun e k x d h ha hk hp => ?_,
    fun hc hph => ?_, fun stream k ts d h => ?_, fun u hh ha hu hi hr ht => ?_, fun d hr h hp ha hi => ?_, fun b d hr h hp ha => ?_⟩
  · refine gives_onChip (f := fun c => heartbeatIn active relinq (atTime t c)) rfl ?_
    obtain ⟨⟨h1, h2, h3⟩, h4⟩ := heartbeatIn_shows (c := atTime t s.chip) (active := active) (relinq := relinq) h
    rw [onto, settle_link, pairActive, objGet_settle]
    exact ⟨h1, h2, h3, h4⟩
  · refine gives_onChip (f := fun c => heartbeatTimeout (atTime t c)) rfl ?_
    obtain ⟨-, h2, h3⟩ := heartbeatTimeout_loses (c := atTime t s.chip) hb hp hl (ht.trans (Nat.mul_le_mul_left 2 (le_atTime le_rfl)))
    rw [onto, settle_link]
    exact ⟨h3, h2⟩
  · refine gives_onChip (f := takeoverNow) rfl ?_
    rw [onto, settle_link, pairActive, objGet_settle, objGet_settle, objGet_settle]
    exact takeoverNow_due hw hp hl ht hpair hph hm
  · refine gives_onChip (f := mirrorCapture e) rfl ?_
    rw [onto, settle_link, settle_grid, settle_serv, objGet_settle]
    exact mirrorCapture_due hp hm hpair hd hk hph hf hs
  · exact answers_onChip (f := captureAbandoned e) rfl (captureAbandoned_due hp hm hpair hd ha hph hs)
  · refine gives_onChip (f := captureData e k data) rfl ?_
    rw [onto, settle_link]
    exact captureData_first h ha
  · refine gives_onChip (f := captureEnd e k (sha3Bytes x.data)) rfl ?_
    rw [onto, settle_link]
    exact captureEnd_stores h ha hk hp
  · refine gives_onChip (f := convergenceEnd) rfl ?_
    rw [onto, settle_link]
    exact convergenceEnd_ends hc hph
  · refine gives_onChip (f := streamBinding stream k ts) rfl ?_
    rw [onto, settle_link]
    exact streamBinding_binds h
  · refine gives_onChip (f := fun c => holdoffExpiry (atTime t c)) rfl ?_
    rw [onto, objGet_settle]
    exact holdoffExpiry_asks (c := atTime t s.chip) hh ha hu hi hr (le_atTime ht)
  · refine gives_onChip (f := returnRequest) rfl ?_
    rw [onto, settle_link]
    exact returnRequest_names hr h hp ha hi
  · refine gives_onChip (f := returnReply b) rfl ?_
    rw [onto, settle_link]
    exact returnReply_learns hr h hp ha

end Sys2Proof.Proofs

/-! SUPPORT. Quotes, key generations and service sessions (R321-R341). -/

namespace Sys2Proof.Machine

section
variable {c : Chip} {n : Nat}

theorem blobGet_set_same (c : Chip) (i b n : Nat) (v : List Byte) : blobGet (blobSet i b n v c) i b n = v := cellsGet_set_same ..

theorem blobGet_of_blobs {c' : Chip} (h : c'.blobs = c.blobs) (i b n : Nat) : blobGet c' i b n = blobGet c i b n := by rw [blobGet, h, blobGet]

theorem quoteSlot_of_sec {c' : Chip} (h : c'.sec = c.sec) (n : Nat) : quoteSlot c' n = quoteSlot c n := by rw [quoteSlot, h, quoteSlot]

/-! Quotes (R321, R323). -/

theorem quoteSlot_setQuote (hn : n < 8) (q : QuoteSlot) (c : Chip) : quoteSlot (setQuote n q c) n = q := getD_setIfInBounds _ _ _ hn

theorem setQuote_blobs (n : Nat) (q : QuoteSlot) (c : Chip) : (setQuote n q c).blobs = c.blobs := rfl

theorem signQuote_posts {sd : BitVec 256} (hn : n < 8) (hs : c.sec.seed = some sd) :
    objGet (signQuote n c) 0x2704 0x03 n = stOk ∧ (quoteSlot (signQuote n c) n).asked = none ∧
    (quoteSlot (signQuote n c) n).posted = some c.tk.now ∧
    blobGet (signQuote n c) 0x2704 0x04 n = quoteBody n true 0 c ++ idSign sd (quoteBody n true 0 c) := by
  have he : ∃ (v : List PostedQuote) (d : Chip),
      d = setQuote n { quoteSlot c n with asked := none, posted := some c.tk.now }
        (blobSet 0x2704 0x04 n (quoteBody n true 0 c ++ idSign sd (quoteBody n true 0 c)) c) ∧
      signQuote n c = postStatus 0x2704 0x03 n stOk { d with sec := { d.sec with posted := v } } := by
    simp only [signQuote, hs]
    exact ⟨_, _, rfl, rfl⟩
  obtain ⟨v, d, hd, he⟩ := he
  have hslot : quoteSlot (signQuote n c) n = { quoteSlot c n with asked := none, posted := some c.tk.now } := by
    rw [he, quoteSlot_of_sec (postStatus_sec ..)]
    exact (congrArg (quoteSlot · n) hd).trans (quoteSlot_setQuote hn ..)
  refine ⟨by rw [he]; exact objGet_postStatus_same .., by rw [hslot], by rw [hslot], ?_⟩
  rw [he, blobGet_of_blobs (postStatus_blobs ..)]
  exact (congrArg (blobGet · _ _ n) hd).trans (blobGet_set_same c 0x2704 0x04 n _)

theorem hintQuote_posts (hn : n < 8) (ms : Nat) (c : Chip) : objGet (hintQuote n ms c) 0x2704 0x03 n = stUnsettled ∧
    (quoteSlot (hintQuote n ms c) n).asked = none ∧ blobGet (hintQuote n ms c) 0x2704 0x04 n = quoteBody n false ms c := by
  refine ⟨objGet_postStatus_same .., ?_, ?_⟩
  · rw [hintQuote, quoteSlot_of_sec (postStatus_sec ..), quoteSlot_setQuote hn]
  · rw [hintQuote, blobGet_of_blobs (postStatus_blobs ..), blobGet_of_blobs (setQuote_blobs ..)]
    exact blobGet_set_same ..

/-! Generations of a key (R329, R330). -/

theorem keyAt_of_keys {c' : Chip} (h : c'.sec.keys = c.sec.keys) (kind scope g : Nat) : keyAt c' kind scope g = keyAt c kind scope g := by
  rw [keyAt, h, keyAt]

theorem showKey_sec (kind scope : Nat) (c : Chip) : (showKey kind scope c).sec = c.sec := by
  unfold showKey
  dsimp only
  split <;> rfl

theorem setKey_keys (kind scope g : Nat) (k : KeyPos) (c : Chip) : (setKey kind scope g (some k) c).sec.keys = cellsPut c.sec.keys (keyId kind scope g) k := by
  rw [setKey, showKey_sec]

theorem keyAt_setKey_same (kind scope g : Nat) (k : KeyPos) (c : Chip) : keyAt (setKey kind scope g (some k) c) kind scope g = some k := by
  rw [keyAt, setKey_keys]
  exact cellsFind_put_same ..

theorem keyAt_setKey_ne {kind scope g g' : Nat} (h : g' ≠ g) (k : KeyPos) (c : Chip) :
    keyAt (setKey kind scope g (some k) c) kind scope g' = keyAt c kind scope g' := by
  rw [keyAt, setKey_keys]
  exact cellsFind_put_ne _ _ (by unfold keyId; omega)

theorem setKey_installs (kind scope g : Nat) (k : KeyPos) (c : Chip) : (setKey kind scope g (some k) c).sec.installs = c.sec.installs := by
  rw [setKey, showKey_sec]

theorem bumpRun_sec (c : Chip) : (bumpRun c).sec = c.sec := by
  unfold bumpRun
  dsimp only
  split
  · exact (setClass_sec ..).trans rfl
  · rfl

/-- The chip once an install's keys stand: the one before retires, and the new one is current. -/
def keyInstalled (k : KeyInstall) (c : Chip) : Chip :=
  let old := currentKey c k.kind k.scope
  let c := match old with
    | some (g, p) => setKey k.kind k.scope g (some { p with st := .retiring, since := c.tk.boundaryAt }) c
    | none => c
  let c := { c with sec := { c.sec with sweeps := c.sec.sweeps.filter (· != (k.kind, k.scope)) } }
  setKey k.kind k.scope k.gen (some { st := .current, key := k.key, salt := k.salt, tenant := k.tenant }) c

theorem keyInstalled_current (k : KeyInstall) (c : Chip) : keyAt (keyInstalled k c) k.kind k.scope k.gen =
    some { st := .current, key := k.key, salt := k.salt, tenant := k.tenant } := keyAt_setKey_same ..

theorem keyInstalled_retires {k : KeyInstall} {g : Nat} {p : KeyPos} (ho : currentKey c k.kind k.scope = some (g, p)) (hg : g ≠ k.gen) :
    keyAt (keyInstalled k c) k.kind k.scope g = some { p with st := .retiring, since := c.tk.boundaryAt } := by
  simp only [keyInstalled, ho]
  exact (keyAt_setKey_ne hg _ _).trans (keyAt_setKey_same ..)

theorem keyInstalled_installs (k : KeyInstall) (c : Chip) : (keyInstalled k c).sec.installs = c.sec.installs := by
  unfold keyInstalled
  dsimp only
  rw [setKey_installs]
  cases currentKey c k.kind k.scope with
  | none => rfl
  | some e => exact setKey_installs ..

/-- What an install does once its keys stand leaves them, and the installs that wait. -/
theorem installKey_keys {k : KeyInstall} (hk : c.sec.installs = [k]) :
    (installKey 0 c).sec.keys = (keyInstalled k { c with sec := { c.sec with installs := [] } }).sec.keys ∧ (installKey 0 c).sec.installs = [] := by
  have he : ∃ (q r : Bool) (d1 d2 d3 : Chip), d1 = keyInstalled k { c with sec := { c.sec with installs := [] } } ∧
      d2 = (if q then bumpRun { d1 with sec := { d1.sec with runTick := some d1.tk.tick } } else d1) ∧
      d3 = (if r then objSet 0x2201 0x08 k.scope 1 d2 else d2) ∧
      installKey 0 c = if d3.sec.installs.isEmpty then postStatus 0x2710 0x02 0 stOk d3 else d3 := by
    simp only [installKey, hk]
    exact ⟨_, _, _, _, _, rfl, rfl, rfl, rfl⟩
  obtain ⟨q, r, d1, d2, d3, h1, h2, h3, he⟩ := he
  have hd2 : d2.sec.keys = d1.sec.keys ∧ d2.sec.installs = d1.sec.installs := by
    rw [h2]
    split
    · rw [bumpRun_sec]
      exact ⟨rfl, rfl⟩
    · exact ⟨rfl, rfl⟩
  have hd3 : d3.sec = d2.sec := by
    rw [h3]
    split <;> rfl
  have hres : (installKey 0 c).sec = d3.sec := by
    rw [he]
    split
    · exact postStatus_sec ..
    · rfl
  rw [hres, hd3, hd2.1, hd2.2, h1, keyInstalled_installs]
  exact ⟨rfl, rfl⟩

theorem retireKey_retires {kind scope g : Nat} {k : KeyPos} (hr : retiringKey c kind scope = some (g, k))
    (hd : retireDeadline c k.since ≤ c.tk.boundaryAt) :
    keyAt (retireKey kind scope c) kind scope g = some { st := .retired, key := 0, salt := [], tenant := k.tenant } := by
  simp only [retireKey, hr, hd, decide_true, Bool.or_true, if_true]
  exact keyAt_setKey_same ..

/-! Service sessions (R341). -/

theorem sessionEvent_shows (on : Bool) (c : Chip) : objGet (sessionEvent on c) 0x2722 0x01 0 = if on then 1 else 0 := by
  refine (objGet_log_idx _ _ _ _ _ _ _ (by decide) (by decide)).trans ?_
  split
  · exact (objGet_bump_ne _ _ (okey_ne_sub (by decide))).trans (objGet_set_same ..)
  · exact objGet_set_same ..

end

end Sys2Proof.Machine

namespace Sys2Proof.Proofs
open Sys2Proof Sys2Proof.Machine

/-- Settles O42. The two generations of a key have their own places, so retiring one leaves the other. -/
theorem securityEvents : Obligations.SecurityEvents := by
  intro s
  dsimp only
  refine ⟨fun n sd hn hq hu hs => ?_, fun n a b hn hh => ?_, fun n t p hn hp ht => ?_, fun k hti hph hk hkt => ⟨?_, ?_, ?_, fun g p ho hg _ _ => ?_⟩,
    fun kind scope g k hti hph hr hd => ?_, fun h0 hp => ⟨?_, sessionEvent_shows true _⟩, fun h1 => ⟨?_, sessionEvent_shows false _⟩⟩
  · refine gives_onChip (f := fun c => if quoteDue n c && unsettledCode c = 0 then signQuote n c else c) (onUnit_of_lt hn _ s) ?_
    simp only [hq, hu, decide_true, Bool.and_self, if_true]
    rw [onto, objGet_settle, quoteSlot_of_sec (settle_sec _), blobGet_of_blobs (settle_blobs _)]
    exact signQuote_posts hn hs
  · refine gives_onChip (f := fun c => if hintDue n c then hintQuote n (retryMs a b c) c else c) (onUnit_of_lt hn _ s) ?_
    simp only [hh, if_true]
    rw [onto, objGet_settle, quoteSlot_of_sec (settle_sec _), blobGet_of_blobs (settle_blobs _)]
    exact hintQuote_posts hn ..
  · refine gives_onChip (f := fun c =>
      let c := atTime t c
      match (quoteSlot c n).posted with
      | some p => if p + 600000000000 ≤ c.tk.now then blobSet 0x2704 0x04 n [] (objSet 0x2704 0x01 n 0 (setQuote n {} c)) else c
      | none => c) (onUnit_of_lt hn _ s) ?_
    have hp' : (quoteSlot (atTime t s.chip) n).posted = some p := hp
    simp only [hp', if_pos (le_atTime ht)]
    rw [onto, quoteSlot_of_sec (settle_sec _), blobGet_of_blobs (settle_blobs _)]
    exact ⟨quoteSlot_setQuote hn .., blobGet_set_same ..⟩
  · refine answers_onChip (f := fun c => if c.tk.timer && c.tk.phase = .ac0 then
      (c.sec.installs.filter (fun k => decide (k.tick < c.tk.tick))).foldl (fun c _ => installKey 0 c) c else c) rfl ?_
    simp only [hti, hph, hk, hkt, decide_true, Bool.and_self, if_true, List.filter_cons_of_pos, List.filter_nil, List.foldl_cons, List.foldl_nil]
  · exact (installKey_keys hk).2
  · rw [keyAt_of_keys (installKey_keys hk).1]
    exact keyInstalled_current ..
  · rw [keyAt_of_keys (installKey_keys hk).1]
    exact keyInstalled_retires (c := { s.chip with sec := { s.chip.sec with installs := [] } }) ho hg
  · refine gives_onChip (f := fun c => if c.tk.timer && c.tk.phase = .ac0 then retireKey kind scope c else c) rfl ?_
    simp only [hti, hph, decide_true, Bool.and_self, if_true]
    rw [onto, keyAt_of_keys (congrArg SecSt.keys (settle_sec _))]
    exact retireKey_retires hr hd
  · refine answers_onChip (f := fun c => if objGet c 0x2722 0x01 0 = 0 && c.power.pwrGood then sessionEvent true c else c) rfl ?_
    simp only [h0, hp, decide_true, Bool.and_self, if_true]
  · refine answers_onChip (f := fun c => if objGet c 0x2722 0x01 0 = 1 then sessionEvent false c else c) rfl ?_
    simp only [h1, if_true]

end Sys2Proof.Proofs

/-! SUPPORT. Estimates, droops, die samples, Survival and wake states (R349-R372). -/

namespace Sys2Proof.Machine

/-! What the protective steps leave: the tick, power and the objects that show the hottest sensor, the last coolant reading and the cause of Survival. -/

/-- The entries 2521.01, 2520.01 and 2502.02. -/
def heatMarks (i k : Nat) : Bool := (i == 0x2521 && k == 1) || (i == 0x2520 && k == 1) || (i == 0x2502 && k == 2)

theorem unclassed_heatMarks : Unclassed heatMarks := by
  intro k
  simp [heatMarks]

/-- From c to c' the tick, power, firmware and the marked objects stand. -/
structure Sided (c c' : Chip) : Prop where
  tk : c'.tk = c.tk
  power : c'.power = c.power
  fw : c'.fw = c.fw
  objs : KeepsObjs heatMarks c c'

section
variable {c c' c'' : Chip}

theorem Sided.refl (c : Chip) : Sided c c := ⟨rfl, rfl, rfl, .refl c⟩

theorem Sided.trans (h : Sided c c') (h' : Sided c' c'') : Sided c c'' := ⟨h'.tk.trans h.tk, h'.power.trans h.power, h'.fw.trans h.fw, h.objs.trans h'.objs⟩

theorem Sided.of_parts (h1 : c'.tk = c.tk) (h2 : c'.power = c.power) (h3 : c'.fw = c.fw) (h4 : c'.objs = c.objs) : Sided c c' :=
  ⟨h1, h2, h3, .of_objs h4⟩

theorem Sided.withPlan (h : Sided c c') (p : PlanSt) : Sided c { c' with plan := p } := ⟨h.tk, h.power, h.fw, h.objs.trans (.of_objs rfl)⟩

theorem Sided.withVideo (h : Sided c c') (v : VideoSt) : Sided c { c' with video := v } := ⟨h.tk, h.power, h.fw, h.objs.trans (.of_objs rfl)⟩

theorem Sided.withDict (h : Sided c c') (v : DictSt) : Sided c { c' with dict := v } := ⟨h.tk, h.power, h.fw, h.objs.trans (.of_objs rfl)⟩

theorem Sided.withLife (h : Sided c c') (l : LifeSt) : Sided c { c' with life := l } := ⟨h.tk, h.power, h.fw, h.objs.trans (.of_objs rfl)⟩

theorem Sided.set {i k n v : Nat} (h : Sided c c') (hp : heatMarks i (k % 256) = false) : Sided c (objSet i k n v c') := ⟨h.tk, h.power, h.fw, h.objs.set hp⟩

theorem Sided.post {i k n v : Nat} (h : Sided c c') (hp : heatMarks i (k % 256) = false) : Sided c (postStatus i k n v c') :=
  ⟨(postStatus_tk ..).trans h.tk, (postStatus_power ..).trans h.power, (postStatus_fw ..).trans h.fw, h.objs.post hp⟩

theorem Sided.log {sv sr : Nat} {e : LogEv} {ids : List Nat} (h : Sided c c') : Sided c (logRec sv sr e ids c') :=
  ⟨(logRec_tk ..).trans h.tk, (logRec_power ..).trans h.power, (logRec_fw ..).trans h.fw, h.objs.event unclassed_heatMarks⟩

theorem Sided.cls {m : Nat} {on : Bool} (h : Sided c c') : Sided c (setClass m on c') :=
  ⟨(setClass_tk ..).trans h.tk, (setClass_power ..).trans h.power, (setClass_fw ..).trans h.fw, h.objs.setClass unclassed_heatMarks⟩

theorem Sided.foldl {α : Type} {f : Chip → α → Chip} (hf : ∀ c a, Sided c (f c a)) (l : List α) (c : Chip) : Sided c (l.foldl f c) :=
  foldl_invariant (fun d => Sided c d) (fun d a hd => hd.trans (hf d a)) l (.refl c)

theorem Sided.alert (b : Nat) (h : Sided c c') : Sided c (alertNow b c') := by
  unfold alertNow alertEval
  dsimp only
  split
  · exact ((h.set rfl).set rfl).trans (.of_parts rfl rfl rfl rfl)
  · exact (h.set rfl).trans (.of_parts rfl rfl rfl rfl)

theorem sided_useHandle (n : Nat) (use : Bool) (c : Chip) : Sided c (useHandle n use c) := by
  unfold useHandle
  split <;> exact .of_parts rfl rfl rfl rfl

theorem sided_powerClasses (c : Chip) : Sided c (powerClasses c) := by
  unfold powerClasses
  dsimp only
  split
  · exact .refl c
  · exact (((Sided.refl c).cls).cls).cls

theorem sided_thermalShow (c : Chip) : Sided c (thermalShow c) := by
  unfold thermalShow
  exact ((((Sided.refl c).set rfl).set rfl).set rfl).trans (sided_powerClasses _)

theorem sided_thermalCycle (t : Int) (c : Chip) : Sided c (thermalCycle t c) := by
  have hlife : ∀ l, Sided c { c with life := l } := fun _ => .of_parts rfl rfl rfl rfl
  unfold thermalCycle
  dsimp only
  split
  · exact hlife _
  · split
    · exact hlife _
    · split
      · exact hlife _
      · exact .refl c
  · split
    · exact hlife _
    · split
      · split
        · exact ((hlife _).set rfl).set rfl
        · exact (hlife _).set rfl
      · exact .refl c

theorem sided_cutTick (c : Chip) : Sided c (cutTick c) := .of_parts rfl rfl rfl rfl

/-- What Survival withdraws of a load or a plan command. -/
theorem sided_withdrawLoad (c : Chip) : Sided c (match c.plan.loading, c.plan.cmd with
    | none, none => c
    | ld, _ =>
      let c := match ld with
        | some l => if c.plan.loaded.isSome && l.handle == c.plan.handle then c else useHandle l.handle false c
        | none => c
      postStatus 0x2100 0x02 0 stState { c with plan := { c.plan with loading := none, cmd := none } }) := by
  have hpost : ∀ d, Sided c d → Sided c (postStatus 0x2100 0x02 0 stState { d with plan := { d.plan with loading := none, cmd := none } }) :=
    fun d hd => (hd.withPlan _).post rfl
  split
  · exact .refl c
  · refine hpost _ ?_
    split
    · split
      · exact .refl c
      · exact sided_useHandle ..
    · exact .refl c

theorem sided_withdrawAll (c : Chip) : Sided c (withdrawAll c) := by
  have haborts : ∀ (l : List FnWait) (d : Chip), Sided d (l.foldl (fun c w => postStatus 0x2412 0x02 w.fn stState c) d) := fun l d =>
    .foldl (fun c w => (Sided.refl c).post (i := 0x2412) (k := 2) rfl) l d
  have hrestarts : ∀ (l : List FnWait) (d : Chip),
      Sided d (l.foldl (fun c w => postStatus 0x2413 0x00 w.fn stState (objSet 0x2412 0x02 w.fn stState c)) d) := fun l d =>
    .foldl (fun c w => ((Sided.refl c).set (i := 0x2412) (k := 2) rfl).post (i := 0x2413) (k := 0) rfl) l d
  unfold withdrawAll
  exact ((((sided_withdrawLoad c).withPlan _).trans (haborts _ _)).withPlan _).trans (hrestarts _ _)

theorem sided_resetDecoder (s : Nat) (c : Chip) : Sided c (resetDecoder s c) := by
  unfold resetDecoder showStream
  exact (((Sided.refl c).withVideo _).withVideo _).set rfl

theorem sided_countTime (c : Chip) : Sided c (countTime c) := by
  unfold countTime
  refine iteInduction (motive := fun d => Sided c d) (fun _ => ?_) (fun _ => ?_)
  · exact (((((Sided.refl c).withLife _).set rfl).set rfl).set rfl).cls
  · exact ((((Sided.refl c).withLife _).set rfl).set rfl).set rfl

theorem sided_writeLifeRecord (mark : Bool) (c : Chip) : Sided c (writeLifeRecord mark c) := by
  unfold writeLifeRecord
  exact (((sided_countTime c).set rfl).set rfl).withLife _

theorem sided_flashLog (c : Chip) : Sided c (flashLog c) := .of_parts rfl rfl rfl rfl

theorem Sided.guarded (h : Sided c c') : guarded c' = guarded c := by rw [Machine.guarded, darkNow, h.fw, h.tk, Machine.guarded, darkNow]

theorem Sided.protects (h : Sided c c') : protects c' = protects c := by rw [Machine.protects, h.guarded, h.tk, Machine.protects]

/-! Survival and the halt of compute (R366, R367). -/

theorem setMode_power (m : ModState) (c : Chip) : (setMode m c).power = c.power := by
  unfold setMode
  split <;> rfl

theorem setMode_tk (m : ModState) (c : Chip) : (setMode m c).tk = { c.tk with mode := m } := by
  unfold setMode
  split
  case isTrue h => rw [← h]
  · rfl

theorem setMode_objs {q : Nat → Nat → Bool} (hq : q 0x2000 1 = false) (m : ModState) (c : Chip) : KeepsObjs q c (setMode m c) := by
  unfold setMode
  split
  · exact .refl c
  · exact ((KeepsObjs.of_objs rfl).set hq).later 1

/-- The objects and the mode of Survival entered from a state. -/
def survivalShown (cause : Nat) (c : Chip) : Chip :=
  alertNow 2 (setMode .survival (objBump 0x2502 0x04 0 1 (objSet 0x2502 0x02 0 cause (objBumpSat 0x2900 0x07 0 1 c))))

/-- An entry other than the cause that stands apart from the mode and the alerts. -/
theorem survivalShown_keeps {i k : Nat} (hm : heatMarks i (k % 256) = true) (hi : i ≠ 0x2502) (h9 : i ≠ 0x2900) (n cause : Nat) (c : Chip) :
    objGet (survivalShown cause c) i k n = objGet c i k n := by
  have ha := Sided.alert 2 (.refl (setMode .survival (objBump 0x2502 0x04 0 1 (objSet 0x2502 0x02 0 cause (objBumpSat 0x2900 0x07 0 1 c)))))
  have hs := setMode_objs (q := heatMarks) rfl .survival (objBump 0x2502 0x04 0 1 (objSet 0x2502 0x02 0 cause (objBumpSat 0x2900 0x07 0 1 c)))
  exact (ha.objs _ _ _ hm).trans ((hs _ _ _ hm).trans ((objGet_bump_idx _ _ _ _ _ _ hi).trans ((objGet_set_idx _ _ _ _ _ _ hi).trans
    (objGet_bumpSat_idx _ _ _ _ _ _ h9))))

theorem survivalShown_shows (cause : Nat) (c : Chip) : (survivalShown cause c).tk = { c.tk with mode := .survival } ∧
    (survivalShown cause c).power = c.power ∧ objGet (survivalShown cause c) 0x2502 0x02 0 = cause := by
  have ha := Sided.alert 2 (.refl (setMode .survival (objBump 0x2502 0x04 0 1 (objSet 0x2502 0x02 0 cause (objBumpSat 0x2900 0x07 0 1 c)))))
  have hm := setMode_objs (q := heatMarks) rfl .survival (objBump 0x2502 0x04 0 1 (objSet 0x2502 0x02 0 cause (objBumpSat 0x2900 0x07 0 1 c)))
  refine ⟨ha.tk.trans (setMode_tk ..), ha.power.trans (setMode_power ..), ?_⟩
  exact (ha.objs _ 2 0 rfl).trans ((hm _ 2 0 rfl).trans ((objGet_bump_ne _ _ (okey_ne_sub (by decide))).trans (objGet_set_same ..)))

/-- A condition of the coolant is counted (R365). -/
def survivalCounted (cause : Nat) (c : Chip) : Chip :=
  if cause = 2 || cause = 3 then objBump 0x2521 0x06 0 1 (objBumpSat 0x2900 0x06 0 1 c) else c

theorem sided_survivalCounted (cause : Nat) (c : Chip) : Sided c (survivalCounted cause c) := by
  unfold survivalCounted
  split
  · exact ((Sided.refl c).set rfl).set rfl
  · exact .refl c

/-- The tick ended and what it withdraws, as Survival is entered. -/
def survivalBase (cause : Nat) (c : Chip) : Chip :=
  let c := logRec 3 2 .survival [cause] (survivalCounted cause c)
  let was := c.tk.mode
  withdrawAll (if was = .running || was = .paused then cutTick c else c)

/-- The decoders reset, with what Survival leaves of the tick and of power. -/
def survivalReset (was : ModState) (cause : Nat) (c : Chip) : Chip :=
  let c := objSet 0x2500 0x06 0 0 { c with tk := { c.tk with before := was, step := 0 }
                                           power := { c.power with vectors := false, causes := [cause], leaving := false } }
  c.video.streams.foldl (fun c e => resetDecoder e.1 c) c

/-- The log and the life record kept, and the classes shown. -/
def survivalKept (c : Chip) : Chip :=
  let c := writeLifeRecord false (flashLog c)
  powerClasses { c with dict := { c.dict with relatch := true } }

theorem survivalBase_mode (cause : Nat) (c : Chip) : (logRec 3 2 .survival [cause] (survivalCounted cause c)).tk = c.tk :=
  (logRec_tk ..).trans (sided_survivalCounted cause c).tk

theorem enterSurvival_eq (cause : Nat) (hp : protects c = true) (hm : c.tk.mode ≠ .survival) :
    enterSurvival cause c = survivalKept (survivalShown cause (survivalReset c.tk.mode cause (survivalBase cause c))) := by
  have hc : (if cause = 2 || cause = 3 then objBump 0x2521 0x06 0 1 (objBumpSat 0x2900 0x06 0 1 c) else c).tk = c.tk := (sided_survivalCounted cause c).tk
  simp only [enterSurvival, hp, Bool.not_true, Bool.false_eq_true, if_false, logRec_tk, hc, hm, survivalKept, survivalShown, survivalReset,
    survivalBase, survivalCounted]

theorem sided_survivalBase (cause : Nat) (c : Chip) : Sided c (survivalBase cause c) := by
  unfold survivalBase
  dsimp only
  split
  · exact ((sided_survivalCounted cause c).log.trans (sided_cutTick _)).trans (sided_withdrawAll _)
  · exact (sided_survivalCounted cause c).log.trans (sided_withdrawAll _)

theorem survivalReset_leaves (was : ModState) (cause : Nat) (c : Chip) : (survivalReset was cause c).tk = { c.tk with before := was, step := 0 } ∧
    (survivalReset was cause c).power = { c.power with vectors := false, causes := [cause], leaving := false } ∧
    KeepsObjs heatMarks c (survivalReset was cause c) := by
  have hs : Sided (objSet 0x2500 0x06 0 0 { c with tk := { c.tk with before := was, step := 0 }
                                                   power := { c.power with vectors := false, causes := [cause], leaving := false } })
      (survivalReset was cause c) := Sided.foldl (fun c (e : Nat × StreamSt) => sided_resetDecoder e.1 c) _ _
  exact ⟨hs.tk, hs.power, ((KeepsObjs.of_objs rfl).set rfl).trans hs.objs⟩

theorem sided_survivalKept (c : Chip) : Sided c (survivalKept c) := by
  unfold survivalKept
  have h := (sided_flashLog c).trans (sided_writeLifeRecord false _)
  exact (h.withDict _).trans (sided_powerClasses _)

theorem enterSurvival_enters (cause : Nat) (hp : protects c = true) (hm : c.tk.mode ≠ .survival) :
    (enterSurvival cause c).tk = { c.tk with before := c.tk.mode, step := 0, mode := .survival } ∧
    (enterSurvival cause c).power = { c.power with vectors := false, causes := [cause], leaving := false } ∧
    objGet (enterSurvival cause c) 0x2502 0x02 0 = cause ∧
    ∀ i k n, heatMarks i (k % 256) = true → i ≠ 0x2502 → i ≠ 0x2900 → objGet (enterSurvival cause c) i k n = objGet c i k n := by
  have hbase := sided_survivalBase cause c
  rw [enterSurvival_eq cause hp hm]
  obtain ⟨r1, r2, r3⟩ := survivalReset_leaves c.tk.mode cause (survivalBase cause c)
  generalize survivalReset c.tk.mode cause (survivalBase cause c) = d at r1 r2 r3 ⊢
  obtain ⟨h1, h2, h3⟩ := survivalShown_shows cause d
  have hrest := sided_survivalKept (survivalShown cause d)
  refine ⟨?_, ?_, (hrest.objs _ 2 0 rfl).trans h3, fun i k n hk hi h9 => ?_⟩
  · rw [hrest.tk, h1, r1, hbase.tk]
  · rw [hrest.power, h2, r2, hbase.power]
  · exact (hrest.objs _ _ _ hk).trans ((survivalShown_keeps hk hi h9 ..).trans ((r3 _ _ _ hk).trans (hbase.objs _ _ _ hk)))

/-- The readings that power keeps: of the die and of the coolant. -/
def readings (w : PowerSt) : Int × Nat × Option Nat × Nat := (w.die, w.seq, w.lastFresh, w.fresh)

/-- Whatever a reading leads to, it stays the one shown. -/
def ReadingsKept (c c' : Chip) : Prop :=
  readings c'.power = readings c.power ∧ objGet c' 0x2521 0x01 0 = objGet c 0x2521 0x01 0 ∧ objGet c' 0x2520 0x01 0 = objGet c 0x2520 0x01 0

theorem Sided.readings (h : Sided c c') : ReadingsKept c c' := ⟨congrArg Machine.readings h.power, h.objs _ 1 0 rfl, h.objs _ 1 0 rfl⟩

theorem ReadingsKept.trans (h : ReadingsKept c c') (h' : ReadingsKept c' c'') : ReadingsKept c c'' :=
  ⟨h'.1.trans h.1, h'.2.1.trans h.2.1, h'.2.2.trans h.2.2⟩

/-- A condition that arises in Survival joins its causes. -/
def causesNoted (cause : Nat) (c : Chip) : Chip := { c with power := { c.power with causes := c.power.causes ++ [cause] } }

theorem enterSurvival_again (cause : Nat) (hp : protects c = true) (hm : c.tk.mode = .survival) :
    enterSurvival cause c = powerClasses (causesNoted cause (logRec 3 2 .survival [cause] (survivalCounted cause c))) := by
  have hm' : (logRec 3 2 .survival [cause] (survivalCounted cause c)).tk.mode = .survival := by rwa [survivalBase_mode]
  unfold enterSurvival
  rw [hp]
  exact if_pos hm'

theorem enterSurvival_readings (cause : Nat) (c : Chip) : ReadingsKept c (enterSurvival cause c) := by
  by_cases hp : protects c = true
  · by_cases hm : c.tk.mode = .survival
    · rw [enterSurvival_again cause hp hm]
      have hnote (d : Chip) : ReadingsKept d (causesNoted cause d) := ⟨rfl, rfl, rfl⟩
      exact (sided_survivalCounted cause c).log.readings.trans ((hnote _).trans (sided_powerClasses _).readings)
    · obtain ⟨-, h2, -, h4⟩ := enterSurvival_enters cause hp hm
      exact ⟨by rw [h2]; rfl, h4 _ 1 0 rfl (by decide) (by decide), h4 _ 1 0 rfl (by decide) (by decide)⟩
  · have he : enterSurvival cause c = c := by simp only [enterSurvival, hp, Bool.not_false, if_true]
    rw [he]
    exact ⟨rfl, rfl, rfl⟩

theorem haltCompute_halts (hm : c.tk.mode = .survival) : (haltCompute c).tk = c.tk ∧ (haltCompute c).power = { c.power with halted := true } ∧
    objGet (haltCompute c) 0x2502 0x02 0 = objGet c 0x2502 0x02 0 := by
  by_cases hh : c.power.halted = true
  · have he : haltCompute c = c := by simp only [haltCompute, hm, hh, Bool.or_true, if_true]
    rw [he, ← hh]
    exact ⟨rfl, rfl, rfl⟩
  · have he : haltCompute c = powerClasses (alertNow 2 (logRec 3 2 .computeHalt [] { objSet 0x2502 0x03 0 1 { c with power := { c.power with halted := true } } with
        dict := { c.dict with relatch := true } })) := by
      simp only [haltCompute, hm, hh, ne_eq, not_true_eq_false, decide_false, Bool.or_self, Bool.false_eq_true, if_false]
      rfl
    have hs := (Sided.alert 2 (Sided.log (sv := 3) (sr := 2) (e := .computeHalt) (ids := []) (.refl ({ objSet 0x2502 0x03 0 1 { c with power := { c.power with halted := true } } with
        dict := { c.dict with relatch := true } } : Chip)))).trans (sided_powerClasses _)
    rw [he]
    exact ⟨hs.tk, hs.power, (hs.objs _ 2 0 rfl).trans (objGet_set_ne c _ (okey_ne_sub (by decide)))⟩

theorem haltCompute_readings (c : Chip) : ReadingsKept c (haltCompute c) := by
  unfold haltCompute
  dsimp only
  split
  · exact ⟨rfl, rfl, rfl⟩
  · refine ReadingsKept.trans ?_ ((Sided.alert 2 (Sided.refl _).log).trans (sided_powerClasses _)).readings
    exact ⟨rfl, objGet_set_idx _ _ _ _ _ _ (by decide), objGet_set_idx _ _ _ _ _ _ (by decide)⟩

/-! Die sensors (R365, R434). -/

/-- The chip once a sample of the die sensors is shown. -/
def dieShown (d : Int) (ds : List Int) (c : Chip) : Chip :=
  let hot := ds.foldl max d
  let mean := (d :: ds).sum / (d :: ds).length
  let c := { c with power := { c.power with die := hot, dieMean := mean, hbm := hbmHot c } }
  let c := objSet 0x2521 0x01 0 (toTwos 16 hot) (objSet 0x2521 0x02 0 (toTwos 16 mean) c)
  let c := if sx 16 (objGet c 0x2900 0x05 0) < hot then objSet 0x2900 0x05 0 (toTwos 16 hot) c else c
  thermalCycle mean c

/-- What the thresholds make of it (R365). -/
def dieJudged (hot : Int) (c : Chip) : Chip :=
  let above := decide (10500 < hot) || decide (100 < hbmHot c)
  if guarded c then (if 10500 < hot then { c with power := { c.power with halted := true } } else c)
  else if !above then c
  else if c.tk.mode = .booting then { c with power := { c.power with bootHeld := true, gridOn := false } }
  else haltCompute (if c.tk.mode = .survival && c.power.causes.contains 4 then c else enterSurvival 4 c)

theorem dieSample_eq (d : Int) (ds : List Int) (c : Chip) : dieSample (d :: ds) c = thermalShow (dieJudged (ds.foldl max d) (dieShown d ds c)) := rfl

theorem dieShown_shows (d : Int) (ds : List Int) (c : Chip) : (dieShown d ds c).tk = c.tk ∧ (dieShown d ds c).fw = c.fw ∧
    (dieShown d ds c).power.die = ds.foldl max d ∧ objGet (dieShown d ds c) 0x2521 0x01 0 = toTwos 16 (ds.foldl max d) := by
  unfold dieShown
  dsimp only
  generalize (d :: ds).sum / ((d :: ds).length : Int) = mean
  generalize ds.foldl max d = hot
  generalize hw : ({ c.power with die := hot, dieMean := mean, hbm := hbmHot c } : PowerSt) = w
  generalize hb : objSet 0x2521 0x01 0 (toTwos 16 hot) (objSet 0x2521 0x02 0 (toTwos 16 mean) { c with power := w }) = b
  have hs : Sided b (thermalCycle mean (if sx 16 (objGet b 0x2900 0x05 0) < hot then objSet 0x2900 0x05 0 (toTwos 16 hot) b else b)) := by
    refine Sided.trans ?_ (sided_thermalCycle ..)
    split
    · exact (Sided.refl b).set rfl
    · exact .refl b
  refine ⟨by rw [hs.tk, ← hb]; rfl, by rw [hs.fw, ← hb]; rfl, by rw [hs.power, ← hb, ← hw]; rfl, (hs.objs _ 1 0 rfl).trans ?_⟩
  rw [← hb]
  exact objGet_set_same ..

theorem dieJudged_readings (hot : Int) (c : Chip) : ReadingsKept c (dieJudged hot c) := by
  have hkept : ∀ v : PowerSt, readings v = readings c.power → ReadingsKept c { c with power := v } := fun v hv => ⟨hv, rfl, rfl⟩
  unfold dieJudged
  dsimp only
  split
  · split
    · exact hkept _ rfl
    · exact hkept _ rfl
  · split
    · exact hkept _ rfl
    · split
      · exact hkept _ rfl
      · refine ReadingsKept.trans ?_ (haltCompute_readings _)
        split
        · exact hkept _ rfl
        · exact enterSurvival_readings 4 c

theorem dieJudged_hot {hot : Int} (hh : 10500 < hot) (hp : protects c = true) (hm : c.tk.mode ≠ .survival) :
    (dieJudged hot c).tk.mode = .survival ∧ (dieJudged hot c).power.halted = true ∧ (dieJudged hot c).tk.step = 0 ∧
    objGet (dieJudged hot c) 0x2502 0x02 0 = 4 := by
  have hg : guarded c = false := by
    unfold protects at hp
    simpa using (Bool.and_eq_true_iff.1 hp).1
  have hb : c.tk.mode ≠ .booting := by
    intro hb
    simp [protects, hb] at hp
  obtain ⟨h1, -, h3, -⟩ := enterSurvival_enters 4 hp hm
  obtain ⟨g1, g2, g3⟩ := haltCompute_halts (c := enterSurvival 4 c) (by rw [h1])
  have he : dieJudged hot c = haltCompute (enterSurvival 4 c) := by
    simp only [dieJudged, hg, hh, hb, hm, decide_true, decide_false, Bool.true_or, Bool.not_true, Bool.false_and, Bool.false_eq_true, if_false]
  rw [he, g1, g2, g3, h1]
  exact ⟨rfl, rfl, rfl, h3⟩

theorem dieSample_shows (d : Int) (ds : List Int) (c : Chip) : (dieSample (d :: ds) c).power.die = ds.foldl max d ∧
    objGet (dieSample (d :: ds) c) 0x2521 0x01 0 = toTwos 16 (ds.foldl max d) ∧
    (10500 < ds.foldl max d → protects c = true → c.tk.mode ≠ .survival → (dieSample (d :: ds) c).tk.mode = .survival ∧
      (dieSample (d :: ds) c).power.halted = true ∧ (dieSample (d :: ds) c).tk.step = 0 ∧ objGet (dieSample (d :: ds) c) 0x2502 0x02 0 = 4) := by
  obtain ⟨htk, hfw, hdie, hobj⟩ := dieShown_shows d ds c
  have hshow := sided_thermalShow (dieJudged (ds.foldl max d) (dieShown d ds c))
  obtain ⟨hr, ho, -⟩ := (dieJudged_readings (ds.foldl max d) (dieShown d ds c)).trans hshow.readings
  have hd := congrArg Prod.fst hr
  rw [dieSample_eq]
  refine ⟨hd.trans hdie, ho.trans hobj, fun hh hp hm => ?_⟩
  have hp' : protects (dieShown d ds c) = true := by
    rw [protects, guarded, darkNow, hfw, htk]
    exact hp
  obtain ⟨h1, h2, h3, h4⟩ := dieJudged_hot hh hp' (by rw [htk]; exact hm)
  rw [hshow.tk, hshow.power]
  exact ⟨h1, h2, h3, (hshow.objs _ 2 0 rfl).trans h4⟩

end

end Sys2Proof.Machine

/-! SUPPORT. Estimates, calibration, droops, stale readings and wake states (R349-R372). -/

namespace Sys2Proof.Machine

section
variable {c : Chip}

/-! Estimates and calibration (R349, R350). -/

theorem thermalShow_power (c : Chip) : (thermalShow c).power = c.power := (sided_thermalShow c).power

theorem thermalShow_keeps {q : Nat → Nat → Bool} (hq : Unclassed q) (h3 : q 0x2521 3 = false) (h4 : q 0x2521 4 = false) (h5 : q 0x2521 5 = false)
    (c : Chip) : KeepsObjs q c (thermalShow c) := by
  unfold thermalShow powerClasses
  refine (((KeepsObjs.refl c).set h3).set h4).set h5 |>.trans (iteInduction (fun _ => .refl _) (fun _ => ?_))
  exact (((KeepsObjs.refl _).setClass hq).setClass hq).setClass hq

/-- The end of a calibration: the class of the estimator's fault. -/
def faultShown (on off : Bool) (c : Chip) : Chip :=
  if on then setClass 0x01 true (logRec 3 srcPower .estimatorFault [] c) else if off then setClass 0x01 false c else c

theorem faultShown_keeps (on off : Bool) (c : Chip) : (faultShown on off c).power = c.power ∧ KeepsObjs (marks 0x2510 3) c (faultShown on off c) := by
  have hun := unclassed_marks (i := 0x2510) (k := 3) (by decide)
  unfold faultShown
  split
  · exact ⟨(setClass_power ..).trans (logRec_power ..), ((KeepsObjs.refl c).event hun).setClass hun⟩
  · split
    · exact ⟨setClass_power .., (KeepsObjs.refl c).setClass hun⟩
    · exact ⟨rfl, .refl c⟩

theorem calibrate_bounds (mv ma : Nat) (c : Chip) : 4 / 5 ≤ (calibrate mv ma c).power.gain ∧ (calibrate mv ma c).power.gain ≤ 5 / 4 ∧
    objGet (calibrate mv ma c) 0x2510 0x03 0 = min 65535 mv ∧ (calibrate mv ma c).power.ms = {} := by
  have he : ∃ (on off : Bool) (n a b : Nat) (raw : Rat) (w : PowerSt) (d : Chip), calibrate mv ma c = faultShown on off (objBumpSat 0x2900 0x0A 0 n
      (objSet 0x2510 0x07 0 a (objSet 0x2510 0x06 0 b (objSet 0x2510 0x03 0 (min 65535 mv) d)))) ∧ d.power = w ∧
      w.gain = max (4 / 5) (min (5 / 4) raw) ∧ w.ms = {} := by
    refine ⟨_, _, _, _, _, _, _, _, rfl, rfl, rfl, rfl⟩
  obtain ⟨on, off, n, a, b, raw, w, d, he, hd, hg, hms⟩ := he
  obtain ⟨hp, ho⟩ := faultShown_keeps on off (objBumpSat 0x2900 0x0A 0 n
      (objSet 0x2510 0x07 0 a (objSet 0x2510 0x06 0 b (objSet 0x2510 0x03 0 (min 65535 mv) d))))
  rw [he, hp]
  refine ⟨?_, ?_, (ho.get (by omega) 0).trans ?_, ?_⟩
  · exact (le_max_left _ _).trans_eq ((congrArg PowerSt.gain hd).trans hg).symm
  · exact ((congrArg PowerSt.gain hd).trans hg).trans_le (max_le (by norm_num) (min_le_left _ _))
  · exact (objGet_bumpSat_idx _ _ _ _ _ _ (by decide)).trans ((objGet_set_ne _ _ (okey_ne_sub (by decide))).trans
      ((objGet_set_ne _ _ (okey_ne_sub (by decide))).trans (objGet_set_same ..)))
  · exact (congrArg PowerSt.ms hd).trans hms

/-! Droops and stale readings (R361, R364). -/

theorem droopStart_counts (hd : c.power.droop = none) (hh : c.power.halted = false) : (droopStart c).power.droop = some c.tk.now ∧
    (droopStart c).power.tickDroops = c.power.tickDroops + 1 ∧
    objGet (droopStart c) 0x2505 0x01 0 = objGet (objBump 0x2505 0x01 0 1 c) 0x2505 0x01 0 := by
  simp only [droopStart, hd, hh, Option.isSome_none, Bool.or_self, Bool.false_eq_true, if_false]
  exact ⟨rfl, rfl, rfl⟩

theorem coolantStale_due {u : Nat} (hu : c.power.lastFresh = some u) (hs : c.power.stale = false) (hn : c.power.needed ≤ c.power.fresh)
    (hp : protects c = true) (ht : u + 100000000 ≤ c.tk.now) : (coolantStale c).power.stale = true ∧ (coolantStale c).power.inRow = 0 ∧
    objGet (coolantStale c) 0x2521 0x06 0 = objGet (objBump 0x2521 0x06 0 1 c) 0x2521 0x06 0 := by
  have he : ∃ d : Chip, d = objBumpSat 0x2900 0x06 0 1 { c with power := { c.power with stale := true, inRow := 0 } } ∧
      coolantStale c = thermalShow (alertLater 8 (logRec 2 2 .readingsStale [] (objBump 0x2521 0x06 0 1 d))) := by
    simp only [coolantStale, hu, hs, hp, Nat.not_lt.2 hn, Nat.not_lt.2 ht, Bool.not_true, decide_false, Bool.or_self, Bool.false_eq_true, if_false]
    exact ⟨_, rfl, rfl⟩
  obtain ⟨d, hd, he⟩ := he
  have hpow : (coolantStale c).power = { c.power with stale := true, inRow := 0 } := by
    rw [he, thermalShow_power, alertLater_power, logRec_power, objBump_power, hd]
    rfl
  have hun := unclassed_marks (i := 0x2521) (k := 6) (by decide)
  refine ⟨by rw [hpow], by rw [hpow], ?_⟩
  rw [he, (thermalShow_keeps hun rfl rfl rfl _).get (by omega), objGet_alertLater, ((KeepsObjs.refl _).event hun).get (by omega), objGet_bump_same,
    objGet_bump_same, hd, objGet_bumpSat_idx _ _ _ _ _ _ (by decide)]
  rfl

/-! Keep-warm and wake states (R370, R371). -/

theorem keepWarm_off (h : objGet c 0x2540 0x03 0 ≠ 1) : keepWarm c = objSet 0x2540 0x02 0 0 c := by
  simp only [keepWarm, beq_false_of_ne h, Bool.false_and, Bool.false_eq_true, if_false]

theorem linkDown_wake (p : Nat) (c : Chip) : (linkDown p c).tk = c.tk ∧ KeepsObjs (marks 0x2530 2) c (linkDown p c) := by
  have hun := unclassed_marks (i := 0x2530) (k := 2) (by decide)
  have hset : ∀ v st, (setLink p st (setPort p v c)).tk = c.tk ∧ KeepsObjs (marks 0x2530 2) c (setLink p st (setPort p v c)) := fun v st =>
    ⟨by simp [setLink, linkClasses, setPort], ((KeepsObjs.refl c).port v).trans (setLink_keeps hun rfl rfl p st _)⟩
  unfold linkDown
  generalize (if (portAt c p).excluded = true then 5 else 0) = st
  rw [linkDrop_eq]
  dsimp only
  obtain ⟨h1, h2⟩ := hset (droppedPort c p) st
  split <;> split
  · exact ⟨(breakUpd_tk ..).trans h1, h2.trans (.of_objs (breakUpd_objs ..))⟩
  · exact ⟨h1, h2⟩
  · exact ⟨(logRec_tk ..).trans ((breakUpd_tk ..).trans h1), (h2.trans (.of_objs (breakUpd_objs ..))).event hun⟩
  · exact ⟨(logRec_tk ..).trans h1, h2.event hun⟩

theorem linksOff_wake (c : Chip) : (linksOff c).tk = c.tk ∧ KeepsObjs (marks 0x2530 2) c (linksOff c) := by
  refine foldl_invariant (fun d => d.tk = c.tk ∧ KeepsObjs (marks 0x2530 2) c d) (fun d p hd => ?_) _ ⟨rfl, .refl c⟩
  split
  · exact hd
  · exact ⟨(linkDown_wake p d).1.trans hd.1, hd.2.trans (linkDown_wake p d).2⟩

theorem wakeEntry_enters (hm : c.tk.mode ≠ .running) (hw : c.power.waking = false) (hd : c.tk.deferred = []) (hc : c.plan.cmd = none)
    (hl : c.plan.loading = none) (hh : c.life.lease.holders = []) (ht : wakeCode c.tk.wake < wakeCode (wakeTarget c)) :
    (wakeEntry c).tk.wake = wakeTarget c ∧ objGet (wakeEntry c) 0x2530 0x02 0 = wakeCode (wakeTarget c) := by
  have he : ∃ g : Grid, wakeEntry c = if wakeTarget c = .sleep then linksOff { setWake (wakeTarget c) c with grid := g } else setWake (wakeTarget c) c := by
    simp only [wakeEntry, hm, hw, hd, hc, hl, hh, Nat.not_le.2 ht, List.isEmpty_nil, Bool.not_true, Option.isSome_none, decide_false, Bool.or_self,
      Bool.false_eq_true, if_false]
    exact ⟨_, rfl⟩
  obtain ⟨g, he⟩ := he
  rw [he]
  split
  · obtain ⟨h1, h2⟩ := linksOff_wake { setWake (wakeTarget c) c with grid := g }
    exact ⟨by rw [h1]; rfl, (h2.get (by omega) 0).trans (objGet_set_same ..)⟩
  · exact ⟨rfl, objGet_set_same ..⟩

end

end Sys2Proof.Machine

namespace Sys2Proof.Proofs
open Sys2Proof Sys2Proof.Machine

/-- Settles O43. A sample's reading stays the one shown whatever the thresholds do; above 105 °C Survival is entered first. -/
theorem powerEvents : Obligations.PowerEvents := by
  intro s t
  dsimp only
  refine ⟨fun counts => ?_, fun mv ma => ?_, fun hd hh => ?_, fun u hu => ?_, fun h => ?_, fun u hu hs hn hp ht => ?_, fun d ds => ?_, fun h => ?_,
    fun hm hw hd hc hl hh ht => ?_, fun hw => ?_, fun d => rfl⟩
  · refine gives_onChip (f := powerEstimate counts) rfl ?_
    rw [onto, settle_power]
    exact ⟨rfl, rfl⟩
  · refine gives_onChip (f := fun c => thermalShow (calibrate mv ma (atTime t c))) rfl ?_
    obtain ⟨h1, h2, h3, h4⟩ := calibrate_bounds mv ma (atTime t s.chip)
    rw [onto, settle_power, objGet_settle, thermalShow_power]
    exact ⟨h1, h2, ((thermalShow_keeps (unclassed_marks (by decide)) rfl rfl rfl _).get (by omega) 0).trans h3, h4⟩
  · refine gives_onChip (f := fun c => droopStart (atTime t c)) rfl ?_
    rw [onto, settle_power, objGet_settle]
    exact droopStart_counts (c := atTime t s.chip) hd hh
  · refine answers_onChip (f := fun c => droopEnd (atTime t c)) rfl ?_
    have hu' : (atTime t s.chip).power.droop = some u := hu
    simp only [droopEnd, hu']
  · refine answers_onChip (f := fun c => if objGet c 0x2505 0x03 0 = 0 then { c with power := { c.power with lockStep := 6 } } else c) rfl ?_
    simp only [h, if_true]
  · refine gives_onChip (f := fun c => coolantStale (atTime t c)) rfl ?_
    rw [onto, settle_power, objGet_settle]
    exact coolantStale_due (c := atTime t s.chip) hu hs hn hp (le_atTime ht)
  · refine gives_onChip (f := fun c => dieSample (d :: ds) (atTime t c)) rfl ?_
    rw [onto, settle_power, settle_tk, objGet_settle, objGet_settle]
    exact dieSample_shows d ds (atTime t s.chip)
  · exact answers_onChip (f := keepWarm) rfl (keepWarm_off h)
  · refine gives_onChip (f := wakeEntry) rfl ?_
    rw [onto, settle_tk, objGet_settle]
    exact wakeEntry_enters hm hw hd hc hl hh ht
  · refine answers_onChip (f := fun c => if c.power.waking then wakeAll (atTime t c) else atTime t c) rfl ?_
    simp only [hw, if_true]

end Sys2Proof.Proofs

/-! SUPPORT. Firmware slots and updates (R419-R426). -/

namespace Sys2Proof.Machine

/-! A component's slots. -/

theorem fwSlot_set_same (k : FwComp) (n : Nat) (v : FwSlot) : fwSlot (setFwSlot k n v) n = v := by
  by_cases h : n = 0 <;> simp [fwSlot, setFwSlot, h]

theorem fwSlot_set_other {k : FwComp} {n : Nat} {v : FwSlot} (h : n < 2) : fwSlot (setFwSlot k (1 - n) v) n = fwSlot k n := by
  obtain rfl | rfl : n = 0 ∨ n = 1 := by omega
  · rfl
  · rfl

theorem setFwSlot_active (k : FwComp) (n : Nat) (v : FwSlot) : (setFwSlot k n v).active = k.active := by
  unfold setFwSlot
  split <;> rfl

theorem setFwSlot_floor (k : FwComp) (n : Nat) (v : FwSlot) : (setFwSlot k n v).floor = k.floor := by
  unfold setFwSlot
  split <;> rfl

section
variable {c c' c'' : Chip} {n : Nat}

theorem fwComp_of_comps (h : c'.fw.comps = c.fw.comps) (n : Nat) : fwComp c' n = fwComp c n := by rw [fwComp, h, fwComp]

theorem fwComp_setComp (hn : n < 5) (v : FwComp) (c : Chip) : fwComp (setComp n v c) n = v := getD_setIfInBounds _ _ _ hn

theorem fwComp_modComp (hn : n < 5) (f : FwComp → FwComp) (c : Chip) : fwComp (modComp n f c) n = f (fwComp c n) := fwComp_setComp hn ..

/-! Updates under way. -/

theorem updOf_of_updates (h : c'.fw.updates = c.fw.updates) (n : Nat) : updOf c' n = updOf c n := by rw [updOf, h, updOf]

theorem updOf_component {u : Update} (h : updOf c n = some u) : u.component = n := 
  beq_iff_eq.1 (List.find?_some (p := fun u : Update => u.component == n) h)

theorem updOf_setUpd (u : Update) (c : Chip) : updOf (setUpd u c) u.component = some u := by
  have hnone : (c.fw.updates.filter (fun x => x.component != u.component)).find? (fun x => x.component == u.component) = none :=
    List.find?_eq_none.2 fun x hx => by simpa using (List.mem_filter.1 hx).2
  show ((c.fw.updates.filter (fun x => x.component != u.component)) ++ [u]).find? (fun x => x.component == u.component) = some u
  rw [List.find?_append, hnone]
  simp

theorem updOf_dropUpd (n : Nat) (c : Chip) : updOf (dropUpd n c) n = none :=
  List.find?_eq_none.2 fun x hx => by simpa using (List.mem_filter.1 hx).2

/-! What the steps around an update leave of the firmware state. -/

/-- From c to c' the components, the updates under way and the handover record stand. -/
structure FwKept (c c' : Chip) : Prop where
  comps : c'.fw.comps = c.fw.comps
  updates : c'.fw.updates = c.fw.updates
  handover : c'.fw.handover = c.fw.handover

theorem FwKept.of_fw (h : c'.fw = c.fw) : FwKept c c' := ⟨by rw [h], by rw [h], by rw [h]⟩

theorem FwKept.refl (c : Chip) : FwKept c c := .of_fw rfl

theorem FwKept.trans (h : FwKept c c') (h' : FwKept c' c'') : FwKept c c'' :=
  ⟨h'.comps.trans h.comps, h'.updates.trans h.updates, h'.handover.trans h.handover⟩

theorem FwKept.comp (h : FwKept c c') (n : Nat) : fwComp c' n = fwComp c n := fwComp_of_comps h.comps n

theorem FwKept.active (h : FwKept c c') (n : Nat) : fwActive c' n = fwActive c n := by rw [fwActive, h.comp, fwActive]

theorem FwKept.upd (h : FwKept c c') (n : Nat) : updOf c' n = updOf c n := updOf_of_updates h.updates n

theorem showComp_fw (c : Chip) (n : Nat) : (showComp c n).fw = c.fw := by
  unfold showComp
  dsimp only
  rw [blobSet_fw, objSet_fw, objSet_fw, objSet_fw, objSet_fw, objSet_fw, objSet_fw, objSet_fw, objSet_fw]

theorem fwShow_fw (c : Chip) : (fwShow c).fw = c.fw := by
  unfold fwShow
  dsimp only
  rw [objSet_fw, objSet_fw, foldl_keeps Chip.fw showComp_fw]

theorem showUnsettled_fwShow_fw (c : Chip) : (showUnsettled (fwShow c)).fw = c.fw := fwShow_fw c

theorem extend_fw (reg ev : Nat) (d : BitVec 256) (c : Chip) : (extend reg ev d c).fw = c.fw := by
  unfold extend measLog
  dsimp only
  split <;> rfl

theorem resetMeas_fw (reg : Nat) (c : Chip) : (resetMeas reg c).fw = c.fw := by
  unfold resetMeas resetMeasAs measLog
  dsimp only
  split <;> rfl

theorem useHandle_fw (h : Nat) (use : Bool) (c : Chip) : (useHandle h use c).fw = c.fw := by
  unfold useHandle
  split <;> rfl

theorem freeHandle_kept (n : Nat) (c : Chip) : FwKept c (freeHandle n c) := by
  unfold freeHandle
  split
  · exact .refl c
  · have h : FwKept c { c with fw := { c.fw with handles := cellsDrop c.fw.handles n } } := ⟨rfl, rfl, rfl⟩
    exact h.trans (.of_fw (useHandle_fw ..))

theorem leaseRelease_fw (a : Activity) (o : Nat) (c : Chip) : (leaseRelease a o c).fw = c.fw := by
  unfold leaseRelease
  dsimp only
  split <;> rfl

theorem suspectRow_fw (r : Nat) (c : Chip) : (suspectRow r c).fw = c.fw := by
  unfold suspectRow
  split
  · rfl
  · simp [hbmRowsShow]

theorem readLine_fw (k : Nat) (errs : List (Nat × Byte)) (c : Chip) : (readLine k errs c).2.2.fw = c.fw := by
  have hput : (if errs.isEmpty then c else hbmPut k (strikeLine (hbmPeek c k) errs) c).fw = c.fw := by split <;> rfl
  dsimp only [readLine]
  generalize (if errs.isEmpty then c else hbmPut k (strikeLine (hbmPeek c k) errs) c) = d at *
  split
  · rfl
  · split
    · exact hput
    · exact hput
    · exact hput
    · exact (suspectRow_fw ..).trans hput

theorem dataRead_fw (k : Nat) (errs : List (Nat × Byte)) (c : Chip) : (dataRead k errs c).2.2.fw = c.fw := by
  dsimp only [dataRead, queueLine]
  split
  · split <;> exact readLine_fw ..
  · exact readLine_fw ..

theorem residentWord_fw (t off : Nat) (c : Chip) : (residentWord t off c).2.fw = c.fw := by
  dsimp only [residentWord]
  exact dataRead_fw ..

theorem reloadWords_fw (t base n i : Nat) (c : Chip) : (reloadWords t base n i c).fw = c.fw := by
  induction n generalizing i c with
  | zero => rfl
  | succ n ih => rw [reloadWords, ih, setTile_fw, residentWord_fw]

theorem reloadLine_fw (t n : Nat) (c : Chip) : (reloadLine t n c).fw = c.fw := by
  rw [reloadLine, setTile_fw, residentWord_fw]

theorem reloadTile_fw (p : Plan) (t : Nat) (c : Chip) : (reloadTile p t c).fw = c.fw := by
  unfold reloadTile
  rw [foldRegions, foldl_keeps Chip.fw fun _ _ => reloadWords_fw ..]
  split
  · rfl
  · rw [foldl_keeps Chip.fw fun _ _ => reloadLine_fw ..]
    rfl

theorem startTiles_fw (r : Bool) (c : Chip) : (startTiles r c).fw = c.fw := by
  unfold startTiles
  split
  · rfl
  · refine foldl_keeps Chip.fw (fun d g => ?_) _ _
    unfold startTile
    split
    · rfl
    · split
      · dsimp only
        split
        · exact reloadTile_fw ..
        · rfl
      · rfl

theorem poisonRegion_fw (r : Region) (c : Chip) : (poisonRegion r c).fw = c.fw := by
  unfold poisonRegion
  split <;> rfl

theorem tilesPoisoned_fw (l : List Nat) (c : Chip) :
    (l.foldl (fun c t => setTile t (poisonUnits { tileAt c t with running := false }) c) c).fw = c.fw :=
  foldl_keeps Chip.fw (fun _ _ => setTile_fw ..) l c

/-- A pause's effect on the unit leaves all of the firmware state but its dark time. -/
theorem pauseEffect_kept (n : Nat) (c : Chip) : FwKept c (pauseEffect n c) := by
  unfold pauseEffect
  split
  · exact FwKept.trans (.of_fw (sided_writeLifeRecord false c).fw) ⟨rfl, rfl, rfl⟩
  · exact .of_fw ((tilesPoisoned_fw ..).trans (foldl_keeps Chip.fw (fun d r => poisonRegion_fw r d) _ _))
  · exact .of_fw (foldl_keeps (α := Nat × StreamSt) Chip.fw (f := fun c e => dropCoding e.1 (resetDecoder e.1 c))
      (fun d e => (sided_resetDecoder e.1 d).fw) _ _)
  · exact .refl c

/-! The pause of an activation or of a revert (R420, R421, R425). -/

theorem startPause_leaves (u : Update) (ph : UpdPhase) (c : Chip) :
    updOf (startPause u ph c) u.component = some { u with phase := ph, boundary := c.tk.tick } ∧
    (startPause u ph c).fw.handover = some (handoverOf u c) ∧ (startPause u ph c).fw.comps = c.fw.comps := by
  have hk : FwKept (setUpd { u with phase := ph, boundary := c.tk.tick } { c with fw := { c.fw with handover := some (handoverOf u c) } })
      (startPause u ph c) := by
    refine (pauseEffect_kept u.component _).trans (.of_fw ?_)
    exact (showUnsettled_fwShow_fw _).trans ((logRec_fw ..).trans (objSet_fw ..))
  exact ⟨(hk.upd _).trans (updOf_setUpd { u with phase := ph, boundary := c.tk.tick } _), hk.handover, hk.comps⟩

theorem noteRevert_fw (n : Nat) (c : Chip) : (noteRevert n c).fw = c.fw := (logRec_fw ..).trans ((alertLater_fw ..).trans (objBump_fw ..))

theorem noteRevert_tk (n : Nat) (c : Chip) : (noteRevert n c).tk = c.tk := (logRec_tk ..).trans ((alertLater_tk ..).trans (objBump_tk ..))

theorem handoverOf_noteRevert (u : Update) (n : Nat) (c : Chip) : handoverOf u (noteRevert n c) = handoverOf u c := by
  have hc : ∀ m, fwActive (noteRevert n c) m = fwActive c m := (FwKept.of_fw (noteRevert_fw n c)).active
  rw [handoverOf, hc, noteRevert_tk, handoverOf]

/-- The chip in the pause of an update. -/
def pausedFor (u : Update) (n : Nat) (c : Chip) : Chip := if u.revert then startPause u .reverting (noteRevert n c) else startPause u .pause c

theorem pausedFor_leaves (u : Update) (n : Nat) (c : Chip) :
    (updOf (pausedFor u n c) u.component).map (·.phase) = some (if u.revert then .reverting else .pause) ∧
    (pausedFor u n c).fw.handover = some (handoverOf u c) := by
  unfold pausedFor
  split
  · obtain ⟨h1, h2, -⟩ := startPause_leaves u .reverting (noteRevert n c)
    exact ⟨by rw [h1]; rfl, by rw [h2, handoverOf_noteRevert]⟩
  · obtain ⟨h1, h2, -⟩ := startPause_leaves u .pause c
    exact ⟨by rw [h1]; rfl, h2⟩

theorem pauseStart_due {u : Update} {handover : Bool} (hu : updOf c n = some u) (hp : u.phase = .granted) (hb : u.boundary ≤ c.tk.tick)
    (hw : wakeCode c.tk.wake ≤ 1) (hd : c.fw.down = false) : pauseStart n handover c =
      if handover && takesFormat u.image (handoverOf u c).format then pausedFor u n c else handoverLost n (pausedFor u n c) := by
  simp only [pauseStart, hu, hp, Nat.not_lt.2 hb, Nat.not_lt.2 hw, hd, ne_eq, not_true_eq_false, decide_false, Bool.or_self, Bool.false_eq_true,
    if_false, pausedFor]

end

end Sys2Proof.Machine

/-! SUPPORT. The ends of programming, of a pause and of a confirmation (R419, R421, R424, R425). -/

namespace Sys2Proof.Machine

section
variable {c : Chip} {n : Nat} {u : Update}

/-! What the dictionary shows of a command's status stays. -/

theorem showComp_status (c : Chip) (n : Nat) : KeepsObjs (marks 0x2801 0x0A) c (showComp c n) :=
  .blob (.set (.set (.set (.set (.set (.set (.set (.set (.refl c) rfl) rfl) rfl) rfl) rfl) rfl) rfl) rfl)

theorem fwShow_status (c : Chip) : KeepsObjs (marks 0x2801 0x0A) c (fwShow c) :=
  .set (.set (.foldl _ showComp_status (List.range 5) c) rfl) rfl

theorem showUnsettled_status (c : Chip) : KeepsObjs (marks 0x2801 0x0A) c (showUnsettled (fwShow c)) := (fwShow_status c).set rfl

/-! PROGRAM_DONE (R419). -/

/-- The component once programming has ended. -/
def programmedComp (ok : Bool) (u : Update) (k : FwComp) : FwComp := setFwSlot k u.slot (if ok then { st := .valid, image := u.image } else {})

theorem programDone_eq (ok : Bool) (hu : updOf c n = some u) (hp : u.phase = .programming) : programDone n ok c =
    let d := dropUpd n (modComp n (programmedComp ok u) c)
    fwShow (postStatus 0x2801 0x0A n (if ok then stOk else stIntegrity) (if ok then d else freeHandle n d)) := by
  simp only [programDone, hu, hp, ne_eq, not_true_eq_false, if_false]
  rfl

theorem programDone_ends (hn : n < 5) (ok : Bool) (hu : updOf c n = some u) (hp : u.phase = .programming) :
    fwSlot (fwComp (programDone n ok c) n) u.slot = (if ok then { st := .valid, image := u.image } else {}) ∧
    objGet (programDone n ok c) 0x2801 0x0A n = (if ok then stOk else stIntegrity) ∧ updOf (programDone n ok c) n = none := by
  rw [programDone_eq ok hu hp]
  dsimp only
  generalize (if ok then stOk else stIntegrity) = st
  have hd : FwKept (dropUpd n (modComp n (programmedComp ok u) c))
      (if ok then dropUpd n (modComp n (programmedComp ok u) c) else freeHandle n (dropUpd n (modComp n (programmedComp ok u) c))) := by
    split
    · exact .refl _
    · exact freeHandle_kept ..
  generalize (if ok then dropUpd n (modComp n (programmedComp ok u) c) else freeHandle n (dropUpd n (modComp n (programmedComp ok u) c))) = d at hd ⊢
  have hk := (hd.trans (.of_fw (postStatus_fw 0x2801 0x0A n st d))).trans (.of_fw (fwShow_fw _))
  refine ⟨?_, ((fwShow_status _).get (by omega) n).trans (objGet_postStatus_same ..), (hk.upd n).trans (updOf_dropUpd ..)⟩
  rw [hk.comp]
  exact (congrArg (fwSlot · u.slot) (fwComp_modComp hn (programmedComp ok u) c)).trans (fwSlot_set_same ..)

/-! ACTIVATION_PAUSE_END (R421). -/

/-- The component once a pause has ended: the slot before left, the slot of the update active and unconfirmed. -/
def switchedComp (u : Update) (k : FwComp) : FwComp :=
  let left := fwSlot k (1 - u.slot)
  let k := setFwSlot k (1 - u.slot) { left with st := if u.revert then .failed else .valid }
  let k := setFwSlot k u.slot { fwSlot k u.slot with st := .unconfirmed }
  { k with active := u.slot, interrupted := 0 }

theorem switchedComp_active (hs : u.slot < 2) (k : FwComp) :
    fwSlot (switchedComp u k) u.slot = { fwSlot k u.slot with st := .unconfirmed } := by
  unfold switchedComp
  exact (fwSlot_set_same ..).trans (by rw [fwSlot_set_other hs])

/-- The chip once the slot of an update is active and measured. -/
def pauseMeasured (n : Nat) (u : Update) (c : Chip) : Chip :=
  let c := setComp n (switchedComp u (fwComp c n)) c
  let c := extend (2 + n) (if u.revert then 0x03 else 0x02) (activeDigest c n) (resetMeas (2 + n) c)
  if u.owed || !u.revert then c else leaseRelease .fw n c

theorem pauseMeasured_fw (n : Nat) (u : Update) (c : Chip) : (pauseMeasured n u c).fw = (setComp n (switchedComp u (fwComp c n)) c).fw := by
  unfold pauseMeasured
  dsimp only
  split
  · rw [extend_fw, resetMeas_fw]
  · rw [leaseRelease_fw, extend_fw, resetMeas_fw]

/-- The update whose confirmation starts. -/
def confirmingUpd (u : Update) (now : Nat) : Update := { u with phase := .confirming, since := now, counted := 0, ran := 0, broken := false }

theorem pauseEnd_eq (hu : updOf c n = some u) (hp : u.phase = .pause) (hb : u.boundary < c.tk.tick) (hd : c.fw.down = false) :
    pauseEnd n c = showUnsettled (fwShow (
      let d := setUpd (confirmingUpd u (pauseMeasured n u c).tk.now) (pauseMeasured n u c)
      if n = 1 && d.tk.mode = .running && !workPaused d then startTiles true d else d)) := by
  unfold pauseEnd
  rw [hu]
  refine if_neg ?_
  simp only [hp, hd, Nat.not_le.2 hb, ne_eq, not_true_eq_false, decide_false, Bool.false_and, Bool.or_self, Bool.false_eq_true, not_false_eq_true]

theorem pauseEnd_due (hn : n < 5) (hu : updOf c n = some u) (hp : u.phase = .pause) (hb : u.boundary < c.tk.tick) (hd : c.fw.down = false) :
    fwComp (pauseEnd n c) n = switchedComp u (fwComp c n) ∧ (updOf (pauseEnd n c) n).map (·.phase) = some .confirming := by
  have hk : FwKept (setUpd (confirmingUpd u (pauseMeasured n u c).tk.now) (pauseMeasured n u c)) (pauseEnd n c) := by
    rw [pauseEnd_eq hu hp hb hd]
    dsimp only
    refine .of_fw ((showUnsettled_fwShow_fw _).trans ?_)
    split
    · exact startTiles_fw ..
    · rfl
  refine ⟨?_, ?_⟩
  · rw [hk.comp]
    exact (fwComp_of_comps (congrArg FwSt.comps (pauseMeasured_fw n u c)) n).trans (fwComp_setComp hn ..)
  · rw [hk.upd]
    have hself := updOf_setUpd (confirmingUpd u (pauseMeasured n u c).tk.now) (pauseMeasured n u c)
    rw [show (confirmingUpd u (pauseMeasured n u c).tk.now).component = n from
      (rfl : _ = u.component).trans (updOf_component hu)] at hself
    rw [hself]
    rfl

/-! IMAGE_CONFIRMED (R424). -/

/-- The component once its image is confirmed: its floor rises. -/
def confirmedComp (sec : Nat) (k : FwComp) : FwComp :=
  setFwSlot { k with floor := max k.floor sec, interrupted := 0 } k.active { fwSlot k k.active with st := .confirmed }

theorem confirmedComp_active (sec : Nat) (k : FwComp) : fwSlot (confirmedComp sec k) (confirmedComp sec k).active =
    { fwSlot k k.active with st := .confirmed } := by
  unfold confirmedComp
  rw [setFwSlot_active, fwSlot_set_same]

theorem confirmedComp_floor (sec : Nat) (k : FwComp) : (confirmedComp sec k).floor = max k.floor sec := setFwSlot_floor ..

/-- The security version of a component's active image. -/
def activeSec (c : Chip) (n : Nat) : Nat := match (fwActive c n).image with | some i => i.sec | none => 0

theorem imageConfirmed_eq (hu : updOf c n = some u) (hp : u.phase = .confirming) (ht : confirmTime u c = true) (hb : u.broken = false)
    (hd : c.fw.down = false) : imageConfirmed n c =
      let d := modComp n (confirmedComp (activeSec c n)) c
      let d := if u.owed then leaseRelease .fw n (postStatus 0x2801 0x0A n stOk (freeHandle n d)) else d
      showUnsettled (fwShow (logRec 0 0 .confirmed [n] (dropUpd n d))) := by
  simp only [imageConfirmed, hu, hp, ht, hb, hd, ne_eq, not_true_eq_false, decide_false, Bool.not_true, Bool.or_self, Bool.false_eq_true, if_false]
  rfl

theorem imageConfirmed_due (hn : n < 5) (hu : updOf c n = some u) (hp : u.phase = .confirming) (ht : confirmTime u c = true) (hb : u.broken = false)
    (hd : c.fw.down = false) : fwComp (imageConfirmed n c) n = confirmedComp (activeSec c n) (fwComp c n) ∧ updOf (imageConfirmed n c) n = none ∧
      (u.owed = true → objGet (imageConfirmed n c) 0x2801 0x0A n = stOk) := by
  rw [imageConfirmed_eq hu hp ht hb hd]
  dsimp only
  generalize hm : modComp n (confirmedComp (activeSec c n)) c = m
  have howed : FwKept m (if u.owed then leaseRelease .fw n (postStatus 0x2801 0x0A n stOk (freeHandle n m)) else m) ∧
      (u.owed = true → objGet (if u.owed then leaseRelease .fw n (postStatus 0x2801 0x0A n stOk (freeHandle n m)) else m) 0x2801 0x0A n = stOk) := by
    split
    · exact ⟨((freeHandle_kept n m).trans (.of_fw (postStatus_fw ..))).trans (.of_fw (leaseRelease_fw ..)),
        fun _ => (objGet_of_objs (leaseRelease_objs ..) ..).trans (objGet_postStatus_same ..)⟩
    case isFalse h => exact ⟨.refl m, fun hw => absurd hw h⟩
  generalize (if u.owed then leaseRelease .fw n (postStatus 0x2801 0x0A n stOk (freeHandle n m)) else m) = d at howed ⊢
  obtain ⟨hk, ho⟩ := howed
  have hrest : FwKept (dropUpd n d) (showUnsettled (fwShow (logRec 0 0 .confirmed [n] (dropUpd n d)))) :=
    .of_fw ((showUnsettled_fwShow_fw _).trans (logRec_fw ..))
  refine ⟨?_, (hrest.upd n).trans (updOf_dropUpd ..), fun hw => ?_⟩
  · rw [hrest.comp]
    refine (show fwComp (dropUpd n d) n = fwComp m n from hk.comp n).trans ?_
    rw [← hm]
    exact fwComp_modComp hn ..
  · exact ((((KeepsObjs.refl _).event (unclassed_marks (by decide))).trans (showUnsettled_status _)).get (by omega) n).trans (ho hw)

/-! CONFIRMATION_TIMEOUT (R425). -/

/-- The component whose slot failed. -/
def failedComp (u : Update) (k : FwComp) : FwComp := setFwSlot k u.slot { fwSlot k u.slot with st := .failed }

theorem confirmTimeout_eq {broken : Bool} (hu : updOf c n = some u) (hp : u.phase = .confirming)
    (hb : broken = true ∨ u.broken = true ∨ 30000000000 ≤ u.counted) (hr : u.revert = false)
    (ho : slotUsable (fwSlot (fwComp c n) (1 - u.slot)) = true) (hd : c.fw.down = false) :
    ∃ e : Chip, FwKept c e ∧ confirmTimeout n broken c =
      startPause { u with slot := 1 - u.slot, revert := true, owed := false, image := (fwSlot (fwComp c n) (1 - u.slot)).image } .reverting
        (noteRevert n (modComp n (failedComp u) e)) := by
  have hb' : (!(broken || u.broken) && decide (u.counted < 30000000000)) = false := by
    rcases hb with h | h | h
    · simp [h]
    · simp [h]
    · simp [Nat.not_lt.2 h]
  have hkept : ∀ st, FwKept c (if u.owed then postStatus 0x2801 0x0A n st (freeHandle n c) else c) := by
    intro st
    split
    · exact (freeHandle_kept n c).trans (.of_fw (postStatus_fw ..))
    · exact .refl c
  refine ⟨_, hkept (if broken || u.broken then stIntegrity else stTimeout), ?_⟩
  simp only [confirmTimeout, hu, hp, hb', hd, hr, (hkept _).comp, ho, ne_eq, not_true_eq_false, decide_false, Bool.or_self, Bool.false_eq_true,
    if_false, Bool.not_true]
  rfl

theorem confirmTimeout_due {broken : Bool} (hn : n < 5) (hu : updOf c n = some u) (hp : u.phase = .confirming)
    (hb : broken = true ∨ u.broken = true ∨ 30000000000 ≤ u.counted) (hr : u.revert = false)
    (ho : slotUsable (fwSlot (fwComp c n) (1 - u.slot)) = true) (hd : c.fw.down = false) :
    (fwSlot (fwComp (confirmTimeout n broken c) n) u.slot).st = .failed ∧
    (updOf (confirmTimeout n broken c) n).map (fun x => (x.phase, x.slot)) = some (.reverting, 1 - u.slot) := by
  obtain ⟨e, hk, he⟩ := confirmTimeout_eq hu hp hb hr ho hd
  generalize hv : ({ u with slot := 1 - u.slot, revert := true, owed := false, image := (fwSlot (fwComp c n) (1 - u.slot)).image } : Update) = v at he
  obtain ⟨h1, -, h3⟩ := startPause_leaves v .reverting (noteRevert n (modComp n (failedComp u) e))
  rw [← he] at h1 h3
  refine ⟨?_, ?_⟩
  · rw [fwComp_of_comps (h3.trans (congrArg FwSt.comps (noteRevert_fw n _))), fwComp_modComp hn, failedComp, fwSlot_set_same]
  · rw [show v.component = n by rw [← hv]; exact (rfl : _ = u.component).trans (updOf_component hu)] at h1
    rw [h1, ← hv]
    rfl

end

end Sys2Proof.Machine

namespace Sys2Proof.Proofs
open Sys2Proof Sys2Proof.Machine

/-- Settles O46. What follows an update's own step leaves the components and the updates as it put them. -/
theorem updateEvents : Obligations.UpdateEvents := by
  intro s n u hu
  dsimp only
  have hn := n.isLt
  have hsettle : ∀ c, FwKept c (onto s c).chip := fun c => .of_fw (settle_fw _)
  refine ⟨fun hp => ⟨?_, ?_⟩, fun hph hd => ⟨fun hp hb hw => ⟨fun hf => ?_, fun hf => ?_, ?_, ?_⟩, fun hp hb hs => ?_, fun hp ht hb => ?_,
    fun broken hp hb hr hs ho => ?_⟩⟩
  · refine gives_onChip (f := programDone n.val true) rfl ?_
    rw [(hsettle _).comp, (hsettle _).upd, onto, objGet_settle]
    exact programDone_ends hn true hu hp
  · refine gives_onChip (f := programDone n.val false) rfl ?_
    rw [(hsettle _).comp, (hsettle _).upd, onto, objGet_settle]
    exact programDone_ends hn false hu hp
  · refine answers_onChip (f := fun c => if c.tk.phase = .ac0 then pauseStart n.val true c else c) rfl ?_
    rw [if_pos hph, pauseStart_due hu hp hb hw hd, hf]
    rfl
  · refine answers_onChip (f := fun c => if c.tk.phase = .ac0 then pauseStart n.val true c else c) rfl ?_
    rw [if_pos hph, pauseStart_due hu hp hb hw hd, hf]
    rfl
  · refine answers_onChip (f := fun c => if c.tk.phase = .ac0 then pauseStart n.val false c else c) rfl ?_
    rw [if_pos hph, pauseStart_due hu hp hb hw hd]
    rfl
  · have h := pausedFor_leaves u n.val s.chip
    rw [updOf_component hu] at h
    exact h
  · refine gives_onChip (f := fun c => if c.tk.phase = .ac0 then pauseEnd n.val c else c) rfl ?_
    rw [if_pos hph]
    obtain ⟨h1, h2⟩ := pauseEnd_due hn hu hp hb hd
    rw [fwActive, (hsettle _).comp, (hsettle _).upd, h1, show (switchedComp u (fwComp s.chip n)).active = u.slot from rfl, switchedComp_active hs]
    exact ⟨rfl, rfl, rfl, h2⟩
  · refine gives_onChip (f := fun c => if c.tk.phase = .ac0 then imageConfirmed n.val c else c) rfl ?_
    rw [if_pos hph]
    obtain ⟨h1, h2, h3⟩ := imageConfirmed_due hn hu hp ht hb hd
    rw [fwActive, (hsettle _).comp, (hsettle _).upd, h1, confirmedComp_active, confirmedComp_floor, onto, objGet_settle]
    refine ⟨rfl, fun i hi => ?_, h2, h3⟩
    rw [activeSec, hi]
  · refine gives_onChip (f := fun c => if c.tk.phase = .ac0 then confirmTimeout n.val broken c else c) rfl ?_
    rw [if_pos hph, (hsettle _).comp, (hsettle _).upd]
    exact confirmTimeout_due hn hu hp hb hr ho hd

end Sys2Proof.Proofs

/-! SUPPORT. Harebell's commands (R428-R431). -/

namespace Sys2Proof.Machine

section
variable {c : Chip}

theorem hbDone_comp (st : Nat) (c : Chip) (n : Nat) : fwComp (hbDone st c) n = fwComp c n := rfl

theorem modHb_comp (f : HbSt → HbSt) (c : Chip) (n : Nat) : fwComp (modHb f c) n = fwComp c n := rfl

/-! Outside Harebell the commands change nothing. -/

theorem hbBegin_outside (h : c.tk.mode ≠ .harebell) : hbBegin c = c := if_pos h

theorem hbEnd_outside (h : c.tk.mode ≠ .harebell) : hbEnd c = c := if_pos h

theorem hbCancel_outside (h : c.tk.mode ≠ .harebell) : hbCancel c = c := if_pos h

theorem hbReboot_outside (h : c.tk.mode ≠ .harebell) : hbReboot c = c := if_pos h

variable (hm : c.tk.mode = .harebell)
include hm

/-! BEGIN. -/

/-- The header that the card holds. -/
def hbHeader (c : Chip) : List Byte := (List.range 256).map (fun i => BitVec.ofNat 8 (cellsGet 0 c.fw.hb.header i))

theorem hbBegin_unborn (hb : birthOk c.sec.birth = false) : hbBegin c = hbDone stIntegrity c := by
  unfold hbBegin
  exact (if_neg (not_not.2 hm)).trans (if_pos (by rw [hb]; rfl))

theorem hbBegin_malformed (hb : birthOk c.sec.birth = true) (hh : fwHeader (hbHeader c) = none) : hbBegin c = hbDone stRange c := by
  unfold hbHeader at hh
  simp only [hbBegin, hm, ne_eq, not_true_eq_false, if_false, hb, Bool.not_true, Bool.false_eq_true, hh]

theorem hbBegin_erases {i : FwImage} (hb : birthOk c.sec.birth = true) (hh : fwHeader (hbHeader c) = some i) (ha : fwAllowed c i = true)
    (hi : i.component < 5) : ∃ n, (hbBegin c).fw.hb.load = some (i.component, n, []) ∧ (hbBegin c).fw.hb.offset = 0 ∧ (hbBegin c).fw.hb.err = stOk ∧
      (hbBegin c).fw.hb.int2 = true ∧ (fwSlot (fwComp (hbBegin c) i.component) n).st = .writing := by
  have he : ∃ n, hbBegin c = hbDone stOk (modHb (fun h => { h with load := some (i.component, n, []), offset := 0, imageDone := false })
      (setComp i.component (setFwSlot (fwComp c i.component) n { st := .writing }) c)) := by
    unfold hbHeader at hh
    simp only [hbBegin, hm, ne_eq, not_true_eq_false, if_false, hb, Bool.not_true, Bool.false_eq_true, hh, ha]
    exact ⟨_, rfl⟩
  obtain ⟨n, he⟩ := he
  rw [he]
  refine ⟨n, rfl, rfl, rfl, rfl, ?_⟩
  rw [hbDone_comp, modHb_comp, fwComp_setComp hi, fwSlot_set_same]

/-! CHUNK, END and CANCEL. -/

section
variable (hl : c.fw.hb.load = none)
include hl

theorem hbChunk_idle (off : Nat) : hbChunk off c = hbDone stState c := by
  simp only [hbChunk, hm, ne_eq, not_true_eq_false, if_false, hl]

theorem hbEnd_idle : hbEnd c = hbDone stState c := by
  simp only [hbEnd, hm, ne_eq, not_true_eq_false, if_false, hl]

theorem hbCancel_idle : hbCancel c = hbDone stOk c := by
  simp only [hbCancel, hm, ne_eq, not_true_eq_false, if_false, hl]

end

section
variable {comp n : Nat} {bytes : List Byte} (hl : c.fw.hb.load = some (comp, n, bytes))
include hl

/-- The size that the header declares. -/
def hbSize (c : Chip) : Nat := (List.range 8).foldl (fun s i => s + cellsGet 0 c.fw.hb.header (0x28 + i) * 256 ^ i) 0

theorem hbChunk_continues (h1 : 1 ≤ c.fw.hb.len) (h2 : c.fw.hb.len ≤ 65536) (h3 : c.fw.hb.offset + c.fw.hb.len ≤ hbSize c) :
    (hbChunk c.fw.hb.offset c).fw.hb.offset = c.fw.hb.offset + c.fw.hb.len ∧
    ∃ d, (hbChunk c.fw.hb.offset c).fw.hb.load = some (comp, n, bytes ++ d) ∧ d.length = c.fw.hb.len := by
  have he : hbChunk c.fw.hb.offset c = hbDone stOk (modHb (fun h => { h with
      load := some (comp, n, bytes ++ (List.range c.fw.hb.len).map (fun i => BitVec.ofNat 8 (cellsGet 0 c.fw.hb.chunk i)))
      offset := c.fw.hb.offset + h.len }) c) := by
    unfold hbSize at h3
    simp only [hbChunk, hm, ne_eq, not_true_eq_false, if_false, hl, Nat.not_lt.2 h1, Nat.not_lt.2 h2, Nat.not_lt.2 h3, decide_false, Bool.or_self,
      Bool.false_eq_true]
  rw [he]
  exact ⟨rfl, _, rfl, by rw [List.length_map, List.length_range]⟩

theorem hbEnd_activates {i : FwImage} (hc : comp < 5) (hk : fwCheck c comp bytes = .ok i) :
    (fwComp (hbEnd c) comp).active = n ∧ fwActive (hbEnd c) comp = { st := .unconfirmed, image := some i } ∧
    (hbEnd c).fw.hb.imageDone = true ∧ (hbEnd c).fw.hb.err = stOk := by
  have he : ∃ k : FwComp, hbEnd c = hbDone stOk (modHb (fun h => { h with imageDone := true, incompat := if h.incompat = some comp then none else h.incompat })
        (setComp comp k (modHb (fun h => { h with load := none }) c))) ∧ k.active = n ∧ fwSlot k n = { st := .unconfirmed, image := some i } := by
    have hk' : fwCheck (modHb (fun h => { h with load := none }) c) comp bytes = .ok i := hk
    simp only [hbEnd, hm, ne_eq, not_true_eq_false, if_false, hl, hk']
    exact ⟨_, rfl, rfl, fwSlot_set_same ..⟩
  obtain ⟨k, he, ha, hs⟩ := he
  have hcomp : fwComp (hbEnd c) comp = k := by
    rw [he, hbDone_comp, modHb_comp, fwComp_setComp hc]
  rw [fwActive, hcomp, ha]
  refine ⟨rfl, hs, ?_, ?_⟩ <;> rw [he] <;> rfl

theorem hbCancel_empties (hc : comp < 5) : fwSlot (fwComp (hbCancel c) comp) n = {} ∧ (hbCancel c).fw.hb.load = none ∧ (hbCancel c).fw.hb.int2 = true := by
  have he : hbCancel c = hbDone stOk (modHb (fun h => { h with load := none, offset := 0 }) (modComp comp (fun k => setFwSlot k n {}) c)) := by
    simp only [hbCancel, hm, ne_eq, not_true_eq_false, if_false, hl]
  rw [he]
  refine ⟨?_, rfl, rfl⟩
  rw [hbDone_comp, modHb_comp, fwComp_modComp hc, fwSlot_set_same]

end

/-! REBOOT (R431). -/

theorem hbReboot_needs (h : hbNeed c ≠ 0) : hbReboot c = hbDone stNoResource c := by
  unfold hbReboot
  exact (if_neg (not_not.2 hm)).trans (if_pos h)

theorem hbReboot_starts (h : hbNeed c = 0) (hv : compatFails c = none) : (hbReboot c).tk.mode = .softStart ∧ (hbReboot c).fw.hb.rebooted = true := by
  have he : hbReboot c = setMode .softStart (modHb (fun h => { h with rebooted := true }) (hbDone stOk c)) := by
    simp only [hbReboot, hm, ne_eq, not_true_eq_false, if_false, h, hv, Option.isSome_none, Bool.false_eq_true]
  have hfw : ∀ d, (setMode .softStart d).fw = d.fw := by
    intro d
    unfold setMode
    split <;> rfl
  rw [he, hfw]
  exact ⟨setMode_mode .., rfl⟩

end

end Sys2Proof.Machine

namespace Sys2Proof.Proofs
open Sys2Proof Sys2Proof.Machine

/-- Settles O47. Each command is the branch that the mode, the load under way and the header choose. -/
theorem harebellEvents : Obligations.HarebellEvents := by
  intro s
  dsimp only
  refine ⟨fun hm => ⟨fun hb => ?_, fun hb hh => ?_, fun i hb hh ha hi => ?_, fun off hl => ⟨?_, ?_, ?_⟩, fun comp n bytes hl => ⟨fun h1 h2 h3 => ?_,
    fun i hc _ hk => ?_, fun hc => ?_⟩, fun h => ?_, fun h hv => ?_⟩, fun hm i hi => ?_⟩
  · exact answers_onChip (f := hbBegin) rfl (hbBegin_unborn hm hb)
  · exact answers_onChip (f := hbBegin) rfl (hbBegin_malformed hm hb hh)
  · refine gives_onChip (f := hbBegin) rfl ?_
    rw [onto, settle_fw, fwComp_of_comps (congrArg FwSt.comps (settle_fw _))]
    exact hbBegin_erases hm hb hh ha hi
  · exact answers_onChip (f := hbChunk off) rfl (hbChunk_idle hm hl off)
  · exact answers_onChip (f := hbEnd) rfl (hbEnd_idle hm hl)
  · exact answers_onChip (f := hbCancel) rfl (hbCancel_idle hm hl)
  · refine gives_onChip (f := hbChunk s.chip.fw.hb.offset) rfl ?_
    rw [onto, settle_fw]
    exact hbChunk_continues hm hl h1 h2 h3
  · refine gives_onChip (f := hbEnd) rfl ?_
    rw [onto, (FwKept.of_fw (settle_fw _)).active, fwComp_of_comps (congrArg FwSt.comps (settle_fw _)), settle_fw]
    exact hbEnd_activates hm hl hc hk
  · refine gives_onChip (f := hbCancel) rfl ?_
    rw [onto, fwComp_of_comps (congrArg FwSt.comps (settle_fw _)), settle_fw]
    exact hbCancel_empties hm hl hc
  · exact answers_onChip (f := hbReboot) rfl (hbReboot_needs hm h)
  · refine gives_onChip (f := hbReboot) rfl ?_
    rw [onto, settle_tk, settle_fw]
    exact hbReboot_starts hm h hv
  · simp only [List.mem_cons, List.not_mem_nil, or_false] at hi
    rcases hi with rfl | rfl | rfl | rfl
    · exact answers_onChip (f := hbBegin) rfl (hbBegin_outside hm)
    · exact answers_onChip (f := hbEnd) rfl (hbEnd_outside hm)
    · exact answers_onChip (f := hbReboot) rfl (hbReboot_outside hm)
    · exact answers_onChip (f := hbCancel) rfl (hbCancel_outside hm)

end Sys2Proof.Proofs

/-! SUPPORT. The calendar, redundant rows, engine spares and flash blocks (R434-R441). -/

namespace Sys2Proof.Machine

/-! The calendar (R435, R436). -/

/-- The offset of the calendar to the module's time when PTP has none to give: that of the tray, else the calendar as it runs on. -/
def calendarOffset (c : Chip) : Option Int := match c.life.tray with | some d => some d | none => c.life.calendar

theorem calendarOffset_known {d : Int} {c : Chip} (h : c.life.tray = some d ∨ (c.life.tray = none ∧ c.life.calendar = some d)) :
    calendarOffset c = some d := by
  rcases h with h | ⟨h, h'⟩ <;> simp only [calendarOffset, *]

theorem calendarUpdate_eq {d : Int} {c : Chip} (hp : objGet c 0x1F10 0x05 0 = 0) (hd : calendarOffset c = some d) :
    calendarUpdate c = objSet 0x2901 0x02 0 (if c.life.tray.isSome then 2 else 3) (objSet 0x2901 0x01 0 (d + c.tk.now).toNat
      { c with life := { c.life with calendar := some d } }) := by
  obtain hd | ⟨ht, hd⟩ : c.life.tray = some d ∨ (c.life.tray = none ∧ c.life.calendar = some d) := by
    unfold calendarOffset at hd
    split at hd
    next d' ht => exact .inl (ht.trans hd)
    · exact .inr ⟨‹_›, hd⟩
  · simp [calendarUpdate, hp, hd]
  · simp [calendarUpdate, hp, hd, ht]

theorem calendarKnown_records {d : Int} {c : Chip} (hp : objGet c 0x1F10 0x05 0 = 0) (hd : calendarOffset c = some d)
    (hn : objGet c 0x2901 0x04 0 = allOnes64) :
    objGet (calendarKnown c) 0x2901 0x04 0 = c.tk.tick ∧ objGet (calendarKnown c) 0x2901 0x01 0 = (d + c.tk.now).toNat ∧
      objGet (calendarKnown c) 0x2901 0x02 0 = (if c.life.tray.isSome then 2 else 3) := by
  have h4 : objGet (calendarUpdate c) 0x2901 0x04 0 = allOnes64 := by
    rw [calendarUpdate_eq hp hd, objGet_set_ne _ _ (okey_ne_sub (by decide)), objGet_set_ne _ _ (okey_ne_sub (by decide))]
    exact hn
  have heq : calendarKnown c = logRec 1 7 .calendarKnown [objGet (calendarUpdate c) 0x2901 0x01 0, objGet (calendarUpdate c) 0x2700 0x06 0,
      (calendarUpdate c).tk.tick] (objSet 0x2901 0x04 0 (calendarUpdate c).tk.tick (calendarUpdate c)) := by
    refine if_pos ?_
    rw [h4, calendarUpdate_eq hp hd]
    rfl
  rw [heq, objGet_log_idx _ _ _ _ _ _ _ (by decide) (by decide), objGet_log_idx _ _ _ _ _ _ _ (by decide) (by decide),
    objGet_log_idx _ _ _ _ _ _ _ (by decide) (by decide), objGet_set_same, objGet_set_ne _ _ (okey_ne_sub (by decide)),
    objGet_set_ne _ _ (okey_ne_sub (by decide)), calendarUpdate_eq hp hd, objGet_set_same, objGet_set_ne _ _ (okey_ne_sub (by decide)),
    objGet_set_same]
  exact ⟨rfl, rfl, rfl⟩

/-! Redundant rows (R439). -/

theorem rowCopy_copies {u wa : Nat} {c : Chip} (hp : c.tk.phase = .slack) (hh : (tileAt c u).held = false)
    (hs : (tileAt c u).suspects.contains wa = true) (hb : bankUsed (tileAt c u) (sramBank wa) < 8) :
    wa ∉ (tileAt (rowCopy u wa c) u).suspects ∧ (tileAt (rowCopy u wa c) u).copied = (tileAt c u).copied ++ [wa] := by
  have hno : ¬(c.tk.phase ≠ .slack || (tileAt c u).held || !(tileAt c u).suspects.contains wa ||
      8 ≤ bankUsed (tileAt c u) (sramBank wa)) = true := by
    simp only [hp, hh, hs, Nat.not_le.mpr hb]
    decide
  rw [rowCopy, if_neg hno, tileAt_setTile_same]
  simp [sramWrite]

theorem physIndex_of_routed {c c' : Chip} (h : c'.grid.routed = c.grid.routed) (t : Nat) : physIndex c' t = physIndex c t := by
  simp only [physIndex, routedCols, h]

theorem rowsShow_grid (t : Nat) (c : Chip) : (rowsShow t c).grid = c.grid := rfl

theorem objGet_rowsShow (t : Nat) (c : Chip) :
    objGet (rowsShow t c) 0x2921 0x03 (physIndex c t) = (tileAt c t).spareWords.length := by
  dsimp only [rowsShow]
  rw [objGet_set_idx _ _ _ _ _ _ (by decide), objGet_set_idx _ _ _ _ _ _ (by decide), objGet_set_same]

/-- The tile's copied word becomes a redundant row's. -/
def wordSpared (wa : Nat) (v : Tile) : Tile := { v with copied := v.copied.filter (· != wa), spareWords := v.spareWords ++ [wa] }

theorem rowSwitch_eq {u wa : Nat} {c : Chip} (hp : c.tk.phase = .ac0) (hc : (tileAt c u).copied.contains wa = true) :
    rowSwitch u wa c = rowsShow u (logRec 1 srcGrid .redundantRow [u, wa] (setTile u (wordSpared wa (tileAt c u)) c)) := by
  have hno : ¬(c.tk.phase ≠ .ac0 || !(tileAt c u).copied.contains wa) = true := by
    simp only [hp, hc]
    decide
  rw [rowSwitch, if_neg hno]
  rfl

theorem rowSwitch_switches {u wa : Nat} {c : Chip} (hp : c.tk.phase = .ac0) (hc : (tileAt c u).copied.contains wa = true) :
    (tileAt (rowSwitch u wa c) u).spareWords = (tileAt c u).spareWords ++ [wa] ∧
      objGet (rowSwitch u wa c) 0x2921 0x03 (physIndex c u) = (tileAt c u).spareWords.length + 1 := by
  let d := logRec 1 srcGrid .redundantRow [u, wa] (setTile u (wordSpared wa (tileAt c u)) c)
  have hd : d.grid = (setTile u (wordSpared wa (tileAt c u)) c).grid := logRec_grid ..
  have ht : tileAt d u = wordSpared wa (tileAt c u) := (tileAt_of_grid hd u).trans (tileAt_setTile_same ..)
  have hi : physIndex c u = physIndex d u := (physIndex_of_routed (congrArg Grid.routed hd) u).symm
  rw [rowSwitch_eq hp hc, tileAt_of_grid (rowsShow_grid u d), hi, objGet_rowsShow, ht]
  exact ⟨rfl, List.length_append⟩

/-! Engines and their spares (R440). -/

theorem engineShow_life (c : Chip) : (engineShow c).life = c.life := by simp [engineShow]

theorem engineShow_active {c : Chip} (h : c.life.heldEngines ≠ []) : classActive (engineShow c) 0x0A = true := by
  have hh : (!c.life.heldEngines.isEmpty) = true := by simpa [List.isEmpty_iff] using h
  dsimp only [engineShow]
  rw [classActive, objGet_set_idx _ _ _ _ _ _ (by decide), hh]
  exact setClass_active ..

theorem leaseRequest_heldEngines (a : Activity) (o : Nat) (b : Bool) (c : Chip) :
    (leaseRequest a o b c).1.life.heldEngines = c.life.heldEngines := by
  dsimp only [leaseRequest]
  split_ifs <;> rfl

theorem leaseShow_keepsClass (c : Chip) : KeepsObjs (marks 0x2A40 1) c (leaseShow c) := .set (.set (.refl c) rfl) rfl

theorem leaseRequest_keepsClass (a : Activity) (o : Nat) (b : Bool) (c : Chip) : KeepsObjs (marks 0x2A40 1) c (leaseRequest a o b c).1 := by
  dsimp only [leaseRequest]
  split_ifs
  · exact .trans (.bump (.later (.of_objs rfl) 12) rfl) (leaseShow_keepsClass _)
  · exact .refl c
  · exact .trans (.of_objs rfl) (leaseShow_keepsClass _)

/-- The engine is held, and its classes and 2910.04 follow. -/
def holdEngine (code : Nat) (c : Chip) : Chip :=
  engineShow (logRec 3 srcVideo .engineFailed [code] { c with life := { c.life with heldEngines := c.life.heldEngines ++ [code] } })

theorem holdEngine_heldEngines (code : Nat) (c : Chip) : (holdEngine code c).life.heldEngines = c.life.heldEngines ++ [code] := by
  rw [holdEngine, engineShow_life, logRec_life]

theorem engineFail_cases {code : Nat} {k : EngineKind} {c : Chip} (hk : kindOf code = some k) (hh : c.life.heldEngines.contains code = false) :
    engineFail code c = holdEngine code c ∨ engineFail code c = (leaseRequest .es code false (holdEngine code c)).1 := by
  simp only [engineFail, hk, hh, Bool.false_eq_true, if_false]
  split_ifs
  · exact .inr rfl
  · exact .inl rfl

theorem engineFail_holds {code : Nat} {k : EngineKind} {c : Chip} (hk : kindOf code = some k) (hh : c.life.heldEngines.contains code = false) :
    (engineFail code c).life.heldEngines = c.life.heldEngines ++ [code] ∧ classActive (engineFail code c) 0x0A = true := by
  have hact : classActive (holdEngine code c) 0x0A = true := engineShow_active (by simp [logRec_life])
  rcases engineFail_cases hk hh with h | h
  · rw [h]
    exact ⟨holdEngine_heldEngines .., hact⟩
  · rw [h, leaseRequest_heldEngines, classActive, (leaseRequest_keepsClass .es code false _).get (by omega)]
    exact ⟨holdEngine_heldEngines .., hact⟩

theorem dropCoding_life (n : Nat) (c : Chip) : (dropCoding n c).life = c.life := by
  rfl

/-- The streams or jobs that a spare's start disturbs leave the life part alone. -/
theorem engineInsert_inserts {e : LeaseEntry} {k : EngineKind} {c : Chip} (hi : c.life.inserting = none)
    (he : c.life.lease.holders.find? (fun e => e.act = .es && decide (e.tick < c.tk.tick)) = some e) (hk : kindOf e.obj = some k) :
    (engineInsert c).life.inserting = some (e.obj, c.tk.tick) ∧ (engineInsert c).life.sparedEngines = c.life.sparedEngines ++ [e.obj] := by
  unfold engineInsert
  simp only [hi, he, hk, engineShow_life, logRec_life]
  cases k with
  | decode => rw [foldl_keeps (fun d : Chip => d.life) (by intros; rfl)]; exact ⟨rfl, rfl⟩
  | encode => rw [foldl_keeps (fun d : Chip => d.life) (fun d n => dropCoding_life n d)]; exact ⟨rfl, rfl⟩
  | campion => exact ⟨rfl, rfl⟩
  | teasel => exact ⟨rfl, rfl⟩

theorem leaseRelease_inserting (a : Activity) (o : Nat) (c : Chip) : (leaseRelease a o c).life.inserting = c.life.inserting ∧
    (leaseRelease a o c).life.heldEngines = c.life.heldEngines := by
  unfold leaseRelease
  dsimp only
  split <;> exact ⟨rfl, rfl⟩

theorem engineInsertEnd_ends {code b : Nat} {c : Chip} (hi : c.life.inserting = some (code, b)) (hb : b < c.tk.tick) :
    (engineInsertEnd c).life.inserting = none ∧ code ∉ (engineInsertEnd c).life.heldEngines := by
  simp only [engineInsertEnd, hi, if_pos hb, engineShow_life, leaseRelease_inserting]
  simp

theorem engineTest_loses {k : EngineKind} {c : Chip} (h : spareState c k = 0) :
    (engineTest k false c).life.spareLost = c.life.spareLost ++ [k] := by
  have hno : ¬(false || spareState c k ≠ 0) = true := by simp [h]
  rw [engineTest, if_neg hno, engineShow_life, logRec_life]

/-! Flash blocks (R441). -/

theorem flashRetire_retires {part erases : Nat} {failed : Bool} {c : Chip} (h : failed = true ∨ 80000 ≤ erases)
    (hf : 0 < objGet c 0x2910 0x08 0) :
    objGet (flashRetire part erases failed c) 0x2910 0x08 0 = objGet c 0x2910 0x08 0 - 1 ∧
      objGet (flashRetire part erases failed c) 0x2910 0x09 0 = max erases (objGet c 0x2910 0x09 0) := by
  have hno : ¬(!failed && erases < 80000) = true := by
    rcases h with h | h <;> simp [h]
  have h8 : objGet (objSet 0x2910 0x09 0 (max erases (objGet c 0x2910 0x09 0)) c) 0x2910 0x08 0 = objGet c 0x2910 0x08 0 :=
    objGet_set_ne _ _ (okey_ne_sub (by decide))
  simp only [flashRetire, if_neg hno, h8, if_pos hf, replaceShow]
  rw [objGet_setClass _ _ _ (by decide), objGet_setClass _ _ _ (by decide), objGet_setClass _ _ _ (by decide), objGet_setClass _ _ _ (by decide),
    objGet_log_idx _ _ _ _ _ _ _ (by decide) (by decide), objGet_log_idx _ _ _ _ _ _ _ (by decide) (by decide), objGet_set_same,
    objGet_set_ne _ _ (okey_ne_sub (by decide)), objGet_set_same]
  exact ⟨rfl, rfl⟩

end Sys2Proof.Machine

namespace Sys2Proof.Proofs

open Sys2Proof Sys2Proof.Machine

/-- Settles O48: each event of the calendar, the rows, the engines and the flash under its trigger. -/
theorem lifeEvents : Obligations.LifeEvents := by
  intro s t
  dsimp only
  refine ⟨fun d hd hp hn => ?_, fun hr => ?_, fun u wa hu hp hh hs hb => ?_, fun u wa hu hp hc => ?_, fun code k he hk hh => ?_,
    fun e k hp hi he hk => ?_, fun code b hp hi hb => ?_, fun kind k hk hs => ?_, fun part erases failed hpart h hf => ?_⟩
  · refine gives_onChip (f := fun c => calendarKnown (atTime t c)) rfl ?_
    rw [onto, objGet_settle, objGet_settle, objGet_settle]
    exact calendarKnown_records (c := atTime t s.chip) hp (calendarOffset_known (c := atTime t s.chip) hd) hn
  · exact answers_onChip (f := fun c => lifeRecordDue (atTime t c)) rfl (if_pos hr)
  · refine gives_onChip (if_pos hu : onAnyTile u (rowCopy u wa) s = onChip (rowCopy u wa) s) ?_
    rw [onto, tileAt_of_grid (settle_grid _)]
    exact rowCopy_copies hp hh hs hb
  · refine gives_onChip (if_pos hu : onAnyTile u (rowSwitch u wa) s = onChip (rowSwitch u wa) s) ?_
    rw [onto, tileAt_of_grid (settle_grid _), objGet_settle]
    exact rowSwitch_switches hp hc
  · refine gives_onChip (if_pos he : execEngineDeclaredFailed code s = onChip (engineFail code) s) ?_
    rw [onto, settle_life, classActive, objGet_settle]
    exact engineFail_holds hk hh
  · refine gives_onChip (f := fun c => if c.tk.phase = .ac0 then engineInsert c else c) rfl ?_
    rw [if_pos hp, onto, settle_life]
    exact engineInsert_inserts hi he hk
  · refine gives_onChip (f := fun c => if c.tk.phase = .ac0 then engineInsertEnd c else c) rfl ?_
    rw [if_pos hp, onto, settle_life]
    exact engineInsertEnd_ends hi hb
  · refine gives_onChip (f := fun c => match kindOf (16 * kind.val) with | some k => engineTest k false c | none => c) rfl ?_
    simp only [hk, onto, settle_life]
    exact engineTest_loses hs
  · refine gives_onChip (onUnit_of_lt hpart (flashRetire part erases failed) s) ?_
    rw [onto, objGet_settle, objGet_settle]
    exact flashRetire_retires h hf

end Sys2Proof.Proofs

/-! SUPPORT. The lease scan, the demand scrub and held fault classes (R442-R447). -/

namespace Sys2Proof.Machine

/-! The lease scan (R444, R446). -/

theorem gridShow_life (c : Chip) : (gridShow c).life = c.life := by
  dsimp only [gridShow, replaceShow]
  rw [setClass_life, setClass_life, setClass_life]
  refine iteInduction (motive := fun d : Chip => d.life = c.life) (fun _ => ?_) (fun _ => ?_) <;>
    exact foldl_keeps (fun d : Chip => d.life) (by intros; rfl) (List.range 4) c

/-- What was released has left, as a scan finds the lease. -/
def leaseReleased (c : Chip) : Chip :=
  leaseShow { c with life := { c.life with lease := { c.life.lease with
    holders := c.life.lease.holders.filter (fun e => !c.life.lease.releases.contains e), releases := [] } } }

theorem leaseBoundary_eq {c : Chip} (hd : c.fw.down = false) (ho : leaseOpen c = true) :
    leaseBoundary c = leaseScan c.life.lease.queue [] (leaseReleased c) := by
  have ho' : leaseOpen (leaseReleased c) = true := ho
  exact (if_neg (by rw [hd]; decide)).trans (if_pos ho')

theorem leaseBoundary_idle {c : Chip} (hd : c.fw.down = false) (ho : leaseOpen c = true) (hq : c.life.lease.queue = []) :
    (leaseBoundary c).life.lease.holders = c.life.lease.holders.filter (fun e => !c.life.lease.releases.contains e) ∧
      (leaseBoundary c).life.lease.releases = [] := by
  rw [leaseBoundary_eq hd ho, hq]
  exact ⟨rfl, rfl⟩

/-- The grant of a spare insertion starts nothing that changes the lease. -/
theorem granted_lease {e : LeaseEntry} (he : e.act = .si ∨ e.act = .es) (c : Chip) : (granted e c).life.lease = c.life.lease := by
  rcases he with h | h <;> simp only [granted, leaseStatus, h, gridShow_life]

theorem leaseBoundary_grants {e : LeaseEntry} {c : Chip} (hd : c.fw.down = false) (ho : leaseOpen c = true) (hh : c.life.lease.holders = [])
    (hq : c.life.lease.queue = [e]) (he : e.act = .si ∨ e.act = .es) :
    (leaseBoundary c).life.lease.holders = [e] ∧ (leaseBoundary c).life.lease.queue = [] := by
  have hnone : (leaseReleased c).life.lease.holders = [] := congrArg (List.filter _) hh
  have hfree : ¬(!((leaseReleased c).life.lease.holders.all (leaseCompat e) && ([] : List LeaseEntry).all (leaseCompat e))) = true := by
    rw [hnone]
    exact Bool.false_ne_true
  have hrepair : ¬(e.act = .ppr && (leaseReleased c).tk.mode ≠ .idle && (leaseReleased c).tk.mode ≠ .loaded) = true := by
    rcases he with h | h <;> simp [h]
  have hscan : leaseBoundary c = leaseScan [] [] (granted e (leaseGrant e (leaseReleased c))) := by
    rw [leaseBoundary_eq hd ho, hq]
    exact (if_neg hfree).trans (if_neg hrepair)
  rw [hscan]
  refine ⟨(congrArg LeaseSt.holders (granted_lease he _) : _).trans ?_, rfl⟩
  exact congrArg (· ++ [e]) hnone

/-- Table 14-3 names pairs: which activity came first makes no difference. -/
theorem leaseCompat_comm (a b : LeaseEntry) : leaseCompat a b = leaseCompat b a := by
  obtain ⟨aa, ao, at', ac⟩ := a
  obtain ⟨ba, bo, bt, bc⟩ := b
  cases aa with
  | lr => cases ba with
    | lr => exact bne_comm
    | _ => rfl
  | _ => cases ba <;> rfl

/-! The demand scrub (R442). -/

theorem leaseRelease_scrubbing (a : Activity) (o : Nat) (c : Chip) : (leaseRelease a o c).life.scrubbing = c.life.scrubbing := by
  unfold leaseRelease
  dsimp only
  split <;> rfl

theorem scrubDone_posts {c : Chip} (hs : c.life.scrubbing = true) (hl : leaseHeld c .ds = true) (hf : scrubFull c = true) :
    objGet (scrubDone c) 0x2903 0x02 0 = stOk ∧ objGet (scrubDone c) 0x2903 0x03 0 = 1000 ∧ (scrubDone c).life.scrubbing = false := by
  have hall : (c.life.scrubbing && leaseHeld c .ds && scrubFull c) = true := by simp only [hs, hl, hf, Bool.and_self]
  rw [scrubDone, if_pos hall, objGet_of_objs (leaseRelease_objs ..), objGet_of_objs (leaseRelease_objs ..), leaseRelease_scrubbing, objGet_set_same,
    objGet_set_ne _ _ (okey_ne_sub (by decide)), objGet_postStatus_same, objSet_life, postStatus_life]
  exact ⟨rfl, rfl, rfl⟩

/-! Fault classes held for a time (R447). -/

theorem bitOf_sub_self {m n : Nat} (h : bitOf m n = true) : bitOf (m - 2 ^ n) n = false := by
  have hdiv : (m - 2 ^ n) / 2 ^ n = m / 2 ^ n - 1 := by simpa using Nat.sub_mul_div m (2 ^ n) 1
  simp only [bitOf, Nat.testBit_eq_decide_div_mod_eq, hdiv] at h ⊢
  have hodd := of_decide_eq_true h
  exact decide_eq_false (by omega)

theorem setClass_ended (n : Nat) (c : Chip) : classActive (setClass n false c) n = false := by
  dsimp only [setClass, classActive]
  split
  · assumption
  · next h =>
    simp only [Bool.false_eq_true, if_false]
    rw [objGet_log_idx _ _ _ _ _ _ _ (by decide) (by decide), objGet_set_idx _ _ _ _ _ _ (by decide), objGet_set_same]
    exact bitOf_sub_self (by simpa using h)

theorem classExpiry_ends {n u : Nat} {c : Chip} (h10 : n ≠ 0x10) (h01 : n ≠ 0x01) (hu : cellsFind c.life.classUntil n = some u)
    (hn : u ≤ c.tk.now) :
    classActive (classExpiry n c) n = false ∧ cellsFind (classExpiry n c).life.classUntil n = none := by
  have heq : classExpiry n c = setClass n false { c with life := { c.life with classUntil := cellsDrop c.life.classUntil n } } := by
    simp only [classExpiry, hu, if_neg (Nat.not_lt.mpr hn), if_neg h10, if_neg h01, Bool.false_eq_true, if_false]
  rw [heq, setClass_life]
  exact ⟨setClass_ended .., cellsFind_drop_same ..⟩

end Sys2Proof.Machine

namespace Sys2Proof.Proofs

open Sys2Proof Sys2Proof.Machine

/-- Settles O49: the lease scan, Table 14-3's symmetry, the demand scrub's end and a held class's end. -/
theorem leaseEvents : Obligations.LeaseEvents := by
  intro s t
  dsimp only
  refine ⟨fun hp hd ho => ⟨?_, leaseBoundary_idle hd ho, fun e => leaseBoundary_grants hd ho⟩, leaseCompat_comm, fun hs hl hf => ?_,
    fun n u hn h10 h01 hu ht => ?_⟩
  · exact answers_onChip (f := fun c => if c.tk.phase = .ac0 then leaseBoundary c else c) rfl (if_pos hp)
  · refine gives_onChip (f := scrubDone) rfl ?_
    rw [onto, objGet_settle, objGet_settle, settle_life]
    exact scrubDone_posts hs hl hf
  · refine gives_onChip (f := fun c => classExpiry n (atTime t c)) rfl ?_
    rw [onto, classActive, objGet_settle, settle_life]
    exact classExpiry_ends (c := atTime t s.chip) h10 h01 hu (le_atTime ht)

end Sys2Proof.Proofs

/-! SUPPORT. A granted write to a command object (R391, R392): its checks pass by its row, and of what the command did only its own
object and its status object are written again. -/

namespace Sys2Proof.Machine

/-- f is the command of object i.k, which takes values of the lengths len and in the range val. -/
structure CommandObj (i k : Nat) (len val : Nat → Prop) (f : Cmd) : Prop where
  row : ∃ row, objRow i k = some row ∧ (row.kind ≠ .selector ∧ row.kind ≠ .param) ∧ row.sub = k ∧
    (∀ n, len n → lengthOk row i n = true) ∧ ∀ v, val v → rangeOk row i v = true
  cmd : commandOf i k = some f

/-- A command object of a fixed size. -/
theorem commandObj_of_row {i k size lo hi : Nat} {row : ObjRow} {f : Cmd} (h : objRow i k = some row) (hk : row.kind = .command)
    (hb : row.blob = false) (hs : row.size = size) (hlo : row.lo = lo) (hhi : row.hi = hi) (hno : (i == 0x2501) = false)
    (hf : commandOf i k = some f) : CommandObj i k (· = size) (fun v => lo ≤ v ∧ v ≤ hi) f := by
  subst hs hlo hhi
  refine ⟨⟨row, h, by simp [hk], objRow_sub h, fun n hn => ?_, fun v hv => ?_⟩, hf⟩
  · simp [lengthOk, hb, hn]
  · simp only [rangeOk, hv, decide_true, Bool.and_self, Bool.true_and, Bool.or_eq_true]
    split
    · exact absurd hno (by decide)
    · exact .inr rfl

/-- A command object that takes bytes: any length of its row that the lengths of R393 allow. -/
theorem commandObj_of_bytes {i k : Nat} {row : ObjRow} {f : Cmd} {len : Nat → Prop} (h : objRow i k = some row) (hk : row.kind = .command)
    (hb : row.blob = true) (hl : ∀ n, len n → lengthOk row i n = true) (hf : commandOf i k = some f) : CommandObj i k len (fun _ => True) f :=
  ⟨⟨row, h, by simp [hk], objRow_sub h, hl, fun v _ => by simp [rangeOk, hb]⟩, hf⟩

/-- The module d is c' after the note of a command with value v to entry n of i.k: the command's object and its status object are
written, alerts may have risen, and nothing else of what a statement speaks of has changed. -/
structure Noted (i k n v : Nat) (c' d : Chip) : Prop where
  tk : d.tk = c'.tk
  blobs : d.blobs = c'.blobs
  trace : d.trace = c'.trace
  grid : d.grid = c'.grid
  plan : d.plan = c'.plan
  hbm : d.hbm = c'.hbm
  intake : d.intake = c'.intake
  sec : d.sec = c'.sec
  net : d.net = c'.net
  video : d.video = c'.video
  serv : d.serv = c'.serv
  life : d.life = c'.life
  power : d.power = c'.power
  fw : d.fw = c'.fw
  link : d.link = c'.link
  ctxs : d.dict.ctxs = c'.dict.ctxs
  groups : d.dict.groups = c'.dict.groups
  /-- Every other object keeps its value. -/
  other : ∀ j m l, okey j m l ≠ okey i k n → (∀ o, statusOf i k = some o → okey j m l ≠ okey o.1 o.2 (statusInst o n)) →
    objGet d j m l = objGet c' j m l
  /-- An object without a status object keeps the value written. -/
  value : statusOf i k = none → objGet c' i k n = v → objGet d i k n = v

theorem noteCommand_value {row : ObjRow} {i n v : Nat} {res : Res} {c : Chip} (ho : statusOf i row.sub = none) (h : objGet c i row.sub n = v) :
    objGet (noteCommand row i n v res c) i row.sub n = v := by
  dsimp only [noteCommand]
  rw [ho]
  dsimp only
  split
  · exact h
  · exact objGet_set_same ..

theorem noted_settle {row : ObjRow} {i n v : Nat} {res : Res} {c' : Chip} (s : State) :
    Noted i row.sub n v c' (onto s (noteRes (noteCommand row i n v res c', res))).chip where
  tk := (settle_tk _).trans (noteCommand_tk ..)
  blobs := (settle_blobs _).trans (noteCommand_blobs ..)
  trace := (settle_trace _).trans (noteCommand_trace ..)
  grid := (settle_grid _).trans (noteCommand_grid ..)
  plan := (settle_plan _).trans (noteCommand_plan ..)
  hbm := (settle_hbm _).trans (noteCommand_hbm ..)
  intake := (settle_intake _).trans (noteCommand_intake ..)
  sec := (settle_sec _).trans (noteCommand_sec ..)
  net := (settle_net _).trans (noteCommand_net ..)
  video := (settle_video _).trans (noteCommand_video ..)
  serv := (settle_serv _).trans (noteCommand_serv ..)
  life := (settle_life _).trans (noteCommand_life ..)
  power := (settle_power _).trans (noteCommand_power ..)
  fw := (settle_fw _).trans (noteCommand_fw ..)
  link := (settle_link _).trans (noteCommand_link ..)
  ctxs := (settle_dict_ctxs _).trans (noteCommand_dict_ctxs ..)
  groups := (settle_dict_groups _).trans (noteCommand_dict_groups ..)
  other j m l h1 h2 := (objGet_settle _ j m l).trans (objGet_noteCommand_ne h1 h2)
  value ho h := (objGet_settle _ _ _ _).trans (noteCommand_value ho h)

section
variable {inst : Instr} {s : State} {r : Role} {i k n v st : Nat} {len val : Nat → Prop} {b : List Byte} {f : Cmd} {c' : Chip} {res : Res}
  {P : State → Prop}

/-- A granted write of a command: P holds of the next state when it follows from the command's result and effect. -/
theorem command_gives (hcmd : CommandObj i k len val f) (hx : exec inst s = onWrite r i k b s) (hg : Granted s r i k n v) (hv : natLE b = v)
    (hl : len b.length) (hr : val v) (hn : needsRun i k v = false ∨ s.chip.tk.wake = .run) (hout : f (dictImage s) r n b s.chip = (c', res))
    (hnr : res.st ≠ stRights ∨ i = 0x2710) (hP : ∀ s', Noted i k n v c' s'.chip → s'.chip.dict.lastRes = res → P s') : Gives inst s P := by
  obtain ⟨row, hrow, hk, rfl, hlen, hval⟩ := hcmd.row
  refine ⟨_, write_answers hx hg hv hrow hk rfl hcmd.cmd (hlen _ hl) (hval _ hr) hn hout hnr, hP _ (noted_settle s) ?_⟩
  rw [onto, settle_dict_lastRes]
  rfl

/-- The same for a command with a status object. -/
theorem command_does {j l m : Nat} (hcmd : CommandObj i k len val f) (ho : statusOf i k = some (j, l)) (hm : statusInst (j, l) n = m)
    (hx : exec inst s = onWrite r i k b s) (hg : Granted s r i k n v) (hv : natLE b = v) (hl : len b.length) (hr : val v)
    (hn : needsRun i k v = false ∨ s.chip.tk.wake = .run) (hout : f (dictImage s) r n b s.chip = (c', res)) (hst : res.st = st)
    (hnr : st ≠ stRights ∨ i = 0x2710) (hP : ∀ s', Noted i k n v c' s'.chip → P s') : Does inst s st (j, l, m) P := by
  obtain ⟨row, hrow, hk, rfl, hlen, hval⟩ := hcmd.row
  subst hm
  exact write_does (o := (j, l)) hx hg hv hrow hk rfl hcmd.cmd (hlen _ hl) (hval _ hr) hn ho hout hst hnr (hP _ (noted_settle s))

end

end Sys2Proof.Machine

/-! SUPPORT. Plan, overlay, abort and restart commands (R141, R154-R163). -/

namespace Sys2Proof.Machine

theorem planObj : CommandObj 0x2100 0x01 (· = 1) (fun v => 1 ≤ v ∧ v ≤ 6) cmdPlan := commandObj_of_row rfl rfl rfl rfl rfl rfl rfl rfl
theorem overlayObj : CommandObj 0x2102 0x01 (· = 2) (fun v => 0 ≤ v ∧ v ≤ 65535) cmdOverlay := commandObj_of_row rfl rfl rfl rfl rfl rfl rfl rfl
theorem abortObj : CommandObj 0x2410 0x01 (· = 2) (fun v => 0 ≤ v ∧ v ≤ 65535) cmdAbort := commandObj_of_row rfl rfl rfl rfl rfl rfl rfl rfl
theorem restartFnObj : CommandObj 0x2413 0x00 (· = 1) (fun v => 1 ≤ v ∧ v ≤ 1) cmdRestartFn := commandObj_of_row rfl rfl rfl rfl rfl rfl rfl rfl

/-! A LOAD's check of its image reads no object that the command writes (R154). -/

theorem contentFail_noted (v : Nat) (opened : Bool) (p : Plan) (c : Chip) :
    contentFail (objSet 0x2100 0x03 0 v c) opened p = contentFail c opened p := by
  have hrule : ruleFail (objSet 0x2100 0x03 0 v c) opened p = ruleFail c opened p := by
    simp only [ruleFail, objGet_set_idx _ _ _ _ _ _ (show 0x2303 ≠ 0x2100 by decide)]
  unfold contentFail
  rw [hrule]
  rfl

theorem openSections_noted (v : Nat) (b : List Byte) (l : List (SecEntry × Nat)) (done : List Section) (c : Chip) :
    openSections (objSet 0x2100 0x03 0 v c) b l done = openSections c b l done := by
  induction l generalizing done with
  | nil => rfl
  | cons e l ih =>
    have h : openSection (objSet 0x2100 0x03 0 v c) b e.1 = openSection c b e.1 := rfl
    rw [openSections, openSections, h]
    simp only [ih]

theorem validatePlan_noted (v n : Nat) (h : Handle) (c : Chip) : validatePlan (objSet 0x2100 0x03 0 v c) n h = validatePlan c n h := by
  have himage : imageOf (objSet 0x2100 0x03 0 v c) n h = imageOf c n h := rfl
  have hsig (b : List Byte) : signatureFail (objSet 0x2100 0x03 0 v c) b = signatureFail c b := rfl
  simp only [validatePlan, himage, hsig, contentFail_noted, openSections_noted]

/-! What a LOAD leaves (R154). -/

theorem offHbm_readImage (h : Handle) (c : Chip) : offHbm (readImage h c) = offHbm c :=
  foldl_keeps offHbm (fun d _ => foldl_keeps offHbm (fun d _ => offHbm_dataRead _ _ d) _ d) _ c

theorem objGet_readImage (h : Handle) (c : Chip) : objGet (readImage h c) 0x2100 0x03 0 = objGet c 0x2100 0x03 0 :=
  (KeepsObjs.foldl (p := marks 0x2100 3) _ (fun d _ => .foldl _ (fun d _ => keepsObjs_dataRead
    ⟨unclassed_marks (by decide), fun _ => ⟨rfl, rfl⟩⟩ _ _ d) _ d) _ c).get (by omega) 0

theorem useHandle_present {h : Nat} {hd : Handle} {c : Chip} (use : Bool) (hf : cellsFind c.intake.handles h = some hd) :
    cellsFind (useHandle h use c).intake.handles h = some { hd with st := if use then .inUse else .complete } := by
  simp only [useHandle, hf]
  exact cellsFind_put_same ..

/-- The check run is due: the image is read and in use, the module unsettled. -/
def loadTaken (hd : Handle) (ld : Loading) (c : Chip) : Chip :=
  let d := useHandle ld.handle true (objSet 0x2100 0x0A 0 0 (readImage hd c))
  showUnsettled (needWake { d with plan := { d.plan with loading := some ld } })

theorem needWake_plan (c : Chip) : (needWake c).plan = c.plan ∧ (needWake c).intake = c.intake := by
  unfold needWake
  split <;> exact ⟨rfl, rfl⟩

theorem loadTaken_leaves {hd : Handle} {ld : Loading} {c : Chip} (hf : cellsFind c.intake.handles ld.handle = some hd) :
    cellsFind (loadTaken hd ld c).intake.handles ld.handle = some { hd with st := .inUse } ∧ (loadTaken hd ld c).plan.loading = some ld ∧
      objGet (loadTaken hd ld c) 0x2100 0x03 0 = objGet c 0x2100 0x03 0 := by
  have hread : (readImage hd c).intake = c.intake := congrArg (fun x => x.2.2.2.1) (offHbm_readImage hd c)
  have hf' : cellsFind (objSet 0x2100 0x0A 0 0 (readImage hd c)).intake.handles ld.handle = some hd := hread ▸ hf
  dsimp only [loadTaken, showUnsettled]
  rw [objSet_intake, objSet_plan, objGet_set_idx _ _ _ _ _ _ (by decide), (needWake_plan _).1, (needWake_plan _).2,
    objGet_of_objs (needWake_objs _)]
  refine ⟨useHandle_present true hf', rfl, ?_⟩
  refine (objGet_of_objs (c := objSet 0x2100 0x0A 0 0 (readImage hd c)) (useHandle_objs ..) _ _ _).trans ?_
  rw [objGet_set_ne _ _ (okey_ne_sub (by decide)), objGet_readImage]

/-- The check run that an image's validation gives: of its plan, or one that reports its first failure. -/
def loadingOf (h : Nat) : Except Fail Plan → Loading
  | .ok p => { plan := some p, handle := h }
  | .error f => { plan := none, fail := (f.1, classStatus f.1, f.2), handle := h }

theorem loadingOf_spec (h : Nat) (v : Except Fail Plan) : (loadingOf h v).handle = h ∧ (∀ p, v = .ok p → (loadingOf h v).plan = some p) ∧
    ∀ f, v = .error f → (loadingOf h v).plan = none ∧ (loadingOf h v).fail = (f.1, classStatus f.1, f.2) := by
  cases v with
  | ok p => exact ⟨rfl, fun q hq => by injection hq with hq; exact congrArg some hq, fun f hf => by contradiction⟩
  | error f => exact ⟨rfl, fun p hp => by contradiction, fun g hg => by injection hg with hg; subst hg; exact ⟨rfl, rfl⟩⟩

/-- A section that fails under a retired generation is counted against its tenant (R331). -/
def loadCounted (h : Nat) (hd : Handle) (c : Chip) : Except Fail Plan → Chip
  | .ok _ => c
  | .error f => (failTenant c h hd f).elim c (fun t => integrityFail t c)

theorem loadCounted_leaves (h : Nat) (hd : Handle) (c : Chip) (v : Except Fail Plan) :
    (loadCounted h hd c v).intake = c.intake ∧ objGet (loadCounted h hd c v) 0x2100 0x03 0 = objGet c 0x2100 0x03 0 := by
  cases v with
  | ok p => exact ⟨rfl, rfl⟩
  | error f =>
    have hfail (t : Nat) : objGet (integrityFail t c) 0x2100 0x03 0 = objGet c 0x2100 0x03 0 :=
      (objGet_bump_idx (objBump 0x2730 0x01 0 1 c) _ _ _ _ _ (by decide)).trans (objGet_bump_idx _ _ _ _ _ _ (by decide))
    rw [loadCounted]
    cases failTenant c h hd f with
    | none => exact ⟨rfl, rfl⟩
    | some t => exact ⟨rfl, hfail t⟩

/-- The check run that a LOAD of the handle starts. -/
def loadStart (h : Nat) (hd : Handle) (c : Chip) : Chip :=
  let v := validatePlan c h hd
  loadTaken hd (loadingOf h v) (loadCounted h hd (objSet 0x2100 0x03 0 0 c) v)

theorem cmdLoad_takes {img c : Chip} {r : Role} {hd : Handle} (hm : judgedMode img c = .idle ∨ judgedMode img c = .loaded)
    (hu : anyUnconfirmed c = false) (hl : leaseHeld c .ppr = false) (hb : beyondReduced c = false)
    (hf : cellsFind c.intake.handles (ctxVal c r 0x2100 0x04) = some hd) (hk : hd.kind = 0) (hs : hd.st = .complete ∨ hd.st = .inUse) :
    cmdLoad img r c = (loadStart (ctxVal c r 0x2100 0x04) hd c, resPending) := by
  have hst : (hd.st ≠ .complete && hd.st ≠ .inUse) = false := by rcases hs with h | h <;> simp [h]
  have hmode : (judgedMode img c ≠ .idle && judgedMode img c ≠ .loaded) = false := by rcases hm with h | h <;> simp [h]
  unfold cmdLoad loadStart
  simp only [hmode, hu, hl, hb, hf, hk, hst, validatePlan_noted, Bool.or_self, Bool.false_eq_true, if_false, ne_eq, not_true_eq_false]
  cases validatePlan c (ctxVal c r 0x2100 0x04) hd with
  | ok p => rfl
  | error f =>
    simp only [loadCounted]
    cases failTenant (objSet 0x2100 0x03 0 0 c) (ctxVal c r 0x2100 0x04) hd f <;> rfl

theorem loadStart_leaves {h : Nat} {hd : Handle} {c : Chip} (hf : cellsFind c.intake.handles h = some hd) :
    cellsFind (loadStart h hd c).intake.handles h = some { hd with st := .inUse } ∧ objGet (loadStart h hd c) 0x2100 0x03 0 = 0 ∧
      (loadStart h hd c).plan.loading = some (loadingOf h (validatePlan c h hd)) := by
  obtain ⟨hh, -⟩ := loadingOf_spec h (validatePlan c h hd)
  obtain ⟨hi, hz⟩ := loadCounted_leaves h hd (objSet 0x2100 0x03 0 0 c) (validatePlan c h hd)
  have hf' : cellsFind (loadCounted h hd (objSet 0x2100 0x03 0 0 c) (validatePlan c h hd)).intake.handles
      (loadingOf h (validatePlan c h hd)).handle = some hd := by
    rw [hi, hh]
    exact hf
  obtain ⟨h1, h2, h3⟩ := loadTaken_leaves hf'
  rw [hh] at h1
  exact ⟨h1, h3.trans (hz.trans (objGet_set_same ..)), h2⟩

/-! The other plan commands (R156, R157). -/

theorem cmdPlan_accepts {img c : Chip} {r : Role} {n v : Nat} {b : List Byte} (hv : numAt b 0 1 = v) (h2 : 2 ≤ v) (h6 : v ≤ 6)
    (hf : forwards c = false) (ha : planAllowed img c v = true) (hd : v = 2 → inDomain c = true ∨ domSize c < 2) :
    cmdPlan img r n b c = (acceptPlan v (acceptTick c) c, resPending) := by
  have hrange : (v < 1 || 6 < v) = false := by simp; omega
  have hload : ¬v = 1 := by omega
  have hjoin : (v = 2 && !inDomain c && decide (2 ≤ domSize c)) = false := by
    by_cases h : v = 2
    · rcases hd h with h' | h' <;> simp [h']
    · simp [h]
  simp only [cmdPlan, hv, hrange, hload, hf, ha, hjoin, Bool.false_eq_true, if_false, Bool.false_and, Bool.not_true]

theorem acceptPlan_cmd (v tick : Nat) (c : Chip) : ∃ w, (acceptPlan v tick c).plan.cmd = some w ∧ w.code = v ∧ w.tick = tick := by
  unfold acceptPlan showUnsettled
  rw [objSet_plan, (needWake_plan _).1]
  exact ⟨_, rfl, rfl, rfl⟩

end Sys2Proof.Machine

namespace Sys2Proof.Proofs

open Sys2Proof Sys2Proof.Machine

/-- Settles O50: the answer and effect of each command. -/
theorem planCommands : Obligations.PlanCommands := by
  intro s r
  dsimp only
  refine ⟨fun hd hg hm hu hl hb hf hk hs => ?_, fun e he hg hf ha hd => ?_, fun mask p hg hp h0 hm hf => ⟨fun hw => ?_, fun hw => ?_⟩,
    fun fn hg hm hn hp ho hf hb => ?_, fun f hg ho hf ha => ?_⟩
  · obtain ⟨h1, h2, h3⟩ := loadStart_leaves hf
    obtain ⟨hh, hok, herr⟩ := loadingOf_spec (ctxVal s.chip r 0x2100 0x04) (validatePlan s.chip (ctxVal s.chip r 0x2100 0x04) hd)
    refine command_does planObj rfl rfl rfl hg rfl rfl (by omega) (.inl rfl) (cmdLoad_takes hm hu hl hb hf hk hs) rfl (.inl (by decide)) fun s' hn => ?_
    rw [hn.intake, hn.plan, hn.other _ _ _ (okey_ne_sub (by decide)) fun o ho => by cases ho; exact okey_ne_sub (by decide)]
    exact ⟨h1, h2, _, h3, hh, hok, herr⟩
  · have hcode : ∀ e ∈ [(Instr.run r, 2), (.pause r, 3), (.resume r, 4), (.stop r, 5), (.unload r, 6)],
        exec e.1 s = onWrite r 0x2100 0x01 [BitVec.ofNat 8 e.2] s ∧ 2 ≤ e.2 ∧ e.2 ≤ 6 := by
      simp only [List.forall_mem_cons]
      exact ⟨⟨rfl, by decide⟩, ⟨rfl, by decide⟩, ⟨rfl, by decide⟩, ⟨rfl, by decide⟩, ⟨rfl, by decide⟩, by simp⟩
    obtain ⟨hx, h2, h6⟩ := hcode e he
    have hv : natLE [BitVec.ofNat 8 e.2] = e.2 := natLE_bytesLE_of_lt (n := 1) (by omega)
    refine command_does planObj rfl rfl hx hg hv rfl (by omega) (.inl rfl) (cmdPlan_accepts hv h2 h6 hf ha hd) rfl (.inl (by decide)) fun s' hn => ?_
    rw [hn.plan]
    exact acceptPlan_cmd _ _ _
  · have hv : natLE (bytesLE 2 mask.toNat) = mask.toNat := natLE_bytesLE_of_lt mask.isLt
    have hout : cmdOverlay (dictImage s) r 0 (bytesLE 2 mask.toNat) s.chip =
        ({ s.chip with plan := { s.chip.plan with want := mask.toNat, ovlWaiting := true } }, resPending) := by
      simp only [cmdOverlay, numAt_bytesLE_of_lt (n := 2) mask.isLt, hp, h0, hm, hf, hw, Bool.not_true, Bool.or_self, Bool.false_eq_true, if_false]
    exact command_does overlayObj rfl rfl rfl hg hv rfl (by omega) (.inl rfl) hout rfl (.inl (by decide)) fun s' hn => by rw [hn.plan]; exact ⟨rfl, rfl⟩
  · have hv : natLE (bytesLE 2 mask.toNat) = mask.toNat := natLE_bytesLE_of_lt mask.isLt
    have hout : cmdOverlay (dictImage s) r 0 (bytesLE 2 mask.toNat) s.chip = (s.chip, resOk) := by
      simp only [cmdOverlay, numAt_bytesLE_of_lt (n := 2) mask.isLt, hp, h0, hm, hf, ← hw, Bool.not_true, Bool.or_self, Bool.false_eq_true, if_false, if_true]
    exact command_does overlayObj rfl rfl rfl hg hv rfl (by omega) (.inl rfl) hout rfl (.inl (by decide)) fun s' hn => hn.plan
  · have hv : natLE (bytesLE 2 fn.toNat) = fn.toNat := natLE_bytesLE_of_lt fn.isLt
    have hmode : (judgedMode (dictImage s) s.chip ≠ .running && judgedMode (dictImage s) s.chip ≠ .paused && !false) = false := by
      rcases hm with h | h <;> simp [h]
    have hzero : fn.toNat ≠ 0 := fun h => hn (BitVec.eq_of_toNat_eq h)
    have hout : cmdAbort (dictImage s) r 0 (bytesLE 2 fn.toNat) s.chip = (acceptAbort fn.toNat (acceptTick s.chip) s.chip, resPending) := by
      simp only [cmdAbort, numAt_bytesLE_of_lt (n := 2) fn.isLt, hmode, hp, hzero, ho, hf, hb, Bool.not_true, Bool.or_self, Bool.false_eq_true, if_false,
        decide_false]
    refine command_does abortObj rfl rfl rfl hg hv rfl (by omega) (.inl rfl) hout rfl (.inl (by decide)) fun s' hn => ?_
    have hkeep (k : Nat) : objGet s'.chip 0x2412 k fn.toNat = objGet (acceptAbort fn.toNat (acceptTick s.chip) s.chip) 0x2412 k fn.toNat :=
      hn.other _ _ _ (okey_ne_idx (by decide)) fun o ho => by cases ho; exact okey_ne_idx (by decide)
    rw [hkeep, hkeep, hn.plan]
    exact ⟨(objGet_set_ne _ _ (okey_ne_sub (by decide))).trans (objGet_set_same ..), objGet_set_same .., rfl⟩
  · have hout : cmdRestartFn (dictImage s) r f [1] s.chip = (acceptRestart f (acceptTick s.chip) s.chip, resPending) := by
      have hone : numAt [1] 0 1 = 1 := rfl
      simp only [cmdRestartFn, hone, ho, hf, ha, ne_eq, not_true_eq_false, Bool.not_true, Bool.false_eq_true, if_false]
    exact command_does restartFnObj rfl rfl rfl hg rfl rfl (by omega) (.inl rfl) hout rfl (.inl (by decide)) fun s' hn => by rw [hn.plan]; rfl

end Sys2Proof.Proofs

/-! SUPPORT. Declared failures, encoder commands and leased maintenance commands (R133, R213, R271, R440-R445). -/

namespace Sys2Proof.Machine

theorem declareTileObj : CommandObj 0x2931 0x00 (· = 2) (fun v => 0 ≤ v ∧ v ≤ 2047) cmdDeclareTile := commandObj_of_row rfl rfl rfl rfl rfl rfl rfl rfl
theorem encoderObj : CommandObj 0x2305 0x01 (· = 1) (fun v => 1 ≤ v ∧ v ≤ 3) cmdEncoder := commandObj_of_row rfl rfl rfl rfl rfl rfl rfl rfl
theorem declareEngineObj : CommandObj 0x2911 0x01 (· = 1) (fun v => 0 ≤ v ∧ v ≤ 255) cmdDeclareEngine := commandObj_of_row rfl rfl rfl rfl rfl rfl rfl rfl
theorem pprObj : CommandObj 0x2B31 0x00 (· = 1) (fun v => 1 ≤ v ∧ v ≤ 1) cmdPpr := commandObj_of_row rfl rfl rfl rfl rfl rfl rfl rfl
theorem portObj : CommandObj 0x2601 0x11 (· = 1) (fun v => 1 ≤ v ∧ v ≤ 3) cmdPort := commandObj_of_row rfl rfl rfl rfl rfl rfl rfl rfl
theorem scrubObj : CommandObj 0x2903 0x01 (· = 1) (fun v => 1 ≤ v ∧ v ≤ 2) cmdScrub := commandObj_of_row rfl rfl rfl rfl rfl rfl rfl rfl
theorem cancelLeaseObj : CommandObj 0x2902 0x04 (· = 1) (fun v => 1 ≤ v ∧ v ≤ 24) cmdCancelLease := commandObj_of_row rfl rfl rfl rfl rfl rfl rfl rfl

theorem natLE_byte (b : Byte) : natLE [b] = b.toNat := rfl
theorem numAt_byte (b : Byte) : numAt [b] 0 1 = b.toNat := rfl

/-! Encoders (R213, R214). -/

/-- A stream's encoder is e. -/
def setEnc (n : Nat) (e : EncSt) (c : Chip) : Chip := modStream n (fun st => { st with enc := e }) c

theorem enc_setEnc {c d : Chip} {n : Nat} {e : EncSt} (h : d.video = (setEnc n e c).video) : (streamAt d n).enc = e :=
  congrArg StreamSt.enc ((streamAt_of_video h n).trans (streamAt_modStream ..))

section
variable {img c : Chip} {r : Role} {n : Nat} {v : VStream} (hd : vdecl c n = some v) (he : vEncoder v = true)
include hd he

theorem cmdEncoder_starts : cmdEncoder img r n [1] c = (objSet 0x2304 0x01 n 1 (setEnc n
    { (streamAt c n).enc with clip := some (objGet c 0x2303 0x13 n), started := false, stopped := false } c), resOk) := by
  simp only [cmdEncoder, hd, he, Bool.not_true, Bool.false_eq_true, if_false]
  rfl

theorem cmdEncoder_stops : cmdEncoder img r n [2] c = (objSet 0x2304 0x01 n 0 (setEnc n
    { (streamAt c n).enc with clip := none, started := false, stopped := true } c), resOk) := by
  simp only [cmdEncoder, hd, he, Bool.not_true, Bool.false_eq_true, if_false]
  rfl

theorem cmdEncoder_idr : cmdEncoder img r n [3] c = (setEnc n { (streamAt c n).enc with idrAsked := true } c, resOk) := by
  simp only [cmdEncoder, hd, he, Bool.not_true, Bool.false_eq_true, if_false]
  rfl

end

/-! A declared tile (R133). -/

theorem spareFree_of_grid {c c' : Chip} (hr : c'.grid.retired = c.grid.retired) (hs : c'.grid.spareOk = c.grid.spareOk) (q : Nat) :
    spareFree c' q = spareFree c q := by
  simp only [spareFree, retiredCols, hr, hs]

/-- What a tile just held claims: its column's repair, the quarter's free spare, or a retirement without one. -/
def claimRepair (t : Nat) (c : Chip) : Chip :=
  let claimed := c.grid.failed.filter (fun e => tileQuarter e.1 == tileQuarter t)
  if claimed.any (fun e => tilePx c e.1 == tilePx c t) then gridShow c
  else if claimed.isEmpty && spareFree c (tileQuarter t) then
    let joins := c.grid.failed.any (fun e => e.2 == c.tk.tick)
    let d := { c with grid := { c.grid with failed := c.grid.failed ++ [(t, c.tk.tick)] } }
    gridShow (if joins then d else (leaseRequest .si t false d).1)
  else gridShow { c with grid := { c.grid with noShift := c.grid.noShift ++ [(physIndex c t, c.tk.tick)] } }

theorem declareFailed_eq {t : Nat} {c : Chip} (hh : (tileAt c t).held = false) :
    declareFailed t c = claimRepair t (tracePoint 32 0 t (logRec 3 srcGrid .tileFailed [t] (holdTile t c))) := by
  rw [declareFailed, if_neg (Bool.eq_false_iff.mp hh)]
  rfl

theorem claimRepair_first {t : Nat} {c : Chip} (hf : c.grid.failed = []) (hs : spareFree c (tileQuarter t) = true) :
    (claimRepair t c).grid.failed = [(t, c.tk.tick)] := by
  simp only [claimRepair, hf, hs, List.filter_nil, List.any_nil, List.isEmpty_nil, Bool.and_self, Bool.false_eq_true, if_true, if_false,
    gridShow_grid, leaseRequest_grid, List.nil_append]

theorem declareFailed_claims {t : Nat} {c : Chip} (hh : (tileAt c t).held = false) (hf : c.grid.failed = [])
    (hs : spareFree c (tileQuarter t) = true) : (declareFailed t c).grid.failed = [(t, c.tk.tick)] := by
  have hg : (tracePoint 32 0 t (logRec 3 srcGrid .tileFailed [t] (holdTile t c))).grid = (holdTile t c).grid := by
    rw [tracePoint_grid, logRec_grid]
  rw [declareFailed_eq hh, claimRepair_first, tracePoint_tk, logRec_tk]
  · rfl
  · rw [hg]
    exact hf
  · rw [spareFree_of_grid (c := c) (by rw [hg]; rfl) (by rw [hg]; rfl)]
    exact hs

theorem cmdDeclareTile_holds {img c : Chip} {r : Role} {n t : Nat} {b : List Byte} (hv : numAt b 0 2 = t) (ht : t < 2048)
    (hm : judgedMode img c = .idle ∨ judgedMode img c = .loaded ∨ judgedMode img c = .running) (hs : spareFree c (tileQuarter t) = true)
    (hf : c.grid.failed = []) (hp : c.grid.pauseFrom = none) (hh : (tileAt c t).held = false) :
    cmdDeclareTile img r n b c = (declareFailed t (objSet 0x2932 0x00 0 stOk c), resOk) := by
  have hmode : (judgedMode img c = .idle || judgedMode img c = .loaded || judgedMode img c = .running) = true := by
    rcases hm with h | h | h <;> simp [h]
  simp only [cmdDeclareTile, hv, Nat.not_lt.mpr (Nat.le_of_lt_succ ht), hmode, hs, hf, hp, hh, if_false, List.isEmpty_nil, Option.isNone_none,
    Bool.not_false, Bool.and_self, if_true]

/-! The lease (R444). -/

/-- A command's entry of the lease. -/
def leaseEntry (a : Activity) (o : Nat) (c : Chip) : LeaseEntry := { act := a, obj := o, tick := c.tk.tick, commanded := true }

theorem leaseRequest_free {a : Activity} {o : Nat} {c : Chip} (h : LeaseFree c (leaseEntry a o c)) :
    leaseRequest a o true c = (leaseGrant (leaseEntry a o c) c, stOk) := by
  obtain ⟨h1, h2, h3⟩ := h
  refine if_pos ?_
  rw [h1, Bool.true_and]
  exact Bool.and_eq_true_iff.mpr ⟨h2, h3⟩

/-- The entry queued, behind every other one of its urgency. -/
def leaseQueued (e : LeaseEntry) (c : Chip) : Chip :=
  leaseShow { c with life := { c.life with lease := { c.life.lease with queue := leaseEnqueue e c.life.lease.queue } } }

theorem leaseRequest_queued {a : Activity} {o : Nat} {c : Chip} (h : ¬LeaseFree c (leaseEntry a o c))
    (hq : (c.life.lease.queue.filter (·.commanded)).length < 16) : leaseRequest a o true c = (leaseQueued (leaseEntry a o c) c, stQueued) := by
  have hno : ¬(leaseOpen c && c.life.lease.holders.all (leaseCompat (leaseEntry a o c)) && c.life.lease.queue.all (leaseCompat (leaseEntry a o c))) = true := by
    simpa only [Bool.and_eq_true, LeaseFree, and_assoc] using h
  exact (if_neg hno).trans (if_neg (by simp [hq]))

theorem leaseEnqueue_behind {e : LeaseEntry} (h : e.act ≠ .si) (q : List LeaseEntry) : leaseEnqueue e q = q ++ [e] := if_neg h

/-! The commands on the lease. -/

theorem cmdPpr_granted {img c : Chip} {r : Role} {n : Nat} (hm : judgedMode img c = .idle ∨ judgedMode img c = .loaded)
    (hl : LeaseFree c (leaseEntry .ppr 0 c)) : cmdPpr img r n [1] c = (leaseGrant (leaseEntry .ppr 0 c) c, resPending) := by
  have hone : numAt [1] 0 1 = 1 := rfl
  have hmode : (judgedMode img c ≠ .idle && judgedMode img c ≠ .loaded) = false := by rcases hm with h | h <;> simp [h]
  simp only [cmdPpr, hone, hmode, leaseRequest_free hl, ne_eq, not_true_eq_false, Bool.false_eq_true, if_false, if_true]

/-- The port command joins those of the next boundary. -/
def portAsked (p v : Nat) (c : Chip) : Chip := { c with link := { c.link with portCmds := c.link.portCmds ++ [(p, v)] } }

theorem cmdPort_retrains {img c : Chip} {r : Role} {p : Nat} (hl : LeaseFree c (leaseEntry .lr p c)) :
    cmdPort img r p [1] c = (portAsked p 1 (leaseGrant (leaseEntry .lr p c) c), resPending) := by
  have hone : numAt [1] 0 1 = 1 := rfl
  simp only [cmdPort, hone, leaseRequest_free hl, if_true, portAsked]
  rfl

theorem cmdScrub_granted {img c : Chip} {r : Role} {n : Nat} (hl : LeaseFree c (leaseEntry .ds 0 c)) :
    cmdScrub img r n [1] c = (objSet 0x2903 0x02 0 stPending (beginScrub (leaseGrant (leaseEntry .ds 0 c) c)), resPending) := by
  have hone : numAt [1] 0 1 = 1 := rfl
  simp only [cmdScrub, hone, leaseRequest_free hl, if_true]

theorem cmdScrub_queued {img c : Chip} {r : Role} {n : Nat} (hl : ¬LeaseFree c (leaseEntry .ds 0 c))
    (hq : (c.life.lease.queue.filter (·.commanded)).length < 16) : cmdScrub img r n [1] c =
      (objSet 0x2903 0x03 0 0 (objSet 0x2903 0x02 0 stQueued (leaseQueued (leaseEntry .ds 0 c) c)), resQueued) := by
  have hone : numAt [1] 0 1 = 1 := rfl
  have hne : ¬stQueued = stOk := by decide
  simp only [cmdScrub, hone, leaseRequest_queued hl hq, hne, if_true, if_false]

theorem cmdScrub_stops {img c : Chip} {r : Role} {n : Nat} (hl : leaseHeld c .ds = true) : cmdScrub img r n [2] c =
    (leaseRelease .ds 0 (postStatus 0x2903 0x02 0 stOk { c with life := { c.life with scrubbing := false } }), resOk) := by
  have htwo : numAt [2] 0 1 = 2 := rfl
  have hne : ¬2 = 1 := by decide
  simp only [cmdScrub, htwo, hl, hne, if_true, if_false]

/-! A queued entry withdrawn (R445). -/

/-- The entry's own status object says that it was withdrawn. -/
def leaseWithdrawn (e : LeaseEntry) (c : Chip) : Chip := (leaseStatus e).elim c (fun o => postStatus o.1 o.2.1 o.2.2 stState c)

/-- The entry has left the queue; with it a component's activation ends. -/
def leaseCancelled (e : LeaseEntry) (c : Chip) : Chip :=
  let d := leaseWithdrawn e (leaseShow { c with life := { c.life with lease := { c.life.lease with queue := c.life.lease.queue.erase e } } })
  if e.act = .fw then fwShow (dropUpd e.obj d) else d

theorem cmdCancelLease_cancels {img c : Chip} {r : Role} {n p : Nat} {b : List Byte} {e : LeaseEntry} (hv : numAt b 0 1 = p) (hp : p ≠ 0)
    (hi : img.life.lease.queue[p - 1]? = some e) (hc : c.life.lease.queue.contains e = true) (hm : e.commanded = true) :
    cmdCancelLease img r n b c = (objSet 0x2902 0x05 0 stOk (leaseCancelled e c), resOk) := by
  simp only [cmdCancelLease, hv, hp, hi, hc, hm, if_false, Option.filter_some, if_true, Bool.not_true, Bool.false_eq_true, leaseCancelled, leaseWithdrawn]
  cases leaseStatus e <;> rfl

theorem leaseWithdrawn_life (e : LeaseEntry) (c : Chip) : (leaseWithdrawn e c).life = c.life := by
  unfold leaseWithdrawn
  cases leaseStatus e with
  | none => rfl
  | some o => exact postStatus_life ..

theorem fwShow_life (c : Chip) : (fwShow c).life = c.life := foldl_keeps (fun d : Chip => d.life) (by intros; rfl) (List.range 5) c

theorem leaseCancelled_queue (e : LeaseEntry) (c : Chip) : (leaseCancelled e c).life.lease.queue = c.life.lease.queue.erase e := by
  dsimp only [leaseCancelled]
  split
  · rw [fwShow_life]
    exact congrArg (·.lease.queue) (leaseWithdrawn_life ..)
  · exact congrArg (·.lease.queue) (leaseWithdrawn_life ..)

theorem leaseCancelled_posts {e : LeaseEntry} {i n k : Nat} (h : leaseStatus e = some (i, n, k)) (c : Chip) :
    objGet (leaseCancelled e c) i n k = stState := by
  dsimp only [leaseCancelled, leaseWithdrawn]
  rw [h]
  split
  · next hfw =>
    have ho : (0x2801, 0x0A, e.obj) = (i, n, k) := by simpa [leaseStatus, hfw] using h
    obtain ⟨rfl, rfl, rfl⟩ : 0x2801 = i ∧ 0x0A = n ∧ e.obj = k := by simpa using ho
    exact ((fwShow_status _).get (by omega) _).trans (objGet_postStatus_same ..)
  · exact objGet_postStatus_same ..

/-- Status objects of the lease stand apart from its own indices. -/
theorem leaseStatus_index {e : LeaseEntry} {i n k : Nat} (h : leaseStatus e = some (i, n, k)) : i ≠ 0x2902 := by
  unfold leaseStatus at h
  cases he : e.act <;> simp [he] at h <;> omega

end Sys2Proof.Machine

namespace Sys2Proof.Proofs

open Sys2Proof Sys2Proof.Machine

/-- Settles O51: the answer and effect of each command. -/
theorem repairCommands : Obligations.RepairCommands := by
  intro s r
  dsimp only
  refine ⟨fun tile hg ht hw hm hs hf hp hh => ?_, fun n v hg hd he => ?_, fun n v hg hd he => ?_, fun n v hg hd he => ?_, fun e hg he hh => ?_,
    fun hg hw hm hl => ?_, fun p hg hl => ?_, fun hg => ⟨fun hl => ?_, fun hl hq => ?_⟩, fun hg hl => ?_, fun pos e hg h0 h24 hi hc hm => ?_⟩
  · have hv : natLE (bytesLE 2 tile.toNat) = tile.toNat := natLE_bytesLE_of_lt tile.isLt
    refine command_does declareTileObj rfl rfl rfl hg hv rfl (by omega) (.inr hw)
      (cmdDeclareTile_holds (numAt_bytesLE_of_lt (n := 2) tile.isLt) ht hm hs hf hp hh) rfl (.inl (by decide)) fun s' hn => ?_
    have htile : tileAt (declareFailed tile.toNat (objSet 0x2932 0x00 0 stOk s.chip)) tile.toNat = { tileAt s.chip tile.toNat with held := true, running := false } :=
      (tileAt_of_tiles (declareFailed_tiles (c := objSet 0x2932 0x00 0 stOk s.chip) hh) _).trans (tileAt_setTile_same ..)
    rw [tileAt_of_grid hn.grid, htile, hn.grid]
    exact ⟨declareFailed_claims (c := objSet 0x2932 0x00 0 stOk s.chip) hh hf hs, rfl, rfl⟩
  · refine command_does encoderObj rfl rfl rfl hg rfl rfl (by omega) (.inl rfl) (cmdEncoder_starts hd he) rfl (.inl (by decide)) fun s' hn => ?_
    rw [enc_setEnc hn.video, hn.other _ _ _ (okey_ne_idx (by decide)) fun o ho => by cases ho; exact okey_ne_idx (by decide)]
    exact ⟨rfl, objGet_set_same ..⟩
  · refine command_does encoderObj rfl rfl rfl hg rfl rfl (by omega) (.inl rfl) (cmdEncoder_stops hd he) rfl (.inl (by decide)) fun s' hn => ?_
    rw [enc_setEnc hn.video, hn.other _ _ _ (okey_ne_idx (by decide)) fun o ho => by cases ho; exact okey_ne_idx (by decide)]
    exact ⟨rfl, rfl, objGet_set_same ..⟩
  · exact command_does encoderObj rfl rfl rfl hg rfl rfl (by omega) (.inl rfl) (cmdEncoder_idr hd he) rfl (.inl (by decide)) fun s' hn =>
      enc_setEnc hn.video
  · obtain ⟨k, hk⟩ : ∃ k, kindOf e.toNat = some k := by
      unfold engineExists at he
      split at he
      · exact ⟨_, ‹_›⟩
      · contradiction
    have hout : cmdDeclareEngine (dictImage s) r 0 [e] s.chip = (objSet 0x2911 0x02 0 stOk (engineFail e.toNat s.chip), resOk) := by
      simp only [cmdDeclareEngine, numAt_byte, he, hh, Bool.not_true, Bool.false_eq_true, if_false]
    refine command_does declareEngineObj rfl rfl rfl hg (natLE_byte e) rfl (by omega) (.inl rfl) hout rfl (.inl (by decide)) fun s' hn => ?_
    rw [hn.life]
    exact (engineFail_holds hk hh).1
  · refine command_does pprObj rfl rfl rfl hg rfl rfl (by omega) (.inr hw) (cmdPpr_granted hm hl) rfl (.inl (by decide)) fun s' hn => ?_
    rw [hn.life]
    rfl
  · refine command_does portObj rfl rfl rfl hg rfl rfl (by omega) (.inl rfl) (cmdPort_retrains hl) rfl (.inl (by decide)) fun s' hn => ?_
    rw [hn.life, hn.link]
    exact ⟨rfl, rfl⟩
  · refine command_does scrubObj rfl rfl rfl hg rfl rfl (by omega) (.inl rfl) (cmdScrub_granted hl) rfl (.inl (by decide)) fun s' hn => ?_
    rw [hn.life, hn.other _ _ _ (okey_ne_sub (by decide)) fun o ho => by cases ho; exact okey_ne_sub (by decide)]
    exact ⟨rfl, rfl, (objGet_set_ne _ _ (okey_ne_sub (by decide))).trans (objGet_set_same ..)⟩
  · refine command_does scrubObj rfl rfl rfl hg rfl rfl (by omega) (.inl rfl) (cmdScrub_queued hl hq) rfl (.inl (by decide)) fun s' hn => ?_
    rw [hn.life]
    exact leaseEnqueue_behind (e := leaseEntry .ds 0 s.chip) Activity.noConfusion _
  · refine command_does scrubObj rfl rfl rfl hg rfl rfl (by omega) (.inl rfl) (cmdScrub_stops hl) rfl (.inl (by decide)) fun s' hn => ?_
    rw [hn.life, leaseRelease_scrubbing, postStatus_life]
  · have hp : pos.toNat ≠ 0 := fun h => h0 (BitVec.eq_of_toNat_eq h)
    refine command_does cancelLeaseObj rfl rfl rfl hg (natLE_byte pos) rfl (by omega) (.inl rfl) (cmdCancelLease_cancels (numAt_byte pos) hp hi hc hm) rfl (.inl (by decide)) fun s' hn => ?_
    refine ⟨(congrArg (·.lease.queue) hn.life).trans (leaseCancelled_queue ..), fun i n k hl => ?_⟩
    have hne := leaseStatus_index hl
    rw [hn.other _ _ _ (okey_ne_idx hne) fun o ho => by cases ho; exact okey_ne_idx hne, objGet_set_ne _ _ (okey_ne_idx hne)]
    exact leaseCancelled_posts hl _

end Sys2Proof.Proofs

/-! SUPPORT. Intake handle, port and pair commands (R275, R291, R312). -/

namespace Sys2Proof.Machine

theorem intakeObj : CommandObj 0x2B40 0x02 (· = 1) (fun v => 1 ≤ v ∧ v ≤ 3) cmdIntake := commandObj_of_row rfl rfl rfl rfl rfl rfl rfl rfl
theorem pairObj : CommandObj 0x2620 0x0B (· = 1) (fun v => 1 ≤ v ∧ v ≤ 3) cmdPair := commandObj_of_row rfl rfl rfl rfl rfl rfl rfl rfl

theorem ctxVal_of_ctxs {c c' : Chip} (h : c'.dict.ctxs = c.dict.ctxs) (r : Role) (i k : Nat) : ctxVal c' r i k = ctxVal c r i k := by
  simp only [ctxVal, ctxOf, h]

theorem ctxVal_setCtxVal (r : Role) (i k v : Nat) (c : Chip) : ctxVal (setCtxVal r i k v c) r i k = v := by
  simp only [ctxVal, setCtxVal, ctxOf_setCtx, cellsGet_set_same]

/-! Handles (R275). -/

section
variable {img c : Chip} {r : Role} {n : Nat}

/-- The handle that an OPEN gives. -/
def openedHandle (r : Role) (c : Chip) : Handle :=
  { kind := ctxVal c r 0x2B40 0x04, aslot := ctxVal c r 0x2B40 0x05, size := ctxVal c r 0x2B40 0x03, tenant := roleTenant r, lastRecv := c.tk.now
    area := takeRuns (16 * cdiv (ctxVal c r 0x2B40 0x03) 1024) (stagingGaps c) }

theorem cmdIntake_opens (ht : isTenant r = true → ctxVal c r 0x2B40 4 = 1 ∧ ownAdapter c (roleTenant r) (ctxVal c r 0x2B40 5) = true)
    (h0 : 0 < ctxVal c r 0x2B40 3) (hk : ctxVal c r 0x2B40 4 ≤ 2) (hs : ctxVal c r 0x2B40 3 ≤ stagingFree c) (hn : c.intake.handles.length < 16) :
    cmdIntake img r n [1] c = (setCtxVal r 0x2B40 0x07 (newHandle c).1 (setHandle (newHandle c).1 (openedHandle r c)
      ((openedHandle r c).area.foldl (fun c r => zeroStaged r.1 (r.1 + r.2) c) (newHandle c).2)), resOk) := by
  have hown : (isTenant r && (ctxVal c r 0x2B40 4 ≠ 1 || !ownAdapter c (roleTenant r) (ctxVal c r 0x2B40 5))) = false := by
    cases hr : isTenant r with
    | false => rfl
    | true => simp [ht hr]
  have hsize : (ctxVal c r 0x2B40 3 = 0 || 2 < ctxVal c r 0x2B40 4) = false := by simp; omega
  have hroom : (stagingFree c < ctxVal c r 0x2B40 3 || 16 ≤ c.intake.handles.length) = false := by simp; omega
  have hone : numAt [1] 0 1 = 1 := rfl
  simp only [cmdIntake, hone, hown, hsize, hroom, Bool.false_eq_true, if_false]
  rfl

/-- A tenant reaches its own adapter images alone. -/
theorem handleOwned {hd : Handle} (ht : isTenant r = true → hd.kind = 1 ∧ hd.tenant = roleTenant r) :
    (isTenant r && (hd.kind ≠ 1 || hd.tenant ≠ roleTenant r)) = false := by
  cases hr : isTenant r with
  | false => rfl
  | true => simp [ht hr]

section
variable {hd : Handle} (hh : handleAt c (ctxVal c r 0x2B40 7) = some hd) (ht : isTenant r = true → hd.kind = 1 ∧ hd.tenant = roleTenant r)
include hh ht

theorem cmdIntake_closes (ho : hd.st = .opened) (hm : missingUnit hd = none) : cmdIntake img r n [2] c =
    if hd.kind = 1 then (setHandle (ctxVal c r 0x2B40 7) { hd with st := .placing } c, resPending)
    else (setHandle (ctxVal c r 0x2B40 7) { hd with st := .complete } c, resOk) := by
  have htwo : numAt [2] 0 1 = 2 := rfl
  simp only [cmdIntake, htwo, hh, handleOwned ht, ho, hm, Option.isSome_none, ne_eq, not_true_eq_false, decide_false, Bool.or_self,
    Bool.false_eq_true, if_false]

theorem cmdIntake_releases (hu : hd.st = .inUse → hd.kind = 1) : cmdIntake img r n [3] c = (dropHandle (ctxVal c r 0x2B40 7) c, resOk) := by
  have hthree : numAt [3] 0 1 = 3 := rfl
  have huse : (hd.st = .inUse && hd.kind ≠ 1) = false := by
    by_cases h : hd.st = .inUse
    · simp [hu h]
    · simp [h]
  simp only [cmdIntake, hthree, hh, handleOwned ht, huse, Bool.false_eq_true, if_false]

end

theorem handleAt_dropHandle (h : Nat) (c : Chip) : handleAt (dropHandle h c) h = none := by
  simp only [dropHandle, showZero, handleAt, objSet_intake, cellsFind_drop_same]

/-! Port and pair commands (R291, R312). -/

theorem cmdPort_asks {p v : Nat} {b : List Byte} (hv : numAt b 0 1 = v) (h2 : v = 2 ∨ v = 3) :
    cmdPort img r p b c = (portAsked p v c, resPending) := by
  rcases h2 with rfl | rfl <;> simp only [cmdPort, hv] <;> rfl

theorem cmdPair_accepts {v : Nat} {b : List Byte} (hv : numAt b 0 1 = v) (h1 : 1 ≤ v) (h3 : v ≤ 3) (hf : forwards c = false ∨ lockstep c = true)
    (ha : pairAllowed c v = true) : cmdPair img r n b c = (acceptPair v (acceptTick c) c, resPending) := by
  have hrange : (v < 1 || 3 < v) = false := by simp; omega
  have hfwd : (forwards c && !lockstep c) = false := by rcases hf with h | h <;> simp [h]
  simp only [cmdPair, hv, hrange, hfwd, ha, Bool.not_true, Bool.false_eq_true, if_false]

theorem acceptPair_cmd (v tick : Nat) (c : Chip) : (acceptPair v tick c).link.pair.cmd = some (v, tick) := by
  dsimp only [acceptPair]
  split <;> rfl

end

end Sys2Proof.Machine

namespace Sys2Proof.Proofs

open Sys2Proof Sys2Proof.Machine

/-- Settles O52: the answer and effect of each command. -/
theorem intakeAndLinkCommands : Obligations.IntakeAndLinkCommands := by
  intro s r
  dsimp only
  refine ⟨fun hg hw ht h0 hk hs hn => ?_, fun hd hh ht => ⟨fun hg ho hm => ⟨fun hk => ?_, fun hk => ?_⟩, fun hg hu => ?_⟩, fun e he p hg => ?_,
    fun e he hg hf ha => ?_⟩
  · refine command_does intakeObj rfl rfl rfl hg rfl rfl (by omega) (.inr hw) (cmdIntake_opens ht h0 hk hs hn) rfl (.inl (by decide)) fun s' hn => ?_
    rw [ctxVal_of_ctxs hn.ctxs, ctxVal_setCtxVal, handleAt_of_intake hn.intake]
    exact handleAt_setHandle ..
  · refine command_does intakeObj rfl rfl rfl hg rfl rfl (by omega) (.inl rfl) ((cmdIntake_closes hh ht ho hm).trans (if_pos hk)) rfl (.inl (by decide))
      fun s' hn => ?_
    rw [handleAt_of_intake hn.intake]
    exact handleAt_setHandle ..
  · refine command_does intakeObj rfl rfl rfl hg rfl rfl (by omega) (.inl rfl) ((cmdIntake_closes hh ht ho hm).trans (if_neg hk)) rfl (.inl (by decide))
      fun s' hn => ?_
    rw [handleAt_of_intake hn.intake]
    exact handleAt_setHandle ..
  · refine command_does intakeObj rfl rfl rfl hg rfl rfl (by omega) (.inl rfl) (cmdIntake_releases hh ht hu) rfl (.inl (by decide)) fun s' hn => ?_
    rw [handleAt_of_intake hn.intake]
    exact handleAt_dropHandle ..
  · have hcode : ∀ e ∈ [(Instr.excludePort r, 2), (.includePort r, 3)],
        exec e.1 s = onWrite r 0x2601 0x11 [BitVec.ofNat 8 e.2] s ∧ (e.2 = 2 ∨ e.2 = 3) := by
      simp only [List.forall_mem_cons]
      exact ⟨⟨rfl, by decide⟩, ⟨rfl, by decide⟩, by simp⟩
    obtain ⟨hx, h2⟩ := hcode e he
    have hv : natLE [BitVec.ofNat 8 e.2] = e.2 := natLE_bytesLE_of_lt (n := 1) (by omega)
    refine command_does portObj rfl rfl hx hg hv rfl (by omega) (.inl rfl) (cmdPort_asks hv h2) rfl (.inl (by decide)) fun s' hn => ?_
    rw [hn.link]
    rfl
  · have hcode : ∀ e ∈ [(Instr.switchOver r, 1), (.inhibitReturn r, 2), (.allowReturn r, 3)],
        exec e.1 s = onWrite r 0x2620 0x0B [BitVec.ofNat 8 e.2] s ∧ 1 ≤ e.2 ∧ e.2 ≤ 3 := by
      simp only [List.forall_mem_cons]
      exact ⟨⟨rfl, by decide⟩, ⟨rfl, by decide⟩, ⟨rfl, by decide⟩, by simp⟩
    obtain ⟨hx, h1, h3⟩ := hcode e he
    have hv : natLE [BitVec.ofNat 8 e.2] = e.2 := natLE_bytesLE_of_lt (n := 1) (by omega)
    refine command_does pairObj rfl rfl hx hg hv rfl (by omega) (.inl rfl) (cmdPair_accepts hv h1 h3 hf ha) rfl (.inl (by decide)) fun s' hn => ?_
    rw [hn.link]
    exact acceptPair_cmd _ _ _

end Sys2Proof.Proofs

/-! SUPPORT. Cancel, release, summary and adapter commands (R242, R245, R250, R254). -/

namespace Sys2Proof.Machine

theorem cancelObj : CommandObj 0x2403 0x01 (· = 4) (fun v => 0 ≤ v ∧ v ≤ 4294967295) cmdCancel := commandObj_of_row rfl rfl rfl rfl rfl rfl rfl rfl
theorem convObj : CommandObj 0x2433 0x06 (· = 1) (fun v => 1 ≤ v ∧ v ≤ 2) cmdConv := commandObj_of_row rfl rfl rfl rfl rfl rfl rfl rfl
theorem adapterObj : CommandObj 0x2441 0x01 (· = 1) (fun v => 1 ≤ v ∧ v ≤ 2) cmdAdapter := commandObj_of_row rfl rfl rfl rfl rfl rfl rfl rfl

/-! Summaries as an object (R245). -/

/-- The row of 2436.00: bytes, of at most 256 KiB and the seal. -/
theorem summaryRow : ∃ row, objRow 0x2436 0x00 = some row ∧ row.sub = 0 ∧ row.kind = .command ∧ row.blob = true ∧ row.lo = 0 ∧ row.hi = 262172 :=
  ⟨_, rfl, rfl, rfl, rfl, rfl, rfl⟩

theorem lengthOk_summary {row : ObjRow} {n : Nat} (hb : row.blob = true) (hlo : row.lo = 0) (hhi : row.hi = 262172) (hn : n ≤ 262172) :
    lengthOk row 0x2436 n = true := by
  simp [lengthOk, hb, hlo, hhi, hn]

/-- A command that takes bytes and has no status object leaves no note. -/
theorem noteCommand_bytes {row : ObjRow} {i n v : Nat} {res : Res} {c : Chip} (hb : row.blob = true) (ho : statusOf i row.sub = none) :
    noteCommand row i n v res c = c := by
  simp only [noteCommand, hb, ho, Bool.true_or, if_true]

theorem objValue_summary {c : Chip} {r : Role} {row : ObjRow} {n : Nat} {v : Summary} (h : findSummary c (n / 2 ^ 32) (n % 2 ^ 32) = some v) :
    objValue c r row 0x2436 n = v.sealed := by
  have hd : derivedValue c 0x2436 row.sub n = some v.sealed := by
    simp only [derivedValue, h]
  have hcoarse : (isTenant r && isCoarse 0x2436 row.sub) = false := Bool.and_eq_false_imp.mpr fun _ => rfl
  have htenth : (isTenant r && 0x2436 = 0x2510 && row.sub = 1) = false := by simp
  simp only [objValue, hcoarse, htenth, hd, Bool.false_eq_true, if_false]

theorem dictRead_summary {img c : Chip} {r : Role} {row : ObjRow} {n : Nat} {v : Summary} (hr : findRow img c r 0x2436 0x00 false = .ok row)
    (hi : instOf 0x2436 (ctxVal c r) = n) (hm : mayReach img c r row 0x2436 n false = true)
    (hv : findSummary img (n / 2 ^ 32) (n % 2 ^ 32) = some v) : dictRead img c r 0x2436 0x00 = .ok (row, n, v.sealed) := by
  obtain ⟨row', hrow, -, hk, -⟩ := summaryRow
  have hkind : row.kind = .command := by
    have h := hrow.symm.trans (findRow_row hr)
    injection h with h
    exact h ▸ hk
  have hno : (row.kind = .selector || row.kind = .param) = false := by simp [hkind]
  have hne : ¬0x2436 = 0x2001 := by decide
  simp only [dictRead, dictReadAs, hr, hi, hm, hno, hne, objValue_summary hv, Bool.not_true, Bool.false_eq_true, if_false]

/-! Cancels and releases (R242, R250). -/

section
variable {img c : Chip} {r : Role} {n : Nat}

theorem cmdCancel_asks {v : Nat} {b : List Byte} (hv : numAt b 0 4 = v) : ∃ d, cmdCancel img r n b c = (d, resPending) ∧
    ∃ w, d.serv.cancels = c.serv.cancels ++ [w] ∧ w.key = v ∧ w.datagram = false ∧ w.tick = acceptTick c ∧
      w.tenant = (if isTenant r then roleTenant r else ctxVal c r 0x2403 0x02) := by
  refine ⟨_, rfl, _, rfl, hv, rfl, rfl, ?_⟩
  cases r <;> rfl

theorem cmdConv_deletes {v : Summary} (hv : findSummary c (n / 2 ^ 32) (n % 2 ^ 32) = some v) : cmdConv img r n [2] c =
    (setServ { c.serv with sumOps := c.serv.sumOps ++ [⟨n / 2 ^ 32, n % 2 ^ 32, none, acceptTick c⟩] } c, resPending) := by
  have htwo : numAt [2] 0 1 = 2 := rfl
  simp only [cmdConv, htwo, hv]

theorem cmdSummary_stores {data pt : List Byte} {c' : Chip} (ho : openSummary c (n / 2 ^ 32) (n % 2 ^ 32) data = some pt)
    (hs : storeSummary (n / 2 ^ 32) (n % 2 ^ 32) data c = some c') : cmdSummary img r n data c =
      (setServ { c.serv with sumOps := c.serv.sumOps ++ [⟨n / 2 ^ 32, n % 2 ^ 32, some data, acceptTick c⟩] } c, resOk) := by
  simp only [cmdSummary, ho, hs, Option.isNone_some, Bool.false_eq_true, if_false]

/-! Adapters (R254). -/

/-- The image is in use and its version joins what the next boundary installs. -/
def installAsked (n h : Nat) (hd : Handle) (c : Chip) : Chip :=
  let d := setHandle h { hd with st := .inUse } c
  let v := hd.placed.getD (0, 0)
  let m := Config.sha3 (bytesLE 1 n ++ bytesLE 4 v.2 ++ (imageOf d h hd).take 64)
  let e := setAdSlot n { adSlot c n with marks := cellsPut (adSlot c n).marks v.1 m } d
  setServ { e.serv with adOps := e.serv.adOps ++ [⟨n, hd.placed, acceptTick e⟩] } e

theorem installAsked_intake (n h : Nat) (hd : Handle) (c : Chip) :
    cellsFind (installAsked n h hd c).intake.handles h = some { hd with st := .inUse } := cellsFind_put_same ..

section
variable {p : Plan} {d : AdDecl} (hp : c.plan.loaded = some p) (hdecl : planAdapter p n = some d)
include hp hdecl

theorem cmdAdapter_installs {h : Nat} {hd : Handle} (hc : ctxVal c r 0x2441 0x02 = h) (hh : cellsFind c.intake.handles h = some hd)
    (hk : hd.kind = 1) (hs : hd.aslot = n) (hf : adapterFits c h d hd = true) (hpl : hd.st = .placed) (hl : (adSlot c n).live.length < 2) :
    cmdAdapter img r n [1] c = (installAsked n h hd c, resPending) := by
  have hone : numAt [1] 0 1 = 1 := rfl
  have hkind : ¬hd.kind ≠ 1 := not_not.mpr hk
  have hbusy : (hd.st = .opened || hd.st = .placing) = false := by simp [hpl]
  have hfits : (hd.aslot ≠ n || !adapterFits c h d hd) = false := by simp [hs, hf]
  have hfree : (hd.st ≠ .placed || 2 ≤ (adSlot c n).live.length) = false := by
    simp [hpl]
    omega
  simp only [cmdAdapter, hp, hdecl, hone, hc, hh, hkind, hbusy, hfits, hfree, Option.bind_some, Bool.false_eq_true, if_false]
  rfl

theorem cmdAdapter_retires (hc : (adSlot c n).cur.isSome = true) : cmdAdapter img r n [2] c =
    (setServ { c.serv with adOps := c.serv.adOps ++ [⟨n, none, acceptTick c⟩] } c, resPending) := by
  have htwo : numAt [2] 0 1 = 2 := rfl
  have hcur : (adSlot c n).cur.isNone = false := by
    rw [← Option.not_isSome, hc]
    rfl
  simp only [cmdAdapter, hp, hdecl, htwo, hcur, Option.bind_some, Bool.false_eq_true, if_false]

end

end

end Sys2Proof.Machine

namespace Sys2Proof.Proofs

open Sys2Proof Sys2Proof.Machine

/-- Settles O53: the answer and effect of each command. -/
theorem servingCommands : Obligations.ServingCommands := by
  intro s r
  dsimp only
  refine ⟨fun q hg => ?_, fun n hg => ?_, fun n v hg hv => ?_, fun n row v hs hr hi hm hv => ?_, fun n data pt c' hg hl ho hs => ?_,
    fun n p d hp hd => ⟨fun hd' hg hh hk hs hf hpl hl => ?_, fun hg hc => ?_⟩⟩
  · obtain ⟨d, hout, hw⟩ := cmdCancel_asks (img := dictImage s) (c := s.chip) (r := r) (n := 0) (numAt_bytesLE_of_lt (n := 4) q.isLt)
    refine command_does cancelObj rfl rfl rfl hg (natLE_bytesLE_of_lt q.isLt) rfl (by omega) (.inl rfl) hout rfl (.inl (by decide)) fun s' hn => ?_
    rw [hn.serv]
    exact hw
  · refine command_does convObj rfl rfl rfl hg rfl rfl (by omega) (.inl rfl) rfl rfl (.inl (by decide)) fun s' hn => ?_
    rw [hn.serv]
    exact ⟨_, rfl, rfl, rfl, rfl⟩
  · refine command_does convObj rfl rfl rfl hg rfl rfl (by omega) (.inl rfl) (cmdConv_deletes hv) rfl (.inl (by decide)) fun s' hn => ?_
    rw [hn.serv]
    rfl
  · refine gives_onChip (f := fun c => if !dictServes c then c else match dictRead (dictImage s) c r 0x2436 0x00 with
      | .error e => noteRes (c, e)
      | .ok (_, _, v) => noteRes ({ c with dict := { c.dict with lastData := v } }, resOk)) rfl ?_
    simp only [hs, dictRead_summary hr hi hm hv, Bool.not_true, Bool.false_eq_true, if_false, onto, settle_dict_lastData, settle_dict_lastRes, settle_serv]
    exact ⟨rfl, rfl, rfl⟩
  · obtain ⟨row, hrow, hsub, hk, hb, hlo, hhi⟩ := summaryRow
    have h := write_answers (inst := .summaryImport r data) rfl hg rfl hrow (by simp [hk]) hsub rfl (lengthOk_summary hb hlo hhi hl)
      (by simp [rangeOk, hb]) (.inl rfl) (cmdSummary_stores ho hs) (.inl (by decide))
    rwa [noteCommand_bytes hb (by rw [hsub]; rfl)] at h
  · refine command_does adapterObj rfl rfl rfl hg rfl rfl (by omega) (.inl rfl) (cmdAdapter_installs hp hd rfl hh hk hs hf hpl hl) rfl
      (.inl (by decide)) fun s' hn => ?_
    rw [hn.serv, hn.intake]
    exact ⟨rfl, installAsked_intake ..⟩
  · refine command_does adapterObj rfl rfl rfl hg rfl rfl (by omega) (.inl rfl) (cmdAdapter_retires hp hd hc) rfl (.inl (by decide)) fun s' hn => ?_
    rw [hn.serv]
    rfl

end Sys2Proof.Proofs

/-! SUPPORT. Quote, key record, tenant, sweep, plan key and EXTEND commands (R318, R321, R327-R330, R336, R337). -/

namespace Sys2Proof.Machine

theorem quoteObj : CommandObj 0x2704 0x02 (· = 1) (fun v => 1 ≤ v ∧ v ≤ 2) cmdQuote := commandObj_of_row rfl rfl rfl rfl rfl rfl rfl rfl
theorem storeSweepObj : CommandObj 0x2201 0x07 (· = 1) (fun v => 0 ≤ v ∧ v ≤ 2) cmdSweep := commandObj_of_row rfl rfl rfl rfl rfl rfl rfl rfl
theorem streamSweepObj : CommandObj 0x2306 0x03 (· = 1) (fun v => 3 ≤ v ∧ v ≤ 4) cmdSweep := commandObj_of_row rfl rfl rfl rfl rfl rfl rfl rfl
theorem tenantObj : CommandObj 0x2201 0x01 (· = 1) (fun v => 0 ≤ v ∧ v ≤ 1) cmdTenant := commandObj_of_row rfl rfl rfl rfl rfl rfl rfl rfl
theorem keyReleaseObj : CommandObj 0x2710 0x01 (· = 4960) (fun _ => True) cmdKeyRelease :=
  commandObj_of_bytes rfl rfl rfl (by rintro _ rfl; rfl) rfl
theorem extendObj : CommandObj 0x2702 0x02 (· = 33) (fun _ => True) cmdExtend := commandObj_of_bytes rfl rfl rfl (by rintro _ rfl; rfl) rfl

/-- Slots 1 to 7 of the plan-signing keys: an object each, of a key or of none. -/
theorem planKeyObj {slot : Fin 8} (h : slot ≠ 0) :
    CommandObj 0x2720 (slot.val + 1) (fun n => n = 0 ∨ n = 1312) (fun _ => True) (cmdPlanKey slot.val) ∧
      statusOf 0x2720 (slot.val + 1) = some (0x2720, 0x09) ∧ ∀ v, needsRun 0x2720 (slot.val + 1) v = false := by
  have hrow : ∀ slot : Fin 8, slot ≠ 0 → (objRow 0x2720 (slot.val + 1)).any (fun row => row.kind = .command && row.blob && row.lo = 0 && row.hi = 1312) ∧
      statusOf 0x2720 (slot.val + 1) = some (0x2720, 0x09) := by decide
  obtain ⟨ho, hs⟩ := hrow slot h
  obtain ⟨row, hr⟩ : ∃ row, objRow 0x2720 (slot.val + 1) = some row := Option.isSome_iff_exists.mp (Option.isSome_of_any ho)
  simp only [hr, Option.any_some, Bool.and_eq_true, decide_eq_true_eq] at ho
  obtain ⟨⟨⟨hk, hb⟩, hlo⟩, hhi⟩ := ho
  refine ⟨commandObj_of_bytes hr hk hb (fun n hn => ?_) ?_, hs, fun v => by simp [needsRun]⟩
  · rcases hn with rfl | rfl <;> simp [lengthOk, hb, hlo, hhi]
  · have hlt := slot.isLt
    have hpos : slot.val ≠ 0 := fun h0 => h (Fin.ext h0)
    simp [commandOf]
    omega

/-! EXTEND and what it leaves (R318). -/

section
variable (reg ev : Nat) (d : BitVec 256) (c : Chip)

theorem measLog_objs : (measLog reg ev d c).objs = c.objs := by
  dsimp only [measLog]
  split <;> rfl

theorem measLog_installs : (measLog reg ev d c).sec.installs = c.sec.installs := by
  dsimp only [measLog]
  split <;> rfl

theorem objGet_extend {i : Nat} (k n : Nat) (h : i ≠ 0x2701) : objGet (extend reg ev d c) i k n = objGet c i k n := by
  rw [extend, objGet_of_objs (measLog_objs ..)]
  exact objGet_set_idx _ _ _ _ _ _ h

theorem extend_installs : (extend reg ev d c).sec.installs = c.sec.installs := measLog_installs ..

theorem measGet_extend : measGet (extend reg ev d c) reg = Config.sha3 (bytesLE 32 (measGet c reg).toNat ++ bytesLE 32 d.toNat) := by
  rw [extend, measGet, objGet_of_objs (measLog_objs ..), setMeas, objGet_set_same, BitVec.ofNat_toNat, BitVec.setWidth_eq]

end

section
variable {img c : Chip} {r : Role} {n : Nat}

theorem cmdExtend_extends {b : List Byte} (hl : b.length = 33) (h13 : 13 ≤ numAt b 0 1) (h15 : numAt b 0 1 ≤ 15) :
    cmdExtend img r n b c = (extend (numAt b 0 1) 0x0A (BitVec.ofNat 256 (numAt b 1 32)) c, resOk) := by
  have hrange : (numAt b 0 1 < 13 || 15 < numAt b 0 1) = false := by simp; omega
  simp only [cmdExtend, hl, hrange, ne_eq, not_true_eq_false, Bool.false_eq_true, if_false]

/-! Quotes (R321). -/

theorem cmdQuote_asks (ho : (quoteSlot c n).owner = some (roleKey r)) (ha : (quoteSlot c n).asked = none) (hi : identityValid c = true) :
    cmdQuote img r n [1] c = (setQuote n { quoteSlot c n with asked := some c.tk.tick, posted := none } c, resPending) := by
  have hone : numAt [1] 0 1 = 1 := rfl
  simp only [cmdQuote, hone]
  rw [if_neg (by simp [ho]), if_neg (by simp [ho]), if_pos trivial, if_neg (by simp [ha]), if_neg (by simp [hi])]

theorem cmdQuote_frees (ho : (quoteSlot c n).owner = some (roleKey r)) :
    cmdQuote img r n [2] c = (blobSet 0x2704 0x04 n [] (objSet 0x2704 0x01 n 0 (setQuote n {} c)), resOk) := by
  have htwo : numAt [2] 0 1 = 2 := rfl
  simp only [cmdQuote, htwo]
  rw [if_neg (by simp [ho]), if_neg (by simp [ho]), if_neg (by decide), if_pos trivial]

/-! Key records (R327-R329). -/

theorem cmdKeyRelease_installs {k : KeyInstall} {b : List Byte} (h : keyRecordCheck c r b = .ok k) : ∃ d, cmdKeyRelease img r n b c = (d, resPending) ∧
    d.sec.installs = c.sec.installs ++ [{ k with tick := c.tk.tick }] ∧ objGet d 0x2710 0x03 0 = 0 ∧
    objGet d 0x2201 0x02 (numAt b 4 2) = (Config.sha3 (bytesAt b 0x4CC 1312)).toNat := by
  simp only [cmdKeyRelease, h]
  refine ⟨_, rfl, ?_⟩
  rw [extend_installs, objGet_extend _ _ _ _ _ _ (by decide), objGet_extend _ _ _ _ _ _ (by decide)]
  exact ⟨rfl, objGet_set_same .., (objGet_set_idx _ _ _ _ _ _ (by decide) : _ = _).trans (objGet_set_same ..)⟩

theorem cmdKeyRelease_refuses {row st : Nat} {b : List Byte} (h : keyRecordCheck c r b = .error (row, st)) :
    cmdKeyRelease img r n b c = (objSet 0x2710 0x03 0 row c, resSt st) := by
  simp only [cmdKeyRelease, h]

/-! Sweeps, tenants and plan keys (R330, R336, R337). -/

/-- What the requests of the next boundary become. -/
def sweepNoted (k n : Nat) (c : Chip) : Chip := { c with sec := { c.sec with sweeps := c.sec.sweeps ++ [(k, n)] } }

theorem cmdSweep_counts {k : Nat} {b : List Byte} (hv : numAt b 0 1 = k) (hr : (retiringKey c k n).isSome = true)
    (hs : c.sec.sweeps.contains (k, n) = false) : cmdSweep img r n b c = (sweepNoted k n c, resOk) := by
  simp only [cmdSweep, hv, hr, hs, Bool.not_false, Bool.and_self, if_true]
  rfl

/-- The tenant is assigned, or no longer, from the next boundary on. -/
def tenantAsked (t : Nat) (on : Bool) (c : Chip) : Chip := { c with sec := { c.sec with tenantOps := c.sec.tenantOps ++ [(t, on)] } }

theorem cmdTenant_assigns (ht : n ≠ 0) : cmdTenant img r n [1] c = (tenantAsked n true c, resPending) := by
  have hone : numAt [1] 0 1 = 1 := rfl
  simp only [cmdTenant, hone, if_neg ht, decide_true, Bool.not_true, Bool.false_and, Bool.false_eq_true, if_false, tenantAsked]

theorem cmdTenant_unassigns (ht : n ≠ 0) (hp : ∀ p, img.plan.loaded = some p → n ∉ planTenants p) :
    cmdTenant img r n [0] c = (tenantAsked n false c, resPending) := by
  have hzero : decide (numAt [0] 0 1 = 1) = false := rfl
  cases hl : img.plan.loaded with
  | none => simp only [cmdTenant, hzero, hl, if_neg ht, Bool.and_false, Bool.false_eq_true, if_false, tenantAsked]
  | some p =>
    have hno : (planTenants p).contains n = false := by simpa using hp p hl
    simp only [cmdTenant, hzero, hl, hno, if_neg ht, Bool.and_false, Bool.false_eq_true, if_false, tenantAsked]

/-- The slot's write joins those of the next boundary. -/
def planKeyAsked (k : Nat) (b : List Byte) (c : Chip) : Chip := { c with sec := { c.sec with planKeys := c.sec.planKeys ++ [(k, b)] } }

theorem cmdPlanKey_writes {k : Nat} {b : List Byte} (hl : b.length = 0 ∨ b.length = 1312)
    (hm : judgedMode img c = .idle ∨ judgedMode img c = .loaded) (hr : r = .service ∨ (blobGet c 0x2720 (k + 1) 0 = [] ∧ b ≠ [])) :
    cmdPlanKey k img r n b c = (planKeyAsked k b c, resPending) := by
  have hlen : (b.length ≠ 0 && b.length ≠ 1312) = false := by rcases hl with h | h <;> simp [h]
  have hmode : (judgedMode img c ≠ .idle && judgedMode img c ≠ .loaded) = false := by rcases hm with h | h <;> simp [h]
  have hright : ((!(blobGet c 0x2720 (k + 1) 0).isEmpty || b.isEmpty) && r ≠ .service) = false := by
    rcases hr with h | ⟨h, hb⟩
    · simp [h]
    · simp [h, hb]
  simp only [cmdPlanKey, hlen, hmode, hright, Bool.false_eq_true, if_false, planKeyAsked]

end

end Sys2Proof.Machine

namespace Sys2Proof.Proofs

open Sys2Proof Sys2Proof.Machine

/-- Settles O54: the answer and effect of each command. -/
theorem securityCommands : Obligations.SecurityCommands := by
  intro s r
  dsimp only
  refine ⟨fun n hn ho => ⟨fun hg ha hi => ?_, fun hg => ?_⟩, fun data hg hl => ⟨fun k hk => ?_, fun row st hk => ?_⟩,
    fun kind n hr hs => ⟨fun h3 hg => ?_, fun h3 hg => ?_⟩, fun t ht => ⟨fun hg => ?_, fun hg hp => ?_⟩, fun data hg hl h13 h15 => ?_,
    fun slot data hg h0 hl hm hr => ?_⟩
  · refine command_does quoteObj rfl rfl rfl hg rfl rfl (by omega) (.inl rfl) (cmdQuote_asks ho ha hi) rfl (.inl (by decide)) fun s' hd => ?_
    rw [quoteSlot_of_sec hd.sec, quoteSlot_setQuote hn]
    exact ⟨rfl, rfl, ho⟩
  · refine command_does quoteObj rfl rfl rfl hg rfl rfl (by omega) (.inl rfl) (cmdQuote_frees ho) rfl (.inl (by decide)) fun s' hd => ?_
    rw [quoteSlot_of_sec hd.sec, blobGet_of_blobs hd.blobs, hd.other _ _ _ (okey_ne_sub (by decide)) fun o ho => by cases ho; exact okey_ne_sub (by decide)]
    exact ⟨quoteSlot_setQuote hn .., blobGet_set_same .., objGet_set_same ..⟩
  · obtain ⟨d, hout, hi, h3, ha⟩ := cmdKeyRelease_installs (img := dictImage s) (n := 0) hk
    refine command_does keyReleaseObj rfl rfl rfl hg rfl hl trivial (.inl rfl) hout rfl (.inl (by decide)) fun s' hd => ?_
    rw [hd.sec, hd.other 0x2710 _ _ (okey_ne_sub (by decide)) fun o ho => by cases ho; exact okey_ne_sub (by decide),
      hd.other 0x2201 _ _ (okey_ne_idx (by decide)) fun o ho => by cases ho; exact okey_ne_idx (by decide)]
    exact ⟨hi, h3, ha⟩
  · refine command_does keyReleaseObj rfl rfl rfl hg rfl hl trivial (.inl rfl) (cmdKeyRelease_refuses hk) rfl (.inr rfl) fun s' hd => ?_
    rw [hd.sec, hd.other _ _ _ (okey_ne_sub (by decide)) fun o ho => by cases ho; exact okey_ne_sub (by decide)]
    exact ⟨objGet_set_same .., rfl⟩
  · refine command_does storeSweepObj rfl rfl rfl hg (natLE_byte kind) rfl (by omega) (.inl rfl) (cmdSweep_counts (numAt_byte kind) hr hs) rfl
      (.inl (by decide)) fun s' hd => ?_
    rw [hd.sec]
    rfl
  · refine command_gives streamSweepObj rfl hg (natLE_byte kind) rfl (by omega) (.inl rfl) (cmdSweep_counts (numAt_byte kind) hr hs)
      (.inl (by decide)) fun s' hd hres => ⟨hres, ?_⟩
    rw [hd.sec]
    rfl
  · refine command_does tenantObj rfl rfl rfl hg rfl rfl (by omega) (.inl rfl) (cmdTenant_assigns ht) rfl (.inl (by decide)) fun s' hd => ?_
    rw [hd.sec]
    rfl
  · refine command_does tenantObj rfl rfl rfl hg rfl rfl (by omega) (.inl rfl) (cmdTenant_unassigns ht hp) rfl (.inl (by decide)) fun s' hd => ?_
    rw [hd.sec]
    rfl
  · refine command_does extendObj rfl rfl rfl hg rfl hl trivial (.inl rfl) (cmdExtend_extends hl h13 h15) rfl (.inl (by decide)) fun s' hd => ?_
    rw [measGet, hd.other _ _ _ (okey_ne_idx (by decide)) fun o ho => by cases ho; exact okey_ne_idx (by decide)]
    exact measGet_extend ..
  · obtain ⟨hobj, hst, hn⟩ := planKeyObj h0
    refine command_does hobj hst rfl rfl hg rfl hl trivial (.inl (hn _)) (cmdPlanKey_writes hl hm hr) rfl (.inl (by decide)) fun s' hd => ?_
    rw [hd.sec]
    rfl

end Sys2Proof.Proofs

/-! SUPPORT. PROGRAM, ACTIVATE, REVERT and ERASE (R419, R420, R425). -/

namespace Sys2Proof.Machine

theorem updateObj : CommandObj 0x2801 0x08 (· = 1) (fun v => 1 ≤ v ∧ v ≤ 4) cmdUpdate := commandObj_of_row rfl rfl rfl rfl rfl rfl rfl rfl

section
variable {img c : Chip} {r : Role} {n : Nat}

/-! PROGRAM and ERASE (R419). -/

/-- Neither an unconfirmed image nor another update keeps the slot from being written. -/
theorem updateFree (hu : (fwActive c n).st ≠ .unconfirmed) (hb : updBusy c = false) :
    ((fwActive c n).st = .unconfirmed || updBusy c) = false := by
  simp [hu, hb]

/-- The image is in use and the slot that is not active is being written. -/
def programStarts (n h : Nat) (hd : Handle) (i : FwImage) (c : Chip) : Chip :=
  let o := otherSlot (fwComp c n)
  let d := useHandle h true (freeHandle n (readImage hd c))
  let e := setComp n (setFwSlot (fwComp c n) o { st := .writing }) { d with fw := { d.fw with handles := cellsPut d.fw.handles n h } }
  fwShow (setUpd { component := n, phase := .programming, slot := o, image := some i } e)

theorem cmdProgram_starts {h : Nat} {hd : Handle} {i : FwImage} (hu : (fwActive c n).st ≠ .unconfirmed) (hb : updBusy c = false)
    (hc : ctxVal c r 0x2801 0x09 = h) (hh : cellsFind c.intake.handles h = some hd) (hk : hd.kind = 2) (hs : hd.st = .complete)
    (hf : fwCheck c n (imageOf c h hd) = .ok i)
    (hroom : hd.size + 65536 * (cellsFind c.life.badBlocks (6 + 2 * n + otherSlot (fwComp c n))).getD 0 ≤ slotBytes n) :
    cmdProgram r n c = (programStarts n h hd i c, resPending) := by
  simp only [cmdProgram, updateFree hu hb, hc, hh, hk, hs, hf, Nat.not_lt.mpr hroom, ne_eq, not_true_eq_false, Bool.false_eq_true, if_false]
  rfl

theorem programStarts_leaves (hn : n < 5) (h : Nat) (hd : Handle) (i : FwImage) (c : Chip) :
    fwSlot (fwComp (programStarts n h hd i c) n) (otherSlot (fwComp c n)) = { st := .writing } ∧
      updOf (programStarts n h hd i c) n = some { component := n, phase := .programming, slot := otherSlot (fwComp c n), image := some i } := by
  dsimp only [programStarts]
  rw [(FwKept.of_fw (fwShow_fw _)).comp, (FwKept.of_fw (fwShow_fw _)).upd, updOf_setUpd]
  exact ⟨(congrArg (fwSlot · _) (fwComp_setComp hn _ _)).trans (fwSlot_set_same ..), rfl⟩

theorem cmdErase_erases (hu : (fwActive c n).st ≠ .unconfirmed) (hb : updBusy c = false) :
    cmdErase n c = (fwShow (modComp n (fun k => setFwSlot k (otherSlot k) {}) (freeHandle n c)), resOk) := by
  simp only [cmdErase, updateFree hu hb, Bool.false_eq_true, if_false]

theorem erased_slot (hn : n < 5) (c : Chip) :
    fwSlot (fwComp (fwShow (modComp n (fun k => setFwSlot k (otherSlot k) {}) (freeHandle n c))) n) (otherSlot (fwComp c n)) = {} := by
  rw [(FwKept.of_fw (fwShow_fw _)).comp, fwComp_modComp hn, (freeHandle_kept n c).comp, fwSlot_set_same]

/-! ACTIVATE and REVERT (R420, R425). -/

/-- Two images whose handover formats overlap both ways, or none to hand over from. -/
def handsOver (i : FwImage) (a : Option FwImage) : Bool :=
  match a with
  | some a => decide (i.hovInMin ≤ a.hovOut) && decide (a.hovOut ≤ i.hovInMax) && decide (a.hovInMin ≤ i.hovOut) && decide (i.hovOut ≤ a.hovInMax)
  | none => true

/-- A wake begins where the module is in a wake state deeper than the first. -/
def wakeAsked (c : Chip) : Chip := if 1 < wakeCode c.tk.wake then { c with power := { c.power with waking := true } } else c

theorem wakeAsked_life (c : Chip) : (wakeAsked c).life = c.life := by
  unfold wakeAsked
  split <;> rfl

theorem wakeAsked_fw (c : Chip) : (wakeAsked c).fw = c.fw := by
  unfold wakeAsked
  split <;> rfl

/-- The command has taken the lease, or waits for it. -/
def switchAsked (revert : Bool) (i : FwImage) (n : Nat) (l : Chip × Nat) (c : Chip) : Chip :=
  let u : Update := { component := n, phase := if l.2 = stOk then .granted else .queued, slot := otherSlot (fwComp c n)
                      boundary := c.tk.tick + 1, revert := revert, image := some i }
  wakeAsked (fwShow (setUpd u l.1))

section
variable {i : FwImage} {revert : Bool} (hs : judgedMode img c ≠ .survival) (ht : judgedMode img c ≠ .stopped) (hb : judgedMode img c ≠ .booting)
  (h4 : n = 4 → judgedMode img c = .idle ∨ judgedMode img c = .loaded) (hu : anyUnconfirmed c = false) (hbusy : updBusy c = false)
  (hv : (fwSlot (fwComp c n) (otherSlot (fwComp c n))).st = .valid) (hi : (fwSlot (fwComp c n) (otherSlot (fwComp c n))).image = some i)
  (hc : compatOk c n i = true) (hf : (fwComp c n).floor ≤ i.sec) (hh : revert = false → ∀ a, (fwActive c n).image = some a →
    i.hovInMin ≤ a.hovOut ∧ a.hovOut ≤ i.hovInMax ∧ a.hovInMin ≤ i.hovOut ∧ i.hovOut ≤ a.hovInMax)
include hs ht hb h4 hu hbusy hv hi hc hf hh

theorem cmdSwitch_asks (hl : (leaseRequest .fw n true c).2 ≠ stNoResource) :
    cmdSwitch revert img n c = (switchAsked revert i n (leaseRequest .fw n true c) c,
      if (leaseRequest .fw n true c).2 = stOk then resPending else resQueued) := by
  have hidle : (n = 4 && judgedMode img c ≠ .idle && judgedMode img c ≠ .loaded) = false := by
    by_cases hn : n = 4
    · rcases h4 hn with h | h <;> simp [h]
    · simp [hn]
  have hstate : (judgedMode img c = .survival || judgedMode img c = .stopped || judgedMode img c = .booting ||
      (n = 4 && judgedMode img c ≠ .idle && judgedMode img c ≠ .loaded) || anyUnconfirmed c || updBusy c ||
      (fwSlot (fwComp c n) (otherSlot (fwComp c n))).st ≠ .valid) = false := by
    rw [hidle]
    simp [hs, ht, hb, hu, hbusy, hv]
  have hover : (!revert && !handsOver i (fwActive c n).image) = false := by
    cases revert with
    | true => rfl
    | false =>
      cases ha : (fwActive c n).image with
      | none => rfl
      | some a => simp [handsOver, hh rfl a ha]
  have hversion : (!compatOk c n i || i.sec < (fwComp c n).floor || (!revert && !handsOver i (fwActive c n).image)) = false := by
    rw [hover]
    simp [hc, hf]
  unfold cmdSwitch
  dsimp only
  rw [if_neg (Bool.eq_false_iff.mp hstate), hi]
  exact (if_neg (Bool.eq_false_iff.mp hversion)).trans (if_neg hl)

end

theorem switchAsked_leaves (revert : Bool) (i : FwImage) (n : Nat) (l : Chip × Nat) (c : Chip) :
    (switchAsked revert i n l c).life = l.1.life ∧ updOf (switchAsked revert i n l c) n = some
      { component := n, phase := if l.2 = stOk then .granted else .queued, slot := otherSlot (fwComp c n), boundary := c.tk.tick + 1
        revert := revert, image := some i } := by
  dsimp only [switchAsked]
  rw [wakeAsked_life, fwShow_life, (FwKept.of_fw (wakeAsked_fw _)).upd, (FwKept.of_fw (fwShow_fw _)).upd]
  exact ⟨rfl, updOf_setUpd _ _⟩

end

end Sys2Proof.Machine

namespace Sys2Proof.Proofs

open Sys2Proof Sys2Proof.Machine

/-- Settles O55: PROGRAM and ERASE write the slot that is not active, ACTIVATE and REVERT go through the lease. -/
theorem updateCommands : Obligations.UpdateCommands := by
  intro s r n
  dsimp only
  refine ⟨fun hd i hg hn hu hb hh hk hs hf hroom => ?_, fun e he i hg hs ht hb h4 hu hbusy hv hi hc hf hh => ?_, fun hg hn hu hb => ?_⟩
  · refine command_does updateObj rfl rfl rfl hg rfl rfl (by omega) (.inl rfl) (cmdProgram_starts hu hb rfl hh hk hs hf hroom) rfl (.inl (by decide))
      fun s' hd' => ?_
    rw [(FwKept.of_fw hd'.fw).comp, (FwKept.of_fw hd'.fw).upd, (programStarts_leaves hn ..).1]
    exact ⟨rfl, (programStarts_leaves hn ..).2⟩
  · have hcode : ∀ e ∈ [(Instr.activate r, 2, false), (.revert r, 3, true)], exec e.1 s = onWrite r 0x2801 0x08 [BitVec.ofNat 8 e.2.1] s ∧
        2 ≤ e.2.1 ∧ e.2.1 ≤ 3 ∧ cmdUpdate (dictImage s) r n [BitVec.ofNat 8 e.2.1] s.chip = cmdSwitch e.2.2 (dictImage s) n s.chip := by
      simp only [List.forall_mem_cons]
      exact ⟨⟨rfl, by decide, by decide, rfl⟩, ⟨rfl, by decide, by decide, rfl⟩, by simp⟩
    obtain ⟨hx, h2, h3, hcmd⟩ := hcode e he
    have hv' : natLE [BitVec.ofNat 8 e.2.1] = e.2.1 := natLE_bytesLE_of_lt (n := 1) (by omega)
    have hout (hl : (leaseRequest .fw n true s.chip).2 ≠ stNoResource) :=
      hcmd.trans (cmdSwitch_asks hs ht hb h4 hu hbusy hv hi hc hf hh hl)
    refine ⟨fun hl => ?_, fun hl hq => ?_⟩
    · rw [leaseRequest_free hl] at hout
      obtain ⟨hlife, hupd⟩ := switchAsked_leaves e.2.2 i n (leaseGrant (leaseEntry .fw n s.chip) s.chip, stOk) s.chip
      refine command_does updateObj rfl rfl hx hg hv' rfl (by omega) (.inl rfl) (hout (show stOk ≠ stNoResource by decide)) rfl (.inl (by decide)) fun s' hd => ?_
      rw [hd.life, (FwKept.of_fw hd.fw).upd, hlife, hupd]
      exact ⟨rfl, rfl⟩
    · rw [leaseRequest_queued hl hq] at hout
      obtain ⟨hlife, -⟩ := switchAsked_leaves e.2.2 i n (leaseQueued (leaseEntry .fw n s.chip) s.chip, stQueued) s.chip
      refine command_does updateObj rfl rfl hx hg hv' rfl (by omega) (.inl rfl) (hout (show stQueued ≠ stNoResource by decide)) rfl (.inl (by decide)) fun s' hd => ?_
      rw [hd.life, hlife]
      exact leaseEnqueue_behind (e := leaseEntry .fw n s.chip) Activity.noConfusion _
  · refine command_does updateObj rfl rfl rfl hg rfl rfl (by omega) (.inl rfl) (cmdErase_erases hu hb) rfl (.inl (by decide)) fun s' hd => ?_
    rw [(FwKept.of_fw hd.fw).comp]
    exact erased_slot hn _

end Sys2Proof.Proofs

/-! SUPPORT. Register, selector, parameter, reading, alert, snapshot and trace writes (R351, R362, R369, R391-R400, R409, R414, R435). -/

namespace Sys2Proof.Machine

theorem coolantObj : CommandObj 0x2520 0x01 (· = 8) (fun v => 0 ≤ v ∧ v ≤ 18446744073709551615) cmdCoolant :=
  commandObj_of_row rfl rfl rfl rfl rfl rfl rfl rfl
theorem survivalObj : CommandObj 0x2502 0x01 (· = 1) (fun v => 1 ≤ v ∧ v ≤ 1) cmdSurvival := commandObj_of_row rfl rfl rfl rfl rfl rfl rfl rfl
theorem ackObj : CommandObj 0x2001 0x02 (· = 4) (fun v => 0 ≤ v ∧ v ≤ 4294967295) cmdAck := commandObj_of_row rfl rfl rfl rfl rfl rfl rfl rfl
theorem enableObj : CommandObj 0x2001 0x03 (· = 4) (fun v => 0 ≤ v ∧ v ≤ 4294967295) cmdEnable := commandObj_of_row rfl rfl rfl rfl rfl rfl rfl rfl
theorem latchObj : CommandObj 0x2011 0x02 (· = 1) (fun v => 1 ≤ v ∧ v ≤ 4) cmdLatch := commandObj_of_row rfl rfl rfl rfl rfl rfl rfl rfl
theorem restartObj : CommandObj 0x2812 0x04 (· = 1) (fun v => 1 ≤ v ∧ v ≤ 7) cmdRestart := commandObj_of_row rfl rfl rfl rfl rfl rfl rfl rfl
theorem traceObj : CommandObj 0x2A10 0x04 (· = 1) (fun v => 1 ≤ v ∧ v ≤ 3) cmdTrace := commandObj_of_row rfl rfl rfl rfl rfl rfl rfl rfl
theorem trayObj : CommandObj 0x2901 0x03 (· = 8) (fun v => 0 ≤ v ∧ v ≤ 18446744073709551615) cmdTray := commandObj_of_row rfl rfl rfl rfl rfl rfl rfl rfl
theorem membersObj : CommandObj 0x2011 0x01 (fun n => n % 16 = 0 ∧ n ≤ 1024) (fun _ => True) cmdMembers :=
  commandObj_of_bytes rfl rfl rfl (fun n ⟨h, h'⟩ => by simp [lengthOk, h, h']) rfl

/-! Writes to objects that are no command (R391, R395, R476). -/

section
variable {s : State} {r : Role} {i k n : Nat} {b : List Byte} {row : ObjRow}

theorem dictWrite_context (hw : Writable s r i k n b row) (hk : row.kind = .selector ∨ row.kind = .param) (hr : rangeOk row i (natLE b) = true) :
    dictWrite (dictImage s) r i k b s.chip = (setCtxVal r i k (natLE b) s.chip, resOk) := by
  obtain ⟨-, hi, hrow, hm, hl⟩ := hw
  have hkind : (row.kind = .selector || row.kind = .param) = true := by rcases hk with h | h <;> simp [h]
  simp only [dictWrite, hrow, hi, hm, hl, hkind, hr, Bool.not_true, Bool.false_eq_true, if_false, if_true]

theorem dictWrite_register (hw : Writable s r i k n b row) (hk : row.kind = .plain ∨ row.kind = .atOnce) (hc : commandOf i k = none)
    (hres : row.blob = true ∨ reservedSet i row.sub (natLE b) = false) (hr : rangeOk row i (natLE b) = true)
    (hst : stateRefuses (dictImage s) s.chip i row.sub n (natLE b) = false) :
    dictWrite (dictImage s) r i k b s.chip =
      (if row.kind = .atOnce then objSet i row.sub n (natLE b) s.chip else deferWrite i row.sub n b s.chip, resOk) := by
  obtain ⟨-, hi, hrow, hm, hl⟩ := hw
  have hkind : (row.kind = .selector || row.kind = .param) = false := by rcases hk with h | h <;> simp [h]
  have hreserved : (!row.blob && reservedSet i row.sub (natLE b)) = false := by rcases hres with h | h <;> simp [h]
  simp only [dictWrite, hrow, hi, hm, hl, hkind, hc, writePlain, hreserved, hr, hst, Bool.not_true, Bool.false_eq_true, if_false]
  split <;> rfl

/-- What a write that is served leaves. -/
theorem onWrite_gives {inst : Instr} {c' : Chip} {res : Res} {P : State → Prop} (hx : exec inst s = onWrite r i k b s) (hd : dictServes s.chip = true)
    (hw : dictWrite (dictImage s) r i k b s.chip = (c', res)) (hP : P (onto s (noteRes (c', res)))) : Gives inst s P := by
  refine ⟨_, ?_, hP⟩
  rw [hx, onWrite, onChip, if_pos hd, hw]
  rfl

theorem isKind_of_row {q : ObjKind} (h : objRow i k = some row) (hk : row.kind = q) : isKind q i k = true := by
  simp [isKind, h, hk]

theorem context_kept (i k v : Nat) (c : Chip) : let s' := onto s (noteRes (setCtxVal r i k v c, resOk))
    ctxVal s'.chip r i k = v ∧ s'.chip.dict.lastRes = resOk := by
  refine ⟨?_, settle_dict_lastRes _⟩
  rw [ctxVal_of_ctxs (c := setCtxVal r i k v c) (settle_dict_ctxs _)]
  exact ctxVal_setCtxVal ..

theorem deferWrite_waits (i k n : Nat) (b : List Byte) (c : Chip) :
    ∃ w ∈ (deferWrite i k n b c).dict.pendingW, w.key = okey i k n ∧ w.value = b :=
  ⟨_, List.mem_append_right _ (List.mem_singleton_self _), rfl, rfl⟩

end

/-! A coolant reading (R362-R365). -/

theorem atTime_again (t : Nat) (c : Chip) : atTime t (atTime t c) = atTime t c := by
  simp only [atTime, Nat.max_assoc, Nat.max_self]

/-- The fresh readings in a row, this one included. -/
def freshInRow (c : Chip) : Nat :=
  match c.power.lastFresh with
  | some t => if c.tk.now < t + 100000000 then c.power.inRow + 1 else 1
  | none => 1

/-- A fresh reading, noted with its outlet temperature and its flow. -/
def coolantNoted (v : Nat) (c : Chip) : Chip :=
  objBump 0x2520 0x02 0 1 { objSet 0x2520 0x01 0 v c with power := { c.power with
    seq := fld v 63 48, lastFresh := some c.tk.now, fresh := c.power.fresh + 1, inRow := freshInRow c
    inlet := sx 16 (fld v 15 0), flow := fld v 47 32
    outlets := c.power.outlets.filter (fun e => decide (c.tk.now ≤ e.1 + 50000000)) ++ [(c.tk.now, sx 16 (fld v 31 16))]
    flows := (c.power.flows ++ [fld v 47 32]).drop (c.power.flows.length + 1 - 3) } }

/-- A reading fresh for the first time in a row, or against the thresholds. -/
def coolantJudged (quiet low : Prop) [Decidable quiet] [Decidable low] (calm jump : Bool) (c : Chip) : Chip :=
  if quiet then c
  else
    let c := if calm then { c with power := { c.power with stale := false } } else c
    if low then enterSurvival 2 c else if jump then enterSurvival 3 c else c

theorem coolantJudged_readings (quiet low : Prop) [Decidable quiet] [Decidable low] (calm jump : Bool) (c : Chip) :
    ReadingsKept c (coolantJudged quiet low calm jump c) := by
  have hcalm : ReadingsKept c (if calm then { c with power := { c.power with stale := false } } else c) := by
    split <;> exact ⟨rfl, rfl, rfl⟩
  unfold coolantJudged
  split
  · exact ⟨rfl, rfl, rfl⟩
  · dsimp only
    split
    · exact hcalm.trans (enterSurvival_readings ..)
    · split
      · exact hcalm.trans (enterSurvival_readings ..)
      · exact hcalm

section
variable {img c : Chip} {r : Role} {n v : Nat} {b : List Byte}

theorem cmdCoolant_takes (hv : numAt b 0 8 = v) (hs : fld v 63 48 ≠ c.power.seq) : ∃ d, cmdCoolant img r n b c = (d, resOk) ∧
    objGet d 0x2520 0x01 0 = v ∧ d.power.seq = fld v 63 48 ∧ d.power.lastFresh = some c.tk.now ∧ d.power.fresh = c.power.fresh + 1 := by
  obtain ⟨e, X, hout, hkept, hobj, hread⟩ : ∃ e X, cmdCoolant img r n b c = (thermalShow X, resOk) ∧ ReadingsKept e X ∧ objGet e 0x2520 0x01 0 = v ∧
      readings e.power = (c.power.die, fld v 63 48, some c.tk.now, c.power.fresh + 1) := by
    have hout : cmdCoolant img r n b c = (thermalShow (coolantJudged (c.power.fresh + 1 < c.power.needed) (fld v 47 32 < 300)
        (c.power.stale && decide (3 ≤ freshInRow c)) ((c.power.outlets.filter (fun e => decide (c.tk.now ≤ e.1 + 50000000))).any
          (fun e => decide (e.2 + 500 ≤ sx 16 (fld v 31 16)))) (coolantNoted v c)), resOk) := by
      unfold cmdCoolant
      rw [hv]
      exact if_neg hs
    refine ⟨coolantNoted v c, _, hout, coolantJudged_readings .., ?_⟩
    exact ⟨(objGet_bump_ne _ _ (okey_ne_sub (by decide))).trans (objGet_set_same ..), rfl⟩
  obtain ⟨hp, -, ho⟩ := hkept.trans (sided_thermalShow X).readings
  rw [hread] at hp
  simp only [readings, Prod.mk.injEq] at hp
  obtain ⟨-, h1, h2, h3⟩ := hp
  exact ⟨_, hout, ho.trans hobj, h1, h2, h3⟩

theorem cmdCoolant_repeats (hv : numAt b 0 8 = v) (hs : fld v 63 48 = c.power.seq) :
    cmdCoolant img r n b c = (objSet 0x2520 0x01 0 v c, resOk) := by
  unfold cmdCoolant
  rw [hv]
  exact if_pos hs

/-! Survival's end, alerts, snapshots, the trace, restarts and the tray's time. -/

theorem cmdSurvival_leaves {u : Nat} (hm : c.tk.mode = .survival) (hl : c.power.leaving = false) (ho : c.power.okSince = some u)
    (hu : u + 100000000 ≤ c.tk.now) (h3 : c.power.flows.length = 3) (hf : ∀ f ∈ c.power.flows, 900 ≤ f) (hd : c.power.die ≤ 8500) :
    cmdSurvival img r n [1] c =
      (objSet 0x2502 0x01 0 stOk { c with power := { c.power with leaving := true, halted := false, vectors := true } }, resOk) := by
  have hone : numAt [1] 0 1 = 1 := rfl
  have hflow : c.power.flows.all (fun f => decide (900 ≤ f)) = true := by simpa using hf
  simp only [cmdSurvival, hone, hm, hl, ho, hu, h3, hflow, hd, ne_eq, not_true_eq_false, decide_true, Bool.not_false, Bool.and_self, if_false, if_true]

theorem objGet_alertEval {i k m : Nat} (h : okey i k m ≠ okey 0x2001 4 0) (c : Chip) : objGet (alertEval c) i k m = objGet c i k m := by
  dsimp only [alertEval]
  split
  · exact objGet_bump_ne _ _ h
  · rfl

theorem cmdAck_acknowledges (hv : numAt b 0 4 = v) (hr : reservedSet 0x2001 2 v = false) : cmdAck img r n b c =
    (alertEval (objSet 0x2001 0x01 0 (objGet c 0x2001 0x01 0 - (objGet c 0x2001 0x01 0 &&& v)) c), resOk) := by
  simp only [cmdAck, hv, hr, Bool.false_eq_true, if_false]

theorem cmdEnable_enables (hv : numAt b 0 4 = v) (hr : reservedSet 0x2001 3 v = false) :
    cmdEnable img r n b c = (alertEval (objSet 0x2001 0x03 0 v c), resOk) := by
  simp only [cmdEnable, hv, hr, Bool.false_eq_true, if_false]

theorem groupAt_setGroup (hn : n < 8) (g : SnapGroup) (c : Chip) : groupAt (setGroup n g c) n = g := getD_setIfInBounds _ _ _ hn

theorem groupAt_of_groups {c' : Chip} (h : c'.dict.groups = c.dict.groups) (n : Nat) : groupAt c' n = groupAt c n := by rw [groupAt, h, groupAt]

/-- A group without an owner, or the requester's own. -/
theorem groupOwned (ho : (groupAt c n).owner = none ∨ (groupAt c n).owner = some (roleKey r)) :
    ((groupAt c n).owner.isSome && (groupAt c n).owner ≠ some (roleKey r)) = false := by
  rcases ho with h | h <;> simp [h]

theorem cmdMembers_takes (ho : (groupAt c n).owner = none ∨ (groupAt c n).owner = some (roleKey r))
    (hm : ∀ m ∈ entriesOf 16 (b.length / 16) b, numAt m 3 1 ≤ 1 ∧ numAt m 12 4 = 0 ∧ (numAt m 3 1 = 1 → memberSelOk m = true))
    (hs : 16 + ((entriesOf 16 (b.length / 16) b).map (fun m => 4 + padTo4 (maxSize (numAt m 0 2) (numAt m 2 1)))).sum ≤ 65536) :
    cmdMembers img r n b c = (setGroup n { groupAt c n with owner := some (roleKey r), members := b } c, resOk) := by
  have hreserved : (entriesOf 16 (b.length / 16) b).any (fun m => decide (1 < numAt m 3 1) || numAt m 12 4 != 0) = false := by
    refine List.any_eq_false.mpr fun m h => ?_
    obtain ⟨h1, h2, -⟩ := hm m h
    simp [h1, h2]
  have hsel : (entriesOf 16 (b.length / 16) b).any (fun m => bitOf (numAt m 3 1) 0 && !memberSelOk m) = false := by
    refine List.any_eq_false.mpr fun m h => ?_
    obtain ⟨h1, -, h3⟩ := hm m h
    obtain h0 | h1 : numAt m 3 1 = 0 ∨ numAt m 3 1 = 1 := by omega
    · simp [h0, bitOf]
    · simp [h3 h1]
  simp only [cmdMembers, groupOwned ho, hreserved, hsel, Nat.not_lt.mpr hs, decide_false, Bool.or_self, Bool.false_eq_true, if_false]

theorem cmdLatch_takes (ho : (groupAt c n).owner = some (roleKey r)) :
    cmdLatch img r n [1] c = (setGroup n { groupAt c n with once := true } c, resPending) ∧
    cmdLatch img r n [2] c = (setGroup n { groupAt c n with every := true } c, resOk) ∧
    cmdLatch img r n [3] c = (setGroup n { groupAt c n with every := false } c, resOk) ∧
    cmdLatch img r n [4] c = (objSet 0x2011 0x04 n allOnes64 (setGroup n {} c), resOk) := by
  have hnone : (groupAt c n).owner.isNone = false := by simp [ho]
  have hcode : numAt [1] 0 1 = 1 ∧ numAt [2] 0 1 = 2 ∧ numAt [3] 0 1 = 3 ∧ numAt [4] 0 1 = 4 := ⟨rfl, rfl, rfl, rfl⟩
  obtain ⟨h1, h2, h3, h4⟩ := hcode
  simp only [cmdLatch, groupOwned (.inr ho), hnone, h1, h2, h3, h4, Bool.false_eq_true, if_false, and_self]

theorem cmdRestart_restarts {id : Nat} (hv : numAt b 0 1 = id) (h1 : 1 ≤ id) (h7 : id ≤ 7) (hd : c.fw.down = false)
    (hc : ((cellsGet [] c.fw.restarts id).filter (fun u => decide (c.tk.now ≤ u + 60000000000))).length < 2) :
    cmdRestart img r n b c = (componentRestarted id 4 0 true c, resOk) := by
  have hrange : (id < 1 || 7 < id) = false := by simp; omega
  have hfew : ¬3 ≤ (recentRestarts id c).length := by
    simp only [recentRestarts, List.length_append, List.length_singleton]
    omega
  simp only [cmdRestart, hv, hrange, componentRestart_eq _ _ _ h1 h7 hd, hfew, Bool.false_eq_true, if_false]

theorem componentRestarted_shows (id : Nat) (c : Chip) : id ∈ (componentRestarted id 4 0 true c).fw.restarting ∧
    objGet (componentRestarted id 4 0 true c) 0x2811 0x04 id = 4 := by
  obtain ⟨hr, -, hk⟩ := componentRestarted_kept id 4 0 true c
  exact ⟨by simp [hr], (hk _ _ _ rfl).trans (restartNoted_cause ..)⟩

/-- The tray's time as it was written. -/
theorem cmdTray_takes (hv : numAt b 0 8 = v) : ∃ d, cmdTray img r n b c = (d, resOk) ∧ objGet d 0x2901 0x03 0 = v ∧
    (objGet c 0x1F10 0x05 0 = 0 → d.life.tray = some ((v : Int) - c.tk.now)) := by
  have hp : objGet (objSet 0x2901 0x03 0 v c) 0x1F10 0x05 0 = objGet c 0x1F10 0x05 0 := objGet_set_idx _ _ _ _ _ _ (by decide)
  simp only [cmdTray, hv, hp]
  by_cases h : objGet c 0x1F10 0x05 0 = 0
  · exact ⟨_, if_neg (not_not.mpr h), objGet_set_same .., fun _ => rfl⟩
  · exact ⟨_, if_pos h, objGet_set_same .., fun h' => absurd h' h⟩

end

end Sys2Proof.Machine

namespace Sys2Proof.Proofs

open Sys2Proof Sys2Proof.Machine

/-- Settles O56: selector, parameter and register writes by their row, the commands by what each one leaves. -/
theorem serverCommands : Obligations.ServerCommands := by
  intro s r
  dsimp only
  refine ⟨fun idx sub n b row hw => ?_, fun v hg h1 h2 => ?_, fun v t hg => ?_, fun u hg hm hl ho hu h3 hf hd => ?_, fun m => ⟨fun hg hres => ?_, fun hg hres => ?_⟩,
    fun n hn => ⟨fun data hg hl16 hl ho hm hs => ?_, fun ho => ?_⟩, fun id hg h1 h7 hc => ?_, fun hg => ?_, fun hg => ?_, fun hg => ?_, fun ns hg => ?_⟩
  · have ⟨hd, hn, hfind, _⟩ := hw
    have hrow := findRow_row hfind
    refine ⟨fun hk hr => ?_, fun hk hr => ?_, fun hown hc hres hr hst => ⟨fun hk => ?_, fun hk => ?_⟩⟩
    · exact onWrite_gives (if_pos (isKind_of_row hrow hk)) hd (dictWrite_context hw (.inl hk) hr) (context_kept ..)
    · exact onWrite_gives (if_pos (isKind_of_row hrow hk)) hd (dictWrite_context hw (.inr hk) hr) (context_kept ..)
    · refine onWrite_gives (if_neg (Bool.eq_false_iff.mp hown)) hd (dictWrite_register hw (.inr hk) hc hres hr hst) ?_
      rw [if_pos hk]
      exact ⟨(objGet_settle ..).trans (objGet_set_same ..), settle_dict_lastRes _⟩
    · refine onWrite_gives (if_neg (Bool.eq_false_iff.mp hown)) hd (dictWrite_register hw (.inl hk) hc hres hr hst) ?_
      rw [if_neg (by simp [hk])]
      refine ⟨settle_dict_lastRes _, settle_objs _, ?_⟩
      rw [onto, settle_dict_pendingW]
      exact deferWrite_waits ..
  · obtain ⟨hd, hn, -, row, hfind, hm⟩ := hg
    obtain rfl : _ = row := Option.some.inj (findRow_row hfind)
    have hv : natLE (bytesLE 2 v.toNat) = v.toNat := natLE_bytesLE_of_lt v.isLt
    have hrange : 120 ≤ natLE (bytesLE 2 v.toNat) ∧ natLE (bytesLE 2 v.toNat) ≤ 420 := by rw [hv]; exact ⟨h1, h2⟩
    refine onWrite_gives rfl hd (dictWrite_register ⟨hd, hn, hfind, hm, rfl⟩ (.inl rfl) rfl (.inr rfl) (by simp [rangeOk, hrange]) rfl) ?_
    refine ⟨settle_dict_lastRes _, ?_⟩
    rw [onto, settle_dict_pendingW]
    exact deferWrite_waits ..
  · have hat : ∀ P, Gives (.coolantReading r v t) { s with chip := atTime t s.chip } P → Gives (.coolantReading r v t) s P := by
      rintro P ⟨s', hx, hP⟩
      refine ⟨s', .trans ?_ hx, hP⟩
      exact congrArg (fun c => onWrite r 0x2520 0x01 (bytesLE 8 v.toNat) { s with chip := c }) (atTime_again t s.chip).symm
    have hv : numAt (bytesLE 8 v.toNat) 0 8 = v.toNat := numAt_bytesLE_of_lt v.isLt
    have hx : exec (.coolantReading r v t) { s with chip := atTime t s.chip } =
        onWrite r 0x2520 0x01 (bytesLE 8 v.toNat) { s with chip := atTime t s.chip } :=
      congrArg (fun c => onWrite r 0x2520 0x01 (bytesLE 8 v.toNat) { s with chip := c }) (atTime_again t s.chip)
    refine ⟨fun hs => hat _ ?_, fun hs => hat _ ?_⟩
    · obtain ⟨d, hout, hval, hp⟩ := cmdCoolant_takes (img := dictImage { s with chip := atTime t s.chip }) (r := r) (n := 0) (c := atTime t s.chip) hv hs
      refine command_gives coolantObj hx hg (natLE_bytesLE_of_lt v.isLt) rfl (by omega) (.inl rfl) hout (.inl (by decide)) fun s' hn _ => ⟨hn.value rfl hval, ?_⟩
      rw [hn.power]
      exact hp
    · exact command_gives coolantObj hx hg (natLE_bytesLE_of_lt v.isLt) rfl (by omega) (.inl rfl) (cmdCoolant_repeats hv hs) (.inl (by decide))
        fun s' hn _ => ⟨hn.value rfl (objGet_set_same ..), hn.power⟩
  · refine command_does survivalObj rfl rfl rfl hg rfl rfl (by omega) (.inl rfl) (cmdSurvival_leaves hm hl ho hu h3 hf hd) rfl (.inl (by decide)) fun s' hn => ?_
    rw [hn.power]
    exact ⟨rfl, rfl⟩
  · refine command_gives ackObj rfl hg (natLE_bytesLE_of_lt m.isLt) rfl (by omega) (.inl rfl) (cmdAck_acknowledges (numAt_bytesLE_of_lt m.isLt) hres)
      (.inl (by decide)) fun s' hn hlast => ⟨hlast, ?_⟩
    rw [hn.other 0x2001 0x01 0 (okey_ne_sub (by decide)) (by simp [statusOf]), objGet_alertEval (okey_ne_sub (by decide)), objGet_set_same]
  · refine command_gives enableObj rfl hg (natLE_bytesLE_of_lt m.isLt) rfl (by omega) (.inl rfl) (cmdEnable_enables (numAt_bytesLE_of_lt m.isLt) hres)
      (.inl (by decide)) fun s' hn hlast => ⟨hlast, ?_, ?_⟩
    · exact hn.value rfl ((objGet_alertEval (okey_ne_sub (by decide)) _).trans (objGet_set_same ..))
    · rw [hn.other 0x2001 0x01 0 (okey_ne_sub (by decide)) (by simp [statusOf]), objGet_alertEval (okey_ne_sub (by decide)),
        objGet_set_ne _ _ (okey_ne_sub (by decide))]
  · refine command_gives membersObj rfl hg rfl ⟨hl16, hl⟩ trivial (.inl rfl) (cmdMembers_takes ho hm hs) (.inl (by decide)) fun s' hd _ => ?_
    rw [groupAt_of_groups hd.groups, groupAt_setGroup hn]
  · obtain ⟨honce, hevery, hstop, hfree⟩ := cmdLatch_takes (img := dictImage s) (n := n) ho
    refine ⟨fun hg => ?_, fun hg => ?_, fun hg => ?_, fun hg => ?_⟩
    · refine command_does latchObj rfl rfl rfl hg rfl rfl (by omega) (.inl rfl) honce rfl (.inl (by decide)) fun s' hd => ?_
      rw [groupAt_of_groups hd.groups, groupAt_setGroup hn]
    · refine command_does latchObj rfl rfl rfl hg rfl rfl (by omega) (.inl rfl) hevery rfl (.inl (by decide)) fun s' hd => ?_
      rw [groupAt_of_groups hd.groups, groupAt_setGroup hn]
    · refine command_does latchObj rfl rfl rfl hg rfl rfl (by omega) (.inl rfl) hstop rfl (.inl (by decide)) fun s' hd => ?_
      rw [groupAt_of_groups hd.groups, groupAt_setGroup hn]
    · refine command_does latchObj rfl rfl rfl hg rfl rfl (by omega) (.inl rfl) hfree rfl (.inl (by decide)) fun s' hd => ?_
      exact (groupAt_of_groups hd.groups n).trans (groupAt_setGroup hn ..)
  · have hdown : s.chip.fw.down = false := by
      obtain ⟨hserves, -⟩ := hg
      simp only [dictServes, guarded, Bool.and_eq_true, Bool.not_eq_true', Bool.or_eq_false_iff] at hserves
      exact hserves.1.2.1
    obtain ⟨hmem, hcause⟩ := componentRestarted_shows id.toNat s.chip
    refine command_gives restartObj rfl hg (natLE_byte id) rfl ⟨h1, h7⟩ (.inl rfl) (cmdRestart_restarts (numAt_byte id) h1 h7 hdown hc) (.inl (by decide))
      fun s' hn hlast => ⟨?_, ?_, hlast⟩
    · rw [hn.fw]
      exact hmem
    · rw [hn.other 0x2811 0x04 _ (okey_ne_idx (by decide)) (by simp [statusOf])]
      exact hcause
  · exact command_does traceObj rfl rfl rfl hg rfl rfl (by omega) (.inl rfl) rfl rfl (.inl (by decide)) fun s' hd => hd.trace
  · exact command_does traceObj rfl rfl rfl hg rfl rfl (by omega) (.inl rfl) rfl rfl (.inl (by decide)) fun s' hd => hd.trace
  · exact command_does traceObj rfl rfl rfl hg rfl rfl (by omega) (.inl rfl) rfl rfl (.inl (by decide)) fun s' hd => hd.trace
  · obtain ⟨d, hout, hv, hl⟩ := cmdTray_takes (img := dictImage s) (r := r) (n := 0) (c := s.chip) (numAt_bytesLE_of_lt ns.isLt)
    exact command_gives trayObj rfl hg (natLE_bytesLE_of_lt ns.isLt) rfl (by omega) (.inl rfl) hout (.inl (by decide))
      fun s' hn hlast => ⟨hn.value rfl hv, hlast, fun h => by rw [hn.life, hl h]⟩

end Sys2Proof.Proofs
